-- ==== Sys2Proof/Word.lean ====
section
/-! DEFINITION. The words of the CLN9470 model: bytes and register words, and the sparse table that
holds numbered things (slots, contexts, connections, rings) of which most stand at their reset value. -/

namespace Sys2Proof

/-- One byte. -/
abbrev Byte := BitVec 8

/-- A 32-bit register word (R5, R14). -/
abbrev W32 := BitVec 32

/-- A 64-bit register word (R5, R14). -/
abbrev W64 := BitVec 64

/-- A byte string as it stands in memory or on a wire (R11, R12, R13). -/
abbrev Bytes := List Byte

/-- A sparse table of numbered entries: an index that is not listed stands at the entry type's reset value.
Canonical form: indexes strictly rising, no listed entry equal to the reset value. -/
abbrev Tbl (α : Type) := List (Nat × α)

end Sys2Proof
end

