-- ==== Sys2Proof/Syntax.lean ====
section
/-! DEFINITION. The commands of the CLN9470 as its opcode table lists them: one constructor per row. The first
operand `dt` of every command is the number of main clocks since the command before it (R34); the others are what the
outside world supplies: data written, bytes received, levels seen. -/

namespace Sys2Proof

/-- How a received Ethernet frame fails the checks below Plibex (R547, R586). -/
inductive FrameFault where
  | none | fcs | header
deriving DecidableEq, Repr, Inhabited

/-- A received Ethernet frame that carries a UDP datagram: its addressing, and the UDP payload (R546 to R548). -/
structure Datagram where
  mac : Nat
  vlan : Nat
  /-- Destination MAC address, byte 0 least significant. -/
  dmac : Nat
  /-- Source IP address in 16 bytes, IPv4 in mapped form; source and destination ports. -/
  srcIp : Bytes
  srcPort : Nat
  dstPort : Nat
  v6 : Bool
  /-- R-tag sequence number, where the frame carries one. -/
  rtag : Option Nat
  /-- SDU size in bytes. -/
  sdu : Nat
  fault : FrameFault
  payload : Bytes
deriving DecidableEq, Repr, Inhabited

/-- A transaction that a control core issues outside its memories: address, type and data (R479, R481). -/
abbrev Action := Nat × Nat × Bytes

/-- How the board drives an input pin. -/
inductive PinDrive where
  | high | low | undriven
deriving DecidableEq, Repr, Inhabited

/-- SYS_RESET_N and PWR_FAIL_N (R658). -/
structure ResetPins where
  sys : PinDrive
  pwr : PinDrive
deriving DecidableEq, Repr, Inhabited

/-- A macro operation as its reference columns show it: the input vector, one int8 a byte, and the accumulators of the
8 reference columns (R277, R278). -/
abbrev RefOp := Bytes × List Int

/-- The 16-bit gain and offset coefficients of a tile, in the order the shell stores them (R322). -/
abbrev Coefs := List Nat

/-- What a CSI-2 receiver measures of its link when it takes a packet; `hs` says that its lanes stay in high-speed mode
after it, and do not return to low power or ULPS (R282, R334). -/
structure CsiLink where
  lanes : Nat
  /-- Lane rate in Mb/s. -/
  rate : Nat
  /-- Start-of-transmission errors since the last packet. -/
  sot : Nat
  deskew : Bool
  hs : Bool
deriving DecidableEq, Repr, Inhabited

/-- The commands; the docstring of each is its row's rule and what the row says. -/
inductive Instr where
  /-- POWER_ON (R661): The Shroud power-on detector sees VDD_K and VIO33 good, starts step D0, reloads the fuses and option block, and every domain restarts from D0. -/
  | powerOn (dt : Nat) (pins : ResetPins)
  /-- SYS_RESET (R661): SYS_RESET_N is held low for 1 µs, and the sequencer restarts from D1, resetting every domain except the Shroud always-on domain. -/
  | sysReset (dt : Nat) (sys : PinDrive)
  /-- DOMAIN_RELEASE (R677): A sequencer step Dk is released once its gap has ended and its condition has held for 256 REFCLK cycles. -/
  | domainRelease (dt : Nat) (k : Nat) (pins : ResetPins) (good : List Nat)
  /-- HOLD (R679): A step not released CG_TIMEOUT after its gap holds every later step in reset, records the cause in the black box and keeps RESET_OUT_N low. -/
  | hold (dt : Nat) (k cond : Nat)
  /-- CLOCK_FAULT (R665): The clock monitor finds a clock more than 5 % off its ratio or stopped for 2 µs, and the sequencer restarts from D2, from D3, or D2 only. -/
  | clockFault (dt : Nat) (which step : Nat)
  /-- POWER_GOOD_FAILURE (R680): A supply of a released step leaves its tolerance, and the sequencer restarts from D2 for VDD_L or from D3 otherwise. -/
  | powerGoodFailure (dt : Nat) (step : Nat)
  /-- DOMAIN_POWER_GOOD_TIMEOUT (R688): A switched domain does not report power-good within 100 µs, stays off, and a DOMAIN evidence record is written. -/
  | domainPowerGoodTimeout (dt : Nat) (d : Nat)
  /-- THERMAL_TRIP (R666): A hardware trip comparator fires, and D3 to D10 are held in reset and unpowered. -/
  | thermalTrip (dt : Nat)
  /-- THERMAL_TRIP_HOLD_END (R666): Every trip comparator has read below the warning threshold for 1 s, and the sequencer restarts from D3 with source 0x6. -/
  | thermalTripHoldEnd (dt : Nat)
  /-- FOX_SOFTWARE_REQUEST (R667): Fox requests a reset over the sideband, and Shroud restarts from D3 only when every output is OFF and no trust slot is bound. -/
  | foxSoftwareRequest (dt : Nat)
  /-- POWER_FAIL_WARNING (R690): PWR_FAIL_N falls or a Shroud rail comparator trips, and the device does the following: it switches the outputs off, stops verdicts, sends SAFE_STATE telegrams, flushes the black box and holds D2 to D10. -/
  | powerFailWarning (dt : Nat) (src : Nat)
  /-- BROWNOUT (R693): A power-fail warning has been clear for 10 ms, and the sequencer restarts from D1 with BROWNOUT set. -/
  | brownout (dt : Nat)
  /-- RETURN_WIPE (R750): At a start in RETURN the device erases configuration, keys, password, logs and memories, then sets WIPE_DONE. -/
  | returnWipe (dt : Nat)
  /-- INJECTION_TEST (R489): The start-up voter and ledger injection test completes, and a failure leads to SAFE with cause 0x19. -/
  | injectionTest (dt : Nat) (passed first us : Nat)
  /-- BOOT_COMPLETE (R41): Boot completes, and the device activates a valid committed configuration into CONFIGURED, or otherwise enters MAINTENANCE. -/
  | bootComplete (dt : Nat)
  /-- STARTUP_CALIBRATION_DONE (R328): The start-up calibration of all nine Badger tiles ends, and BDG_STAT.AVAILABLE is set when at least eight pass. -/
  | startupCalibrationDone (dt : Nat) (mask : Nat) (resids : List Nat) (coefs : List Coefs)
  /-- FRAME_TICK (R72): The frame-tick compare unit fires: a new frame starts, slot counters restart, per-slot codes are archived and the fill pointers reset. -/
  | frameTick (dt : Nat)
  /-- D_C (R137): The commit deadline fires: unfinished reports become INCOMPLETE, and challenges and linear audits start for complete reports. -/
  | dC (dt : Nat)
  /-- MAILBOX_POSTED (R241): The drawing completes and the challenge mailbox STATE becomes POSTED, within 20 µs of D_c. -/
  | mailboxPosted (dt : Nat)
  /-- D_V (R87): The verdict deadline fires: every required item is classified as passed, failed or incomplete, and outstanding challenges become INCOMPLETE. -/
  | dV (dt : Nat) (lanes : Nat)
  /-- ING_END (R284): The ingest slot ends, and sensor sources that are not complete become incomplete inputs. -/
  | ingEnd (dt : Nat)
  /-- SHD_START (R316): The shadow slot opens, allowing Badger passes whose inputs are complete to start. -/
  | shdStart (dt : Nat)
  /-- SHD_END (R304): The shadow slot ends: passes not done become INCOMPLETE, and each SEQUENCE history window shifts by one step. -/
  | shdEnd (dt : Nat)
  /-- GLD_START (R151): The golden slot opens and CVU context 128 is initialised for the golden report. -/
  | gldStart (dt : Nat)
  /-- GLD_END (R389): The golden slot ends, and an incomplete golden report gives the outcome DEFERRED_LATE. -/
  | gldEnd (dt : Nat)
  /-- SLF_START (R731): The self-test slot opens, and the sequencers start pending retests and the rotation round. -/
  | slfStart (dt : Nat)
  /-- SLF_END (R83): The self-test slot ends, and no slice may start that would run beyond it. -/
  | slfEnd (dt : Nat)
  /-- CLOSE_OUT (R84): At F − 100 µs every piece of the frame's work outside partition 0 is abandoned. -/
  | closeOut (dt : Nat)
  /-- CONFIG_ACTIVATE (R75): At the alignment boundary a committed configuration takes effect, and SRAM banks that are no longer needed are switched off. -/
  | configActivate (dt : Nat)
  /-- SAFETY_FW_ACTIVATE (R780): 10 ms after a safety firmware commit, a Fox software request restarts from D3 to load the new image. -/
  | safetyFwActivate (dt : Nat)
  /-- SYNC (R601): A gPTP Sync sample arrives and the servo adjusts INCR, steps the count, or refuses the step according to its state. -/
  | sync (dt : Nat) (m domNs : Nat)
  /-- PPS_IN_EDGE (R620): A rising edge of PPS_IN is time-stamped and, in GM_PPS, used as a servo sample. -/
  | ppsInEdge (dt : Nat)
  /-- SYNC_TIMEOUT (R605): No sample arrives for 3 sync intervals, or for 3 s in GM_PPS, and the time base enters HOLDOVER. -/
  | syncTimeout (dt : Nat)
  /-- HOLDOVER_EXPIRY (R605): HOLDOVER_S passes in HOLDOVER, and SYNC_LOST is set. -/
  | holdoverExpiry (dt : Nat)
  /-- GM_CHANGE (R605): The grandmasterIdentity changes in SLAVE, or a foreign Announce arrives in a GM role, and it is counted and recorded. -/
  | gmChange (dt : Nat) (m gm : Nat)
  /-- PULSE_ARM (R615): A write of TMB_P_CTL with ARM 1 arms the pulse, or refuses the arm with an ERR code. -/
  | pulseArm (dt : Nat) (fn p v : Nat)
  /-- PULSE_DISARM (R616): A write of TMB_P_CTL with MODE 0 disarms the pulse. -/
  | pulseDisarm (dt : Nat) (fn p v : Nat)
  /-- PULSE_FIRE (R613): A pulse's compare unit fires and drives the PULSE pin to its active level. -/
  | pulseFire (dt : Nat) (p : Nat)
  /-- PULSE_END (R613): The pulse width count ends, and the PULSE pin returns to its inactive level. -/
  | pulseEnd (dt : Nat) (p : Nat)
  /-- REPORT_WINDOW_WRITE (R129): A write TLP to a report window is checked for slot state, order and timing, folded by a CVU, and its fields are checked. -/
  | reportWindowWrite (dt : Nat) (slot off : Nat) (data : Bytes) (poisoned : Bool)
  /-- REPORT_COMPLETE (R135): The report checker finishes a report within 128 main clocks after its last byte, and the report becomes COMPLETE or fails. -/
  | reportComplete (dt : Nat) (golden : Bool) (slot : Nat)
  /-- GOLDEN_REPORT_WRITE (R140): A write TLP to the golden report window is accepted and checked, and its sections are compared with the expected bytes. -/
  | goldenReportWrite (dt : Nat) (off : Nat) (data : Bytes) (poisoned : Bool)
  /-- OPENING_WRITE (R248): A write TLP to the opening receive window is accepted into its challenge region and checked. -/
  | openingWrite (dt : Nat) (off : Nat) (data : Bytes) (poisoned : Bool)
  /-- GOLDEN_INPUT_READ (R116): A read of the golden input window returns data only inside the golden slot of an offered test, and otherwise completes with Completer Abort. -/
  | goldenInputRead (dt : Nat) (off n : Nat)
  /-- PORT_W_INVALID_WRITE (R114): A write to a read-only or reserved port W region is discarded and counted. -/
  | portWInvalidWrite (dt : Nat) (kind off : Nat) (data : Bytes) (poisoned : Bool)
  /-- PORT_W_INVALID_READ (R115): A read of a write-only or reserved region, or a read that spans regions, completes with Completer Abort. -/
  | portWInvalidRead (dt : Nat) (kind off n : Nat)
  /-- PORT_W_LINK_DOWN (R109): The port W link goes down or receives a hot reset, and every report, golden report and opening in progress is abandoned. -/
  | portWLinkDown (dt : Nat)
  /-- WPORT_LINK (R110): The port W link enters L0 after training at a rate and width, and a WPORT_LINK evidence record is written when they are below full. -/
  | wportLink (dt : Nat) (speed width : Nat)
  /-- LEAF_VERIFY (R251): A SHA3 engine finishes hashing a leaf record against the committed root, and the opening may become VERIFIED or fail with ROOT. -/
  | leafVerify (dt : Nat) (i k : Nat)
  /-- SHA3_MISMATCH (R270): A SHA3 engine disagrees with its lockstep shadow, is isolated, and the record is re-hashed on another engine. -/
  | sha3Mismatch (dt : Nat) (k : Nat)
  /-- CHALLENGE_WEIGHTS_IN_PLACE (R254): The weight column blocks of a GEMM_W challenge finish arriving in CH_PART's buffer. -/
  | challengeWeightsInPlace (dt : Nat) (i : Nat)
  /-- UNIT_DISPATCH (R255): A free Stoat engine takes the ready unit of lowest rank. -/
  | unitDispatch (dt : Nat) (e : Nat)
  /-- AUDIT_BLOCK_DONE (R199): A linear audit column block is accumulated, its 32 × P comparisons are made, and the item may pass or fail. -/
  | auditBlockDone (dt : Nat) (e : Nat)
  /-- CHALLENGE_TILE_DONE (R258): A challenge tile's recomputation ends, its elements are compared, and the challenge passes or fails. -/
  | challengeTileDone (dt : Nat) (e : Nat)
  /-- ENGINE_FAULT (R266): A Stoat engine fault is detected: the unit is discarded and repeated, and the engine moves to RETEST, FAILED, DEGRADED or SAFE. -/
  | engineFault (dt : Nat) (e kind col : Nat) (got want : Int)
  /-- DRBG_RESEED (R238): The DRBG is reseeded with 256 bits of entropy at least every 1,024 frames. -/
  | drbgReseed (dt : Nat)
  /-- ENTROPY_HEALTH_FAILURE (R239): The entropy source health tests fail, or no reseed succeeds for 2,048 frames, and challenge drawing stops. -/
  | entropyHealthFailure (dt : Nat) (failing : Bool)
  /-- CSI_FRAME_START (R284): A CSI-2 Frame Start on a source's VC begins, or restarts, the source for the frame. -/
  | csiFrameStart (dt : Nat) (r vc ecc : Nat) (line : Bool) (lk : CsiLink)
  /-- CSI_LONG_PACKET (R287): A CSI-2 long packet is received, counted and checked for CRC and length. -/
  | csiLongPacket (dt : Nat) (r vc ecc ty : Nat) (payload : Bytes) (crc : Nat) (lk : CsiLink)
  /-- CSI_FRAME_END (R284): A CSI-2 Frame End arrives, and the source becomes complete when its lines are all good. -/
  | csiFrameEnd (dt : Nat) (r vc ecc : Nat) (line : Bool) (lk : CsiLink)
  /-- LIDAR_DATAGRAM (R288): A UDP datagram matching an Ethernet source is parsed into point records. -/
  | lidarDatagram (dt : Nat) (d : Datagram) (ago : Nat)
  /-- SHADOW_PASS_START (R316): A model slot's pass starts once SHD_START, switch programming and all its inputs are complete. -/
  | shadowPassStart (dt : Nat) (m : Nat)
  /-- SHADOW_PASS_DONE (R318): The last layer of a Badger pass completes, and its outputs and history step are staged. -/
  | shadowPassDone (dt : Nat) (m : Nat)
  /-- MODEL_PROGRAMMED (R313): Programming of a newly switched image into the serving and READY tiles completes. -/
  | modelProgrammed (dt : Nat) (m : Nat)
  /-- DRIFT_FAILURE (R327): A macro's reference residual exceeds its limit: the tile is swapped, recalibrated or failed, and DEGRADED or SAFE may follow. -/
  | driftFailure (dt : Nat) (t mac : Nat) (ops : List RefOp)
  /-- REFERENCE_OPERATIONS (R280): The shell runs 1,024 reference-only operations on a macro that has been idle in the last 100 ms. -/
  | referenceOperations (dt : Nat) (t mac : Nat) (ops : List RefOp)
  /-- CALIBRATION_MEASURED (R322): Calibration steps 1 to 3 of a tile finish, and the tile waits for its slice or fails its turn. -/
  | calibrationMeasured (dt : Nat) (t mac resid gain off : Nat) (coefs : Coefs)
  /-- TILE_READY (R322): Calibration step 5 completes, and the tile becomes READY or takes a role. -/
  | tileReady (dt : Nat) (t : Nat) (ok : Bool) (mac : Nat)
  /-- DIE_LINK_RETRAIN (R22): The die link retrains within 1 ms, and frames whose shadow evidence is late become LATE. -/
  | dieLinkRetrain (dt : Nat)
  /-- DIE_LINK_RETRAIN_TIMEOUT (R23): The die link fails to retrain within 1 ms, or retrains too often, and the device enters SAFE. -/
  | dieLinkRetrainTimeout (dt : Nat)
  /-- COMPARISON_START (R360): The comparator starts a context's comparison once its report, its passes and its corridor are all present. -/
  | comparisonStart (dt : Nat) (c : Nat)
  /-- COMPARISON_DONE (R358): A comparison finishes within 1,100 main clocks, giving pass, fail or phantom-frame counts. -/
  | comparisonDone (dt : Nat)
  /-- AGE_MONITOR (R374): Every 10 µs the age of each context is compared with MAX_AGE, and trust is withdrawn when it is exceeded. -/
  | ageMonitor (dt : Nat)
  /-- TRUST_HEARTBEAT (R375): Every 100 µs the verdict unit sends a heartbeat over the Stay link for each trusted context with output bindings. -/
  | trustHeartbeat (dt : Nat)
  /-- TDEG_EXPIRY (R492): T_deg expires in DEGRADED, and the device enters SAFE with cause 0x11. -/
  | tdegExpiry (dt : Nat)
  /-- LEDGER_REQUEST (R473): A core requests an external input, which the ledger samples once or replays from the entry with a check. -/
  | ledgerRequest (dt : Nat) (c : Nat) (counts : List Nat) (kind len source addr : Nat) (value : Bytes) (bad : Bool)
  /-- CHECKPOINT (R481): A core closes its outbox bank and its checkpoint record arrives at the voter. -/
  | checkpoint (dt : Nat) (c : Nat) (counts : List Nat) (actions : List Action) (barrier : Bool) (given : Bytes) (a b : Option Nat) (banks : Bool)
  /-- VOTE_TIMEOUT (R482): 100 µs after the first record of a checkpoint, missing records count as differing and the vote is decided. -/
  | voteTimeout (dt : Nat) (a b : Option Nat) (banks : Bool)
  /-- RESYNC_COPY_DONE (R497): The copy of the source core's state into the repaired core ends, and both cores resume in their positions. -/
  | resyncCopyDone (dt : Nat)
  /-- OWL_SETUP (R702): A single write of OWL_x_SETUP sets PERIOD_US and the task mask REG once after reset. -/
  | owlSetup (dt : Nat) (i v : Nat)
  /-- OWL_SERVICE_WRITE (R705): A write to the Owl service port arms with the token or completes a service, which is judged good, refused or a violation. -/
  | owlServiceWrite (dt : Nat) (i v : Nat)
  /-- OWL_CHECK_IN (R708): A write to the check-in port sets a task's IN bit, or is a violation. -/
  | owlCheckIn (dt : Nat) (i v : Nat)
  /-- OWL_WINDOW_OPEN (R703): The service window of the current Owl period opens. -/
  | owlWindowOpen (dt : Nat) (i : Nat)
  /-- OWL_EXPIRY (R715): An Owl period, or the boot period, ends without a good service, and the instance enters TRAP. -/
  | owlExpiry (dt : Nat) (i : Nat)
  /-- OWL_HARD_TIMER (R719): The Owl hard timer ends, and Owl-S asserts reset source 0x3 or Owl-F asserts reset source 0x4. -/
  | owlHardTimer (dt : Nat) (i : Nat)
  /-- OWL_SUSPEND (R722): FLASH_BUSY is set and Owl-F freezes. -/
  | owlSuspend (dt : Nat)
  /-- OWL_RESUME (R724): FLASH_BUSY clears and Owl-F starts a fresh period. -/
  | owlResume (dt : Nat)
  /-- FLASH_OPERATION_TIMEOUT (R723): A flash erase or program for Fox reaches 250 ms, is ended and fails. -/
  | flashOperationTimeout (dt : Nat)
  /-- SLICE_DONE (R735): A self-test slice ends and its MISR signature is compared, and a failure leads to the outcome for its KIND. -/
  | sliceDone (dt : Nat) (q sig rows : Nat)
  /-- SLICE_TIMEOUT (R735): A slice is not finished within its budget and fails. -/
  | sliceTimeout (dt : Nat) (q : Nat)
  /-- ROTATION (R739): A self-test rotation completes, or exceeds 8 s and is counted as late. -/
  | rotation (dt : Nat)
  /-- CORRECTED (R649): A read or the scrub corrects a line, writes it back and may trigger a row repair. -/
  | corrected (dt : Nat) (array unit line channel : Nat) (stored : Bytes) (scrub : Bool)
  /-- UNCORRECTABLE (R642): An uncorrectable or address error is detected, and the reaction for the owning partition or array follows. -/
  | uncorrectable (dt : Nat) (array unit line channel : Nat) (stored : Bytes) (use a b : Nat) (clean : Bool)
  /-- EDC (R637): A GDDR6 EDC CRC mismatch causes the burst to be repeated up to 3 times. -/
  | edc (dt : Nat) (ch line lines n : Nat) (write clean : Bool)
  /-- SCRUB_LATE (R641): An array is not scrubbed completely within its period, and this is counted and recorded. -/
  | scrubLate (dt : Nat) (array ms : Nat)
  /-- NOC_DENIED (R40): A NoC transaction outside its partition, slot or a powered bank is discarded, completes with error status and is recorded. -/
  | nocDenied (dt : Nat) (p target initiator : Nat) (write : Bool) (address len : Nat)
  /-- BW_SHORT (R96): A SAFETY partition does not receive its minimum over a 10 µs interval, and this is counted and recorded. -/
  | bwShort (dt : Nat) (p target : Nat)
  /-- THERMAL (R789): The cores' periodic sensor read finds a threshold crossed and writes THERMAL, enters or leaves DEGRADED, or enters SAFE. -/
  | thermal (dt : Nat) (sensor temp : Nat)
  /-- PCH_FUNC (R520): Shroud accepts a PCH_FUNC frame with the processor channel's RUN bits and compares them with its own. -/
  | pchFunc (dt : Nat) (seq : Nat)
  /-- PCH_OUT (R524): Shroud accepts a PCH_OUT frame with output requests and the commanded HS levels, and updates the permits and the PRV_HS pins. -/
  | pchOut (dt : Nat) (seq : Nat)
  /-- HEARTBEAT (R530): Shroud accepts a heartbeat that matches its slot's binding and resets the age, or discards and counts a mismatch. -/
  | heartbeat (dt : Nat) (seq : Nat) (payload : Bytes)
  /-- BIND (R528): Shroud binds a trust slot to a context and its outputs, or refuses, and acknowledges. -/
  | bind (dt : Nat) (seq : Nat) (payload : Bytes)
  /-- UNBIND (R529): Shroud frees a trust slot when CONTEXT matches. -/
  | unbind (dt : Nat) (seq : Nat) (payload : Bytes)
  /-- STATE (R533): Shroud accepts the mirrored operating state and updates its permits and SAFE_STATE_N. -/
  | stayState (dt : Nat) (seq : Nat) (payload : Bytes)
  /-- SAFE (R534): Shroud accepts a SAFE frame, sets its safe latch and switches every output off. -/
  | staySafe (dt : Nat) (seq : Nat) (payload : Bytes)
  /-- CFG (R538): Shroud checks and activates its configuration section and acknowledges, or refuses, leading to SAFE. -/
  | cfg (dt : Nat) (seq : Nat) (payload : Bytes)
  /-- NAK (R508): A side accepts a NAK and resends its frames from the SEQ it names. -/
  | nak (dt : Nat) (atShroud : Bool) (seq : Nat) (payload : Bytes)
  /-- INPUTS (R512): The L die accepts an INPUTS frame, filters RAW itself and evaluates its own instances. -/
  | inputs (dt : Nat) (seq raw : Nat)
  /-- HCH (R520): The L die accepts an HCH frame with the hard-wired channel's RUN bits, checks discrepancy and adopts outcomes within the band. -/
  | hch (dt : Nat) (seq : Nat)
  /-- OUTPUTS (R523): The L die accepts an OUTPUTS frame and commands PRV_HS according to the sense and drive states. -/
  | outputs (dt : Nat) (seq : Nat)
  /-- ACK (R528): The L die accepts a Shroud ACK for a BIND or CFG and completes the operation waiting on it. -/
  | ack (dt : Nat) (seq : Nat) (payload : Bytes)
  /-- FAULT (R504): The L die accepts a Shroud FAULT frame and records its code. -/
  | stayFault (dt : Nat) (seq : Nat) (payload : Bytes)
  /-- STAY_FRAME_REJECT (R507): A receiver rejects a Stay link frame and sends a NAK for the SEQ it expects. -/
  | stayFrameReject (dt : Nat) (atShroud : Bool) (typ : Nat) (payload lane0 lane1 : Bytes)
  /-- STAY_LINK_LOSS_SHROUD (R27): Shroud accepts no frame for 160 oscillator cycles, switches everything off and resets the L and A dies. -/
  | stayLinkLossShroud (dt : Nat)
  /-- STAY_LINK_LOSS_L_DIE (R28): The L die accepts no frame for 160 Shroud cycles and enters SAFE. -/
  | stayLinkLossLDie (dt : Nat)
  /-- FILTERED_INPUT_CHANGE (R509): A safety input's sampled level has differed from its filtered level for FILT × 100 µs, and the filtered level changes, driving instance transitions. -/
  | filteredInputChange (dt : Nat) (i : Nat)
  /-- TEST_PULSE_START (R510): A TPO begins its low pulse, and the filters of the inputs fed by it freeze. -/
  | testPulseStart (dt : Nat) (k : Nat)
  /-- TEST_PULSE_END (R511): A TPO pulse ends, and each tested input is judged for a cross-short. -/
  | testPulseEnd (dt : Nat) (k before late : Nat)
  /-- DISCREPANCY_TIMEOUT (R515): A pair discrepancy lasts longer than DISC_MS, and the instance moves to FAULT. -/
  | discrepancyTimeout (dt : Nat) (pch : Bool) (n : Nat)
  /-- TWOHAND_TIMEOUT (R516): One hand stays pressed 500 ms without the other, and the TWOHAND instance becomes BLOCKED. -/
  | twohandTimeout (dt : Nat) (pch : Bool) (n : Nat)
  /-- CHANNEL_DISCREPANCY (R520): RUN bits differ between the channels for longer than CH_DISC_MS, the outputs switch off and the device enters SAFE with cause 0x18. -/
  | channelDiscrepancy (dt : Nat) (shroud : Bool) (n : Nat)
  /-- EDM_CHANGE (R522): An EDM input changes level, moving its standard output. -/
  | edmChange (dt : Nat) (o : Nat)
  /-- EDM_MS_EXPIRY (R522): EDM_MS ends after a switch-on or switch-off with the contactor in the wrong state, and the output is LOCKED. -/
  | edmMsExpiry (dt : Nat) (o : Nat)
  /-- MIN_OFF_EXPIRY (R522): MIN_OFF_MS ends, and an output in SHUTDOWN may return to OFF or a LOCKED output may clear. -/
  | minOffExpiry (dt : Nat) (prv : Bool) (i : Nat)
  /-- SENSE_CHANGE (R523): A privileged output sense line changes level, moving the output. -/
  | senseChange (dt : Nat) (p : Nat) (high : Bool)
  /-- SENSE_US_EXPIRY (R523): SENSE_US ends with a sense line in the wrong state, and the privileged output is LOCKED. -/
  | senseUsExpiry (dt : Nat) (p : Nat)
  /-- HS_COMMAND_TIMEOUT (R523): 10 ms pass in LS_ON without the HS pin commanded on, and the output shuts down with code 0x15. -/
  | hsCommandTimeout (dt : Nat) (p : Nat)
  /-- HEARTBEAT_LAPSE (R531): A trust slot's heartbeat age reaches HB_LIMIT_MS, and its outputs lose trust. -/
  | heartbeatLapse (dt : Nat) (n : Nat)
  /-- PLIBEX_RX (R573): A received Plibex telegram is checked in order and accepted or rejected, updating the receive connection and its gate. -/
  | plibexRx (dt : Nat) (d : Datagram) (ago : Nat)
  /-- RX_WATCHDOG_EXPIRY (R577): WD_MS passes without an accepted telegram, the gate closes, and the connection enters TIMEOUT. -/
  | rxWatchdogExpiry (dt : Nat) (i : Nat)
  /-- TX_PERIOD (R565): TX_PERIOD_MS passes on a transmit connection, and a repeat, unbound or SAFE_STATE telegram is sent. -/
  | txPeriod (dt : Nat) (i : Nat)
  /-- FUNC_STATE_SEND (R566): A FUNC_STATE payload change is sent no sooner than 1 ms after the previous telegram. -/
  | funcStateSend (dt : Nat) (i : Nat)
  /-- SAFE_STATE_REPEAT (R567): In SAFE, each receive connection repeats its SAFE_STATE telegram every 100 ms. -/
  | safeStateRepeat (dt : Nat) (i : Nat)
  /-- LINK (R590): An Ethernet MAC link changes state and is recorded. -/
  | link (dt : Nat) (m : Nat) (up : Bool) (speed : Nat)
  /-- PREEMPT (R590): The preemption VERIFY_STATUS of a MAC changes and is recorded. -/
  | preempt (dt : Nat) (m status : Nat)
  /-- MGMT_REQUEST (R790): Fox answers an ARP, NDP or ICMP echo request on its management VLAN. -/
  | mgmtRequest (dt : Nat) (m vlan kind : Nat) (ip data : Bytes)
  /-- TELEMETRY (R790): Every TELEM_MS, Fox sends a telemetry datagram to the collector. -/
  | telemetry (dt : Nat)
  /-- ARCHIVE (R792): Once a second, Fox copies new evidence records into the flash archive and records gaps. -/
  | archive (dt : Nat) (ops : Nat)
  /-- FOX_QUOTE_GO (R764): A write of FOX_Q_CTL.GO requests a signed attestation quote with the function's nonce. -/
  | foxQuoteGo (dt : Nat) (fn : Nat)
  /-- QUOTE_READY (R764): The quote is signed and appears in the quote window with READY set. -/
  | quoteReady (dt : Nat) (fn : Nat)
  /-- DOORBELL (R416): An 8-byte doorbell write is checked and updates a ring's producer or consumer index, or is rejected and recorded. -/
  | doorbell (dt : Nat) (fn off : Nat) (data : Bytes)
  /-- DESCRIPTOR_FETCH (R446): The device fetches a descriptor when a completion entry can be reserved, and checks its CHECK value. -/
  | descriptorFetch (dt : Nat) (fn r : Nat) (bytes : Bytes) (ok : Bool)
  /-- RING_ENABLE (R410): A TEN_R_CTL write with ENABLE 1 enables a ring after setup checks, or records SETUP_ERR. -/
  | ringEnable (dt : Nat) (fn v : Nat)
  /-- RING_DISABLE (R412): A TEN_R_CTL write with ENABLE 0 disables a ring, unless it is a bound completion ring. -/
  | ringDisable (dt : Nat) (fn v : Nat)
  /-- REGISTER_WRITE (R5): A write to a BAR0 or BAR2 register with no behaviour of its own sets RW fields and discards the rest. -/
  | registerWrite (dt : Nat) (fn bar off : Nat) (data : Bytes)
  /-- BAR0_ACCESS (R15): A BAR0 access of the wrong size or alignment completes normally with no effect and is recorded. -/
  | bar0Access (dt : Nat) (fn kind bar off size : Nat)
  /-- FUNCTION_RESET (R463): An FLR, link-down or hot reset of a host function disables the tenant's rings and aborts its long operations. -/
  | functionReset (dt : Nat) (fn kind speed width : Nat)
  /-- IRQ_MODERATION_TIMEOUT (R459): MOD_TIME_US passes since the first unannounced record, and the ring's MSI-X message is sent. -/
  | irqModerationTimeout (dt : Nat) (fn r : Nat)
  /-- HELD_RECORD_WRITE (R447): A held verdict record or lost notice is written once a completion entry comes free. -/
  | heldRecordWrite (dt : Nat) (fn r : Nat)
  /-- LOST_NOTICE (R449): A lost notice is written into the first free entry after verdict records were discarded or the ring was re-enabled. -/
  | lostNotice (dt : Nat) (fn r : Nat)
  /-- RING_GAP (R454): When an evidence ring entry is free again, a record of skipped SEQs is written and copying resumes. -/
  | ringGap (dt : Nat) (fn r : Nat)
  /-- NOP (R422): A NOP descriptor completes, and with FENCE marks the completion of every earlier descriptor. -/
  | nop (dt : Nat)
  /-- WATCH_OPEN (R393): WATCH_OPEN reads a parameter block and opens a watch context with its bindings, or is refused. -/
  | watchOpen (dt : Nat)
  /-- WATCH_PARAMETER_BLOCK_READ (R440): The read of a watch parameter block completes, and its CHECK is verified before the context opens. -/
  | watchParameterBlockRead (dt : Nat) (fn r : Nat) (bytes : Bytes) (ok : Bool)
  /-- WATCH_CLOSE (R438): WATCH_CLOSE closes a context at once and releases its bindings. -/
  | watchClose (dt : Nat)
  /-- WATCH_CLEAR (R378): WATCH_CLEAR moves an ESCALATED context to CLEARING, or reports its current state. -/
  | watchClear (dt : Nat)
  /-- FRAME_ANNOUNCE (R347): FRAME_ANNOUNCE gives a context's corridor for a named frame, or is refused. -/
  | frameAnnounce (dt : Nat)
  /-- MODEL_STAGE (R308): MODEL_STAGE is accepted or refused for a model slot, and the fetch and checks of a Badger image begin. -/
  | modelStage (dt : Nat)
  /-- MODEL_STAGE_DONE (R306): The Badger image fetch and checks end, and the image is stored or refused with a shortfall report. -/
  | modelStageDone (dt : Nat) (fn : Nat) (ok : Bool) (image : Bytes)
  /-- MODEL_SWITCH (R311): MODEL_SWITCH schedules the staged image for SWITCH_FRAME after its checks, or is refused. -/
  | modelSwitch (dt : Nat)
  /-- PLAN_STAGE (R188): PLAN_STAGE is accepted or refused for a plan slot, and the fetch of the plan and weight images begins. -/
  | planStage (dt : Nat)
  /-- PLAN_STAGE_DONE (R188): The plan and weight image verification ends, and the images are stored or refused. -/
  | planStageDone (dt : Nat) (fn : Nat) (ok : Bool) (image wimage : Bytes)
  /-- PLAN_SWITCH (R193): PLAN_SWITCH schedules the staged plan for SWITCH_FRAME after its capacity checks, or is refused. -/
  | planSwitch (dt : Nat)
  /-- GOLDEN_SCHEDULE (R382): GOLDEN_SCHEDULE without SET sets a context's K and G. -/
  | goldenSchedule (dt : Nat)
  /-- GOLDEN_SCHEDULE_SET (R382): GOLDEN_SCHEDULE with SET sets K and G and begins fetching a golden set image. -/
  | goldenScheduleSet (dt : Nat)
  /-- GOLDEN_SCHEDULE_DONE (R385): The golden set image fetch and verification end, and the set is stored or refused. -/
  | goldenScheduleDone (dt : Nat) (fn : Nat) (ok : Bool) (image : Bytes)
  /-- CONFIG_STAGE (R769): CONFIG_STAGE is accepted or refused, and the fetch and checks of an image of kind 0x05 to 0x0A begin. -/
  | configStage (dt : Nat)
  /-- CONFIG_STAGE_DONE (R770): Staging ends with range checks and a clamp list, and the image is stored as STAGED or STAGED_CLAMPED. -/
  | configStageDone (dt : Nat) (fn : Nat) (ok : Bool) (image : Bytes) (flash : Bool)
  /-- CONFIG_COMMIT (R776): CONFIG_COMMIT of a staged image begins after its password, state and capacity checks, or is refused. -/
  | configCommit (dt : Nat)
  /-- CONFIG_COMMIT_MODE_ONLY (R777): CONFIG_COMMIT with STAGED_ID 0 enters MAINTENANCE or activates the stored configuration. -/
  | configCommitModeOnly (dt : Nat)
  /-- CONFIG_COMMIT_DONE (R778): The commit record is written, the change log is updated, and the image is scheduled to take effect. -/
  | configCommitDone (dt : Nat) (fn : Nat) (ok : Bool)
  /-- EVIDENCE_READ (R445): EVIDENCE_READ begins copying visible evidence records to host memory. -/
  | evidenceRead (dt : Nat)
  /-- EVIDENCE_READ_DONE (R445): The copy of evidence records ends and the completion gives the SEQ range. -/
  | evidenceReadDone (dt : Nat) (fn : Nat)
  /-- LONG_OPERATION_START (R426): A tenant's next accepted long operation starts once the previous one has ended. -/
  | longOperationStart (dt : Nat) (fn : Nat)
  /-- QUERY_CONTEXT (R444): QUERY with SELECT 0x01 returns a watch context's state in the completion. -/
  | queryContext (dt : Nat)
  /-- QUERY_FRAME (R444): QUERY with SELECT 0x02 returns the current frame times in the completion. -/
  | queryFrame (dt : Nat)
  /-- QUERY_DEVICE (R444): QUERY with SELECT 0x03 returns the device state, the time and the log SEQs in the completion. -/
  | queryDevice (dt : Nat)
  /-- TACK_ID (R819): The Tack ID command returns GLB_ID and CFG_LIFE. -/
  | tackId (dt : Nat) (tag : Nat)
  /-- AUTH_READ (R819): The Tack AUTH_READ command returns a word of DEVICE_ID and CFG_NONCE. -/
  | authRead (dt : Nat) (tag addr : Nat)
  /-- AUTH_WRITE (R819): The Tack AUTH_WRITE command writes a word of the authentication signature. -/
  | authWrite (dt : Nat) (tag addr data : Nat)
  /-- AUTH_DONE (R820): The Tack AUTH_DONE command verifies the signature and opens a session, or draws a fresh nonce. -/
  | authDone (dt : Nat) (tag : Nat)
  /-- TACK_READ (R821): The Tack READ command reads 8 bytes from the selected space. -/
  | tackRead (dt : Nat) (target tag addr : Nat) (done : Bool)
  /-- TACK_WRITE (R821): The Tack WRITE command writes 8 bytes into the selected space. -/
  | tackWrite (dt : Nat) (target tag addr data : Nat) (done : Bool)
  /-- HALT (R824): The Tack HALT command stops the control cores at a voted boundary, or stops Fox. -/
  | halt (dt : Nat) (target tag : Nat)
  /-- RESUME (R824): The Tack RESUME command restarts the halted target. -/
  | resume (dt : Nat) (target tag : Nat)
  /-- TACK_STEP (R824): The Tack STEP command retires one instruction in each core of the target. -/
  | tackStep (dt : Nat) (target tag : Nat)
  /-- BP_SET (R825): The Tack BP_SET command sets a breakpoint on an ITCM address. -/
  | bpSet (dt : Nat) (target tag addr : Nat)
  /-- BP_CLEAR (R825): The Tack BP_CLEAR command clears a breakpoint. -/
  | bpClear (dt : Nat) (target tag addr : Nat)
  /-- BREAKPOINT_HIT (R825): A breakpoint is hit and halts its target before the instruction retires. -/
  | breakpointHit (dt : Nat) (target n : Nat)
  /-- TACK_STATUS (R827): The Tack STATUS command returns halt, session, error and breakpoint state with a program counter. -/
  | tackStatus (dt : Nat) (target tag : Nat)
  /-- TACK_RESET (R829): The Tack RESET command, in INTEGRATION, restarts from D2 as reset source 0x9. -/
  | tackReset (dt : Nat) (tag : Nat)
  /-- FUSE (R828): The Tack FUSE command blows the fuse bits set in the data word. -/
  | fuse (dt : Nat) (tag addr data : Nat)
  /-- TEST (R828): The Tack TEST command runs a free-form self-test slice and records its MISR and outcome. -/
  | test (dt : Nat) (tag addr data : Nat)
  /-- TACK_BAD_REQUEST (R817): A Tack request with a bad SYNC, a bad RCRC or the reserved CMD is not executed and gets no response. -/
  | tackBadRequest (dt : Nat) (kind : Nat)
  /-- BYPASS (R830): The BYPASS instruction, selected also by unknown or disallowed codes, places the bypass register in the scan path. -/
  | bypass (dt : Nat) (din : Bool)
  /-- IDCODE (R831): The IDCODE instruction shifts out 0x1947_0B4F. -/
  | idcode (dt : Nat)
  /-- SAMPLE_PRELOAD (R830): The SAMPLE/PRELOAD instruction captures pin states and preloads the boundary-scan cells. -/
  | samplePreload (dt : Nat) (cap din : List Nat)
  /-- EXTEST (R832): The EXTEST instruction drives the boundary cells onto the pins, never on the safety outputs. -/
  | extest (dt : Nat) (cap din : List Nat)
  /-- CLAMP (R830): The CLAMP instruction holds the pins at the preloaded values with the bypass register selected. -/
  | clamp (dt : Nat) (din : Bool)
  /-- HIGHZ (R830): The HIGHZ instruction places the non-safety outputs in high impedance. -/
  | highz (dt : Nat) (din : Bool)
  /-- IDLE (R25): A receiver accepts an IDLE Stay link frame, advancing its expected SEQ and restarting its link-loss count. -/
  | idle (dt : Nat) (atShroud : Bool) (seq : Nat) (payload : Bytes)
  /-- DIE_LINK_NEEDS_RETRAINING (R22): The die link between the L die and the A die loses its footing and starts retraining, which stops Badger traffic and starts the 1 ms retraining limit. -/
  | dieLinkNeedsRetraining (dt : Nat)
  /-- OWL_PERIOD_START (R703): A new Owl period begins after a period that had a good service, closing the previous window and restarting the period and window timing. -/
  | owlPeriodStart (dt : Nat) (i : Nat)
  /-- BUS_MASTER_ENABLE (R399): Host software writes a function's Bus Master Enable bit, stopping or resuming descriptor fetches and record writes for that function. -/
  | busMasterEnable (dt : Nat) (fn : Nat) (on msixOn msixMask : Bool) (mps mrrs : Nat)
  /-- LOWER_WORD_READ (R16): A 4-byte read of the lower word of a 64-bit BAR0 register latches the upper word for the next read of that upper word. -/
  | lowerWordRead (dt : Nat) (fn off : Nat)
deriving DecidableEq, Repr

end Sys2Proof
end

