-- ==== Sys2Proof/Machine/Bits.lean ====
section
/-! DEFINITION. Bit fields, little-endian byte strings, saturating counts and the sparse tables. -/

namespace Sys2Proof.Machine

/-- Bits [lo + w - 1 : lo] of v. -/
def fld (v lo w : Nat) : Nat := v / 2 ^ lo % 2 ^ w

/-- Bit i of v. -/
def bitAt (v i : Nat) : Bool := v / 2 ^ i % 2 == 1

/-- 1 for true. -/
def b2n (b : Bool) : Nat := if b then 1 else 0

/-- v with its bits [lo + w - 1 : lo] replaced by the low w bits of x. -/
def setFld (v lo w x : Nat) : Nat := v - fld v lo w * 2 ^ lo + (x % 2 ^ w) * 2 ^ lo

/-- A count of w bits that saturates. -/
def sat (w v : Nat) : Nat := min v (2 ^ w - 1)

/-- The next value of a saturating count of w bits. -/
def inc (w v : Nat) : Nat := sat w (v + 1)

/-- Two's complement reading of the low w bits of v. -/
def sgn (w v : Nat) : Int :=
  let x := v % 2 ^ w
  if x < 2 ^ (w - 1) then (x : Int) else (x : Int) - (2 ^ w : Nat)

/-- The w-bit two's complement pattern of v. -/
def toBits (w : Nat) (v : Int) : Nat := (v % ((2 ^ w : Nat) : Int)).toNat

/-- The least of x and hi not below lo. -/
def clampN (lo hi x : Nat) : Nat := max lo (min hi x)

/-- As `clampN`, for integers. -/
def clampI (lo hi x : Int) : Int := max lo (min hi x)

/-- The bits of v that are set, as numbers below n, ascending. -/
def bitList (n v : Nat) : List Nat := (List.range n).filter (bitAt v)

/-- The number whose set bits are listed. -/
def ofBitList (l : List Nat) : Nat := l.foldl (fun a i => a ||| 2 ^ i) 0

/-- v as n bytes, least significant first (R11). -/
def le : Nat → Nat → Bytes
  | 0, _ => []
  | n + 1, v => BitVec.ofNat 8 v :: le n (v / 256)

/-- v as n bytes, most significant first (R13). -/
def be (n v : Nat) : Bytes := (le n v).reverse

/-- The number whose bytes are given least significant first. -/
def ofLe : Bytes → Nat
  | [] => 0
  | b :: r => b.toNat + 256 * ofLe r

/-- n bytes of b from offset off. -/
def slice (b : Bytes) (off n : Nat) : Bytes := (b.drop off).take n

/-- The little-endian field of n bytes at offset off; bytes past the end count as 0. -/
def rd (b : Bytes) (off n : Nat) : Nat := ofLe (slice b off n)

/-- n zero bytes. -/
def zeros (n : Nat) : Bytes := List.replicate n 0

/-- b cut or padded with zero bytes to n bytes. -/
def padTo (n : Nat) (b : Bytes) : Bytes := b.take n ++ zeros (n - b.length)

/-- Every byte is 0. -/
def allZero (b : Bytes) : Bool := b.all (· == 0)

/-- n bytes of b at offset off are all 0. -/
def zeroAt (b : Bytes) (off n : Nat) : Bool := allZero (slice b off n)

/-- b with the bytes at off replaced by x. -/
def patch (b : Bytes) (off : Nat) (x : Bytes) : Bytes := b.take off ++ x ++ b.drop (off + x.length)

/-- Consecutive chunks of n bytes, the last perhaps shorter; `fuel` bounds their number. -/
def chunksF (n : Nat) : Nat → Bytes → List Bytes
  | 0, _ => []
  | f + 1, b => if b.isEmpty then [] else b.take n :: chunksF n f (b.drop n)

/-- Consecutive chunks of n bytes, the last perhaps shorter. -/
def chunks (n : Nat) (b : Bytes) : List Bytes := chunksF n b.length b

/-- ceil(a / b). -/
def ceilDiv (a b : Nat) : Nat := (a + b - 1) / b

/-- The least multiple of n that is not below a. -/
def alignUp (a n : Nat) : Nat := ceilDiv a n * n

/-- Entry k of a sparse table: the reset value where it is not listed. -/
def tget {α : Type} [Inhabited α] (t : Tbl α) (k : Nat) : α := (t.lookup k).getD default

/-- Insertion at its place in ascending order, replacing an entry of the same index. -/
def tins {α : Type} (k : Nat) (v : α) : Tbl α → Tbl α
  | [] => [(k, v)]
  | (j, w) :: r => if k < j then (k, v) :: (j, w) :: r else if k = j then (k, v) :: r else (j, w) :: tins k v r

/-- Entry k set to v; an entry at its reset value is not listed. -/
def tset {α : Type} [Inhabited α] [DecidableEq α] (t : Tbl α) (k : Nat) (v : α) : Tbl α :=
  if v = default then t.filter (·.1 != k) else tins k v t

/-- Entry k changed by f. -/
def tmod {α : Type} [Inhabited α] [DecidableEq α] (t : Tbl α) (k : Nat) (f : α → α) : Tbl α := tset t k (f (tget t k))

/-- A table with every listed entry changed by f. -/
def tmap {α : Type} [Inhabited α] [DecidableEq α] (f : α → α) (t : Tbl α) : Tbl α :=
  t.foldr (fun x a => tset a x.1 (f x.2)) []

/-- Add one to a saturating count of w bits in a table of counts. -/
def tinc (t : Tbl Nat) (w k : Nat) : Tbl Nat := tset t k (inc w (tget t k))

/-- Insertion into an ascending list without repeats. -/
def insNat (k : Nat) : List Nat → List Nat
  | [] => [k]
  | j :: r => if k < j then k :: j :: r else if k = j then j :: r else j :: insNat k r

end Sys2Proof.Machine
end

