-- ==== Sys2Proof/Machine/Sha3.lean ====
section
/-! DEFINITION. SHA3-256 (R271 and every digest of the spec), computed as FIPS 202 defines it. PRESUMED: the spec
names the standard and does not restate it. -/

namespace Sys2Proof.Machine.Sha3

/-- Lane i of the state. -/
def lane (a : List W64) (i : Nat) : W64 := a.getD i 0

/-- Lane after lane in the order in which rho numbers them: lane (x, y) is followed by lane (y, 2x + 3y). -/
def walk : Nat → Nat → Nat → List Nat
  | 0, _, _ => []
  | n + 1, x, y => (x + 5 * y) :: walk n y ((2 * x + 3 * y) % 5)

/-- How far rho turns each lane: the lane numbered t on the walk from (1, 0) by the triangular number of t; lane (0, 0) not. -/
def turns : List Nat :=
  let order := walk 24 1 0
  (List.range 25).map fun i => let t := order.findIdx (· == i) + 1; if i = 0 then 0 else t * (t + 1) / 2 % 64

/-- The shift register behind the round constants: 8 bits, fed back through x^8 + x^6 + x^5 + x^4 + 1. -/
def shiftReg (r : Nat) : Nat := if r < 128 then 2 * r else (2 * r % 256) ^^^ 0x71

/-- The constants of n rounds: the register's next seven output bits stand at bits 2^j - 1. -/
def constants : Nat → Nat → List W64
  | 0, _ => []
  | n + 1, r =>
    let (q, k) := (List.range 7).foldl (fun (x : Nat × Nat) j => (shiftReg x.1, x.2 + x.1 % 2 * 2 ^ (2 ^ j - 1))) (r, 0)
    BitVec.ofNat 64 k :: constants n q

/-- The constants of the 24 rounds. -/
def keys : List W64 := constants 24 1

/-- Theta: every lane takes up the parities of the two columns beside its own. -/
def theta (a : List W64) : List W64 :=
  let column (x : Nat) : W64 := (List.range 5).foldl (fun v y => v ^^^ lane a (x % 5 + 5 * y)) 0
  let mix := (List.range 5).map fun x => column (x + 4) ^^^ (column (x + 1)).rotateLeft 1
  a.zipIdx.map fun (v, i) => v ^^^ lane mix (i % 5)

/-- Rho and pi: each lane is turned, and lane (x + 3y, x) moves to (x, y). -/
def scatter (a : List W64) : List W64 :=
  let turned := a.zip turns |>.map fun (v, n) => v.rotateLeft n
  (List.range 5).flatMap fun y => (List.range 5).map fun x => lane turned ((x + 3 * y) % 5 + 5 * x)

/-- Chi on one row of five lanes. -/
def chiRow (r : List W64) : List W64 := (List.range 5).map fun x => lane r x ^^^ (lane r ((x + 2) % 5) &&& ~~~ lane r ((x + 1) % 5))

/-- One round with its constant, which iota adds to lane (0, 0). -/
def round (a : List W64) (k : W64) : List W64 :=
  let b := scatter (theta a)
  ((List.range 5).flatMap fun y => chiRow ((b.drop (5 * y)).take 5)).modifyHead (· ^^^ k)

/-- The 24 rounds. -/
def perm (a : List W64) : List W64 := keys.foldl round a

/-- A 136-byte block absorbed. -/
def absorb (a : List W64) (blk : Bytes) : List W64 :=
  perm ((List.range 25).map fun i => if i < 17 then lane a i ^^^ BitVec.ofNat 64 (rd blk (8 * i) 8) else lane a i)

/-- The message padded to whole blocks: 0x06, zeros, and the last byte's top bit set. -/
def pad (m : Bytes) : Bytes :=
  let n := 136 - m.length % 136
  if n = 1 then m ++ [0x86] else m ++ [0x06] ++ zeros (n - 2) ++ [0x80]

end Sys2Proof.Machine.Sha3

namespace Sys2Proof.Machine

/-- SHA3-256 of a byte string, 32 bytes in output order (R12). -/
def sha3 (m : Bytes) : Bytes :=
  let a := (chunks 136 (Sha3.pad m)).foldl Sha3.absorb (List.replicate 25 0)
  (((List.range 4).map fun i => le 8 (Sha3.lane a i).toNat)).flatten

end Sys2Proof.Machine
end

