-- ==== Sys2Proof/Machine/StateAudit.lean ====
section
/-! DEFINITION. State of chapters 04 and 05: plan slots, the linear audit, the challenges and their mailbox, the
DRBG, the Stoat engines and the SHA3 engines. -/

namespace Sys2Proof.Machine

/-- A verified audit plan with its weight image, as stored in the regions of LA_PART (R188); both are kept as the
byte strings that were verified, and their fields are read out of them. -/
structure Plan where
  img : Bytes := []
  wimg : Bytes := []
  /-- PLAN_DIGEST (R186). -/
  digest : Bytes := []
  /-- The resident weight image contains an uncorrectable line (R646). -/
  bad : Bool := false
deriving DecidableEq, Repr, Inhabited

/-- Counters of one audited layer (R214). -/
structure LayerStat where
  maxDev : Nat := 0
  pass : Nat := 0
  fail : Nat := 0
  lastPass : Nat := 0
  /-- Column blocks of the layer that passed at their latest audit since the switch. -/
  okBlocks : List Nat := []
deriving DecidableEq, Repr, Inhabited

/-- A fetch in progress for PLAN_STAGE (R188). -/
structure PlanFetch where
  fn : Nat := 0
  tag : Nat := 0
  planDigest : Bytes := []
deriving DecidableEq, Repr, Inhabited

/-- One plan slot: the active and the staged plan, the linear audit item and the challenges item (R213, R273). -/
structure PlanSlot where
  active : Option Plan := none
  staged : Option Plan := none
  /-- SWITCH_FRAME of the accepted PLAN_SWITCH that is pending (R193). -/
  switchAt : Option Nat := none
  /-- AUD_PLN_STAGE.CODE and LAYER (R197). -/
  stageCode : Nat := 0
  stageLayer : Nat := 0
  /-- Blocks at which the shares start, as R205 last divided the audit stream. -/
  shares : List Nat := []
  /-- AUD_PLN_ROT.POS (R207). -/
  pos : Nat := 0
  /-- AUD_PLN_STAT and AUD_PLN_LAST_FRAME. -/
  code : Nat := 0
  lastCode : Nat := 0
  lastFrame : Nat := 0
  /-- AUD_PLN_COVER and the frames counted since the last completed rotation (R209). -/
  span : Nat := 0
  age : Nat := 0
  sinceDone : Nat := 0
  rotDone : Bool := false
  /-- AUD_PLN_CNT. -/
  failed : Nat := 0
  incomplete : Nat := 0
  /-- AUD_PLN_FIRST. -/
  firstLayer : Nat := 0
  firstVec : Nat := 0
  firstCol : Nat := 0
  /-- AUD_PLN_DONE. -/
  doneNs : Nat := 0xFFFFFFFF
  /-- Next column block of the share to be dispatched, blocks compared in this frame, and the failing comparisons
  recorded in this frame (R211). -/
  nextBlk : Nat := 0
  doneBlks : Nat := 0
  records : Nat := 0
  /-- The audit of the current frame is running (R198). -/
  running : Bool := false
  layers : Tbl LayerStat := []
  /-- CHL_PLN_STAT and CHL_PLN_LAST_FRAME. -/
  chCode : Nat := 0
  chLastCode : Nat := 0
  chLastFrame : Nat := 0
  chDoneNs : Nat := 0xFFFFFFFF
  /-- CHL_PLN_FIRST and CHL_PLN_CNT. -/
  chFirst : Nat := 0
  chFirstCode : Nat := 0
  chFailed : Nat := 0
  chIncomplete : Nat := 0
  chRecords : Nat := 0
  /-- CHL_PLN_REFUSE. -/
  refuse : Nat := 0
  refuseIdx : Nat := 0
  /-- CHL_SHORT, the last shortfall report (R236, R274). -/
  short : Bytes := []
deriving DecidableEq, Repr, Inhabited

/-- One posted challenge: its mailbox entry and its opening (R243, R248). -/
structure Challenge where
  plan : Nat := 0
  slot : Nat := 0
  target : Nat := 0
  leafCount : Nat := 0
  row : Nat := 0
  col : Nat := 0
  openOff : Nat := 0
  openLen : Nat := 0
  /-- Status code of R263. -/
  status : Nat := 0
  /-- Bytes of the opening accepted so far. -/
  bytes : Bytes := []
  /-- The trailer has passed R250. -/
  trailerOk : Bool := false
  /-- Leaf records verified so far (R251). -/
  leaves : List Nat := []
  /-- The weight column blocks are in CH_PART's buffer (R254). -/
  weights : Bool := false
  /-- The opening was abandoned by a link-down or hot reset (R109). -/
  abandoned : Bool := false
deriving DecidableEq, Repr, Inhabited

/-- Mailbox STATE (R243): 0 EMPTY, 1 DRAWING, 2 POSTED, 3 CLOSED. -/
structure Mailbox where
  state : Nat := 0
  /-- DRBG byte of the mailbox. -/
  noDrbg : Bool := false
  windowLen : Nat := 0
  postedAt : Nat := 0
  entries : List Challenge := []
  /-- CHL_POSTED, CHL_FRAME.DRAWN. -/
  postedNs : Nat := 0xFFFFFFFF
deriving DecidableEq, Repr, Inhabited

/-- The entries below COUNT: none before they are posted (R243). -/
def Mailbox.shown (m : Mailbox) : List Challenge := if m.state < 2 then [] else m.entries

/-- The DRBG and the entropy source (R238, R239). -/
structure Drbg where
  instantiated : Bool := false
  /-- The health tests currently report a failure. -/
  testsFail : Bool := false
  reseedAge : Nat := 0
  /-- V, C and the reseed counter of Hash_DRBG; the next word of the running generate request (R238, R240). -/
  v : Nat := 0
  c : Nat := 0
  requests : Nat := 0
  word : Nat := 0
deriving DecidableEq, Repr, Inhabited

/-- Engine states of R266, in the encoding order of R276. -/
inductive EngState where
  | spare | service | test | retest | failed
deriving DecidableEq, Repr, Inhabited

/-- A unit of Stoat work: a column block of a linear audit share, or a challenge tile (R220). -/
inductive SttUnit where
  | block (plan idx : Nat)
  | tile (index : Nat)
deriving DecidableEq, Repr, Inhabited

/-- One Stoat engine (R266, R276). -/
structure Engine where
  st : EngState := .service
  prior : EngState := .service
  busy : Option SttUnit := none
  kind : Nat := 0
  column : Nat := 0
  units : Nat := 0
  faults : Nat := 0
  faultTime : Nat := 0
deriving DecidableEq, Repr, Inhabited

/-- The Stoat engines and the SHA3 engines (R275). -/
structure Stoat where
  engines : Tbl Engine := [(16, { st := .spare })]
  /-- STT_SPARE.SWAP, FROM and SWAPS. -/
  swap : Bool := false
  swapFrom : Nat := 0
  swaps : Nat := 0
  faults : Nat := 0
  repeats : Nat := 0
  /-- Units to be repeated ahead of every waiting unit (R220). -/
  again : List SttUnit := []
  /-- The engine whose fault brought the device into DEGRADED (R266). -/
  degradedBy : Option Nat := none
  /-- SHA3 engines isolated awaiting retest, and failed (STT_SHA3); the rest are in service. -/
  sha3Retest : List Nat := []
  sha3Failed : List Nat := []
  sha3Faults : Nat := 0
deriving DecidableEq, Repr, Inhabited

/-- Chapters 04 and 05 together. -/
structure Audit where
  plans : Tbl PlanSlot := []
  /-- AUD_FAILS. -/
  fails : Nat := 0
  mbox : Mailbox := {}
  drbg : Drbg := {}
  /-- CHL_W_ERR and CHL_W_LATE. -/
  wOutside : Nat := 0
  wStale : Nat := 0
  wLate : Nat := 0
  stt : Stoat := {}
  /-- AUD_LYR_SEL of each physical function (R214). -/
  lyrSel : Tbl W32 := []
deriving DecidableEq, Repr, Inhabited

end Sys2Proof.Machine
end

