-- ==== Sys2Proof/Machine/Drbg.lean ====
section
/-! DEFINITION. The Hash_DRBG of NIST SP 800-90A with SHA3-256 (R238) and next_u32 (R240). PRESUMED (log 61): the spec names
the standard and does not restate it; the seed has 440 bits as for every hash of 256 bits, and D_c makes one generate
request, whose output is as long as the draw needs. -/

namespace Sys2Proof.Machine

/-- Bytes of V and C. -/
def seedLen : Nat := 55

/-- The number whose bytes are given most significant first. -/
def ofBe (b : Bytes) : Nat := ofLe b.reverse

/-- Hash_df to the length of the seed. -/
def hashDf (b : Bytes) : Nat :=
  ofBe (([1, 2].flatMap fun n => sha3 (be 1 n ++ be 4 (8 * seedLen) ++ b)).take seedLen)

/-- A new V and its C. -/
def Drbg.seeded (d : Drbg) (material : Bytes) : Drbg :=
  let v := hashDf material
  { d with v := v, c := hashDf (zeros 1 ++ be seedLen v), requests := 1 }

/-- Instantiation from 384 bits of entropy with a personalisation string (R238). -/
def Drbg.instantiate (d : Drbg) (entropy : Nat) (personal : Bytes) : Drbg :=
  { d.seeded (be 48 entropy ++ personal) with instantiated := true, reseedAge := 0 }

/-- Reseed with 256 bits of entropy (R238). -/
def Drbg.reseed (d : Drbg) (entropy : Nat) : Drbg :=
  { d.seeded ([1] ++ be seedLen d.v ++ be 32 entropy) with reseedAge := 0 }

/-- A generate request begins, with its additional input. -/
def Drbg.begin (d : Drbg) (extra : Bytes) : Drbg :=
  { d with v := (d.v + ofBe (sha3 ([2] ++ be seedLen d.v ++ extra))) % 2 ^ (8 * seedLen), word := 0 }

/-- The request ends: V moves on. -/
def Drbg.finish (d : Drbg) : Drbg :=
  { d with v := (d.v + ofBe (sha3 ([3] ++ be seedLen d.v)) + d.c + d.requests) % 2 ^ (8 * seedLen), requests := d.requests + 1 }

/-- next_u32: the next four bytes of the output, little-endian (R240). -/
def Drbg.nextU32 (d : Drbg) : Nat × Drbg :=
  (rd (sha3 (be seedLen ((d.v + d.word / 8) % 2 ^ (8 * seedLen)))) (d.word % 8 * 4) 4, { d with word := d.word + 1 })

/-- A tile below n that is not in `drawn`: an output at or above the greatest multiple of n is passed over, and so is a
tile drawn before (R240). The bound on the number of outputs is never met; at it, the least tile left is taken. -/
def Drbg.tile (n : Nat) (drawn : List Nat) : Nat → Drbg → Nat × Drbg
  | 0, d => (((List.range n).find? fun t => !drawn.contains t).getD 0, d)
  | fuel + 1, d =>
    let (u, d1) := d.nextU32
    if 2 ^ 32 / n * n ≤ u ∨ drawn.contains (u % n) then Drbg.tile n drawn fuel d1 else (u % n, d1)

/-- `count` distinct tiles below n, in the order drawn (R240). -/
def Drbg.tiles (n : Nat) : Nat → List Nat → Drbg → List Nat × Drbg
  | 0, drawn, d => (drawn, d)
  | count + 1, drawn, d =>
    let (t, d1) := Drbg.tile n drawn (2 ^ 20) d
    Drbg.tiles n count (drawn ++ [t]) d1

end Sys2Proof.Machine
end

