-- ==== Sys2Proof/Config.lean ====
section
/-! DEFINITION. What an implementation fixes and what the spec leaves open: constants without a body, so that
nothing can be proved of a value the spec does not give. The `Nat` argument of a free value is the state's counter of
free values, so each use is a fresh one. -/

namespace Sys2Proof.Config

/-- Rate of the Shroud oscillator in Hz; the spec gives 38 MHz to 42 MHz (R26, R501). -/
opaque oscRaw : Nat

/-- ML-DSA-44 verification of FIPS 204 (R756): public key, 32-byte message, signature. The spec cites the standard. -/
opaque mldsaVerify : Bytes → Bytes → Bytes → Bool

/-- ML-DSA-44 public key generated from a 32-byte seed (R763). -/
opaque mldsaPublic : Bytes → Bytes

/-- ML-DSA-44 signature, 2,420 bytes, made with the key generated from a seed over a 32-byte message (R764). -/
opaque mldsaSign : Bytes → Bytes → Bytes

/-- Bytes 6 to 31 of entry e of the runtime slice table in ROM: PATTERNS, SEED, SIGNATURE and the reserved field (R727). -/
opaque sliceRom : Nat → Bytes

/-- CRC-32/K over the runtime slice table in ROM, which is compared with the fused SLICE_CRC (R728). -/
opaque sliceCrc : Nat

/-- What the voltage monitor reads on a rail at a main clock: bits 15 to 0 mV, 31 to 16 mA (R788, R799). -/
opaque railSense : Nat → Nat → Nat

/-- A free value of the state the spec leaves open. -/
opaque freeNat : Nat → Nat

/-- Weight k of reference column j of a macro: fixed, and stated nowhere (chapter 06, performance table; R278). -/
opaque refWeight : Nat → Nat → Nat

/-- exp in binary32, on a bit pattern, and the sum of a row of binary32 patterns (R225): the spec fixes neither the rounding
of the one nor the order of the other. -/
opaque exp32 : Nat → Nat
opaque rowSum : List Nat → Nat

end Sys2Proof.Config
end

