-- ==== Sys2Proof/Machine/Fp.lean ====
section
/-! DEFINITION. Floating-point values as exact dyadic numbers, and the formats of R168 with rounding to nearest even:
binary32, bfloat16, binary16, E4M3 and E5M2. -/

namespace Sys2Proof.Machine

/-- A floating-point value: (-1)^neg × m × 2^e when finite. -/
inductive Fp where
  | nan
  | inf (neg : Bool)
  | fin (neg : Bool) (m : Nat) (e : Int)
deriving DecidableEq, Repr, Inhabited

/-- A format: total bits, precision, smallest normal exponent, largest exponent; `sat` marks the OFP8 E4M3, which has
no infinity. -/
structure Fmt where
  bits : Nat
  prec : Nat
  emin : Int
  emax : Int
  noInf : Bool := false
deriving DecidableEq, Repr, Inhabited

def f32 : Fmt := { bits := 32, prec := 24, emin := -126, emax := 127 }
def bf16 : Fmt := { bits := 16, prec := 8, emin := -126, emax := 127 }
def f16 : Fmt := { bits := 16, prec := 11, emin := -14, emax := 15 }
def e5m2 : Fmt := { bits := 8, prec := 3, emin := -14, emax := 15 }
def e4m3 : Fmt := { bits := 8, prec := 4, emin := -6, emax := 8, noInf := true }

/-- Value of a bit pattern. -/
def Fmt.decode (f : Fmt) (v : Nat) : Fp :=
  let mb := f.prec - 1
  let eb := f.bits - f.prec
  let m := fld v 0 mb
  let e := fld v mb eb
  let neg := bitAt v (f.bits - 1)
  let top := e == 2 ^ eb - 1
  if f.noInf then
    if top ∧ m = 2 ^ mb - 1 then .nan
    else if e = 0 then .fin neg m (f.emin - mb) else .fin neg (m + 2 ^ mb) ((e : Int) - 1 + f.emin - mb)
  else if top then (if m = 0 then .inf neg else .nan)
  else if e = 0 then .fin neg m (f.emin - mb)
  else .fin neg (m + 2 ^ mb) ((e : Int) - 1 + f.emin - mb)

/-- m × 2^s, or m / 2^(-s) rounded to nearest even. -/
def shiftRne (m : Nat) (s : Int) : Nat :=
  if 0 ≤ s then m * 2 ^ s.toNat
  else
    let d := 2 ^ (-s).toNat
    let q := m / d
    let r := m % d
    if 2 * r > d ∨ (2 * r = d ∧ q % 2 = 1) then q + 1 else q

/-- Largest finite value of a format. -/
def Fmt.maxFin (f : Fmt) (neg : Bool) : Fp :=
  .fin neg (if f.noInf then 2 ^ f.prec - 2 else 2 ^ f.prec - 1) (f.emax - (f.prec - 1 : Nat))

/-- A value rounded into a format; `sat` replaces overflow by the largest finite value. -/
def Fmt.round (f : Fmt) (sat : Bool) (x : Fp) : Fp :=
  match x with
  | .nan => .nan
  | .inf n => if sat then f.maxFin n else .inf n
  | .fin n 0 _ => .fin n 0 0
  | .fin n m e =>
    let q := max (e + Nat.log2 m - (f.prec - 1 : Nat)) (f.emin - (f.prec - 1 : Nat))
    let m' := shiftRne m (e - q)
    let big := if m' = 2 ^ f.prec then q + 1 > f.emax - (f.prec - 1 : Nat)
      else q > f.emax - (f.prec - 1 : Nat) ∨ (f.noInf ∧ q = f.emax - (f.prec - 1 : Nat) ∧ m' = 2 ^ f.prec - 1)
    if big then (if sat then f.maxFin n else .inf n) else .fin n m' q

/-- Bit pattern of a value that the format holds; a NaN has one pattern here, as every comparison treats two NaNs as
equal. -/
def Fmt.encode (f : Fmt) (x : Fp) : Nat :=
  let mb := f.prec - 1
  let sign (n : Bool) := b2n n * 2 ^ (f.bits - 1)
  match x with
  | .nan => if f.noInf then 2 ^ (f.bits - 1) - 1 else 2 ^ (f.bits - 1) - 2 ^ (mb - 1)
  | .inf n => sign n + 2 ^ (f.bits - 1) - 2 ^ mb
  | .fin n 0 _ => sign n
  | .fin n m e =>
    let q := max (e + Nat.log2 m - mb) (f.emin - mb)
    let m' := shiftRne m (e - q)
    if m' < 2 ^ mb then sign n + m' else sign n + (q - f.emin + mb + 1).toNat * 2 ^ mb + (m' - 2 ^ mb)

/-- Sign of a value. -/
def Fp.neg : Fp → Bool
  | .nan => false
  | .inf n => n
  | .fin n _ _ => n

def Fp.isFinite : Fp → Bool
  | .fin _ _ _ => true
  | _ => false

def Fp.isNan : Fp → Bool
  | .nan => true
  | _ => false

/-- The magnitude of a value. -/
def Fp.abs : Fp → Fp
  | .nan => .nan
  | .inf _ => .inf false
  | .fin _ m e => .fin false m e

/-- Exact product. -/
def Fp.mul (x y : Fp) : Fp :=
  match x, y with
  | .nan, _ => .nan
  | _, .nan => .nan
  | .inf a, .inf b => .inf (a != b)
  | .inf a, .fin b m _ => if m = 0 then .nan else .inf (a != b)
  | .fin a m _, .inf b => if m = 0 then .nan else .inf (a != b)
  | .fin a m e, .fin b n k => .fin (a != b) (m * n) (e + k)

/-- Signed integer significand of a finite value at exponent e, which is not above its own. -/
def scaled (n : Bool) (m : Nat) (e base : Int) : Int := (if n then -1 else 1) * (m * 2 ^ (e - base).toNat : Nat)

/-- Exact sum; an exact zero is +0 unless both operands are negative (rounding to nearest). -/
def Fp.add (x y : Fp) : Fp :=
  match x, y with
  | .nan, _ => .nan
  | _, .nan => .nan
  | .inf a, .inf b => if a = b then .inf a else .nan
  | .inf a, _ => .inf a
  | _, .inf b => .inf b
  | .fin a m e, .fin b n k =>
    let base := min e k
    let t := scaled a m e base + scaled b n k base
    if t = 0 then .fin (a && b) 0 0 else .fin (decide (t < 0)) t.natAbs base

/-- A result that is subnormal in binary32 becomes a zero of its sign (FTZ_OUT, R173). -/
def ftz (on : Bool) (f : Fmt) (x : Fp) : Fp :=
  match x with
  | .fin n m e => if on ∧ m ≠ 0 ∧ e + Nat.log2 m < f.emin then .fin n 0 0 else x
  | _ => x

/-- binary32 fused multiply-add and addition, with FTZ_OUT. -/
def fma32 (fz : Bool) (x y z : Fp) : Fp := ftz fz f32 (f32.round false ((x.mul y).add z))
def add32 (fz : Bool) (x y : Fp) : Fp := ftz fz f32 (f32.round false (x.add y))

/-- The quotient with at least 62 significant bits and a last bit that says whether anything is left over, so that rounding
it is rounding the exact quotient. -/
def Fp.div (x y : Fp) : Fp :=
  match x, y with
  | .nan, _ => .nan
  | _, .nan => .nan
  | .inf _, .inf _ => .nan
  | .inf n, .fin k _ _ => .inf (n != k)
  | .fin n _ _, .inf k => .fin (n != k) 0 0
  | .fin n m e, .fin k d f =>
    if d = 0 then (if m = 0 then .nan else .inf (n != k))
    else
      let q := m * 2 ^ 88 / d
      .fin (n != k) (2 * q + (if m * 2 ^ 88 % d = 0 then 0 else 1)) (e - f - 89)

/-- The greatest r with r² ≤ n; `bits` bounds the bits of r. -/
def isqrt (n : Nat) : Nat → Nat → Nat
  | 0, r => r
  | bits + 1, r => isqrt n bits (if (r + 2 ^ bits) * (r + 2 ^ bits) ≤ n then r + 2 ^ bits else r)

/-- The square root, likewise exact enough to be rounded. -/
def Fp.sqrt (x : Fp) : Fp :=
  match x with
  | .fin n m e =>
    if m = 0 then x
    else if n then .nan
    else
      let odd := (e % 2).toNat
      let w := m * 2 ^ odd * 2 ^ 128
      let r := isqrt w 128 0
      .fin false (2 * r + (if r * r = w then 0 else 1)) ((e - odd) / 2 - 65)
  | .inf false => x
  | _ => .nan

/-- |x − y| of finite values, as a dyadic (significand, exponent). -/
def absDiff (x y : Fp) : Nat × Int :=
  match x, y with
  | .fin a m e, .fin b n k =>
    let base := min e k
    ((scaled a m e base - scaled b n k base).natAbs, base)
  | _, _ => (0, 0)

/-- Exponent of ulp(x) in a format (R175, R257). -/
def ulpExp (f : Fmt) (x : Fp) : Int :=
  match x with
  | .fin _ m e => if m = 0 then f.emin - (f.prec - 1 : Nat) else max (e + Nat.log2 m) f.emin - (f.prec - 1 : Nat)
  | _ => 0

/-- ceil(d × 2^e / 2^u). -/
def ceilUlps (d : Nat) (e u : Int) : Nat := if u ≤ e then d * 2 ^ (e - u).toNat else ceilDiv d (2 ^ (u - e).toNat)

/-- The larger of two magnitudes. -/
def Fp.maxAbs (x y : Fp) : Fp :=
  match x.abs, y.abs with
  | .fin a m e, .fin b n k =>
    let base := min e k
    if scaled a m e base < scaled b n k base then .fin b n k else .fin a m e
  | u, _ => u

/-- One pairwise round of R170. -/
def pairRound (fz : Bool) : List Fp → List Fp
  | x :: y :: r => add32 fz x y :: pairRound fz r
  | l => l

/-- The pairwise sum of R170; `fuel` is the number of values. -/
def pairSum (fz : Bool) : Nat → List Fp → Fp
  | _, [] => .fin false 0 0
  | _, [x] => x
  | 0, x :: _ => x
  | n + 1, l => pairSum fz n (pairRound fz l)

/-- Consecutive groups of n. -/
def groups {α : Type} (n : Nat) : Nat → List α → List (List α)
  | 0, _ => []
  | f + 1, l => if l.isEmpty then [] else l.take n :: groups n f (l.drop n)

/-- The dot product of R174: fused chains over chunks of 64, then the pairwise sum. -/
def chainDot (fz : Bool) (xs ws : List Fp) : Fp :=
  let s := (groups 64 xs.length (xs.zip ws)).map fun g =>
    g.foldl (fun a (x, w) => fma32 fz x w a) (.fin false 0 0)
  pairSum fz s.length s

/-- The dot product of R170, the product exact and the sum rounded. -/
def chunkDot (fz : Bool) (xs ws : List Fp) : Fp :=
  let s := (groups 64 xs.length (xs.zip ws)).map fun g =>
    g.foldl (fun a (x, w) => add32 fz a (x.mul w)) (.fin false 0 0)
  pairSum fz s.length s

end Sys2Proof.Machine
end

