-- ==== Sys2Proof/Machine/PlanFmt.lean ====
section
/-! DEFINITION. The formats of the audit plan and of the weight image, their checks, and what a challenge opens (R167,
R177 to R186, R221 to R231). -/

namespace Sys2Proof.Machine

/-! ### Profiles and element types -/

/-- Exact audit arithmetic profiles (R167). -/
def profExact (p : Nat) : Bool := p == 1 || p == 2
def profValid (p : Nat) : Bool := [1, 2, 0x10, 0x11, 0x12, 0x13].contains p
/-- Element types of X and W of a profile, by the codes of R222 (R167). -/
def profX (p : Nat) : Nat := if p = 1 ∨ p = 2 then 1 else p
def profW (p : Nat) : Nat := if p = 2 then 2 else p
/-- Half bytes per weight. -/
def profW2 (p : Nat) : Nat := if p = 2 then 1 else if p = 0x12 ∨ p = 0x13 then 4 else 2
/-- ES of a projection block (R124). -/
def profEs (p : Nat) : Nat := if profExact p then 8 else 4
/-- Quarter rate (R167). -/
def profCost (p : Nat) : Nat := if p = 0x12 ∨ p = 0x13 then 4 else 1

/-- Element size in half bytes; 0 for a reserved ETYPE (R222). -/
def es2 (t : Nat) : Nat :=
  if t = 2 then 1 else if t = 1 ∨ t = 0x10 ∨ t = 0x11 then 2 else if t = 0x12 ∨ t = 0x13 then 4
  else if t = 3 ∨ t = 0x14 then 8 else 0

def isFloat (t : Nat) : Bool := [0x10, 0x11, 0x12, 0x13, 0x14].contains t

/-- Format of a floating element type (R168, R222). -/
def fmtOf (t : Nat) : Fmt :=
  if t = 0x10 then e4m3 else if t = 0x11 then e5m2 else if t = 0x12 then bf16 else if t = 0x13 then f16 else f32

/-! ### Fields of a plan image -/

def planLayers (b : Bytes) : Nat := rd b 12 2
def planTensors (b : Bytes) : Nat := rd b 14 2
def planTag (b : Bytes) : Nat := rd b 16 8
def planSeed (b : Bytes) : Bytes := slice b 24 32
def planWDigest (b : Bytes) : Bytes := slice b 56 32
def planFloor (b : Bytes) : Nat := rd b 88 1
def planStepOff (b : Bytes) : Nat := rd b 100 4
def planChlOff (b : Bytes) : Nat := rd b 104 4
def planSigOff (b : Bytes) : Nat := rd b 108 4
def planSteps (b : Bytes) : Nat := rd b (planStepOff b) 2
def planTargets (b : Bytes) : Nat := rd b (planChlOff b) 2
def planChlTotal (b : Bytes) : Nat := rd b (planChlOff b + 2) 2
/-- Field at an offset of layer, tensor, step and target entry i. -/
def lyr (b : Bytes) (i off n : Nat) : Nat := rd b (256 + 64 * i + off) n
def tns (b : Bytes) (i off n : Nat) : Nat := rd b (rd b 96 4 + 32 * i + off) n
def stp (b : Bytes) (i off n : Nat) : Nat := rd b (planStepOff b + 16 + 32 * i + off) n
def tgt (b : Bytes) (i off n : Nat) : Nat := rd b (planChlOff b + 16 + 32 * i + off) n

def lyrProf (b : Bytes) (i : Nat) : Nat := lyr b i 4 1
def lyrP (b : Bytes) (i : Nat) : Nat := lyr b i 5 1
def lyrK (b : Bytes) (i : Nat) : Nat := lyr b i 12 4
def lyrN (b : Bytes) (i : Nat) : Nat := lyr b i 16 4
def lyrTol (b : Bytes) (i : Nat) : Nat := lyr b i 20 4
/-- FTZ_IN and FTZ_OUT of a flags byte (R172, R173, R185). -/
def ftzIn (f : Nat) : Bool := bitAt f 0
def ftzOut (f : Nat) : Bool := bitAt f 1

def tnsType (b : Bytes) (i : Nat) : Nat := tns b i 2 1
def tnsTile (b : Bytes) (i : Nat) : Bool := tns b i 3 1 == 1
def tnsRows (b : Bytes) (i : Nat) : Nat := tns b i 4 4
def tnsCols (b : Bytes) (i : Nat) : Nat := tns b i 8 4
def tnsLen (b : Bytes) (i : Nat) : Nat := tns b i 16 8
/-- LEAF_COUNT and DEPTH of a tensor (R125). -/
def tnsLeaves (b : Bytes) (i : Nat) : Nat := ceilDiv (tnsLen b i) 4096
def leafDepth (n : Nat) : Nat := if n ≤ 1 then 0 else Nat.log2 (n - 1) + 1
def tnsDepth (b : Bytes) (i : Nat) : Nat := leafDepth (tnsLeaves b i)

def stpOp (b : Bytes) (i : Nat) : Nat := stp b i 0 1

/-- The first entry of a list of checks that does not hold. -/
def firstBad {α : Type} (l : List (Bool × α)) : Option α := (l.find? fun x => !x.1).map (·.2)

/-- The first index below n that breaks a rule. -/
def firstIdx (n : Nat) (ok : Nat → Bool) : Option Nat := (List.range n).find? fun i => !ok i

/-! ### Checks of a plan image -/

/-- Header of a plan (R184). -/
def planHeaderOk (b : Bytes) : Bool :=
  256 ≤ b.length && rd b 0 4 == 0x50414C43 && rd b 4 1 == 1 && rd b 5 1 == 1 && rd b 6 2 == 256 &&
  rd b 8 4 == b.length && planLayers b ≤ 4096 && 1 ≤ planFloor b && zeroAt b 89 3 && rd b 92 4 == 256 && zeroAt b 112 144

/-- Layer entry i (R177, R178, R185). -/
def layerOk (b : Bytes) (i : Nat) : Bool :=
  let p := lyrProf b i
  let fl := lyr b i 7 1
  let tol := lyrTol b i
  let tid (v : Nat) : Bool := v == 0xFFFF || v < planTensors b
  lyr b i 0 4 == i && profValid p && 1 ≤ lyrP b i && lyrP b i ≤ 4 &&
  lyr b i 6 1 == (if profExact p then 0 else 1) && (if profExact p then fl == 0 else fl < 4) &&
  1 ≤ lyr b i 8 4 && lyr b i 8 4 ≤ 1048576 && 64 ≤ lyrK b i && lyrK b i ≤ 65536 && lyrK b i % 64 == 0 &&
  1 ≤ lyrN b i && lyrN b i ≤ 65536 && (if profExact p then tol == 0 else 1 ≤ tol && tol ≤ 1048575) &&
  tid (lyr b i 24 2) && tid (lyr b i 26 2) && zeroAt b (256 + 64 * i + 28) 36

/-- Start of the parameter area (R221). -/
def planParamOff (b : Bytes) : Nat := alignUp (planChlOff b + 16 + 32 * planTargets b) 64

/-- Offsets and padding of a plan (R221). -/
def planOffsetsOk (b : Bytes) : Bool :=
  let t := rd b 96 4
  let s := planStepOff b
  let c := planChlOff b
  let g := planSigOff b
  t == 256 + 64 * planLayers b && s == alignUp (t + 32 * planTensors b) 64 &&
  c == alignUp (s + 16 + 32 * planSteps b) 64 && planParamOff b ≤ g && g + 2420 == b.length &&
  zeroAt b (t + 32 * planTensors b) (s - (t + 32 * planTensors b)) &&
  zeroAt b (s + 16 + 32 * planSteps b) (c - (s + 16 + 32 * planSteps b)) &&
  zeroAt b (c + 16 + 32 * planTargets b) (planParamOff b - (c + 16 + 32 * planTargets b))

/-- Tensor entry i (R222), and its layout (R223). -/
def tensorOk (b : Bytes) (i : Nat) : Bool :=
  tns b i 0 2 == i && es2 (tnsType b i) != 0 && tns b i 3 1 < 2 && 1 ≤ tnsRows b i && tnsRows b i ≤ 1048576 &&
  1 ≤ tnsCols b i && tnsCols b i ≤ 65536 && tns b i 12 4 == 0 &&
  tnsLen b i == ceilDiv (tnsRows b i * tnsCols b i * es2 (tnsType b i)) 2 && tns b i 24 8 == 0
def layoutOk (b : Bytes) (i : Nat) : Bool := !tnsTile b i || (tnsRows b i % 64 == 0 && tnsCols b i % 64 == 0)

def rowOp (op : Nat) : Bool := op == 0x20 || op == 0x21

/-- Length of an operation's parameters for `cols` columns (R225). -/
def opParamLen (op cols : Nat) : Nat :=
  if op = 0x10 then 12 * cols else if op = 0x11 then 256 else if op = 0x12 ∨ op = 0x21 then 8 * cols
  else if op = 0x13 then 131072 else 0

/-- Input and output types an operation allows (R225). -/
def opTypes (op tin tout : Nat) : Bool :=
  if op = 0x10 then tin == 3 && tout == 1
  else if op = 0x11 then tin == 1 && tout == 1
  else if op = 0x12 then tin == 0x14 && isFloat tout
  else if op = 0x13 then (tin == 0x12 || tin == 0x13) && tout == tin
  else if op = 0x14 then tout == tin
  else if rowOp op then [0x12, 0x13, 0x14].contains tin && isFloat tout
  else false

/-- PARAM_LEN is one that the operation table allows for some number of columns (R224, R225). -/
def paramLenOk (op n : Nat) : Bool :=
  if op = 0x10 then n != 0 && n % 12 == 0 else if op = 0x12 ∨ op = 0x21 then n != 0 && n % 8 == 0
  else opParamLen op 0 == n

/-- OUT_ETYPE is one that the operation table allows; an operation that is not in the table is judged elsewhere (R225). -/
def outTypeOk (op prof t : Nat) : Bool :=
  if op = 1 then t == 3 || t == 0x14 else if op = 2 then t == (if profExact prof then 3 else 0x14)
  else !([0x10, 0x11, 0x12, 0x13, 0x14, 0x20, 0x21].contains op) || [1, 2, 3, 0x10, 0x11, 0x12, 0x13, 0x14].any fun x => opTypes op x t

/-- Step entry i (R224). -/
def stepOk (b : Bytes) (i : Nat) : Bool :=
  let op := stpOp b i
  let pr := stp b i 1 1
  let fl := stp b i 3 1
  (if op = 2 then profValid pr && stp b i 2 1 == (if profExact pr then 0 else 1) && (if profExact pr then fl == 0 else fl < 4)
   else pr == 0 && stp b i 2 1 == 0 && fl == 0) &&
  (op == 1 || stp b i 4 2 == 0xFFFF) && es2 (stp b i 6 1) != 0 && stp b i 7 1 == 0 &&
  (stp b i 12 4 != 0 || stp b i 8 4 == 0) && paramLenOk op (stp b i 12 4) && outTypeOk op pr (stp b i 6 1) && (op == 0x21 || stp b i 16 4 == 0) &&
  zeroAt b (planStepOff b + 16 + 32 * i + 20) 12

/-- OP is one of R225. -/
def opOk (b : Bytes) (i : Nat) : Bool := [1, 2, 0x10, 0x11, 0x12, 0x13, 0x14, 0x20, 0x21].contains (stpOp b i)

/-- Target entry i (R226). -/
def targetOk (b : Bytes) (i : Nat) : Bool :=
  let cmp := tgt b i 13 1
  tgt b i 0 2 == i && tgt b i 2 2 ≤ 895 && 1 ≤ tgt b i 12 1 && tgt b i 12 1 ≤ 8 && cmp < 2 &&
  1 ≤ tgt b i 14 2 && tgt b i 14 2 ≤ 256 && 32 ≤ tgt b i 16 2 && tgt b i 16 2 ≤ 4096 && tgt b i 16 2 % 32 == 0 &&
  tgt b i 18 2 == 0 && (if cmp = 0 then tgt b i 20 4 == 0 else 1 ≤ tgt b i 20 4 && tgt b i 20 4 ≤ 65535) &&
  tgt b i 24 8 == 0

/-- Profile, flags, K and N of a target's product (R225, R227). -/
def tgtAa (b : Bytes) (i : Nat) : Bool := stpOp b (tgt b i 10 2) == 2
def tgtLayer (b : Bytes) (i : Nat) : Nat := stp b (tgt b i 10 2) 4 2
def tgtProf (b : Bytes) (i : Nat) : Nat := if tgtAa b i then stp b (tgt b i 10 2) 1 1 else lyrProf b (tgtLayer b i)
def tgtFlags (b : Bytes) (i : Nat) : Nat := if tgtAa b i then stp b (tgt b i 10 2) 3 1 else lyr b (tgtLayer b i) 7 1
def tgtK (b : Bytes) (i : Nat) : Nat := tnsCols b (tgt b i 4 2)
def tgtRows (b : Bytes) (i : Nat) : Nat := tgt b i 14 2
def tgtCols (b : Bytes) (i : Nat) : Nat := tgt b i 16 2
/-- Indexes of a target's steps. -/
def tgtSteps (b : Bytes) (i : Nat) : List Nat := (List.range (tgt b i 12 1)).map (tgt b i 10 2 + ·)
/-- Tiles of a target. -/
def tgtTiles (b : Bytes) (i : Nat) : Nat := (tnsRows b (tgt b i 8 2) / tgtRows b i) * (tnsCols b (tgt b i 8 2) / tgtCols b i)

/-- REQUANT parameters of one column are in range (R225, R227). -/
def requantOk (b : Bytes) (off : Nat) : Bool :=
  1 ≤ rd b (off + 4) 4 && rd b (off + 4) 4 ≤ 2 ^ 30 && 1 ≤ rd b (off + 8) 1 && rd b (off + 8) 1 ≤ 62 && rd b (off + 10) 2 == 0

/-- The types along a target's later steps fit (R227). -/
def chainOk (b : Bytes) (out : Nat) : Nat → List Nat → Bool
  | t, [] => t == out
  | t, i :: r => opTypes (stpOp b i) t (stp b i 6 1) && chainOk b out (stp b i 6 1) r

/-- Working set of a target in half bytes (R227). -/
def workingSet2 (b : Bytes) (i : Nat) : Nat :=
  let k := tgtK b i
  tgtRows b i * k * es2 (tnsType b (tgt b i 4 2)) + tgtRows b i * tgtCols b i * 8 + 64 * k * profW2 (tgtProf b i)

/-- The rules of R227 for target i but for the working set. -/
def targetFits (b : Bytes) (i : Nat) : Bool :=
  let a := tgt b i 4 2
  let bb := tgt b i 6 2
  let o := tgt b i 8 2
  let first := tgt b i 10 2
  let steps := tgtSteps b i
  let aa := tgtAa b i
  let prof := tgtProf b i
  let k := tgtK b i
  let cols := tnsCols b o
  let tol := steps.any fun j => rowOp (stpOp b j)
  let acc := if profExact prof then 3 else 0x14
  first + tgt b i 12 1 ≤ planSteps b && (stpOp b first == 1 || aa) &&
  (steps.drop 1).all (fun j => stpOp b j != 1 && stpOp b j != 2) &&
  a < planTensors b && o < planTensors b && (if aa then bb < planTensors b else bb == 0xFFFF) &&
  a != o && a != bb && bb != o && (aa || tgtLayer b i < planLayers b) &&
  tnsType b a == profX prof && stp b first 6 1 == acc && chainOk b (tnsType b o) acc (steps.drop 1) &&
  tnsRows b a == tnsRows b o &&
  (if aa then tnsType b bb == profW prof && tnsCols b bb == k && tnsRows b bb == cols && 64 ≤ k && k % 64 == 0
   else lyrK b (tgtLayer b i) == k && lyrN b (tgtLayer b i) == cols) &&
  tnsRows b o % tgtRows b i == 0 && cols % tgtCols b i == 0 && tgt b i 2 2 ≤ tgtTiles b i &&
  (!tol || tgtCols b i == cols) && (tgt b i 13 1 == 1) == tol &&
  steps.all fun j =>
    let op := stpOp b j
    let po := stp b j 8 4
    let n := opParamLen op cols
    stp b j 12 4 == n && (n == 0 || (planParamOff b ≤ po && po + n ≤ planSigOff b)) &&
    (op != 0x10 || (List.range cols).all fun c => requantOk b (po + 12 * c))

/-- How the checks of a plan image end: passed; a plan code with LAYER, and REASON and INDEX for CHL_PLN_REFUSE; or a
working set above the limit (R228). -/
inductive PlanCheck where
  | ok
  | bad (code layer reason index : Nat)
  | wide (target need : Nat)
deriving DecidableEq, Repr, Inhabited

/-- The limit of the working set, bytes (R227). -/
def workingSetMax : Nat := 1835008

/-- The checks of a plan image but for its signature (R178, R184, R185, R221 to R228). -/
def checkPlan (b : Bytes) : PlanCheck :=
  if !planHeaderOk b then .bad 0x11 0 0 0
  else match firstIdx (planLayers b) (layerOk b) with
  | some l => .bad 0x12 l 0 0
  | none =>
  if !planOffsetsOk b then .bad 0x11 0 1 0
  else if 1024 < planTensors b then .bad 0x11 0 2 0
  else match firstIdx (planTensors b) (tensorOk b) with
  | some i => .bad 0x11 0 2 i
  | none => match firstIdx (planTensors b) (layoutOk b) with
  | some i => .bad 0x11 0 3 i
  | none =>
  if planSteps b = 0 ∨ 4096 < planSteps b ∨ zeroAt b (planStepOff b + 2) 14 = false then .bad 0x11 0 4 0
  else match firstIdx (planSteps b) (stepOk b) with
  | some i => .bad 0x11 0 4 i
  | none => match firstIdx (planSteps b) (opOk b) with
  | some i => .bad 0x11 0 5 i
  | none =>
  if 1024 < planTargets b ∨ zeroAt b (planChlOff b + 4) 12 = false ∨
     planChlTotal b ≠ ((List.range (planTargets b)).foldl (fun a i => a + tgt b i 2 2) 0) then .bad 0x11 0 6 0
  else match firstIdx (planTargets b) (targetOk b) with
  | some i => .bad 0x11 0 6 i
  | none => match firstIdx (planTargets b) (targetFits b) with
  | some i => .bad 0x11 0 7 i
  | none => match firstIdx (planTargets b) (fun i => workingSet2 b i ≤ 2 * workingSetMax) with
  | some i => .wide i (ceilDiv (workingSet2 b i) 2)
  | none => .ok

/-! ### The weight image -/

def wLayers (w : Bytes) : Nat := rd w 24 2
def wTag (w : Bytes) : Nat := rd w 16 8
def wSigOff (w : Bytes) : Nat := rd w 28 4
/-- Field of layer table entry i of a weight image (R180). -/
def wl (w : Bytes) (i off n : Nat) : Nat := rd w (256 + 64 * i + off) n
/-- The entry of layer l. -/
def wEntry (w : Bytes) (l : Nat) : Option Nat := (List.range (wLayers w)).find? fun i => wl w i 0 4 == l

/-- Header and layer table of a weight image (R179, R180); every layer's data lies in the image. -/
def weightOk (w : Bytes) : Bool :=
  let n := wLayers w
  let len (i : Nat) := ceilDiv (wl w i 12 4) 32 * wl w i 8 4 * 16 * profW2 (wl w i 4 1)
  let offs := (List.range n).foldl (fun (p : Nat × Bool) i =>
    (alignUp (p.1 + len i) 4096, p.2 && wl w i 16 8 == p.1 && wl w i 24 8 == len i && decide (p.1 + len i ≤ w.length) && profValid (wl w i 4 1) &&
      1 ≤ wl w i 8 4 && 1 ≤ wl w i 12 4 && zeroAt w (256 + 64 * i + 5) 3 && (i == 0 || wl w (i - 1) 0 4 < wl w i 0 4)))
    (rd w 32 8, true)
  256 ≤ w.length && rd w 0 4 == 0x57414C43 && rd w 4 1 == 1 && rd w 5 1 == 2 && rd w 6 2 == 256 && rd w 8 8 == w.length &&
  1 ≤ n && n ≤ 4096 && rd w 26 2 == 0 && wSigOff w == 256 + 64 * n && rd w 32 8 == alignUp (wSigOff w + 2420) 4096 &&
  zeroAt w 40 216 && offs.2

/-- Data bytes of layer entry i. -/
def wData (w : Bytes) (i : Nat) : Bytes := slice w (wl w i 16 8) (wl w i 24 8)

/-- Raw element e of a run of elements of half-byte size h at offset off: its bit pattern. -/
def elemAt (w : Bytes) (off h e : Nat) : Nat :=
  if h = 1 then fld (rd w (off + e / 2) 1) (4 * (e % 2)) 4 else rd w (off + e * (h / 2)) (h / 2)

/-- Bit pattern of W[k][n] of layer entry i (R181). -/
def wPattern (w : Bytes) (i k n : Nat) : Nat :=
  let h := profW2 (wl w i 4 1)
  let kk := wl w i 8 4
  elemAt w (wl w i 16 8 + (n / 32) * kk * 16 * h) h (k * 32 + n % 32)

/-- A layer of a floating profile holds a NaN or an infinity (R183). -/
def wNonFinite (w : Bytes) (i : Nat) : Bool :=
  let p := wl w i 4 1
  !profExact p && (List.range (wl w i 24 8 * 2 / profW2 p)).any fun e =>
    !((fmtOf p).decode (elemAt w (wl w i 16 8) (profW2 p) e)).isFinite

/-- The plan's layer l has an entry with the same profile, K and N (R190). -/
def layerMatches (b w : Bytes) (l : Nat) : Bool :=
  match wEntry w l with
  | some i => wl w i 4 1 == lyrProf b l && wl w i 8 4 == lyrK b l && wl w i 12 4 == lyrN b l
  | none => false

/-! ### The audit stream -/

/-- Column blocks of the plan's layers in stream order: layer, block, bytes (R181, "Rotation"). -/
def planBlocks (b : Bytes) : List (Nat × Nat × Nat) :=
  (List.range (planLayers b)).flatMap fun l =>
    (List.range (ceilDiv (lyrN b l) 32)).map fun j => (l, j, lyrK b l * 16 * profW2 (lyrProf b l))

/-- Length of the audit stream in bytes. -/
def streamLen (b : Bytes) : Nat := (planBlocks b).foldl (fun a x => a + x.2.2) 0

/-- Block numbers at which the shares start under a capacity in half bytes (R205). -/
def shareStarts (cap2 : Nat) : Nat → Nat → List (Nat × Nat × Nat) → List Nat
  | _, _, [] => []
  | i, acc, (_, _, n) :: r =>
    if acc = 0 then i :: shareStarts cap2 (i + 1) n r
    else if 2 * (acc + n) ≤ cap2 then shareStarts cap2 (i + 1) (acc + n) r
    else i :: shareStarts cap2 (i + 1) n r

/-- Every block fits the capacity, so a division exists. -/
def sharesFit (cap2 : Nat) (b : Bytes) : Bool := (planBlocks b).all fun x => 2 * x.2.2 ≤ cap2

/-! ### Leaves of a challenge -/

/-- Runs of elements of rows r0 to r0 + h − 1, columns c0 to c0 + w − 1, as (first element index, count) (R223). -/
def elemRuns (b : Bytes) (t r0 h c0 w : Nat) : List (Nat × Nat) :=
  let cols := tnsCols b t
  if tnsTile b t then
    (List.range h).flatMap fun i =>
      let r := r0 + i
      let t0 := c0 / 64
      let t1 := (c0 + w - 1) / 64
      (List.range (t1 - t0 + 1)).map fun k =>
        let tc := t0 + k
        let lo := max c0 (tc * 64)
        let hi := min (c0 + w) (tc * 64 + 64)
        ((r / 64 * (cols / 64) + tc) * 4096 + r % 64 * 64 + lo % 64, hi - lo)
  else if w = cols then [(r0 * cols, h * cols)]
  else (List.range h).map fun i => ((r0 + i) * cols + c0, w)

/-- Distinct leaves of a region of tensor t, ascending (R230). -/
def leavesOf (b : Bytes) (t r0 h c0 w : Nat) : List Nat :=
  let e := es2 (tnsType b t)
  (elemRuns b t r0 h c0 w).foldl (fun acc (j, n) =>
    let lo := j * e / 2 / 4096
    let hi := (ceilDiv ((j + n) * e) 2 - 1) / 4096
    (List.range (hi - lo + 1)).foldl (fun a k => insNat (lo + k) a) acc) []

/-- Opened leaves of a tile of target i in the order A, B, OUT: (tensor, leaf) (R230). -/
def opened (b : Bytes) (i tr tc : Nat) : List (Nat × Nat) :=
  let a := tgt b i 4 2
  let bb := tgt b i 6 2
  let o := tgt b i 8 2
  let r0 := tr * tgtRows b i
  let c0 := tc * tgtCols b i
  let mk (t : Nat) (l : List Nat) := l.map fun x => (t, x)
  mk a (leavesOf b a r0 (tgtRows b i) 0 (tnsCols b a)) ++
  (if tgtAa b i then mk bb (leavesOf b bb c0 (tgtCols b i) 0 (tnsCols b bb)) else []) ++
  mk o (leavesOf b o r0 (tgtRows b i) c0 (tgtCols b i))

/-- Opening bytes of a tile (R231). -/
def openBytes (b : Bytes) (i tr tc : Nat) : Nat :=
  (opened b i tr tc).foldl (fun a (t, _) => a + 4096 + 32 * tnsDepth b t) 0

/-- Largest opening bytes of any tile of target i, and the plan's worst case (R231). -/
def tgtWorst (b : Bytes) (i : Nat) : Nat :=
  let w := tnsCols b (tgt b i 8 2) / tgtCols b i
  (List.range (tgtTiles b i)).foldl (fun a t => max a (openBytes b i (t / w) (t % w))) 0
def planWorst (b : Bytes) : Nat := (List.range (planTargets b)).foldl (fun a i => a + tgt b i 2 2 * tgtWorst b i) 0

/-- Largest opening window of a plan (R240). -/
def planWindow (b : Bytes) : Nat :=
  (List.range (planTargets b)).foldl (fun a i => a + tgt b i 2 2 * alignUp (128 + tgtWorst b i) 4096) 0

/-- Challenge term of the Stoat load (R235). -/
def planTileLoad (b : Bytes) : Nat :=
  (List.range (planTargets b)).foldl (fun a i =>
    let n := tgt b i 2 2 * tgtRows b i * tgtCols b i
    a + n * tgtK b i * profCost (tgtProf b i) + (if (tgtSteps b i).any fun j => rowOp (stpOp b j) then 16 * n else 0)) 0

/-- Audit term of the Stoat load: the cost of the share with the most bytes, of equals the dearest (R235); the shares as
blocks from start numbers. -/
def planAuditLoad (b : Bytes) (starts : List Nat) : Nat :=
  let cost (x : Nat × Nat × Nat) := lyrP b x.1 * (2 * x.2.2 / profW2 (lyrProf b x.1)) * profCost (lyrProf b x.1)
  let blocks := planBlocks b
  let shares := (starts.zip (starts.drop 1 ++ [blocks.length])).map fun (lo, hi) =>
    ((blocks.drop lo).take (hi - lo)).foldl (fun (a : Nat × Nat) x => (a.1 + x.2.2, a.2 + cost x)) (0, 0)
  (shares.foldl (fun a x => if a.1 < x.1 ∨ (a.1 = x.1 ∧ a.2 < x.2) then x else a) (0, 0)).2

end Sys2Proof.Machine
end

