-- ==== Sys2Proof/Machine/AuditMath.lean ====
section
/-! DEFINITION. The arithmetic of the linear audit and of tile recomputation: comparisons of a column block (R169,
R174 to R176, R199) and of a tile's elements (R215, R225, R256, R257), Merkle paths (R251). -/

namespace Sys2Proof.Machine

/-! ### Where a report keeps its sections (R123 to R125) -/

/-- Offset of the projection section. -/
def prjOff : Nat := 74048
def prjBlockLen (img : Bytes) (l : Nat) : Nat := alignUp (16 + lyrP img l * (lyrK img l + lyrN img l) * profEs (lyrProf img l)) 64
def prjBlockOff (img : Bytes) (l : Nat) : Nat := (List.range l).foldl (fun a i => a + prjBlockLen img i) prjOff
def mrkOff (img : Bytes) : Nat := prjBlockOff img (planLayers img)
def mrkEntry (img : Bytes) (t : Nat) : Nat := mrkOff img + 64 * t
/-- ROOT that a report carries for tensor t. -/
def reportRoot (img rep : Bytes) (t : Nat) : Bytes := slice rep (mrkEntry img t + 32) 32
/-- Bit patterns of QX[v][k] and QY[v][n] of layer l. -/
def qxAt (img rep : Bytes) (l v k : Nat) : Nat :=
  let es := profEs (lyrProf img l)
  rd rep (prjBlockOff img l + 16 + (v * lyrK img l + k) * es) es
def qyAt (img rep : Bytes) (l v n : Nat) : Nat :=
  let es := profEs (lyrProf img l)
  rd rep (prjBlockOff img l + 16 + (lyrP img l * lyrK img l + v * lyrN img l + n) * es) es

/-! ### One comparison -/

/-- The outcome of one comparison: the item code (2 passed, else R210), deviation in ulps rounded up, and the values a
record carries (R456). -/
structure Comparison where
  vec : Nat := 0
  col : Nat := 0
  code : Nat := 2
  dev : Nat := 0
  qy : Nat := 0
  r : Nat := 0
  m : Nat := 0
deriving DecidableEq, Repr, Inhabited

/-- FTZ_IN (R172, R174): subnormal weights count as zeros. -/
def ftzElem (on : Bool) (f : Fmt) (x : Fp) : Fp := ftz on f x

/-- The comparison of vector v at column n of layer l against weight entry i (R169, R174 to R176). -/
def compareAt (img w rep : Bytes) (l i v n : Nat) : Comparison :=
  let prof := lyrProf img l
  let ks := List.range (lyrK img l)
  let qy := qyAt img rep l v n
  if profExact prof then
    let bits := if prof = 2 then 4 else 8
    let r := ks.foldl (fun a k => a + sgn 64 (qxAt img rep l v k) * sgn bits (wPattern w i k n)) (0 : Int)
    { vec := v, col := n, code := if r = sgn 64 qy then 2 else 0x10, qy := qy, r := toBits 128 r }
  else
    let fl := lyr img l 7 1
    let f := fmtOf (profW prof)
    let xs := ks.map fun k => f32.decode (qxAt img rep l v k)
    let ws := ks.map fun k => ftzElem (ftzIn fl) f (f.decode (wPattern w i k n))
    let r := chainDot (ftzOut fl) xs ws
    let m := chainDot (ftzOut fl) (xs.map Fp.abs) (ws.map Fp.abs)
    let y := f32.decode qy
    let base : Comparison := { vec := v, col := n, qy := qy, r := f32.encode r, m := f32.encode m }
    if xs.all Fp.isFinite && y.isFinite && r.isFinite && m.isFinite then
      let (d, e) := absDiff y r
      let dev := ceilUlps d e (ulpExp f32 m)
      { base with code := if dev ≤ lyrTol img l then 2 else 0x11, dev := dev }
    else { base with code := 0x12, dev := 0xFFFFFFFF }

/-- The comparisons of column block j of layer l, by column and then vector (R199). -/
def compareBlock (img w rep : Bytes) (l j : Nat) : List Comparison :=
  match wEntry w l with
  | none => []
  | some i =>
    ((List.range 32).filter fun c => 32 * j + c < lyrN img l).flatMap fun c =>
      (List.range (lyrP img l)).map fun v => compareAt img w rep l i v (32 * j + c)

/-! ### Opened tiles -/

/-- A leaf of an opening: tensor, leaf index and offset of its bytes in the opening. -/
structure LeafAt where
  tensor : Nat := 0
  leaf : Nat := 0
  off : Nat := 0
deriving DecidableEq, Repr, Inhabited

/-- The leaf records of an opening in order (R246). -/
def leafTable (img : Bytes) : Nat → List (Nat × Nat) → List LeafAt
  | _, [] => []
  | off, (t, l) :: r => { tensor := t, leaf := l, off := off } :: leafTable img (off + 4096 + 32 * tnsDepth img t) r

/-- Leaf record k of an opening reaches the ROOT of the report (R251). -/
def leafReaches (img rep opening : Bytes) (x : LeafAt) : Bool :=
  let h0 := sha3 ([0] ++ le 4 x.tensor ++ le 4 x.leaf ++ slice opening x.off 4096)
  let go := (List.range (tnsDepth img x.tensor)).foldl (fun (p : Bytes × Nat) s =>
    let sib := slice opening (x.off + 4096 + 32 * s) 32
    (if p.2 % 2 = 0 then sha3 ([1] ++ p.1 ++ sib) else sha3 ([1] ++ sib ++ p.1), p.2 / 2)) (h0, x.leaf)
  go.1 == reportRoot img rep x.tensor

/-- Bit pattern of element (r, c) of tensor t in an opening; 0 where no leaf holds it (R223). -/
def openElem (img opening : Bytes) (tbl : List LeafAt) (t r c : Nat) : Nat :=
  let e := es2 (tnsType img t)
  let cols := tnsCols img t
  let j := if tnsTile img t then (r / 64 * (cols / 64) + c / 64) * 4096 + r % 64 * 64 + c % 64 else r * cols + c
  let byte := j * e / 2
  match tbl.find? fun x => x.tensor == t && x.leaf == byte / 4096 with
  | some x =>
    if e = 1 then fld (rd opening (x.off + byte % 4096) 1) (4 * (j % 2)) 4 else rd opening (x.off + byte % 4096) (e / 2)
  | none => 0

/-! ### Steps after the product -/

/-- Signed value of an integer element type. -/
def intVal (t v : Nat) : Int := sgn (4 * es2 t) v

/-- REQUANT of R225 on an int32 bit pattern, with the 12 parameter bytes at an offset of an image. -/
def requantAt (img : Bytes) (off v : Nat) : Nat :=
  let bias := sgn 32 (rd img off 4)
  let mult := sgn 32 (rd img (off + 4) 4)
  let shift := rd img (off + 8) 1
  let zp := sgn 8 (rd img (off + 9) 1)
  let t := sgn 64 (toBits 64 ((sgn 32 v + bias) * mult))
  toBits 8 (clampI (-128) 127 ((t + (2 ^ (shift - 1) : Nat)) / (2 ^ shift : Nat) + zp))

/-- One element-wise step of R225 on a bit pattern of type `tin` in column c. -/
def stepElem (img : Bytes) (i tin c v : Nat) : Nat :=
  let op := stpOp img i
  let tout := stp img i 6 1
  let po := stp img i 8 4
  if op = 0x10 then requantAt img (po + 12 * c) v
  else if op = 0x11 then rd img (po + (sgn 8 v + 128).toNat) 1
  else if op = 0x12 then
    let sc := f32.decode (rd img (po + 8 * c) 4)
    let bi := f32.decode (rd img (po + 8 * c + 4) 4)
    let f := fmtOf tout
    f.encode (f.round (tout == 0x10 || tout == 0x11) (fma32 false (f32.decode v) sc bi))
  else if op = 0x13 then rd img (po + 2 * v) 2
  else if op = 0x14 then
    if isFloat tin then
      match (fmtOf tin).decode v with
      | .nan => v
      | x => if x.neg then 0 else v
    else if intVal tin v > 0 then v else 0
  else v

/-- A binary32 result. -/
def round32 (x : Fp) : Fp := f32.round false x

/-- The sum of a row in binary32; the spec gives no order of the additions, so it is a constant without a body. -/
def rowSum (l : List Fp) : Fp := f32.decode (Config.rowSum (l.map f32.encode) % 2 ^ 32)

/-- The greater of two values of a row; a NaN stays. -/
def Fp.greater (x y : Fp) : Fp :=
  match x, y with
  | .nan, _ => .nan
  | _, .nan => .nan
  | .inf n, v => if n then v else .inf n
  | v, .inf n => if n then v else .inf n
  | v, w => if (v.add (match w with | .fin n m e => .fin (!n) m e | z => z)).neg then w else v

/-- Minus x. -/
def Fp.minus (x : Fp) : Fp :=
  match x with
  | .fin n m e => .fin (!n) m e
  | .inf n => .inf (!n)
  | .nan => .nan

/-- ROW_SOFTMAX in binary32: m the maximum, e_j = exp(x_j − m), y_j = e_j / Σ e; exp, whose rounding the spec does not give, is
a constant without a body (R225). -/
def softmaxRow (l : List Fp) : List Fp :=
  let m := l.foldl Fp.greater (l.headD .nan)
  let es := l.map fun x => f32.decode (Config.exp32 (f32.encode (round32 (x.add m.minus))) % 2 ^ 32)
  let t := rowSum es
  es.map fun e => round32 (e.div t)

/-- ROW_NORM in binary32, each operation rounded: μ the mean, σ² the population variance,
y = (x − μ) / sqrt(σ² + eps) × gamma + beta (R225). -/
def normRow (l : List Fp) (eps : Fp) (gamma beta : Nat → Fp) : List Fp :=
  let n := round32 (.fin false l.length 0)
  let mu := round32 ((rowSum l).div n)
  let ds := l.map fun x => round32 (x.add mu.minus)
  let var := round32 ((rowSum (ds.map fun d => round32 (d.mul d))).div n)
  let sd := round32 (round32 (var.add eps)).sqrt
  ds.zipIdx.map fun (d, c) => round32 ((round32 ((round32 (d.div sd)).mul (gamma c))).add (beta c))

/-- A row step (R225). DESIGN CHOICE (log 60): the spec states the formulas and neither the order of their sums nor where
they round, which is why such a target compares with a tolerance. -/
def stepRow (img : Bytes) (i tin : Nat) (row : List Nat) : List Nat :=
  let po := stp img i 8 4
  let x := row.map (fmtOf tin).decode
  let tout := stp img i 6 1
  let f := fmtOf tout
  let y := if stpOp img i = 0x21 then
      normRow x (f32.decode (stp img i 16 4)) (fun c => f32.decode (rd img (po + 8 * c) 4)) fun c => f32.decode (rd img (po + 8 * c + 4) 4)
    else softmaxRow x
  y.map fun v => f.encode (f.round (tout == 0x10 || tout == 0x11) v)

/-- The later steps of a target on one row of a tile whose first column is c0. -/
def runSteps (img : Bytes) (c0 : Nat) : Nat → List Nat → List Nat → List Nat
  | _, [], row => row
  | tin, i :: r, row =>
    let row' := if rowOp (stpOp img i) then stepRow img i tin row
      else row.zipIdx.map fun (v, c) => stepElem img i tin (c0 + c) v
    runSteps img c0 (stp img i 6 1) r row'

/-- The product of a target at row r and column c as a bit pattern of int32 or binary32 (R170, R215, R225). -/
def product (img w opening : Bytes) (tbl : List LeafAt) (i r c : Nat) : Nat :=
  let a := tgt img i 4 2
  let prof := tgtProf img i
  let ks := List.range (tgtK img i)
  let wAt (k : Nat) : Nat :=
    if tgtAa img i then openElem img opening tbl (tgt img i 6 2) c k
    else match wEntry w (tgtLayer img i) with
      | some e => wPattern w e k c
      | none => 0
  if profExact prof then
    let bits := if prof = 2 then 4 else 8
    toBits 32 (ks.foldl (fun acc k => acc + sgn 8 (openElem img opening tbl a r k) * sgn bits (wAt k)) (0 : Int))
  else
    let fl := tgtFlags img i
    let fx := fmtOf (profX prof)
    let fw := fmtOf (profW prof)
    f32.encode (chunkDot (ftzOut fl) (ks.map fun k => ftz (ftzIn fl) fx (fx.decode (openElem img opening tbl a r k)))
      (ks.map fun k => ftz (ftzIn fl) fw (fw.decode (wAt k))))

/-- One output element passes (R256, R257). -/
def elemPasses (t cmp tol acc dev : Nat) : Bool :=
  if isFloat t then
    let f := fmtOf t
    let x := f.decode acc
    let y := f.decode dev
    if x.isNan && y.isNan then true
    else if cmp = 0 then acc == dev
    else match x, y with
      | .inf a, .inf b => a == b
      | .fin _ _ _, .fin _ _ _ => let (d, e) := absDiff x y; decide (ceilUlps d e (ulpExp f (x.maxAbs y)) ≤ tol)
      | _, _ => false
  else if cmp = 0 then acc == dev
  else decide ((intVal t acc - intVal t dev).natAbs ≤ tol)

/-- The first output element of a tile that does not pass: row and column in the tile, opened and recomputed encodings
(R258). -/
def tileFails (img w opening : Bytes) (tbl : List LeafAt) (i tr tc : Nat) : Option (Nat × Nat × Nat × Nat) :=
  let o := tgt img i 8 2
  let r0 := tr * tgtRows img i
  let c0 := tc * tgtCols img i
  let acc := if profExact (tgtProf img i) then 3 else 0x14
  (List.range (tgtRows img i)).findSome? fun r =>
    let prod := (List.range (tgtCols img i)).map fun c => product img w opening tbl i (r0 + r) (c0 + c)
    (runSteps img c0 acc ((tgtSteps img i).drop 1) prod).zipIdx.findSome? fun (dev, c) =>
      let y := openElem img opening tbl o (r0 + r) (c0 + c)
      if elemPasses (tnsType img o) (tgt img i 13 1) (tgt img i 20 4) y dev then none else some (r, c, y, dev)

end Sys2Proof.Machine
end

