-- ==== Sys2Proof/Machine/Crc.lean ====
section
/-! DEFINITION. The check values of R145 to R147 and the CRC-8 of Tack (R816). -/

namespace Sys2Proof.Machine

/-- One bit of a reflected 32-bit register with reflected polynomial p. -/
def crcBitR (p : BitVec 32) (c : BitVec 32) : BitVec 32 :=
  if c.getLsbD 0 then (c >>> 1) ^^^ p else c >>> 1

/-- One byte into a reflected 32-bit register. -/
def crcByteR (p : BitVec 32) (c : BitVec 32) (b : Byte) : BitVec 32 :=
  let x := c ^^^ b.setWidth 32
  crcBitR p (crcBitR p (crcBitR p (crcBitR p (crcBitR p (crcBitR p (crcBitR p (crcBitR p x)))))))

/-- The polynomials of CRC-32C and CRC-32/K of R145, bit-reversed. -/
def polyC : BitVec 32 := (0x1EDC6F41#32).reverse
def polyK : BitVec 32 := (0x741B8CD7#32).reverse

/-- One bit of the 64-bit register of CRC-64/ECMA-182. -/
def crcBit64 (c : BitVec 64) : BitVec 64 :=
  if c.getLsbD 63 then (c <<< 1) ^^^ 0x42F0E1EBA9EA3693#64 else c <<< 1

/-- One byte into that register. -/
def crcByte64 (c : BitVec 64) (b : Byte) : BitVec 64 :=
  let x := c ^^^ (b.setWidth 64 <<< 56)
  crcBit64 (crcBit64 (crcBit64 (crcBit64 (crcBit64 (crcBit64 (crcBit64 (crcBit64 x)))))))

/-- Initial running value of polynomial code p (R145). -/
def crcInit (p : Nat) : Nat := if p = 2 then 0 else 0xFFFFFFFF

/-- The running value after the bytes b (R146): `crc_update` of R147. -/
def crcUpdate (p : Nat) (cv : Nat) (b : Bytes) : Nat :=
  if p = 2 then (b.foldl crcByte64 (BitVec.ofNat 64 cv)).toNat
  else (b.foldl (crcByteR (if p = 0 then polyC else polyK)) (BitVec.ofNat 32 cv)).toNat

/-- The final XOR (R145). -/
def crcFinal (p cv : Nat) : Nat := if p = 2 then cv else cv ^^^ 0xFFFFFFFF

/-- Bytes of a check value under polynomial code p. -/
def crcBytes (p : Nat) : Nat := if p = 2 then 8 else 4

/-- CRC-32/K over a byte string (R145). -/
def crcK (b : Bytes) : Nat := crcFinal 1 (crcUpdate 1 (crcInit 1) b)

/-- The 16 bytes folded ahead of each chunk (R147). -/
def foldHead (stream seq off : Nat) : Bytes := le 4 stream ++ le 4 seq ++ le 8 off

/-- The running value after the chunks c, the first at offset `off` of the stream (R147). -/
def foldChunks (p stream seq : Nat) : Nat → Nat → List Bytes → Nat
  | cv, _, [] => cv
  | cv, off, c :: r =>
    foldChunks p stream seq (crcUpdate p (crcUpdate p cv (foldHead stream seq off)) c) (off + c.length) r

/-- The check value of a stream whose covered bytes are b and whose first byte lies at offset `off` (R147). -/
def streamCheck (p stream seq off chunk : Nat) (b : Bytes) : Nat :=
  crcFinal p (foldChunks p stream seq (crcInit p) off (chunks chunk b))

/-- CRC-8 of R816 over bits in the order sent: x^8 + x^2 + x + 1, initial value 0. -/
def crc8 (bits : List Bool) : Nat :=
  (bits.foldl (fun (c : BitVec 8) b =>
    if c.getLsbD 7 != b then (c <<< 1) ^^^ 0x07#8 else c <<< 1) 0#8).toNat

/-- The low n bits of v, least significant first. -/
def bitsLsb (n v : Nat) : List Bool := (List.range n).map (bitAt v)

end Sys2Proof.Machine
end

