-- ==== Sys2Proof/Machine/StateBadger.lean ====
section
/-! DEFINITION. State of chapter 06: device sources, CSI-2 receivers, Badger tiles and model slots. -/

namespace Sys2Proof.Machine

/-- One CSI-2 receiver (R334). -/
structure CsiRx where
  lanes : Nat := 0
  up : Bool := false
  deskew : Bool := false
  rate : Nat := 0
  sot : Nat := 0
  ecc1 : Nat := 0
  ecc2 : Nat := 0
  crc : Nat := 0
  packets : Nat := 0
deriving DecidableEq, Repr, Inhabited

/-- A lidar record's coordinates in the record's own encoding (R289): the three raw words. -/
structure Point where
  x : Nat := 0
  y : Nat := 0
  z : Nat := 0
deriving DecidableEq, Repr, Inhabited

/-- One device source (R333). -/
structure Source where
  code : Nat := 0
  lastCode : Nat := 0
  doneNs : Nat := 0xFFFFFFFF
  errCrc : Nat := 0
  restart : Nat := 0
  extra : Nat := 0
  count : Nat := 0
  /-- A Frame Start has been taken for the current frame, and its Frame End is awaited (R284). -/
  started : Bool := false
  /-- A frame that starts after completion in the same frame is being ignored (R286). -/
  ignoring : Bool := false
  /-- Payloads of the lines received, in arrival order. -/
  lines : List Bytes := []
  /-- Records parsed from datagrams, in arrival order. -/
  points : List Point := []
deriving DecidableEq, Repr, Inhabited

/-- Tile states of R327, in the encoding order of R330. -/
inductive TileState where
  | active | cal | ready | recal | failed
deriving DecidableEq, Repr, Inhabited

/-- Where a calibration turn stands: steps 1 to 3, step 4, step 5 (R322). -/
inductive CalStep where
  | measuring | slice | programming | idle
deriving DecidableEq, Repr, Inhabited

/-- Operations that a macro performed at one time (R280). -/
structure MacroOps where
  mac : Nat
  at_ : Nat
  ops : Nat
deriving DecidableEq, Repr, Inhabited

/-- One Badger tile (R330). -/
structure Tile where
  st : TileState := .active
  role : Nat := 0
  stale : Bool := false
  faultMacro : Nat := 0
  faultKind : Nat := 0
  resid : Nat := 0
  drift : Nat := 0
  cals : Nat := 0
  calFrame : Nat := 0
  faultTime : Nat := 0
  /-- Failures in the current calibration turn (R327). -/
  turnFails : Nat := 0
  calStep : CalStep := .idle
  /-- Main clock of the last passed calibration, by which the oldest is chosen (R323). -/
  calTime : Nat := 0
  /-- The 100 ms interval DRIFT was measured in (R330). -/
  driftIn : Nat := 0
  /-- The coefficients it corrects with, and those of its last passed calibration (R322, R327). -/
  coefs : List Nat := []
  lastCoefs : List Nat := []
  /-- What its macros did in the last 100 ms, newest last (R280). -/
  recent : List MacroOps := []
deriving DecidableEq, Repr, Inhabited

/-- The outputs of a pass, in the encoding of the comparison schema (R297 EMIT). -/
structure ShadowOut where
  grid : Bytes := []
  objects : Bytes := []
  temporal : Bytes := []
deriving DecidableEq, Repr, Inhabited

/-- One model slot (R331). -/
structure ModelSlot where
  active : Option Bytes := none
  staged : Option Bytes := none
  switchAt : Option Nat := none
  stageCode : Nat := 0
  stageLayer : Nat := 0
  /-- BDG_M_STAT, BDG_M_DONE, BDG_M_LAST_FRAME. -/
  code : Nat := 0
  lastCode : Nat := 0
  doneNs : Nat := 0xFFFFFFFF
  /-- Main clock of the end of the last done pass, by which comparisons are ordered (R360). -/
  doneMc : Nat := 0
  lastFrame : Nat := 0
  /-- BDG_M_CNT. -/
  incomplete : Nat := 0
  restarts : Nat := 0
  /-- The history window, newest step first; a gap step is `none` (R303, R304). -/
  hist : List (Option Bytes) := []
  /-- The step HIST_PUSH staged in the frame. -/
  stagedStep : Option Bytes := none
  /-- The switch programming of R313 is running. -/
  programming : Bool := false
  /-- The pass was abandoned for a tile fault and has not been done again (R321 code 0x06). -/
  tileFault : Bool := false
  /-- Source table index of the input that failed, 0xFF if none (R321, R455). -/
  input : Nat := 0xFF
  /-- Tile SRAM of the slot's allocation, by image tile (SPATIAL) or role (SEQUENCE); bytes past the end read 0. -/
  sram : Tbl Bytes := []
  out : ShadowOut := {}
  short : Bytes := []
deriving DecidableEq, Repr, Inhabited

/-- Badger (chapter 06). -/
structure Badger where
  /-- BDG_STAT (R329). -/
  available : Bool := false
  calibrated : Bool := false
  swap : Bool := false
  swapFrom : Nat := 0
  noSpare : Bool := false
  rotations : Nat := 0
  rotFrame : Nat := 0
  /-- Main clock of the last rotation (R323), from the end of start-up calibration on. -/
  rotTime : Nat := 0
  /-- BDG_FAULTS. -/
  drift : Nat := 0
  calFail : Nat := 0
  tiles : Tbl Tile := [(1, { role := 1 }), (2, { role := 2 }), (3, { role := 3 }), (4, { role := 4 }),
    (5, { role := 5 }), (6, { role := 6 }), (7, { role := 7 }), (8, { st := .cal, calStep := .measuring })]
  /-- The tile whose drift failure brought the device into DEGRADED, and whether its role was left without a tile. -/
  degradedBy : Option Nat := none
  orphanRole : Option Nat := none
  slots : Tbl ModelSlot := []
  sources : Tbl Source := []
  csi : Tbl CsiRx := []
deriving DecidableEq, Repr, Inhabited

end Sys2Proof.Machine
end

