-- ==== Sys2Proof/Machine/StatePortW.lean ====
section
/-! DEFINITION. State of chapter 03: the port W link and its counters, the report slots, the check-value units
and their contexts. -/

namespace Sys2Proof.Machine

/-- Completion status of a read on port W or on a host port (R107, R115, R116). -/
inductive CplStatus where
  | success | completerAbort | unsupported
deriving DecidableEq, Repr, Inhabited

/-- A completion the device has returned: status and data. -/
structure Completion where
  status : CplStatus := .success
  data : Bytes := []
  /-- Data bytes of each completion TLP, in order (R107). -/
  parts : List Nat := []
deriving DecidableEq, Repr, Inhabited

/-- A report being received: the report checker's state of one report slot or of the golden report (R129 to R144). -/
structure Report where
  /-- CVU_SLOT_STAT.CODE, CVU_GOLD_STAT.CODE (R143, R158). -/
  code : Nat := 0
  /-- The bytes accepted in this frame; the fill pointer (CVU_SLOT_FILL) is their number (R129). -/
  bytes : Bytes := []
  /-- Offset of the first failure, or the fill pointer at D_c (R144). -/
  off : Nat := 0
  /-- Acceptance time of the header: local time of the write that completed it (R133), 1/16 ns. -/
  hdrAt : Option Nat := none
  /-- Main clock in which the last byte was accepted (R135). -/
  lastAt : Option Nat := none
  /-- The report was abandoned by a link-down or hot reset (R109). -/
  abandoned : Bool := false
deriving DecidableEq, Repr, Inhabited

/-- Registers of one report slot that are not configuration (R158). -/
structure Slot where
  rep : Report := {}
  /-- CVU_SLOT_LAST_FRAME, CVU_SLOT_LAST.CODE, CVU_SLOT_LAST_OFF (R139, R144). -/
  lastFrame : Nat := 0
  lastCode : Nat := 0
  lastOff : Nat := 0
  /-- CVU_SLOT_CNT.STALE and LATE_WRITE, saturating at 0xFFFF. -/
  stale : Nat := 0
  lateWrite : Nat := 0
  /-- CVU_SLOT_DONE.NS. -/
  doneNs : Nat := 0xFFFFFFFF
  /-- Main clock at which its last report completed, by which comparisons are ordered (R360). -/
  doneMc : Nat := 0
deriving DecidableEq, Repr, Inhabited

/-- One CVU stream context (R149). -/
structure CvuCtx where
  stream : Nat := 0
  seq : Nat := 0
  offset : Nat := 0
  poly : Nat := 0
  valid : Bool := false
  failed : Bool := false
  val : Nat := 0
deriving DecidableEq, Repr, Inhabited

/-- One check-value unit (R157); `used` orders the units by their last use (R153). -/
structure CvuUnit where
  ctx : Nat := 0
  loaded : Bool := false
  test : Bool := false
  cur : CvuCtx := {}
  loads : Nat := 0
  used : Nat := 0
deriving DecidableEq, Repr, Inhabited

/-- Port W (chapter 03). -/
structure PortW where
  /-- CVU_WPORT_LINK (R156): SPEED code, WIDTH in lanes, UP. -/
  speed : Nat := 0
  width : Nat := 0
  up : Bool := false
  /-- The Type 0 configuration header's Command register, whose Bus Master Enable is hard-wired to 0, and the upper half of
  the 64-bit BAR0 (R106 to R108). -/
  command : Nat := 0
  barHigh : Nat := 0
  /-- CVU_WPORT_ERR and CVU_WPORT_EVT (R156), each saturating at 0xFFFF. -/
  roWrites : Nat := 0
  caReads : Nat := 0
  linkDown : Nat := 0
  poisoned : Nat := 0
  /-- CVU_SWAPS and CVU_WAIT.MAX (R156). -/
  swaps : Nat := 0
  waitMax : Nat := 0
  /-- The golden report (R140) and the slot under test (CVU_GOLD_STAT.SLOT). -/
  gold : Report := {}
  goldSlot : Nat := 0
  /-- A GLD_END has come since reset: a golden report before the next GLD_START is late (R138, R140). -/
  goldEnded : Bool := false
  /-- The 128 report slots, the 1,024 contexts and the 64 units. -/
  slots : Tbl Slot := []
  ctxs : Tbl CvuCtx := []
  units : Tbl CvuUnit := []
  /-- Use counter behind the least-recently-used choice of R153. -/
  useClock : Nat := 0
  /-- The last read completion returned on port W. -/
  cpl : Completion := {}
deriving DecidableEq, Repr, Inhabited

end Sys2Proof.Machine
end

