-- ==== Sys2Proof/Machine/StateHosts.lean ====
section
/-! DEFINITION. State of chapter 08: host links and functions, rings, descriptors, long operations and the
evidence records. -/

namespace Sys2Proof.Machine

/-- What a record that a ring holds back is (R447). -/
structure Held where
  bytes : Bytes := []
  /-- A lost notice, not a verdict record. -/
  lost : Bool := false
  frame : Nat := 0
deriving DecidableEq, Repr, Inhabited

/-- The message settings of a ring (R467 TEN_R_IRQ). -/
structure RingIrq where
  vector : Nat := 0
  irqEn : Bool := false
  modCount : Nat := 0
  modTime : Nat := 0
deriving DecidableEq, Repr, Inhabited

/-- One ring of one function (R467). -/
structure Ring where
  base : W64 := 0
  wb : W64 := 0
  /-- TEN_R_CTL, the ENABLE bit held apart. -/
  enable : Bool := false
  kind : Nat := 0
  sizeLog2 : Nat := 0
  poly : Nat := 0
  urgent : Bool := false
  cplRing : Nat := 0
  /-- TEN_R_IRQ as last written, and the settings under which the records counted so far were counted: a write takes
  effect for the next record (R459). -/
  irq : RingIrq := {}
  irqNow : RingIrq := {}
  pi : Nat := 0
  ci : Nat := 0
  dbSeq : Nat := 0
  setupErr : Nat := 0
  lastDbErr : Nat := 0
  dbErrs : Nat := 0
  lost : Nat := 0
  owed : Nat := 0
  /-- Submission rings: the descriptors not yet completed, each with the completion ring in which it holds an entry
  (R423, R424, R446). -/
  outstanding : List (Nat × Nat) := []
  /-- Completion rings: records held (R447), and discarded verdict records awaiting their notice (R449). -/
  held : List Held := []
  /-- Completion records that hold their reserved entries while Bus Master Enable is 0 (R399). -/
  waiting : List Bytes := []
  gapCount : Nat := 0
  gapFirst : Nat := 0
  gapLast : Nat := 0
  /-- Evidence rings: first and last SEQ skipped (R454). -/
  skipFirst : Nat := 0
  skipLast : Nat := 0
  /-- Records written since the last message, and the time of the first of them (R459). -/
  unannounced : Nat := 0
  firstAt : Nat := 0
deriving DecidableEq, Repr, Inhabited

/-- A descriptor that has been fetched and passed CHECK, waiting to be taken (R423). -/
structure Desc where
  fn : Nat := 0
  ring : Nat := 0
  index : Nat := 0
  bytes : Bytes := []
deriving DecidableEq, Repr, Inhabited

/-- An accepted long operation (R425, R426); `bytes` is the descriptor as clamped. -/
structure LongOp where
  fn : Nat := 0
  ring : Nat := 0
  index : Nat := 0
  op : Nat := 0
  bytes : Bytes := []
  clamps : Nat := 0
  /-- Plan slot of the context of a GOLDEN_SCHEDULE, fixed at acceptance. -/
  slot : Nat := 0
  /-- Place in the order of acceptance over all tenants (R782). -/
  order : Nat := 0
  /-- A commit whose record write has begun is irrevocable (R781). -/
  begun : Bool := false
deriving DecidableEq, Repr, Inhabited

/-- One physical function (R397, R399, R465). -/
structure HostFn where
  speed : Nat := 0
  width : Nat := 0
  up : Bool := false
  busMaster : Bool := false
  /-- PCIe settings of the function (R398, R458): MSI-X Enable and Function Mask, Max Payload Size and Max Read Request
  Size as 128 × 2^n bytes. -/
  msixOn : Bool := false
  msixMask : Bool := false
  maxPayload : Nat := 0
  maxRead : Nat := 2
  evtVector : Nat := 0
  evtEnable : Bool := false
  ringSel : W32 := 0
  /-- BAR2: MSI-X table words by word number, and the pending bits (R405). -/
  msix : Tbl W32 := []
  pba : List Nat := []
  /-- Long operations accepted and waiting, and the one running (R426). -/
  longQ : List LongOp := []
  longRun : Option LongOp := none
  /-- The upper word latched by the last read of each register's lower word (R16), by the upper word's offset. -/
  latched : Tbl Nat := []
  /-- Status and data of the last completion returned to the host for a BAR0 or BAR2 request. -/
  cpl : CplStatus := .success
  readData : Bytes := []
deriving DecidableEq, Repr, Inhabited

/-- Counters of one tenant (R466). -/
structure Tenant where
  dbErr : Nat := 0
  checkFail : Nat := 0
  desc : Nat := 0
  lost : Nat := 0
deriving DecidableEq, Repr, Inhabited

/-- A WATCH_OPEN that has been taken and not yet accepted or refused: its parameter block is being read, or its
outputs are being bound (R439, R528). -/
structure Opening where
  fn : Nat := 0
  ring : Nat := 0
  index : Nat := 0
  context : Nat := 0
  clamps : Nat := 0
  /-- PARAM_MAP and the clamped block, once read. -/
  paramMap : Nat := 0
  block : Bytes := []
  /-- The trust slot of its BIND frame, once sent. -/
  slot : Option Nat := none
deriving DecidableEq, Repr, Inhabited

/-- Hosts, tenants and rings (chapter 08). -/
structure Hosts where
  fns : Tbl HostFn := []
  tenants : Tbl Tenant := []
  /-- Rings, keyed function × 16,384 + ring. -/
  rings : Tbl Ring := []
  /-- Fetched descriptors in fetch order. -/
  fetched : List Desc := []
  /-- Ring last taken from, by class (R427). -/
  turnSafety : Nat := 0
  turnAux : Nat := 0
  /-- WATCH_OPEN descriptors in progress. -/
  openings : List Opening := []
  /-- Long operations accepted so far (R782). -/
  accepted : Nat := 0
deriving DecidableEq, Repr, Inhabited

/-- One evidence record as written to the log (R450). -/
structure Evidence where
  kind : Nat := 0
  tenant : Nat := 0xFF
  severity : Nat := 0
  seq : Nat := 0
  time : Nat := 0
  frame : Nat := 0
  context : Nat := 0xFFFFFFFF
  payload : Bytes := []
deriving DecidableEq, Repr, Inhabited

/-- What the device sends out during one command: to host memory, on Ethernet, on the Stay link. -/
inductive Out where
  /-- A record written into the entry of an index, at its host address (R409). -/
  | record (fn ring index addr : Nat) (bytes : Bytes)
  /-- A write-back of an index: 8 bytes at TEN_R_WB (R413). -/
  | writeBack (fn ring index addr : Nat) (bytes : Bytes)
  /-- Read requests for len bytes of host memory from addr on, none larger than max bytes (R398, R399). -/
  | hostRead (fn addr len max : Nat)
  /-- A NoC transaction completes to its initiator with error status (R40). -/
  | nocError (initiator address : Nat)
  /-- A transaction of a released bank leaves core c (R483). -/
  | action (core addr typ : Nat) (data : Bytes)
  | msix (fn vector : Nat)
  | hostData (fn addr : Nat) (bytes : Bytes)
  | telegram (conn mac : Nat) (bytes : Bytes)
  | toShroud (typ seq : Nat) (payload : Bytes)
  | fromShroud (typ seq : Nat) (payload : Bytes)
  | ethernet (port : Nat) (bytes : Bytes)
  | tack (bits : List Bool)
  | scan (bits : List Bool)
deriving DecidableEq, Repr, Inhabited

end Sys2Proof.Machine
end

