-- ==== Sys2Proof/Machine/StateOwl.lean ====
section
/-! DEFINITION. State of chapter 15: the two Owl watchdogs and the self-test engine. -/

namespace Sys2Proof.Machine

/-- Owl states of R726, in the encoding order of OWL_x_STAT.STATE. -/
inductive OwlState where
  | boot | run | suspended | trap
deriving DecidableEq, Repr, Inhabited

/-- The capture of a trap (R716, R720), kept in MRAM. -/
structure Capture where
  event : Nat := 0
  trapTime : Nat := 0
  lastSvc : Nat := 0
  token : Nat := 0
  inBits : Nat := 0
  pcs : List Nat := [0, 0, 0]
  double : Nat := 0
deriving DecidableEq, Repr, Inhabited

/-- One Owl unit: Owl-S is 0, Owl-F is 1 (R699 to R726, R741). Owl cycles are main clocks / 8. -/
structure Owl where
  st : OwlState := .boot
  /-- The state Owl-F was suspended in (R724). -/
  prior : OwlState := .boot
  /-- Domain 127 is released: the unit counts. -/
  live : Bool := false
  periodUs : Nat := 0xF4240
  locked : Bool := false
  reg : Nat := 0
  inBits : Nat := 0
  /-- PERIOD_US of the R702 write, in effect once BOOT ends. -/
  setupUs : Nat := 0
  token : Nat := 0xACE1
  armed : Bool := false
  windowOpen : Bool := true
  /-- A good service has taken place in the current period (R714 row 3). -/
  served : Bool := false
  lastEvent : Nat := 0
  double : Nat := 0
  missing : Nat := 0
  services : Nat := 0
  refused : Nat := 0
  suspends : Nat := 0
  /-- Owl cycle and local time at which the current period began (R703). -/
  startCyc : Nat := 0
  startTime : Nat := 0
  lastSvc : Nat := 0
  /-- Cores on which the non-maskable trap is raised: 0 Fore, 1 Main, 2 Mizzen, 3 Fox (R716). -/
  nmi : List Nat := []
  /-- Owl cycle of the trap (R716). -/
  trapCyc : Nat := 0
  /-- OWL_x_CAP: the capture loaded from the black box at start-up (R720, R741). -/
  shown : Capture := {}
deriving DecidableEq, Repr, Inhabited

/-- Owl-F's flash side (R722 to R725). -/
structure FlashBusy where
  busyFrom : Option Nat := none
  /-- Owl-F has recorded a good service since FLASH_BUSY last cleared (R725). -/
  mayStart : Bool := true
deriving DecidableEq, Repr, Inhabited

/-- One runtime table entry's registers (SLF_E_STAT). -/
structure EntryStat where
  last : Nat := 0
  runs : Nat := 0
deriving DecidableEq, Repr, Inhabited

/-- The self-test engine (R727 to R744). -/
structure SelfTest where
  tableOk : Bool := false
  pointer : Nat := 0
  /-- Entries of the round at the pointer that have passed or failed or been skipped (R733). -/
  doneHere : List Nat := []
  /-- The round at the pointer is running in this SELFTEST slot. -/
  running : Bool := false
  lastFrames : Nat := 0
  doneTime : Nat := 0
  /-- Frames ticked since the pointer last wrapped, and the main clock of that. -/
  frames : Nat := 0
  startMc : Nat := 0
  /-- Main clocks of a completed rotation whose record is still to be written; the rotation now running has been
  counted as late (R739). -/
  wrapped : Option Nat := none
  lateCounted : Bool := false
  /-- Retests of the current slot not yet reached (R731). -/
  todo : List Nat := []
  /-- Entries running on the L-die, A-die and core sequencers, with the main clock of the start. -/
  lRun : Option (Nat × Nat) := none
  aRun : Option (Nat × Nat) := none
  cRun : Option (Nat × Nat) := none
  /-- Retests waiting, in the order requested: entries (R731). -/
  retests : List Nat := []
  passed : Nat := 0
  failed : Nat := 0
  failEntry : Nat := 0
  failTime : Nat := 0
  rotLate : Nat := 0
  postponed : Nat := 0
  entries : Tbl EntryStat := []
  /-- CVUs that stand isolated as FAILED, and SRAM banks whose retest is requested (R737). -/
  cvuFailed : List Nat := []
  banksBad : List Nat := []
deriving DecidableEq, Repr, Inhabited

/-- Chapter 15 together. -/
structure Owls where
  s : Owl := {}
  f : Owl := {}
  flash : FlashBusy := {}
  slf : SelfTest := {}
deriving DecidableEq, Repr, Inhabited

end Sys2Proof.Machine
end

