-- ==== Sys2Proof/Machine/StateReset.lean ====
section
/-! DEFINITION. State of chapter 14: the sequencer, the option block in use, the power domains, the power-fail
warning and what of it all MRAM keeps. -/

namespace Sys2Proof.Machine

/-- What a wait for the next start holds of a RESET, OPTION or HOLD record (R698): KIND, severity, payload. -/
structure PendingRecord where
  kind : Nat := 0
  severity : Nat := 0
  payload : Bytes := []
deriving DecidableEq, Repr, Inhabited

/-- The power-fail warning (R689 to R694). -/
structure PowerFail where
  /-- Main clock t_w in which the running warning was recognised. -/
  since : Option Nat := none
  /-- The warning switched D2 to D10 into the hold of R690. -/
  holding : Bool := false
deriving DecidableEq, Repr, Inhabited

/-- The sequencer and the RST registers that no reset keeps (R661 to R688, R697). -/
structure Reset where
  /-- Highest released step 0 to 10; `none` before D0 (R676). -/
  released : Option Nat := none
  /-- Main clock of the last release or restart, from which gaps and waits are counted (R677). -/
  releasedAt : Nat := 0
  /-- The step from which the restart now running restarted, and its source (R661, R669). -/
  from_ : Nat := 0
  source : Nat := 1
  /-- A restart is running: D10 has not been released since. -/
  restarting : Bool := true
  /-- The step held under R679. -/
  held : Option Nat := none
  /-- D3 to D10 are held after a thermal trip, and the main clock of the last one (R666). -/
  tripHold : Bool := false
  tripAt : Nat := 0
  /-- SYS_RESET_N and PWR_FAIL_N as the board drives them, and the main clock from which both have been high
  (R658, R659). -/
  pins : ResetPins := { sys := .undriven, pwr := .undriven }
  highFrom : Option Nat := none
  /-- Main clocks from which the condition of each step has held without interruption; absent where it does not hold
  (R676 to R678). -/
  condFrom : List (Nat × Nat) := []
  /-- The release of D2 waits for REFCLK to be good again (R665). -/
  waitRefclk : Bool := false
  /-- RESET_OUT_N level (R681) and the main clock at which it last fell. -/
  resetOutN : Bool := false
  resetOutAt : Nat := 0
  pf : PowerFail := {}
  /-- The option block in use (R673): its 512 bytes, empty under the defaults; the RST_OPT_STAT fields. -/
  opt : Bytes := []
  used : Nat := 0
  aValid : Bool := false
  bValid : Bool := false
  mismatch : Bool := false
  optDefault : Bool := false
  /-- RST_STEP.CG_WAIT_US of each step. -/
  cgWait : Tbl Nat := []
  /-- The powered domains 0 to 131, ascending (RST_PD_ON), and RST_PD_ERR. -/
  on : List Nat := []
  pdLast : Nat := 0
  pdCount : Nat := 0
  /-- The PULSE pins that a pulse has been armed on since the fuse map was loaded (R682, R683). -/
  pinTaken : List Nat := []
deriving DecidableEq, Repr, Inhabited

/-- What the MRAM keeps of chapter 14 (R664, R697, R795). -/
structure ResetNv where
  source : Nat := 0
  brownout : Bool := false
  powerFail : Bool := false
  /-- RST_CAUSE.LAST_HOLD; 0xF if none. -/
  lastHold : Nat := 0xF
  /-- The RST_COUNT counters by the code of R661, HOLDS under 0. -/
  counts : Tbl Nat := []
  warnings : Nat := 0
  bbUs : Nat := 0
  lastSrc : Nat := 0
  /-- A warning has been recognised since the last restart. -/
  warned : Bool := false
  /-- RESET, OPTION, HOLD and POWER_FAIL records that wait for a start at which the log is available (R698). -/
  pending : List PendingRecord := []
deriving DecidableEq, Repr, Inhabited

end Sys2Proof.Machine
end

