-- ==== Sys2Proof/Machine/StateConfig.lean ====
section
/-! DEFINITION. State of chapter 16: fuses, flash and MRAM, the configuration in force and those on their way, and
Fox with the evidence log. -/

namespace Sys2Proof.Machine

/-- A commit record (R783). -/
structure CommitRecord where
  kind : Nat := 0
  accept : Bool := false
  gen : Nat := 0
  optCrc : Nat := 0
  digest : Bytes := []
  clampCrc : Nat := 0
  clogSeq : Nat := 0
  /-- The record's CRC is right; a record torn by a power loss is not (R784). -/
  ok : Bool := false
deriving DecidableEq, Repr, Inhabited

/-- A change log entry (R785): the 128 bytes as written. -/
structure ClogEntry where
  seq : Nat := 0
  bytes : Bytes := []
deriving DecidableEq, Repr, Inhabited

/-- Non-volatile state: the fuse map, Shroud flash and the MRAM (R664, R755, R795, R796). -/
structure Nvm where
  /-- The 4,096 fuse bits as blown, and the shadow loaded at the last power-on or SYS_RESET_N (R749, R755). -/
  fuses : Nat := 0
  shadow : Nat := 0
  /-- Option block copies A and B (R671). -/
  optA : Bytes := []
  optB : Bytes := []
  /-- Commit records, keyed bank × 256 + TYPE, and image slots, keyed bank × 256 + KIND (R772, R783). -/
  records : Tbl CommitRecord := []
  slots : Tbl Bytes := []
  /-- Nolind public keys 0 and 1, Nolind's certificate, the integrator key record's public key (R757, R760, R763). -/
  nkeys : Tbl Bytes := []
  cert : Bytes := []
  ikey : Option Bytes := none
  /-- The password record: salt and hash (R773). -/
  password : Option (Bytes × Bytes) := none
  /-- The change log, oldest first, at most 4,096 entries (R785). -/
  clog : List ClogEntry := []
  clogSeq : Nat := 0
  clogHash : Bytes := []
  /-- The evidence archive: FOX_ARCH_NEWEST, the records it holds, oldest first, and how many have been written since it
  was last erased (R792). -/
  archNewest : Nat := 0
  archive : List Evidence := []
  archTotal : Nat := 0
  /-- A committed Fox firmware image has not run yet (R780). -/
  foxNew : Bool := false
  /-- Password failures and the Shroud cycle of the last one (R775). -/
  pwFails : Nat := 0
  pwAt : Nat := 0
  wipeDone : Bool := false
  /-- The evidence mirror: the newest 256 records, oldest first (R795). -/
  mirror : List Evidence := []
  /-- Captures of Owl-S and Owl-F, and those still to be written as records (R720). -/
  capS : Capture := {}
  capF : Capture := {}
  capPending : List Nat := []
  rst : ResetNv := {}
deriving DecidableEq, Repr, Inhabited

/-- One clamped field (R770): BAR0 offset of its word (or the coded offset of R785), its lowest bit, the value it was
clamped to, safety-classified. -/
structure Clamp where
  field : Nat := 0
  lo : Nat := 0
  value : Nat := 0
  safety : Bool := false
deriving DecidableEq, Repr, Inhabited

/-- An effective configuration: every configuration register word that is not at its reset value by BAR0 offset,
after clamping, and the Plibex and option sections (R765, R766). -/
structure Cfg where
  gen : Nat := 0
  digest : Bytes := []
  optCrc : Nat := 0
  regs : Tbl W32 := []
  plibex : Bytes := []
  /-- The Shroud section as it stands in flash, unclamped; empty where the image has none (R538). -/
  sioRaw : Bytes := []
  option : Bytes := []
deriving DecidableEq, Repr, Inhabited

/-- A staged image of kind 0x05 to 0x0A (R771). -/
structure Staged where
  kind : Nat := 0
  digest : Bytes := []
  image : Bytes := []
  clamps : List Clamp := []
deriving DecidableEq, Repr, Inhabited

/-- The CFG block (R798) and the configuration in force. -/
structure CfgBlock where
  /-- The active configuration; none in effect: every field at its reset value. -/
  active : Cfg := {}
  hasActive : Bool := false
  /-- A committed configuration that awaits its boundary or restart (R778). -/
  next : Option Cfg := none
  atRestart : Bool := false
  staged : Tbl Staged := []
  stagedCode : Nat := 0
  stagedKind : Nat := 0
  safetyClamps : Nat := 0
  otherClamps : Nat := 0
  stagedId : Bytes := []
  commitCode : Nat := 0
  commitPending : Bool := false
  detail : Nat := 0
  pendingFrame : Nat := 0
  /-- Local time of the boundary B at which `next` takes effect (R75, R778). -/
  boundary : Nat := 0
  nonce : Bytes := []
  /-- A change log entry has been written since this start (R785). -/
  clogBegun : Bool := false
  /-- The wipe of R750 has completed since this start. -/
  wiped : Bool := false
  /-- Safety firmware: bank, FALLBACK, SVN and version running; Fox firmware: bank and version (R798). -/
  fwSlot : Nat := 0
  fallback : Bool := false
  svn : Nat := 0
  fwVer : Nat := 0
  fwDigest : Bytes := []
  foxSlot : Nat := 0
  foxVer : Nat := 0
  foxDigest : Bytes := []
  /-- A safety firmware commit completed in this main clock and waits for its software request (R780). -/
  fwCommitAt : Option Nat := none
deriving DecidableEq, Repr, Inhabited

/-- Fox states of FOX_STAT. -/
inductive FoxState where
  | reset | booting | running
deriving DecidableEq, Repr, Inhabited

/-- A function's quote registers (R764, R799). -/
structure Quote where
  nonce : Bytes := []
  /-- FOX_Q_NONCE as it stood when the quote in progress was requested. -/
  asked : Bytes := []
  /-- The quote in the window. -/
  window : Bytes := []
  ready : Bool := false
  busy : Bool := false
deriving DecidableEq, Repr, Inhabited

/-- The evidence log in GDDR6 (R450, R791): records from the oldest to the newest. -/
structure Log where
  records : List Evidence := []
  /-- SEQ of the next record. -/
  nextSeq : Nat := 0
  /-- SEQ of the oldest record held. -/
  oldest : Nat := 0
  /-- Records not yet mirrored, and the largest such lag since reset (FOX_BB). -/
  lag : Nat := 0
  lagMax : Nat := 0
deriving DecidableEq, Repr, Inhabited

/-- Fox (R788 to R799). -/
structure Fox where
  st : FoxState := .reset
  archiving : Bool := false
  archTime : Nat := 0
  lost : Nat := 0
  /-- FOX_TEMP TEMP, signed 1/8 °C, of the sensors that have converted. -/
  temps : Tbl Int := []
  tempOk : List Nat := []
  quotes : Tbl Quote := []
  /-- Dies whose temperature stood at or above the warning threshold at the last reading (R789). -/
  warned : List Nat := []
  /-- Main clock of the last archive copy and of the last telemetry datagram. -/
  archAt : Nat := 0
  telemAt : Nat := 0
deriving DecidableEq, Repr, Inhabited

end Sys2Proof.Machine
end

