-- ==== Sys2Proof/Machine/StateCores.lean ====
section
/-! DEFINITION. State of chapter 09: the control cores, the input ledger, the voter and the injection test. -/

namespace Sys2Proof.Machine

/-- Core states of R496, in the encoding order of R499. -/
inductive CoreState where
  | service | held | test | resync | failed
deriving DecidableEq, Repr, Inhabited

/-- One control core (R499). -/
structure Core where
  st : CoreState := .service
  /-- GLB_CORE_C_STAT.POS: 0 LEAD, 1 MIDDLE, 2 TRAIL, 3 none. -/
  pos : Nat := 0
  disagree : Nat := 0
  kind : Nat := 0
  instr : Nat := 0
  ckpt : Nat := 0
  /-- Main clock from which the core runs (R470, R497), and its retired-instruction count at its last checkpoint (R480). -/
  from_ : Nat := 0
  ckptInstr : Nat := 0
  /-- What stalls the core until the voter has decided its checkpoint (R477): 0 nothing, 1 CRC_FAIL, 2 ORDER. -/
  flag : Nat := 0
  /-- The closed banks of its outbox, at most two: checkpoint number, and address, type and data of each transaction
  (R479, R483). -/
  banks : List (Nat × List (Nat × Nat × Bytes)) := []
  faultTime : Nat := 0
  faultCkpt : Nat := 0
  faultPc : Nat := 0
  tcmCorr : Nat := 0
  tcmUncorr : Nat := 0
  ldgSeq : Nat := 0
  /-- The copy of R497 into this core is running. -/
  copying : Bool := false
deriving DecidableEq, Repr, Inhabited

/-- One kept ledger entry: its 64 bytes (R472) and the cores that have consumed it (R476). -/
structure LedgerEntry where
  bytes : Bytes := []
  taken : List Nat := []
deriving DecidableEq, Repr, Inhabited

/-- One checkpoint record that has arrived for the number being decided: core and 64 bytes (R481). -/
structure CkptRecord where
  core : Nat := 0
  bytes : Bytes := []
  /-- Main clock of its arrival. -/
  at_ : Nat := 0
deriving DecidableEq, Repr, Inhabited

/-- Cores, ledger and voter (R498). -/
structure Cores where
  cores : Tbl Core := [(1, { pos := 1 }), (2, { pos := 2 })]
  ledger : List LedgerEntry := []
  /-- GLB_LDG_SEQ and GLB_LDG_STAT.HIGH. -/
  ldgSeq : Nat := 0
  ldgHigh : Nat := 0
  /-- VALUE returned by the last ledger request. -/
  ldgValue : Bytes := []
  /-- Records that have arrived for checkpoint numbers not decided yet, in arrival order. -/
  records : List CkptRecord := []
  accepted : Nat := 0
  last : Nat := 0
  order : Nat := 0
  /-- The core and the checkpoint number whose bank the voter released last (R483). -/
  released : Option (Nat × Nat) := none
  /-- GLB_INJ_STAT. -/
  injPass : Bool := false
  injPassed : Nat := 0
  injFirst : Nat := 0
  injTime : Nat := 0
  /-- GLB_DEG_CNT and GLB_DEG_TIME. -/
  degEntries : Nat := 0
  degExits : Nat := 0
  degTime : Nat := 0
  /-- A core fault brought the device into DEGRADED: its number. -/
  degradedBy : Option Nat := none
  /-- Source core of a resynchronisation copy (R497). -/
  source : Option Nat := none
  /-- The source of the last resynchronisation while LEAD is held back for it (R497). -/
  realign : Option Nat := none
deriving DecidableEq, Repr, Inhabited

end Sys2Proof.Machine
end

