-- ==== Sys2Proof/Machine/StateDebug.lean ====
section
/-! DEFINITION. State of chapter 17: the Tack debug port, halts and breakpoints, and the boundary scan. -/

namespace Sys2Proof.Machine

/-- The Tack port (R816 to R829). -/
structure Tack where
  /-- TAG and response bytes of the last request answered with ACCEPT or ERROR (R818). -/
  lastTag : Option Nat := none
  lastResp : List Bool := []
  /-- Cause of the last ERROR, or 0x7 after a bad request (R817, R827). -/
  cause : Nat := 0
  session : Bool := false
  /-- Words 0 to 302 of the signature (R819). -/
  sig : Tbl W64 := []
  /-- Breakpoints, keyed target × 4 + number, as instruction address + 1; 0 is none (R825). -/
  bps : Tbl Nat := []
  haltCores : Bool := false
  haltFox : Bool := false
  /-- Number of the last breakpoint hit of each target. -/
  hitCores : Option Nat := none
  hitFox : Option Nat := none
  /-- Program counters of Fore, Main, Mizzen and Fox (R827). -/
  pcs : Tbl Nat := []
  /-- Test space: expected signature, MISR and outcome of the last TEST (R821). -/
  expected : W64 := 0
  misr : W64 := 0
  outcome : Nat := 0
  /-- TCM words that Tack has written (R821), keyed core × 2^20 + address bits [31] and [18:0]. -/
  tcm : Tbl (Option W64) := []
  /-- A request has been answered RETRY: its tag and the main clock of its first appearance (R818). -/
  retry : Option (Nat × Nat) := none
deriving DecidableEq, Repr, Inhabited

/-- The test access port (R830 to R832). -/
structure Scan where
  /-- The instruction in force: 0xF BYPASS at reset. -/
  ir : Nat := 0xF
  bypass : Bool := false
  /-- The 824 cells: set cells, ascending. -/
  cells : List Nat := []
  /-- The cells drive the pins (EXTEST, CLAMP), or the pins are in high impedance (HIGHZ). -/
  driving : Bool := false
  highz : Bool := false
deriving DecidableEq, Repr, Inhabited

end Sys2Proof.Machine
end

