-- ==== Sys2Proof/Machine/StateGlobal.lean ====
section
/-! DEFINITION. State of chapters 01 and 02: the operating state, the die link, the frame and the partitions. -/

namespace Sys2Proof.Machine

/-- The six operating states of R41; `code` gives the encoding of R47. -/
inductive OpState where
  | startUp | configured | running | degraded | safe | maintenance
deriving DecidableEq, Repr, Inhabited

/-- GLB_STATE (R47) and what R41 needs behind it. -/
structure Glb where
  /-- GLB_STATE.STATE (R47): START_UP at reset. -/
  st : OpState := .startUp
  /-- GLB_STATE.PRIOR (R47): meaningful in DEGRADED only. -/
  prior : OpState := .startUp
  /-- GLB_STATE.CAUSE (R47, R48). -/
  cause : Nat := 0
  /-- Main clock at which DEGRADED was entered (T_deg runs from there, R41, R490). -/
  tdegFrom : Nat := 0
  /-- T_deg of this entry, s (R492). -/
  tdegS : Nat := 0
  /-- The flag "no configuration" of R41. -/
  noConfig : Bool := false
  /-- The boot of the current start has completed (R41). -/
  booted : Bool := false
  /-- A spare swap or repair that is in progress (R41): its element, coded as the element kind × 256 + number. -/
  repairs : List Nat := []
deriving DecidableEq, Repr, Inhabited

/-- The die link between the L die and the A die (R22, R23). -/
structure DieLink where
  /-- Main clock at which the retraining now running began. -/
  retraining : Option Nat := none
  /-- Main clocks of the retrainings of the last second (R23). -/
  recent : List Nat := []
deriving DecidableEq, Repr, Inhabited

/-- The frame now running and the frame registers (R72 to R78). -/
structure Frame where
  /-- GLB_FRAME_STATUS.TICKING (R78). -/
  ticking : Bool := false
  /-- GLB_FRAME_STATUS.STEPPED (R78), saturating at 0xFFFF. -/
  stepped : Nat := 0
  /-- NUM_OFFSET of R73, as an integer: a new rate may need a number below its natural one. -/
  numOffset : Int := 0
  /-- GLB_FRAME_NUM (R73, R78). -/
  num : Nat := 0
  /-- GLB_FRAME_TICK (R78): local time of the current frame's tick, 1/16 ns. -/
  tick : Nat := 0
  /-- Local time at which the next frame tick is due, 1/16 ns (R72, R75). -/
  nextTick : Nat := 0
  /-- The slot edges 0 to 8 and the close-out (9) that have fired in this frame (R76, R77). -/
  fired : List Nat := []
  /-- ALIGN_MS and COUNT under which the current frame runs (R75). -/
  alignMs : Nat := 0
  count : Nat := 0
  /-- Slot edges of the current frame, µs (R75, R78). -/
  edges : List Nat := []
  /-- Local time when the time base first reported valid time since reset (R74). -/
  validAt : Option Nat := none
  /-- Local time from which ticks follow the active configuration's frame rate and edges (R75). -/
  rateAt : Nat := 0
  /-- The current frame has been lengthened or shortened by a step (R78 STEPPED). -/
  steppedNow : Bool := false
deriving DecidableEq, Repr, Inhabited

/-- MEM_PRT_STAT of every partition (R101). The configuration fields of partitions and regions are configuration
registers. -/
structure Partitions where
  denied : Tbl Nat := []
  short : Tbl Nat := []
deriving DecidableEq, Repr, Inhabited

end Sys2Proof.Machine
end

