-- ==== Sys2Proof/Machine/StateMemory.lean ====
section
/-! DEFINITION. State of chapter 13: the addressed memories, their uncorrectable lines, the banks and the GDDR6
channels. -/

namespace Sys2Proof.Machine

/-- One SRAM bank (R654). -/
structure Bank where
  /-- Spare rows and spare columns in use or retired (R627, R648, R651, R737). -/
  rows : List Nat := []
  cols : List Nat := []
  ce : Nat := 0
  ue : Nat := 0
  repairs : Nat := 0
deriving DecidableEq, Repr, Inhabited

/-- One GDDR6 channel (R655). -/
structure Gddr where
  edcRetry : Nat := 0
  edcFailed : Nat := 0
  retrain : Nat := 0
  ce : Nat := 0
  ue : Nat := 0
deriving DecidableEq, Repr, Inhabited

/-- Memory (R653). -/
structure Memory where
  /-- Bytes of GDDR6, the L-die SRAM and the tiers, keyed target × 2^40 + byte address; canonical. -/
  cells : List Host.Cell := []
  /-- Lines that decode uncorrectable until they are written whole (R634), keyed array × 2^64 + unit × 2^56 + line. -/
  bad : List Nat := []
  /-- Stored bytes, check bytes included, of the lines whose stored bytes are not those of R629: the lines that a read has
  found so and nothing has written since (R631, R634). -/
  raw : Tbl Bytes := []
  /-- Row repairs: bank × 2^16 + row to spare row (R648). -/
  rowMap : Tbl Nat := []
  /-- Soft repair table in flash (R651): bank, row and spare row of each entry; and in-service repairs not yet appended. -/
  soft : List (Nat × Nat × Nat) := []
  softPending : List (Nat × Nat × Nat) := []
  /-- Lines corrected in the current scrub pass or the one before (R649, R656): array, unit and line, the pass, and
  whether the scrub found it. -/
  corrected : List (Nat × Nat × Bool) := []
  /-- Main clock of the last detection, and the lines detected in it (R647). -/
  detAt : Nat := 0
  detLines : List Nat := []
  /-- Main clock from which the scrub passes are counted (R639). -/
  scrubFrom : Nat := 0
  late : Nat := 0
  /-- MEM_CE and MEM_UE by target. -/
  ce : Tbl Nat := []
  ue : Tbl Nat := []
  otherCe : Nat := 0
  otherUe : Nat := 0
  addrErr : Nat := 0
  inService : Nat := 0
  /-- MEM_LAST_UE, MEM_LAST_UE_LINE, MEM_LAST_UE_TIME. -/
  lastArray : Nat := 0
  lastUnit : Nat := 0
  lastPart : Nat := 0
  lastScrub : Bool := false
  lastAddress : Bool := false
  lastLine : Nat := 0
  lastTime : Nat := 0
  banks : Tbl Bank := []
  gddr : Tbl Gddr := []
  /-- The AUX-partition error that brought the device into DEGRADED: SRAM bank or GDDR6 line (R645). -/
  degradedBank : Option Nat := none
  degradedLine : Option Nat := none
  /-- Report items failed by R643: context and frame. -/
  failItem : List (Nat × Nat) := []
deriving DecidableEq, Repr, Inhabited

end Sys2Proof.Machine
end

