-- ==== Sys2Proof/Machine/StatePlibex.lean ====
section
/-! DEFINITION. State of chapter 11: Plibex connections, Ethernet MACs, 802.1CB recovery and 802.1Qci filters. -/

namespace Sys2Proof.Machine

/-- Receive states of R577, in the encoding order of PLX_C_STATE. -/
inductive RxState where
  | wait | live | timeout
deriving DecidableEq, Repr, Inhabited

/-- One connection (R587). The connection entry itself is configuration (R559). -/
structure Conn where
  st : RxState := .wait
  armed : Bool := false
  /-- Bound watch context (R562). -/
  bound : Option Nat := none
  lastFault : Nat := 0
  /-- Last SEQ sent on the connection (R564, R569). -/
  txSeq : Nat := 0
  /-- LAST of a receive connection (R574). -/
  last : Nat := 0
  count : Nat := 0
  rejected : Nat := 0
  timeouts : Nat := 0
  /-- PLX_C_LAST: local time of the last sending or acceptance. -/
  lastAt : Nat := 0
  maxAgeUs : Nat := 0
  run : Nat := 0
  rfault : Nat := 0
  /-- Main clock from which the watchdog runs (R577), and of the last sending. -/
  wdFrom : Nat := 0
  sentAt : Option Nat := none
  /-- The binding has changed since the last telegram. -/
  rebound : Bool := false
  /-- TYPE and payload of the previous telegram sent. -/
  lastPayload : Option (Nat × Bytes) := none
  /-- Rejections since the previous RX_FAULT record, and its main clock (R573). -/
  rejSince : Nat := 0
  recordAt : Option Nat := none
  /-- 802.1CB listener: sequence recovery number, received history, and since when nothing arrived. -/
  recSeq : Option Nat := none
  recHist : List Nat := []
  recAt : Nat := 0
  /-- 802.1CB talker: next R-tag sequence number. -/
  rtag : Nat := 0
deriving DecidableEq, Repr, Inhabited

/-- One Ethernet MAC (R586, R588). -/
structure Mac where
  up : Bool := false
  speed : Nat := 0
  preempt : Bool := false
  verify : Nat := 5
  rx : Nat := 0
  tx : Nat := 0
  fcs : Nat := 0
  ip : Nat := 0
  overrun : Nat := 0
  fragments : Nat := 0
deriving DecidableEq, Repr, Inhabited

/-- One flow meter of 802.1Qci (R548, R589): tokens in bytes × 1.8 × 10^9, and the main clock they were counted at. -/
structure Meter where
  tokens : Option Nat := none
  at_ : Nat := 0
  red : Nat := 0
deriving DecidableEq, Repr, Inhabited

/-- Plibex (R585). -/
structure Plibex where
  conns : Tbl Conn := []
  macs : Tbl Mac := []
  txTotal : Nat := 0
  rxTotal : Nat := 0
  rxFault : Nat := 0
  txLate : Nat := 0
  frerDiscarded : Nat := 0
  frerRogue : Nat := 0
  sfDropped : Tbl Nat := []
  meters : Tbl Meter := []
  /-- PLX_SEL of each physical function. -/
  sel : Tbl W32 := []
deriving DecidableEq, Repr, Inhabited

end Sys2Proof.Machine
end

