-- ==== Sys2Proof/Machine/StateShroud.lean ====
section
/-! DEFINITION. State of chapter 10: the Stay link, safety inputs, safety-function instances of both channels,
safety outputs and trust slots. -/

namespace Sys2Proof.Machine

/-- States of a safety-function unit of R517, in the encoding order of R543. -/
inductive FnState where
  | stop | armed | run | blocked | fault
deriving DecidableEq, Repr, Inhabited

/-- One safety-function unit in one channel (R517). Times are of the clock of the channel. -/
structure Fn where
  st : FnState := .stop
  faultCode : Nat := 0
  refused : Nat := 0
  /-- Since when a pair discrepancy lasts (R515). -/
  discFrom : Option Nat := none
  /-- TWOHAND: since when exactly one hand has been pressed (R516). -/
  handFrom : Option Nat := none
  /-- Since when the full demand is held, and whether it has lasted DISC_MS in FAULT (FAULT row of R517). -/
  fullFrom : Option Nat := none
  fullOk : Bool := false
  /-- Processor channel: the outcome of the hard-wired channel is adopted at the next HCH frame (R518). -/
  adopt : Bool := false
deriving DecidableEq, Repr, Inhabited

/-- One safety input as one channel sees it (R509, R512). -/
structure Sin where
  raw : Bool := false
  filt : Bool := false
  /-- Since when RAW has differed from the filtered level (processor channel). -/
  diffFrom : Option Nat := none
  /-- Since when the filtered level has been 1 (R514). -/
  highFrom : Option Nat := none
  /-- Main clock of the last INPUTS frame whose sample the processor channel filtered (R511, R512). -/
  sampleAt : Nat := 0
  /-- Cross-short (R511): the SIO_IN_XS bit, and whether the last test still showed it. -/
  xs : Bool := false
  xsNow : Bool := false
deriving DecidableEq, Repr, Inhabited

/-- States of a standard output of R522, in the encoding order of R543. -/
inductive SoState where
  | off | on | shutdown | locked
deriving DecidableEq, Repr, Inhabited

/-- One standard output (R522, R543). Times are Shroud cycles. -/
structure So where
  st : SoState := .off
  faultCode : Nat := 0
  locks : Nat := 0
  /-- EDM level: 1 while the contactor is open. -/
  edm : Bool := false
  edmSeen0 : Bool := false
  onAt : Nat := 0
  offAt : Option Nat := none
  /-- Since when EDM has been open without interruption. -/
  edmFrom : Option Nat := none
  /-- Bound units that have been in STOP, BLOCKED or FAULT since the lock. -/
  been : List Nat := []
  /-- The MIN_OFF_MS and EDM_MS timers that run. -/
  minOff : Bool := false
  edmTimer : Bool := false
  /-- R526: the request bit must fall before it counts again. -/
  refusedReq : Bool := false
  /-- Cycle in which SHUTDOWN last completed (R503). -/
  doneAt : Option Nat := none
deriving DecidableEq, Repr, Inhabited

/-- States of a privileged output of R523, in the encoding order of R543. -/
inductive PvState where
  | off | lsOn | on | shutdown | locked
deriving DecidableEq, Repr, Inhabited

/-- One privileged output (R523, R543). Times are Shroud cycles. -/
structure Pv where
  st : PvState := .off
  faultCode : Nat := 0
  locks : Nat := 0
  lsDrv : Bool := false
  hsPin : Bool := false
  lsSense : Bool := false
  hsSense : Bool := false
  lsOnAt : Nat := 0
  /-- The SENSE_US timer of the LS drive runs, and the senses are not judged yet. -/
  senseTimer : Bool := false
  /-- HS pin commanded on in LS_ON, and when. -/
  hsOnAt : Option Nat := none
  offAt : Option Nat := none
  hsOffAt : Option Nat := none
  /-- Since when a sense has read 0 in ON, and since when both have read 0. -/
  senseFrom : Option Nat := none
  zeroFrom : Option Nat := none
  /-- Bound units that have been in STOP, BLOCKED or FAULT since the lock. -/
  been : List Nat := []
  minOff : Bool := false
  /-- Cycle in which SHUTDOWN last completed (R503). -/
  doneAt : Option Nat := none
deriving DecidableEq, Repr, Inhabited

/-- One trust slot of Shroud (R527 to R531). -/
structure TrustSlot where
  bound : Bool := false
  context : Nat := 0
  sout : Nat := 0
  prv : Nat := 0
  /-- Shroud cycle of the last accepted heartbeat; `none` before the first. -/
  hbAt : Option Nat := none
  lapsed : Bool := true
deriving DecidableEq, Repr, Inhabited

/-- A Stay link frame: TYPE, SEQ and PAYLOAD (R24). -/
structure StayFrame where
  typ : Nat := 0
  seq : Nat := 0
  payload : Bytes := []
deriving DecidableEq, Repr, Inhabited

/-- One receiving side of the Stay link (R25 to R27, R507, R508). -/
structure StaySide where
  /-- SEQ of the last accepted frame. -/
  lastSeq : Nat := 255
  /-- Shroud cycle of the last accepted frame. -/
  lastAt : Nat := 0
  rejected : Nat := 0
  /-- A NAK has been sent and no frame accepted since; the Shroud cycle of the last NAK (R507). -/
  nakSent : Bool := false
  nakAt : Nat := 0
  /-- A frame has been accepted since the L die was last released (R670). -/
  live : Bool := false
  lost : Bool := false
  /-- Sending half: SEQ of the next frame, the last 8 frames sent (oldest first), event frames that wait. -/
  nextSeq : Nat := 0
  sent : List StayFrame := []
  waiting : List StayFrame := []
  /-- Place in the group of four of the next frame (R505). -/
  pos : Nat := 0
  /-- Main clock in which the last STATE frame was sent (R506). -/
  stateAt : Nat := 0
deriving DecidableEq, Repr, Inhabited

/-- The Shroud die (hard-wired channel). -/
structure Shroud where
  cfgActive : Bool := false
  cfgGen : Nat := 0
  /-- The active Shroud section: words 0x0020_1000 to 0x0020_17FC by BAR0 offset. -/
  cfg : Tbl W32 := []
  safeLatch : Bool := false
  /-- Operating state mirrored from the last accepted STATE frame, and its CAUSE. -/
  mirror : Nat := 0
  mirrorCause : Nat := 0
  link : StaySide := {}
  sins : Tbl Sin := []
  fns : Tbl Fn := []
  souts : Tbl So := []
  prvs : Tbl Pv := []
  slots : Tbl TrustSlot := []
  /-- Request bits and HS levels of the last accepted PCH_OUT, RUN bits of the last PCH_FUNC. -/
  soutReq : Nat := 0
  prvReq : Nat := 0
  hsCmd : Nat := 0
  pchRun : Nat := 0
  /-- Since when the RUN bit of a unit has differed from its own (R520), and the outputs are switched off for it. -/
  discFrom : List (Nat × Nat) := []
  discOff : Bool := false
  /-- Cycle from which the test periods run (R510). -/
  tpFrom : Nat := 0
  /-- TPOs in their pulse (R510), and when each last pulse began and ended. -/
  pulsing : List Nat := []
  pulseAt : List (Nat × Nat) := []
  pulseEnd : Tbl Nat := []
  refused : Nat := 0
  locks : Nat := 0
  hbDiscarded : Nat := 0
deriving DecidableEq, Repr, Inhabited

/-- The L die's side of the Stay link (processor channel). -/
structure PchSide where
  link : StaySide := {}
  sins : Tbl Sin := []
  fns : Tbl Fn := []
  /-- RUN bits of the last HCH frame. -/
  hchRun : Nat := 0
  /-- RAW and FILT of the last INPUTS frame (R541). -/
  inRaw : Nat := 0
  inFilt : Nat := 0
  /-- OUTPUTS as last received. -/
  soutDrv : Nat := 0
  edm : Nat := 0
  lsDrv : Nat := 0
  hsPin : Nat := 0
  lsSense : Nat := 0
  hsSense : Nat := 0
  tpo : Nat := 0
  safeN : Bool := false
  latch : Bool := false
  mirror : Nat := 0
  /-- Requests of the processor channel: SOUT_REQ, PRV_REQ and HS of its PCH_OUT frames. -/
  soutReq : Nat := 0
  prvReq : Nat := 0
  hsCmd : Nat := 0
  /-- Main clock since which the RUN bit of a unit has differed from its own (R520). -/
  discFrom : List (Nat × Nat) := []
  /-- Outputs whose shut-down the processor channel still measures: the main clock in which OUTPUTS first showed the
  drive off (R518). -/
  soShut : List (Nat × Nat) := []
  pvShut : List (Nat × Nat) := []
  /-- LAST_FAULT of SIO_STAT. -/
  lastFault : Nat := 0
  /-- CFG frames whose ACK is awaited (R538). -/
  awaits : Nat := 0
  /-- Trust slot of each context with output bindings. -/
  slotOf : Tbl Nat := []
  refused : Nat := 0
deriving DecidableEq, Repr, Inhabited

end Sys2Proof.Machine
end

