-- ==== Sys2Proof/Machine/StateTime.lean ====
section
/-! DEFINITION. State of chapter 12: the local time base, its servo, compare units, pulses and PPS_IN. -/

namespace Sys2Proof.Machine

/-- Servo states of R599, in the encoding order of TMB_STAT.SERVO. -/
inductive Servo where
  | acquire | locked | slewOnly | holdover
deriving DecidableEq, Repr, Inhabited

/-- One pulse (R625). -/
structure Pulse where
  mode : Nat := 0
  pol : Bool := false
  start : Nat := 0
  period : Nat := 0
  width : Nat := 0
  armed : Bool := false
  active : Bool := false
  err : Nat := 0
  skipped : Nat := 0
  /-- Time of the next firing, and the main clock in which the active width ends. -/
  next : Nat := 0
  endAt : Nat := 0
  /-- MODE 3: the last frame in which it fired. -/
  firedFrame : Option Nat := none
deriving DecidableEq, Repr, Inhabited

/-- One gPTP port (R623). -/
structure PtpPort where
  asCapable : Bool := false
  delay : Nat := 0
  rx : Nat := 0
  timeouts : Nat := 0
  fails : Nat := 0
deriving DecidableEq, Repr, Inhabited

/-- The time base (R591, R622). -/
structure TimeBase where
  /-- The domain has been released and the counter runs (R599). -/
  running : Bool := false
  now : Nat := 0
  frac : Nat := 0
  incr : Nat := 0x8E38E38E4
  valid : Bool := false
  servo : Servo := .acquire
  syncLost : Bool := false
  slavePort : Nat := 0
  /-- ROLE and EPOCH_S as in effect (R608). -/
  role : Nat := 0
  epoch : Nat := 0
  /-- TMB_OFFSET and TMB_RATE. -/
  offset : Int := 0
  rate : Int := 0
  /-- Integral term I of R601, in units of 10^-9 × 2^-32. -/
  integral : Int := 0
  /-- Local time of the last sample; none before the first. -/
  lastSample : Option Nat := none
  /-- Consecutive samples above STEP_NS with one sign, newest first (R602), and samples within 1,000 ns (R599). -/
  big : List Int := []
  good : Nat := 0
  /-- Last values of INCR, newest first (R605). -/
  incrs : List Nat := []
  slewFrom : Nat := 0
  holdFrom : Nat := 0
  gm : Nat := 0
  steps : Nat := 0
  refused : Nat := 0
  gmChanges : Nat := 0
  foreign : Nat := 0
  lastRefused : Int := 0
  holdovers : Nat := 0
  epochCnt : Nat := 0
  ppsTime : Nat := 0
  ppsErr : Int := 0
  ppsEdges : Nat := 0
  ppsIgnored : Nat := 0
  /-- Local time of the last accepted edge; none before the first. -/
  ppsLast : Option Nat := none
  ports : Tbl PtpPort := []
  /-- TMB_CMP.STEPPED of each compare unit (R624). -/
  cmpStepped : Tbl Nat := []
  pulses : Tbl Pulse := []
deriving DecidableEq, Repr, Inhabited

end Sys2Proof.Machine
end

