-- ==== Sys2Proof/Machine/StateVerdict.lean ====
section
/-! DEFINITION. State of chapter 07: watch contexts, the comparator, the verdict unit and golden tests. -/

namespace Sys2Proof.Machine

/-- Escalation state of a context (R378), in the encoding order of WCH_C_STAT.ESC. -/
inductive Esc where
  | normal | escalated | clearing
deriving DecidableEq, Repr, Inhabited

/-- The golden latch of a context (R391). -/
inductive Latch where
  | clear | failed | overdue
deriving DecidableEq, Repr, Inhabited

/-- Results of one comparison (R357). -/
structure CmpCounts where
  missCells : Nat := 0
  phantomCells : Nat := 0
  missObj : Nat := 0
  phantomObj : Nat := 0
  tempMiss : Nat := 0
  tempAppear : Nat := 0
deriving DecidableEq, Repr, Inhabited

/-- One watch context (R396, R439). -/
structure Watch where
  isOpen : Bool := false
  tenant : Nat := 0
  /-- CLASS AUX. -/
  aux : Bool := false
  slot : Nat := 0
  stream : Nat := 0
  modelMask : Nat := 0
  corrFixed : Bool := false
  corridor : Bytes := []
  prv : Nat := 0
  sout : Nat := 0
  maxAge : Nat := 0
  cplRing : Nat := 0
  budget : Nat := 0
  window : Nat := 0
  thrCell : Nat := 0
  thrFree : Nat := 0
  thrObj : Nat := 0
  missCells : Nat := 0
  phantomCells : Nat := 0
  matchDist : Nat := 0
  velTol : Nat := 0
  k : Nat := 0
  g : Nat := 0
  plx : List Nat := []
  /-- Frame number above which the context receives verdicts; `none` before the first tick (R365, R833). -/
  openedIn : Option Nat := none
  trusted : Bool := false
  trustTime : Nat := 0
  lastVerdict : Nat := 0
  lastFrame : Nat := 0
  /-- Counted DISTRUSTs of the last WINDOW frames, newest first (R377). -/
  counted : List Bool := []
  esc : Esc := .normal
  escCode : Nat := 0
  clean : Nat := 0
  /-- Counting in CLEARING starts with the first D_v after acceptance (R378). -/
  latch : Latch := .clear
  defer : Nat := 0
  /-- Corridors that wait for their frames (R347): frame number, corridor block, main clock of acceptance. -/
  corridors : List (Nat × Bytes × Nat) := []
  /-- The comparison of the current frame: code (R362), main clock of its start, counts. -/
  cmpCode : Nat := 0
  cmpStart : Option Nat := none
  cmp : CmpCounts := {}
  lastCmp : Nat := 0
  lastCounts : CmpCounts := {}
  /-- WCH_C_PHANTOM.FRAMES and WCH_C_TOTALS. -/
  phantomFrames : Nat := 0
  distrusts : Nat := 0
  lates : Nat := 0
  /-- Trust was withdrawn under R374 and not given since (VFLAGS.AGED, R554). -/
  aged : Bool := false
  /-- The last frame compared was a phantom frame (R359). -/
  phantomNow : Bool := false
  /-- Frames whose report item fails for an uncorrectable memory error (R643). -/
  invalid : List Nat := []
  /-- The context has received the verdict of this frame. -/
  issued : Option Nat := none
deriving DecidableEq, Repr, Inhabited

/-- Lane states of R369. -/
inductive LaneState where
  | service | repair | failed
deriving DecidableEq, Repr, Inhabited

/-- The golden registers of one plan slot (R395). -/
structure Golden where
  active : Option Bytes := none
  /-- A stored set for the active plan, until the next tick, and one for the staged plan, until its SWITCH_FRAME (R383). -/
  arriving : Option Bytes := none
  staged : Option Bytes := none
  next : Nat := 0
  outcome : Nat := 0
  last : Nat := 0
  latchFailed : Bool := false
  age : Nat := 0xFFFF
  passes : Nat := 0
  stageCode : Nat := 0
  passFrame : Nat := 0
  fails : Nat := 0
  deferrals : Nat := 0
deriving DecidableEq, Repr, Inhabited

/-- The verdict unit (R394), the contexts and the golden tests. -/
structure Verdict where
  ctxs : Tbl Watch := []
  /-- States of lanes 0 to 2. -/
  lanes : Tbl LaneState := []
  /-- Outvoted lanes whose context state waits for its re-initialisation from the majority (R369). -/
  stale : List Nat := []
  outvoted : Nat := 0
  lastFrame : Nat := 0
  lastIssue : Nat := 0
  issueMax : Nat := 0
  /-- VRD_COUNT v. -/
  counts : Tbl Nat := []
  cmpSchema : Nat := 0
  noCorridor : Nat := 0
  /-- The context whose comparison is running (R360). -/
  comparing : Option Nat := none
  golds : Tbl Golden := []
  /-- The plan slot offered a golden test in this frame, the entry, and GOLD.PENDING (R387, R388). -/
  offered : Option Nat := none
  offeredEntry : Nat := 0
  pendingGold : Bool := false
  /-- Local time of the last age check and of the last heartbeat round (R374, R375). -/
  ageAt : Nat := 0
  hbAt : Nat := 0
  /-- WCH_SEL of each physical function (R396). -/
  sel : Tbl W32 := []
deriving DecidableEq, Repr, Inhabited

end Sys2Proof.Machine
end

