-- ==== Sys2Proof/Machine/State.lean ====
section
/-! DEFINITION. The whole state of the block as plain data, the ways a command can stop, and the state after reset. -/

namespace Sys2Proof.Machine

/-- What stops the machine. The spec gives every command of the table an effect in every state, so nothing does: the
type has no constructor, and a fault is impossible. -/
inductive Fault where
deriving DecidableEq, Repr

/-- Why a command has no meaning in the model. -/
inductive Refusal where
  /-- Raised by `exec` for a command of the table that the model does not give a meaning; safe: nothing is claimed
  of it. -/
  | notModelled (mnemonic : String)
deriving DecidableEq, Repr

/-- The state of the CLN9470. One field per chapter of the spec, plus the model's own clock, outputs, free-value
counter and queue. -/
structure State where
  /-- Main clocks since power-on (R34). -/
  mc : Nat := 0
  /-- Chapter 01: the operating state and the die link. -/
  glb : Glb := {}
  die : DieLink := {}
  /-- Chapter 02: the frame and the partitions. -/
  fr : Frame := {}
  prt : Partitions := {}
  /-- Chapter 03: port W, reports and check values. -/
  pw : PortW := {}
  /-- Chapters 04 and 05: plans, challenges, Stoat and SHA3 engines. -/
  aud : Audit := {}
  /-- Chapter 06: Badger. -/
  bdg : Badger := {}
  /-- Chapter 07: contexts, comparator, verdict unit, golden tests. -/
  vrd : Verdict := {}
  /-- Chapter 08: hosts, tenants, rings. -/
  hst : Hosts := {}
  /-- Chapter 09: control cores, ledger, voter. -/
  cor : Cores := {}
  /-- Chapter 10: the Shroud die, and the L die's side of the Stay link. -/
  shr : Shroud := {}
  pch : PchSide := {}
  /-- Chapter 11: Plibex and Ethernet. -/
  plx : Plibex := {}
  /-- Chapter 12: the time base. -/
  tmb : TimeBase := {}
  /-- Chapter 13: the memories. -/
  mem : Memory := {}
  /-- Chapter 14: sequencer, option block, domains. -/
  rst : Reset := {}
  /-- Chapter 15: the Owls and the self-test engine. -/
  owl : Owls := {}
  /-- Chapter 16: fuses, flash, MRAM; the configuration; the evidence log; Fox. -/
  nvm : Nvm := {}
  cfg : CfgBlock := {}
  log : Log := {}
  fox : Fox := {}
  /-- Chapter 17: Tack and the boundary scan. -/
  tck : Tack := {}
  scn : Scan := {}
  /-- What the device sent out during the last command; the model's own field. -/
  out : List Out := []
  /-- Free values drawn so far; the model's own field. -/
  free : Nat := 0
  /-- Commands that wait, first in, first out; the model's own field. -/
  pending : List Instr := []
deriving DecidableEq, Repr, Inhabited

/-- The machine right after reset: power applied and nothing released yet, every register at its reset value. -/
def State.reset : State := {}

end Sys2Proof.Machine
end

