-- ==== Sys2Proof/Machine/Ops.lean ====
section
/-! DEFINITION. The named operations every family uses: the passing of time, the configuration words, tenants and
functions, evidence records, and the writing of records into rings with their interrupts. -/

namespace Sys2Proof.Machine

/-! ### Time -/

/-- Main clocks in a microsecond and a millisecond: 1.8 GHz (R34). -/
def usMc : Nat := 1800
def msMc : Nat := 1800000

/-- Units of 1/16 ns in a microsecond, a millisecond and a second (R17, R591). -/
def us16 : Nat := 16000
def ms16 : Nat := 16000000
def s16 : Nat := 16000000000

/-- Rate of the Shroud oscillator in Hz, within 38 MHz to 42 MHz (R26). -/
def oscHz : Nat := clampN 38000000 42000000 Config.oscRaw

/-- Cycles of the Shroud oscillator since the model's clock began. -/
def State.cyc (s : State) : Nat := s.mc * oscHz / 1800000000

/-- Shroud cycles in n microseconds (R501: nominally 40 MHz). -/
def cycUs (n : Nat) : Nat := n * 40

/-- The time base advanced by dt main clocks (R591): INCR / 2^32 units of 1/16 ns each, if it runs. -/
def TimeBase.advance (t : TimeBase) (dt : Nat) : TimeBase :=
  if t.running then
    let total := t.frac + t.incr * dt
    { t with now := (t.now + total / 2 ^ 32) % 2 ^ 64, frac := total % 2 ^ 32 }
  else t

/-- dt main clocks pass; what the device sent out during the command before is gone. -/
def State.advance (s : State) (dt : Nat) : State :=
  { s with mc := s.mc + dt, tmb := s.tmb.advance dt, out := [] }

/-- The next free value: nothing constrains it. -/
def State.fresh (s : State) : Nat × State := (Config.freeNat s.free, { s with free := s.free + 1 })

/-- The device sends x. -/
def State.emit (s : State) (x : Out) : State := { s with out := s.out ++ [x] }

/-! ### Configuration words -/

/-- Reset values that are not 0 of the configuration registers, by BAR0 offset. -/
def cfgResetWord (off : Nat) : W32 :=
  if off = 0x1000 then 0x1E               -- GLB_CORE_CFG.TDEG_S (R498)
  else if off = 0x100008 then 0x300804    -- BDG_CAL_CFG (R329)
  else if off = 0x180008 then 0xF86000    -- TMB_CFG.LOG_SYNC, PRIORITY1 (R622)
  else if off = 0x18000C then 0xC350      -- TMB_JUMP_LIMIT
  else if off = 0x180010 then 0x3E8       -- TMB_SERVO.STEP_NS
  else if off = 0x180014 then 0x3C        -- TMB_HOLD.HOLDOVER_S
  else 0

/-- The 32-bit configuration word at a BAR0 offset in a configuration: its reset value where no section covers it
(R766). -/
def Cfg.word (c : Cfg) (off : Nat) : Nat := ((c.regs.lookup off).getD (cfgResetWord off)).toNat

/-- A field of the active configuration. -/
def State.cw (s : State) (off : Nat) : Nat := s.cfg.active.word off
def State.cf (s : State) (off lo w : Nat) : Nat := fld (s.cw off) lo w
def State.cw64 (s : State) (off : Nat) : Nat := s.cw off + 2 ^ 32 * s.cw (off + 4)

/-! ### Tenants and functions -/

/-- TEN_T_CFG and TEN_T_RINGS of tenant t (R466). -/
def Cfg.tenValid (c : Cfg) (t : Nat) : Bool := t < 8 && bitAt (c.word (0x10100 + 0x20 * t)) 0
def Cfg.tenFn (c : Cfg) (t : Nat) : Nat := fld (c.word (0x10100 + 0x20 * t)) 2 2 * 2 + fld (c.word (0x10100 + 0x20 * t)) 4 1
def State.tenValid (s : State) (t : Nat) : Bool := s.cfg.active.tenValid t
/-- CLASS AUX. -/
def State.tenAux (s : State) (t : Nat) : Bool := bitAt (s.cw (0x10100 + 0x20 * t)) 1
/-- The function of tenant t, numbered LINK × 2 + FUNCTION. -/
def State.fnOf (s : State) (t : Nat) : Nat := s.cfg.active.tenFn t
def State.ringBase (s : State) (t : Nat) : Nat := s.cf (0x10104 + 0x20 * t) 0 15
def State.ringCount (s : State) (t : Nat) : Nat := s.cf (0x10104 + 0x20 * t) 16 15

/-- The VALID tenant of a function (R403). -/
def State.tenantOf (s : State) (fn : Nat) : Option Nat :=
  (List.range 8).find? fun t => s.tenValid t && s.fnOf t == fn

/-- Ring r of function fn. -/
def ringKey (fn r : Nat) : Nat := fn * 16384 + r
def State.ring (s : State) (fn r : Nat) : Ring := tget s.hst.rings (ringKey fn r)
def State.setRing (s : State) (fn r : Nat) (x : Ring) : State :=
  { s with hst := { s.hst with rings := tset s.hst.rings (ringKey fn r) x } }
def State.hfn (s : State) (fn : Nat) : HostFn := tget s.hst.fns fn
def State.setHfn (s : State) (fn : Nat) (x : HostFn) : State :=
  { s with hst := { s.hst with fns := tset s.hst.fns fn x } }
def State.modTenant (s : State) (t : Nat) (f : Tenant → Tenant) : State :=
  { s with hst := { s.hst with tenants := tmod s.hst.tenants t f } }

/-- Entries of a ring (R409). -/
def Ring.size (r : Ring) : Nat := 2 ^ r.sizeLog2

/-- Entries the host has not consumed: (PI − CI) mod 2^32. -/
def Ring.used (r : Ring) : Nat := (r.pi + 2 ^ 32 - r.ci) % 2 ^ 32

/-- A record can be written now: the ring is enabled, an entry is free and not reserved (R446, R447), and the
function may master the bus (R399). -/
def State.canWrite (s : State) (fn r : Nat) : Bool :=
  let g := s.ring fn r
  g.enable && (s.hfn fn).busMaster && g.used + g.owed < g.size

/-! ### Messages -/

/-- Word w of a function's MSI-X table; a vector's mask bit resets to 1 (the PCIe rules of R458). -/
def HostFn.msixWord (h : HostFn) (w : Nat) : W32 := tget h.msix w ^^^ (if w % 4 = 3 then 1 else 0)

/-- Vector v may go out: the function masters the bus, and neither the Function Mask nor the vector's own bit masks it
(R458). -/
def HostFn.canSend (h : HostFn) (v : Nat) : Bool := h.busMaster && !h.msixMask && !(h.msixWord (4 * v + 3)).getLsbD 0

/-- Vector v of a function is signalled: sent, or left pending while it is masked; nothing while MSI-X is not enabled
(R458; PRESUMED: the PCIe rules, log entry 53). -/
def State.signal (s : State) (fn v : Nat) : State :=
  let h := s.hfn fn
  if !h.msixOn then s
  else if h.canSend v then s.emit (.msix fn v)
  else s.setHfn fn { h with pba := insNat v h.pba }

/-- The pending vectors of a function that may go out by now go out (R458). -/
def State.sendPending (s : State) (fn : Nat) : State :=
  let h := s.hfn fn
  if h.msixOn then
    (h.pba.filter h.canSend).foldl (fun q v => q.emit (.msix fn v))
      (s.setHfn fn { h with pba := h.pba.filter fun v => !h.canSend v })
  else s

/-- The message of a ring is sent, and its count cleared (R459). -/
def State.ringMessage (s : State) (fn r : Nat) : State :=
  let g := s.ring fn r
  (s.setRing fn r { g with unannounced := 0 }).signal fn g.irqNow.vector

/-- A record has been written into ring r and covered by a write-back: TEN_R_IRQ as written holds from this record on,
which is counted; the message goes out if it is due (R459, R460). -/
def State.ringWritten (s : State) (fn r : Nat) (urgentRecord : Bool) : State :=
  let g := s.ring fn r
  if g.irq.irqEn then
    let g' := { g with irqNow := g.irq, unannounced := g.unannounced + 1
                       firstAt := if g.unannounced = 0 then s.mc else g.firstAt }
    let s' := s.setRing fn r g'
    if g'.unannounced ≥ max 1 g.irq.modCount || (g.urgent && urgentRecord) then s'.ringMessage fn r else s'
  else s.setRing fn r { g with irqNow := g.irq }

/-- Bytes of a ring's entry (R407), and the host address of the entry of index i (R409). -/
def Ring.entrySize (g : Ring) : Nat := if g.kind = 2 then 128 else 64
def Ring.entryAt (g : Ring) (i : Nat) : Nat := (g.base.toNat + i % g.size * g.entrySize) % 2 ^ 64

/-- The ring's new index is written to TEN_R_WB: 8 bytes, the upper four 0 (R413). -/
def State.writeBack (s : State) (fn r i : Nat) : State :=
  s.emit (.writeBack fn r i (s.ring fn r).wb.toNat (le 4 i ++ zeros 4))

/-- A record goes into the next entry of ring r: record, write-back, message (R400, R413, R461). -/
def State.putRecord (s : State) (fn r : Nat) (b : Bytes) (urgentRecord : Bool) : State :=
  let g := s.ring fn r
  let s1 := (s.setRing fn r { g with pi := (g.pi + 1) % 2 ^ 32 }).emit (.record fn r g.pi (g.entryAt g.pi) b)
  (s1.writeBack fn r ((g.pi + 1) % 2 ^ 32)).ringWritten fn r urgentRecord

/-- Read requests of a function, none larger than its Max Read Request Size (R398). -/
def State.hostRead (s : State) (fn addr len : Nat) : State := s.emit (.hostRead fn addr len (128 * 2 ^ (s.hfn fn).maxRead))

/-! ### Evidence -/

/-- The 128 bytes of an evidence record (R450). -/
def Evidence.bytes (e : Evidence) : Bytes :=
  let b := le 2 e.kind ++ le 1 e.tenant ++ le 1 e.severity ++ le 1 e.payload.length ++ zeros 3 ++ le 8 e.seq ++
    le 8 e.time ++ le 8 e.frame ++ le 4 e.context ++ padTo 88 e.payload
  b ++ le 4 (crcK b)

/-- A record is visible to its own tenant, and a device-wide record to every tenant (R453). -/
def Evidence.visible (e : Evidence) (t : Nat) : Bool := e.tenant == 0xFF || e.tenant == t

/-- The record of kind 0x0002 that a ring writes when it resumes (R454). -/
def gapRecord (s : State) (t : Nat) (g : Ring) : Evidence :=
  { kind := 0x0002, tenant := t, severity := 0, seq := 0, time := s.tmb.now,
    frame := if s.fr.ticking then s.fr.num else 0, payload := le 8 g.skipFirst ++ le 8 g.skipLast }

/-- The ring writes its gap record, if it owes one and an entry is free (R454). -/
def State.ringGap (s : State) (fn r : Nat) : State :=
  let g := s.ring fn r
  match s.tenantOf fn with
  | none => s
  | some t =>
    if g.kind = 2 ∧ g.skipFirst ≠ 0 ∧ s.canWrite fn r then
      (s.setRing fn r { g with skipFirst := 0, skipLast := 0 }).putRecord fn r (gapRecord s t g).bytes false
    else s

/-- One evidence ring takes a record or skips it (R454). -/
def State.copyTo (s : State) (fn r : Nat) (e : Evidence) : State :=
  let s1 := s.ringGap fn r
  let g := s1.ring fn r
  if g.skipFirst = 0 ∧ s1.canWrite fn r then s1.putRecord fn r e.bytes false
  else s1.setRing fn r { g with skipFirst := if g.skipFirst = 0 then e.seq else g.skipFirst, skipLast := e.seq,
                                lost := inc 32 g.lost }

/-- Every enabled evidence ring that sees a record, as (function, ring). -/
def State.evidenceRings (s : State) (e : Evidence) : List (Nat × Nat) :=
  s.hst.rings.filterMap fun (k, g) =>
    if g.enable && g.kind == 2 && ((s.tenantOf (k / 16384)).elim false e.visible) then some (k / 16384, k % 16384)
    else none

/-- The log writer of partition 0 works once step D4 is released (R698, R791). -/
def State.logReady (s : State) : Bool := match s.rst.released with | some k => 4 ≤ k | none => false

/-- The GDDR6 log takes a record, overwriting its oldest when full (R791, R793). -/
def Log.push (l : Log) (e : Evidence) : Log :=
  { l with records := if l.records.length < 33554432 then l.records ++ [e] else l.records.drop 1 ++ [e],
           nextSeq := e.seq + 1,
           oldest := if l.records.isEmpty then e.seq
                     else if l.records.length < 33554432 then l.oldest else l.oldest + 1 }

/-- An evidence record with its time and frame is logged, mirrored and copied to the rings that see it. -/
def State.logRecord (s : State) (kind tenant sev ctx : Nat) (payload : Bytes) : State :=
  let e : Evidence := { kind, tenant, severity := sev, seq := s.log.nextSeq, time := s.tmb.now,
                        frame := if s.fr.ticking then s.fr.num else 0, context := ctx, payload }
  let full := s.log.records.length ≥ 33554432
  let lost := full && (s.log.oldest > s.nvm.archNewest)
  let s1 := { s with log := s.log.push e,
                     fox := { s.fox with lost := if lost then inc 32 s.fox.lost else s.fox.lost },
                     nvm := { s.nvm with mirror := (if s.nvm.mirror.length < 256 then s.nvm.mirror
                                                    else s.nvm.mirror.drop 1) ++ [e] } }
  (s1.evidenceRings e).foldl (fun q (fn, r) => q.copyTo fn r e) s1

/-- The device writes an evidence record (R450, R451); while the log is not available nothing is written. -/
def State.evidence (s : State) (kind tenant sev ctx : Nat) (payload : Bytes) : State :=
  if s.logReady then s.logRecord kind tenant sev ctx payload else s

/-- A device-wide record that concerns no context. -/
def State.evDev (s : State) (kind sev : Nat) (payload : Bytes) : State := s.evidence kind 0xFF sev 0xFFFFFFFF payload

/-! ### Verdict records and lost notices -/

/-- The lost notice of R449. -/
def lostNotice (r count first last : Nat) : Bytes :=
  le 1 3 ++ zeros 3 ++ le 2 r ++ zeros 2 ++ le 4 count ++ zeros 4 ++ le 8 first ++ le 8 last ++ zeros 32

/-- A verdict record of a frame is discarded (R448): counted, and owed a notice. -/
def State.discardVerdict (s : State) (fn r frame : Nat) : State :=
  let g := s.ring fn r
  let s1 := s.setRing fn r { g with lost := inc 32 g.lost, gapCount := inc 32 g.gapCount,
                                    gapFirst := if g.gapCount = 0 then frame else min g.gapFirst frame
                                    gapLast := if g.gapCount = 0 then frame else max g.gapLast frame }
  match s.tenantOf fn with
  | some t => s1.modTenant t fun x => { x with lost := inc 32 x.lost }
  | none => s1

/-- A held lost notice that is discarded is merged into the notice the ring owes (R449). -/
def State.mergeNotice (s : State) (fn r : Nat) (b : Bytes) : State :=
  let g := s.ring fn r
  s.setRing fn r { g with gapCount := sat 32 (g.gapCount + rd b 8 4),
                          gapFirst := if g.gapCount = 0 then rd b 16 8 else min g.gapFirst (rd b 16 8),
                          gapLast := if g.gapCount = 0 then rd b 24 8 else max g.gapLast (rd b 24 8) }

/-- Everything ring r holds is discarded (R448, R449). -/
def State.dropHeld (s : State) (fn r : Nat) : State :=
  let g := s.ring fn r
  g.held.foldl (fun q h => if h.lost then q.mergeNotice fn r h.bytes else q.discardVerdict fn r h.frame)
    (s.setRing fn r { g with held := [] })

/-- The notice a completion ring owes is written, if an entry is free and nothing older is held (R449). -/
def State.writeNotice (s : State) (fn r : Nat) : State :=
  let g := s.ring fn r
  if g.kind = 1 ∧ g.gapCount ≠ 0 ∧ g.held = [] ∧ s.canWrite fn r then
    (s.setRing fn r { g with gapCount := 0, gapFirst := 0, gapLast := 0 }).putRecord fn r
      (lostNotice r g.gapCount g.gapFirst g.gapLast) true
  else s

/-- The oldest record a completion ring holds is written, if an entry is free (R447). -/
def State.writeHeld (s : State) (fn r : Nat) : State :=
  let g := s.ring fn r
  match g.held with
  | [] => s
  | h :: rest =>
    if s.canWrite fn r then (s.setRing fn r { g with held := rest }).putRecord fn r h.bytes
      (h.lost || [2, 3, 4, 7].contains (rd h.bytes 1 1))
    else s

/-- The notice a ring owes takes its place among the held records when records are held (R449). -/
def State.holdNotice (s : State) (fn r : Nat) : State :=
  let g := s.ring fn r
  if g.gapCount ≠ 0 ∧ g.held.length < 64 then
    s.setRing fn r { g with gapCount := 0, gapFirst := 0, gapLast := 0,
                            held := g.held ++ [{ bytes := lostNotice r g.gapCount g.gapFirst g.gapLast, lost := true }] }
  else s

/-- A verdict record goes to completion ring r: written, held or discarded (R447, R448, R449). -/
def State.postVerdict (s : State) (fn r frame : Nat) (b : Bytes) (urgentRecord : Bool) : State :=
  if !(s.ring fn r).enable then s.discardVerdict fn r frame
  else
    let s1 := s.writeNotice fn r
    let g := s1.ring fn r
    if g.held = [] ∧ g.gapCount = 0 ∧ s1.canWrite fn r then s1.putRecord fn r b urgentRecord
    else
      let s2 := s1.holdNotice fn r
      let g2 := s2.ring fn r
      if g2.gapCount = 0 ∧ g2.held.length < 64 then
        s2.setRing fn r { g2 with held := g2.held ++ [{ bytes := b, frame := frame }] }
      else s2.discardVerdict fn r frame

/-! ### Completion records -/

/-- What a completion record reports (R441). -/
structure Cpl where
  status : Nat := 0
  opcode : Nat := 0
  result : Nat := 0
  detail : Nat := 0
  clampMap : Nat := 0
  data : Bytes := []
deriving DecidableEq, Repr, Inhabited

/-- The 64 bytes of a completion record (R441). -/
def Cpl.bytes (c : Cpl) (ring index time : Nat) : Bytes :=
  le 1 1 ++ le 1 c.status ++ le 1 c.opcode ++ le 1 c.result ++ le 2 ring ++ zeros 2 ++ le 4 index ++ le 4 c.detail ++
    le 8 c.clampMap ++ le 8 time ++ padTo 32 c.data

/-- Completion ring in which a descriptor of a ring holds an entry. -/
def Ring.cplOf (g : Ring) (index : Nat) : Nat := ((g.outstanding.find? fun x => x.1 == index).map (·.2)).getD g.cplRing

/-- The descriptor is no longer outstanding. -/
def Ring.settle (g : Ring) (index : Nat) : Ring := { g with outstanding := g.outstanding.erase (index, g.cplOf index) }

/-- A reservation ends without a record. -/
def State.release (s : State) (fn r : Nat) : State :=
  let g := s.ring fn r
  s.setRing fn r { g with owed := g.owed - 1 }

/-- A descriptor completes: its record takes the entry reserved for it, and it is no longer outstanding (R425, R446);
a disabled completion ring takes no record. -/
def State.complete (s : State) (fn ring index : Nat) (c : Cpl) : State :=
  let g := s.ring fn ring
  let cr := g.cplOf index
  let s1 := s.setRing fn ring (g.settle index)
  let s2 := match s.tenantOf fn with
    | some t => s1.modTenant t fun x => { x with desc := inc 32 x.desc }
    | none => s1
  let b := c.bytes ring index s.tmb.now
  if !(s2.ring fn cr).enable then s2.release fn cr
  else if (s2.hfn fn).busMaster then (s2.release fn cr).putRecord fn cr b false
  else s2.setRing fn cr { s2.ring fn cr with waiting := (s2.ring fn cr).waiting ++ [b] }

/-- The completion records that waited for Bus Master Enable are written into their reserved entries (R399). -/
def State.writeWaiting (s : State) (fn r : Nat) : State :=
  let g := s.ring fn r
  g.waiting.foldl (fun q b =>
    let x := q.ring fn r
    (q.setRing fn r { x with owed := x.owed - 1 }).putRecord fn r b false) (s.setRing fn r { g with waiting := [] })

end Sys2Proof.Machine
end

