-- ==== Sys2Proof/Machine/StayOps.lean ====
section
/-! DEFINITION. Sending on the Stay link: event frames that wait, and what a side keeps of what it sent (R505 to
R508). -/

namespace Sys2Proof.Machine

/-- Codes of GLB_STATE.STATE (R47). -/
def OpState.code : OpState → Nat
  | .startUp => 0 | .configured => 1 | .running => 2 | .degraded => 3 | .safe => 4 | .maintenance => 5

/-- An event frame waits for its position (R505). -/
def StaySide.enqueue (l : StaySide) (typ : Nat) (payload : Bytes) : StaySide :=
  { l with waiting := l.waiting ++ [{ typ, payload := padTo 10 payload }] }

/-- The L die has an event frame to send. -/
def State.toShroud (s : State) (typ : Nat) (payload : Bytes) : State :=
  { s with pch := { s.pch with link := s.pch.link.enqueue typ payload } }

/-- Shroud has an event frame to send. -/
def State.fromShroud (s : State) (typ : Nat) (payload : Bytes) : State :=
  { s with shr := { s.shr with link := s.shr.link.enqueue typ payload } }

/-- A FAULT frame of Shroud (R504, R544). -/
def State.shroudFault (s : State) (code index mask : Nat) : State :=
  s.fromShroud 0x85 (le 1 code ++ le 1 index ++ zeros 2 ++ le 4 mask)

/-- The STATE frame of the present GLB_STATE (R506). -/
def State.sendStateFrame (s : State) : State := s.toShroud 0x06 (le 1 s.glb.st.code ++ le 1 s.glb.cause)

end Sys2Proof.Machine
end

