-- ==== Sys2Proof/Machine/TelegramOps.lean ====
section
/-! DEFINITION. Sending Plibex telegrams (R550 to R557, R564 to R572) and the connection entries they need (R558,
R559). -/

namespace Sys2Proof.Machine

/-! ### The Plibex section -/

def Cfg.connCount (c : Cfg) : Nat := if c.plibex.length < 128 then 0 else min 4096 (rd c.plibex 6 2)
def Cfg.devId (c : Cfg) : Nat := rd c.plibex 0 4
/-- Field of connection entry i (R559). -/
def Cfg.conn (c : Cfg) (i off n : Nat) : Nat := rd c.plibex (128 + 64 * i + off) n
def Cfg.connValid (c : Cfg) (i : Nat) : Bool := i < c.connCount && bitAt (c.conn i 4 1) 0
/-- DIR: true for a receive connection. -/
def Cfg.connRx (c : Cfg) (i : Nat) : Bool := bitAt (c.conn i 4 1) 1
def Cfg.connMac (c : Cfg) (i : Nat) : Nat := fld (c.conn i 4 1) 2 2
def Cfg.connV6 (c : Cfg) (i : Nat) : Bool := bitAt (c.conn i 4 1) 4
def Cfg.connFrer (c : Cfg) (i : Nat) : Bool := bitAt (c.conn i 4 1) 5
def Cfg.connId (c : Cfg) (i : Nat) : Nat := c.conn i 0 4
def Cfg.connType (c : Cfg) (i : Nat) : Nat := c.conn i 5 1
def Cfg.connOwner (c : Cfg) (i : Nat) : Nat := fld (c.conn i 6 1) 0 3
def Cfg.connPeer (c : Cfg) (i : Nat) : Nat := c.conn i 8 4
def Cfg.connTxMs (c : Cfg) (i : Nat) : Nat := c.conn i 16 2
def Cfg.connWdMs (c : Cfg) (i : Nat) : Nat := c.conn i 18 2
/-- The VALID connections in ascending index. -/
def Cfg.conns (c : Cfg) : List Nat := (List.range c.connCount).filter c.connValid

def State.conn (s : State) (i : Nat) : Conn := tget s.plx.conns i
def State.setConn (s : State) (i : Nat) (x : Conn) : State := { s with plx := { s.plx with conns := tset s.plx.conns i x } }
def State.modConn (s : State) (i : Nat) (f : Conn → Conn) : State := s.setConn i (f (s.conn i))

/-! ### Telegrams -/

/-- A telegram as transmitted (R550), its CHECK computed over the virtual header of R552. -/
def telegramBytes (typ : Nat) (flags connId seq time : Nat) (payload : Bytes) (sender receiver : Nat) : Bytes :=
  let b := be 1 (0x10 + typ) ++ be 1 flags ++ be 2 payload.length ++ be 4 connId ++ be 4 seq ++ be 8 time ++ payload
  b ++ be 4 (crcK (be 4 sender ++ be 4 receiver ++ b))

/-- ETH_CFG of the option block in use (R671, R673). -/
def Reset.ethCfg (r : Reset) : Nat := if r.opt = [] then 0 else rd r.opt 13 1

/-- MODE of a MAC: 1 for 2500BASE-X, which the option block gives E2 and E3 (R547, R586, R671). -/
def State.macMode (s : State) (m : Nat) : Nat := if m < 2 then 0 else if bitAt s.rst.ethCfg (m - 2) then 0 else 1

/-- The rates a MAC supports, as PLX_M_STAT.SPEED codes (R547, R586). -/
def State.speedOk (s : State) (m speed : Nat) : Bool :=
  if m < 2 then speed ≤ 4 else if s.macMode m = 1 then speed == 2 else speed ≤ 2

/-- GLB_FRAME_STATUS.TIME_VALID (R78). -/
def State.timeValid (s : State) : Bool := s.tmb.valid

/-- One telegram on connection i (R564, R565, R570, R572): nothing but SAFE_STATE while the time is not valid. -/
def State.sendTelegram (s : State) (i typ : Nat) (safeFlag : Bool) (payload : Bytes) : State :=
  if !s.timeValid && typ != 2 then s
  else
    let c := s.conn i
    let g := s.cfg.active
    let seq := (c.txSeq + 1) % 2 ^ 32
    let time := if s.timeValid then s.tmb.now / 16 else 0
    let rep := c.lastPayload == some (typ, payload)
    let b := telegramBytes typ (b2n safeFlag + 2 * b2n rep) (g.connId i) seq time payload g.devId (g.connPeer i)
    let macs := if g.connFrer i then [g.connMac i, g.connMac i ^^^ 1] else [g.connMac i]
    let s1 := s.setConn i { c with txSeq := seq, count := inc 32 c.count, lastAt := s.tmb.now, sentAt := some s.mc,
                                   lastPayload := some (typ, payload), rebound := false,
                                   rtag := if g.connFrer i then (c.rtag + 1) % 65536 else c.rtag }
    let s2 := { s1 with plx := { s1.plx with txTotal := (s1.plx.txTotal + 1) % 2 ^ 64 } }
    macs.foldl (fun q m =>
      ({ q with plx := { q.plx with macs := tmod q.plx.macs m fun x => { x with tx := inc 32 x.tx } } }).emit
        (.telegram i m b)) s2

/-- The current frame's number, or 0 before the frame tick starts. -/
def State.frameNum (s : State) : Nat := if s.fr.ticking then s.fr.num else 0

/-- The SAFE_STATE payload with a cause (R557). -/
def State.safePayload (s : State) (cause : Nat) : Bytes := be 1 cause ++ zeros 3 ++ be 8 s.frameNum

/-- A SAFE_STATE telegram on connection i (R567, R569). -/
def State.sendSafe (s : State) (cause i : Nat) : State := s.sendTelegram i 2 true (s.safePayload cause)

/-- A SAFE_STATE telegram on every VALID connection (R43, R567, R690). -/
def State.sendSafeAll (s : State) (cause : Nat) : State := s.cfg.active.conns.foldl (fun q i => q.sendSafe cause i) s

/-! ### VERDICT and FUNC_STATE payloads -/

def State.watch (s : State) (c : Nat) : Watch := tget s.vrd.ctxs c
def State.setWatch (s : State) (c : Nat) (x : Watch) : State := { s with vrd := { s.vrd with ctxs := tset s.vrd.ctxs c x } }
def State.modWatch (s : State) (c : Nat) (f : Watch → Watch) : State := s.setWatch c (f (s.watch c))

/-- The VERDICT payload of a connection (R554). -/
def State.verdictPayload (s : State) (bound : Option Nat) : Bytes :=
  match bound with
  | none => be 2 0xFFFF ++ zeros 22
  | some c =>
    let w := s.watch c
    let vf := b2n w.trusted + 2 * b2n (w.esc != .normal) + 4 * b2n (s.glb.st == .degraded) + 8 * b2n w.aged +
      16 * b2n w.phantomNow
    be 2 c ++ be 1 w.lastVerdict ++ be 1 vf ++ be 4 w.maxAge ++
      be 8 (if w.lastVerdict = 0 then 0 else w.lastFrame) ++ be 8 (w.trustTime / 16)

/-- A VERDICT telegram on connection i with the present state of its context (R565, R371). -/
def State.sendVerdict (s : State) (i : Nat) : State := s.sendTelegram i 1 false (s.verdictPayload (s.conn i).bound)

/-- RUN bits of one channel's safety functions (R504). -/
def runBits (fns : Tbl Fn) : Nat :=
  fns.foldl (fun a (n, f) => if f.st == .run then a + 2 ^ n else a) 0

def SoState.code : SoState → Nat | .off => 0 | .on => 1 | .shutdown => 2 | .locked => 3
def PvState.code : PvState → Nat | .off => 0 | .lsOn => 1 | .on => 2 | .shutdown => 3 | .locked => 4

/-- The FUNC_STATE payload (R555). -/
def State.funcPayload (s : State) : Bytes :=
  be 8 s.pch.hchRun ++ be 8 (runBits s.pch.fns) ++
    be 4 (s.shr.souts.foldl (fun a (o, x) => a + x.st.code * 4 ^ o) 0) ++
    be 2 (s.shr.prvs.foldl (fun a (p, x) => a + x.st.code * 16 ^ p) 0) ++ be 1 s.glb.st.code ++ zeros 1

end Sys2Proof.Machine
end

