-- ==== Sys2Proof/Machine/VerdictOps.lean ====
section
/-! DEFINITION. Issuing a verdict (R370 to R373) and what it reads of a context's report slot and plan slot. -/

namespace Sys2Proof.Machine

/-- ALIGN_MS and COUNT of a configuration (R78). -/
def Cfg.alignMs (c : Cfg) : Nat := fld (c.word 0x100) 0 14
def Cfg.count (c : Cfg) : Nat := fld (c.word 0x100) 16 10

/-! ### The frame grid (R72, R73) -/

/-- Local time, 1/16 ns, of tick j under ALIGN_MS a and COUNT c: frame j mod c of interval j / c. -/
def gridTime (a c j : Nat) : Nat := 16 * (j / c * (a * 1000000) + j % c * (a * 1000000) / c)

/-- The first tick at or after local time t. -/
def gridAt (a c t : Nat) : Nat :=
  let j := t / 16 * c / (a * 1000000)
  if t ≤ gridTime a c j then j else if t ≤ gridTime a c (j + 1) then j + 1 else j + 2

/-- The first alignment boundary strictly later than local time t (R74, R75). -/
def nextBoundary (a t : Nat) : Nat := (t / (a * ms16) + 1) * (a * ms16)

/-- A configuration has a frame rate. -/
def Cfg.hasRate (c : Cfg) : Bool := c.alignMs != 0 && c.count != 0

/-- When the next frame tick comes, a committed configuration that takes effect before it included (R75). -/
def State.nextTickAt (s : State) : Nat :=
  match s.cfg.next with
  | some c =>
    if s.cfg.commitPending && s.cfg.boundary ≤ s.fr.nextTick && c.hasRate then
      gridTime c.alignMs c.count (gridAt c.alignMs c.count s.cfg.boundary)
    else s.fr.nextTick
  | none => s.fr.nextTick

def State.slot (s : State) (i : Nat) : Slot := tget s.pw.slots i
def State.modSlot (s : State) (i : Nat) (f : Slot → Slot) : State :=
  { s with pw := { s.pw with slots := tset s.pw.slots i (f (s.slot i)) } }
def State.plan (s : State) (p : Nat) : PlanSlot := tget s.aud.plans p
def State.modPlan (s : State) (p : Nat) (f : PlanSlot → PlanSlot) : State :=
  { s with aud := { s.aud with plans := tset s.aud.plans p (f (s.plan p)) } }

/-- AUD_PLN_CFG of plan slot p (R187, R213). -/
def Cfg.plnWord (c : Cfg) (p : Nat) : Nat := c.word (0x80100 + 0x40 * p)
def Cfg.plnValid (c : Cfg) (p : Nat) : Bool := p < 16 && bitAt (c.plnWord p) 0
def Cfg.plnReport (c : Cfg) (p : Nat) : Nat := fld (c.plnWord p) 1 7
def Cfg.plnPart (c : Cfg) (p : Nat) : Nat := fld (c.plnWord p) 8 6

/-- The plan slot that serves a report slot. -/
def State.planOf (s : State) (slot : Nat) : Option Nat :=
  (List.range 16).find? fun p => s.cfg.active.plnValid p && s.cfg.active.plnReport p == slot

def State.openCtxs (s : State) : List Nat := (s.vrd.ctxs.filter (·.2.isOpen)).map (·.1)

/-- IN_WINDOW (R377). -/
def Watch.inWindow (w : Watch) : Nat := (w.counted.take w.window).count true

/-- WCH_C_GOLD.STATE (R396): latched, or due under R386. -/
def State.goldState (s : State) (c : Nat) : Nat :=
  let w := s.watch c
  match w.latch with
  | .failed => 2
  | .overdue => 3
  | .clear => match s.planOf w.slot with
    | some p => if w.k > 0 ∧ (tget s.vrd.golds p).age ≥ w.k then 1 else 0
    | none => 0

/-- Codes of WCH_C_STAT.ESC. -/
def Esc.code : Esc → Nat | .normal => 0 | .escalated => 1 | .clearing => 2

/-- The verdict record of context c (R370). -/
def State.verdictRecord (s : State) (c code issueTime : Nat) : Bytes :=
  let w := s.watch c
  let p := s.planOf w.slot
  let pl := p.elim default s.plan
  let flags := b2n w.trusted + 2 * b2n (w.esc != .normal) + 4 * b2n (s.glb.st == .degraded) + 8 * b2n w.phantomNow +
    16 * b2n (p.isSome && s.vrd.offered == p)
  le 1 2 ++ le 1 code ++ le 2 flags ++ le 4 c ++ le 8 s.fr.num ++ le 8 issueTime ++ le 8 w.trustTime ++
    le 1 (s.slot w.slot).rep.code ++ le 1 pl.code ++ le 1 pl.chCode ++ le 1 w.cmpCode ++ le 1 (s.goldState c) ++
    le 1 w.inWindow ++ le 1 w.clean ++ le 1 (if w.esc = .normal then 0 else w.escCode) ++
    le 2 (sat 16 w.cmp.missCells) ++ le 2 (sat 16 w.cmp.phantomCells) ++ le 1 (sat 8 w.cmp.missObj) ++
    le 1 (sat 8 w.cmp.phantomObj) ++ le 1 (sat 8 w.cmp.tempMiss) ++ le 1 (sat 8 w.cmp.tempAppear) ++ zeros 16

/-- TRUSTED, TRUST_TIME and the counts after the issue of a code (R372, R373). -/
def Watch.afterIssue (w : Watch) (code frame nextTick : Nat) : Watch :=
  let trust := code = 1 ∨ code = 6
  { w with
    trusted := if trust then true else if code = 5 then w.trusted else false
    trustTime := if trust then nextTick else w.trustTime
    aged := if trust then false else w.aged
    lastVerdict := code, lastFrame := frame, issued := some frame
    distrusts := if code = 2 ∨ code = 3 ∨ code = 4 then inc 16 w.distrusts else w.distrusts
    lates := if code = 5 then inc 16 w.lates else w.lates }

/-- A verdict is issued for context c: state, completion ring, Plibex (R370 to R373, R565, R568). -/
def State.issue (s : State) (c code issueTime : Nat) : State :=
  let w := (s.watch c).afterIssue code s.fr.num s.nextTickAt
  let s1 := s.setWatch c w
  let s2 := { s1 with vrd := { s1.vrd with counts := tinc s1.vrd.counts 32 code, lastFrame := s.fr.num } }
  let s3 := s2.postVerdict (s2.fnOf w.tenant) w.cplRing s2.fr.num (s2.verdictRecord c code issueTime)
    ([2, 3, 4, 7].contains code)
  if code = 7 then s3 else w.plx.foldl (fun q i => q.sendVerdict i) s3

end Sys2Proof.Machine
end

