-- ==== Sys2Proof/Machine/StateOps.lean ====
section
/-! DEFINITION. The operating states of R41: entry into SAFE and DEGRADED, repair, and what each transition makes the
other blocks do. -/

namespace Sys2Proof.Machine

/-- GLB_STATE.STATE has changed: every function that enabled it is told (R462), and Shroud (R506). -/
def State.stateChanged (s : State) : State :=
  (List.range 8).foldl (fun q fn => if (q.hfn fn).evtEnable then q.signal fn (q.hfn fn).evtVector else q) s.sendStateFrame

/-- The STATE evidence record of the present GLB_STATE (R455). -/
def State.stateRecord (s : State) (sev : Nat) : State :=
  s.evDev 0x0105 sev (le 1 s.glb.st.code ++ le 1 (if s.glb.st = .degraded then s.glb.prior.code else 0) ++ le 1 s.glb.cause)

/-- A transition between states other than DEGRADED and SAFE. -/
def State.moveTo (s : State) (st : OpState) : State :=
  if s.glb.st = st then s
  else { s with glb := { s.glb with st := st, cause := 0, prior := .startUp } }.stateChanged

/-- The state whose outputs, descriptors and frame processing are in effect: PRIOR while DEGRADED (R42). -/
def State.acting (s : State) : OpState := if s.glb.st = .degraded then s.glb.prior else s.glb.st

/-- The acting state changes: the state itself, or PRIOR while DEGRADED (R41). -/
def State.actTo (s : State) (st : OpState) : State :=
  if s.glb.st = .degraded then { s with glb := { s.glb with prior := st } } else s.moveTo st

/-- A long operation completes with status ABORTED (R430, R463); `report` is false where its record is discarded. -/
def State.abortLong (s : State) (report : Bool) (o : LongOp) : State :=
  if report then s.complete o.fn o.ring o.index { status := 0x16, opcode := o.op, clampMap := o.clamps }
  else
    let g := s.ring o.fn o.ring
    let s1 := (s.setRing o.fn o.ring (g.settle o.index)).release o.fn (g.cplOf o.index)
    match s.tenantOf o.fn with
    | some t => s1.modTenant t fun x => { x with desc := inc 32 x.desc }
    | none => s1

/-- The long operations of a function that `keep` does not spare stop (R430, R463, R781). -/
def State.abortOps (s : State) (fn : Nat) (report : Bool) (keep : LongOp → Bool) : State :=
  let h := s.hfn fn
  let run := h.longRun.filter keep
  let gone := (h.longRun.toList ++ h.longQ).filter fun o => !keep o
  gone.foldl (fun q o => q.abortLong report o) (s.setHfn fn { h with longRun := run, longQ := h.longQ.filter keep })

/-- A SAFE_STATE verdict that comes before the frame's own is the verdict the context receives for the frame, and is not
counted (R366, R377). -/
def State.shiftWindow (s : State) (c : Nat) : State :=
  if s.fr.ticking ∧ (s.watch c).issued ≠ some s.fr.num then
    s.modWatch c fun w => { w with counted := (false :: w.counted).take 255 }
  else s

/-- Entry into SAFE (R41, R43): state, record, the SAFE frame to Shroud, SAFE_STATE for every open context (R366) and
on every connection (R567), and the end of the long operations (R430). -/
def State.enterSafe (s : State) (cause : Nat) : State :=
  if s.glb.st = .safe then s
  else
    let s1 := { s with glb := { s.glb with st := .safe, prior := .startUp, cause := cause, repairs := [] } }
    let s2 := (s1.toShroud 0x07 (le 1 cause)).stateChanged
    let s3 := s2.stateRecord 3
    let s4 := s3.openCtxs.foldl (fun q c => (q.shiftWindow c).issue c 7 q.tmb.now) s3
    let s5 := s4.sendSafeAll cause
    (List.range 8).foldl (fun q fn => q.abortOps fn true fun o => o.op == 0x30 || o.begun) s5

/-- The fused grade is CLN9470-M (R3, R755). -/
def State.gradeM (s : State) : Bool := fld s.nvm.shadow 10 4 == 2

/-- T_deg in seconds (R490, R491): TDEG_S, not above the fused ceiling. -/
def State.tdegCeil (s : State) : Nat := let c := fld s.nvm.shadow 14 9; if c = 0 then 120 else min c 300
def State.tdegS (s : State) : Nat := min (s.cf 0x1000 0 9) s.tdegCeil

/-- Entry into DEGRADED (R41, R490): PRIOR keeps the present state, and T_deg starts. -/
def State.enterDegraded (s : State) (cause : Nat) : State :=
  let s1 := { s with glb := { s.glb with st := .degraded, prior := s.glb.st, cause := cause, tdegFrom := s.mc, tdegS := s.tdegS },
                     cor := { s.cor with degEntries := inc 16 s.cor.degEntries, degTime := s.tmb.now } }
  s1.stateChanged.stateRecord 2

/-- A single internal fault of a kind listed for degraded mode (R41, R46): DEGRADED with its cause; SAFE when the
device is DEGRADED already or a swap or repair is in progress. -/
def State.singleFault (s : State) (cause : Nat) : State :=
  if s.glb.st = .safe then s
  else if s.glb.st = .degraded ∨ s.glb.repairs ≠ [] then s.enterSafe 0x10
  else s.enterDegraded cause

/-- The repair that DEGRADED with this cause waits for has completed and its slice has passed before T_deg
expires (R41, R490, R493). -/
def State.exitDegraded (s : State) (cause : Nat) : State :=
  if s.glb.st = .degraded ∧ s.glb.cause = cause ∧ s.mc - s.glb.tdegFrom < s.glb.tdegS * 1000 * msMc then
    let s1 := { s with glb := { s.glb with st := s.glb.prior, prior := .startUp, cause := 0 },
                       cor := { s.cor with degExits := inc 16 s.cor.degExits } }
    s1.stateChanged.stateRecord 2
  else s

/-- A swap or repair of an element begins or ends (R41); the element is coded as kind × 256 + number. -/
def State.repairBegins (s : State) (k : Nat) : State := { s with glb := { s.glb with repairs := insNat k s.glb.repairs } }
def State.repairEnds (s : State) (k : Nat) : State := { s with glb := { s.glb with repairs := s.glb.repairs.erase k } }

end Sys2Proof.Machine
end

