-- ==== Sys2Proof/Machine/FrameOps.lean ====
section
/-! DEFINITION. Frame timing: the frame rate, the slot edges and the deadlines of the current frame (R70 to R86), and
the audit window with the capacities of R102 to R104. -/

namespace Sys2Proof.Machine

/-- F, the shortest frame length in µs (R79). -/
def frameUs (alignMs count : Nat) : Nat := alignMs * 1000 / count
def Cfg.frameUs (c : Cfg) : Nat := Machine.frameUs c.alignMs c.count

/-- Slot edge e of a configuration, µs (R78). Edges: 0 D_c, 1 D_v, 2 ING_END, 3 SHD_START, 4 SHD_END, 5 GLD_START,
6 GLD_END, 7 SLF_START, 8 SLF_END. -/
def Cfg.edge (c : Cfg) (e : Nat) : Nat := fld (c.word (0x120 + 4 * e)) 0 18

/-- Offset of edge e of the current frame from its tick, µs; 9 is the close-out (R75, R84). -/
def Frame.edgeUs (f : Frame) (e : Nat) : Nat :=
  if e = 9 then frameUs f.alignMs f.count - 100 else f.edges.getD e 0

/-- Local time of edge e of the current frame. -/
def State.edgeAt (s : State) (e : Nat) : Nat := s.fr.tick + s.fr.edgeUs e * us16

/-- Edge e of the current frame has come: it has fired, or its time is reached (R77, R85). -/
def State.past (s : State) (e : Nat) : Bool := s.fr.ticking && (s.fr.fired.contains e || decide (s.edgeAt e ≤ s.tmb.now))

/-- Inside the slot from edge a to edge b of the current frame. -/
def State.inSlot (s : State) (a b : Nat) : Bool := s.past a && !s.past b

/-- Nanoseconds since the tick, or since edge e, of the current frame. -/
def State.nsSinceTick (s : State) : Nat := (s.tmb.now - s.fr.tick) / 16
def State.nsSince (s : State) (e : Nat) : Nat := (s.tmb.now - s.edgeAt e) / 16

/-- A, the usable audit window in µs (R102). -/
def Cfg.auditUs (c : Cfg) : Nat := c.edge 1 - c.edge 0 - 50

/-- MEM_PRT_CTL, MEM_PRT_MIN, MEM_PRT_MAX of partition p, with the fixed entries of partitions 0 and 1 (R91, R97). -/
def Cfg.prtCtl (c : Cfg) (p : Nat) : Nat :=
  if p = 0 then 0x3F05 else if p = 1 then 0x3F03 else c.word (0x2D0000 + 0x20 * p)
def Cfg.prtMin (c : Cfg) (p : Nat) : Nat :=
  if p = 0 then 0x04040404 else if p = 1 then 0 else c.word (0x2D0004 + 0x20 * p)
def Cfg.prtMax (c : Cfg) (p : Nat) : Nat := if p = 0 then 0 else c.word (0x2D0008 + 0x20 * p)
def Cfg.prtValid (c : Cfg) (p : Nat) : Bool := p < 64 && bitAt (c.prtCtl p) 0
def Cfg.prtAux (c : Cfg) (p : Nat) : Bool := bitAt (c.prtCtl p) 1
def Cfg.prtTenant (c : Cfg) (p : Nat) : Nat := fld (c.prtCtl p) 4 3
def Cfg.prtSlots (c : Cfg) (p : Nat) : Nat := fld (c.prtCtl p) 8 6
/-- A SAFETY partition of the configuration (R97: only partitions 2 to 63 qualify). -/
def Cfg.prtSafety (c : Cfg) (p : Nat) : Bool := 2 ≤ p && c.prtValid p && !c.prtAux p
/-- GDDR6 minimum of partition p in shares. -/
def Cfg.gddrMin (c : Cfg) (p : Nat) : Nat := fld (c.prtMin p) 0 8

/-- Region entries (R101): base page, target, size in pages, partition, READ, WRITE. -/
structure Region where
  base : Nat := 0
  target : Nat := 0
  size : Nat := 0
  part : Nat := 0
  read : Bool := false
  write : Bool := false
deriving DecidableEq, Repr, Inhabited

def Cfg.region (c : Cfg) (n : Nat) : Region :=
  let b := c.word (0x2D1000 + 0x10 * n)
  let a := c.word (0x2D1008 + 0x10 * n)
  { base := fld b 0 24, target := fld b 24 2, size := fld (c.word (0x2D1004 + 0x10 * n)) 0 24, part := fld a 0 6,
    read := bitAt a 8, write := bitAt a 9 }

/-- Usable pages of a target, L-die SRAM, S1 and S2 after GDDR6 (R99). -/
def targetPages (t : Nat) : Nat := if t = 0 then 3670016 else if t = 1 then 8192 else 28672

/-- The valid region entries. -/
def Cfg.regions (c : Cfg) : List Region := ((List.range 256).map c.region).filter fun r => r.size != 0
def Cfg.partRegions (c : Cfg) (p : Nat) : List Region := c.regions.filter fun r => r.part == p

/-- 4 KiB pages of the GDDR6 regions of partition p that allow READ and WRITE. -/
def Cfg.gddrPages (c : Cfg) (p : Nat) : Nat :=
  ((c.partRegions p).filter fun r => r.target == 0 && r.read && r.write).foldl (fun a r => a + r.size) 0

/-- Linear audit capacity per frame of partition p in half bytes: A × minimum × 937.5 bytes (R104). -/
def Cfg.auditCap2 (c : Cfg) (p : Nat) : Nat := c.auditUs * c.gddrMin p * 1875

/-- A domain is switched off or on in service, with its record (R684, R686, R698). -/
def State.switchOff (s : State) (d : Nat) : State :=
  if s.rst.on.contains d then
    { s with rst := { s.rst with on := s.rst.on.erase d } }.evDev 0x0C05 0 (le 1 d ++ le 1 1)
  else s
def State.switchOn (s : State) (d : Nat) : State :=
  if s.rst.on.contains d then s
  else { s with rst := { s.rst with on := insNat d s.rst.on } }.evDev 0x0C05 0 (le 1 d ++ le 1 0)

/-- The retest slice of an element, coded KIND × 256 + UNIT (R727), is requested (R731). -/
def State.requestRetest (s : State) (k : Nat) : State :=
  let f := s.owl.slf
  if f.retests.contains k then s else { s with owl := { s.owl with slf := { f with retests := f.retests ++ [k] } } }

/-- The record of one abandoned item (R89, R455). -/
def State.abandoned (s : State) (block slot count tenant : Nat) : State :=
  s.evidence 0x0104 tenant 0 0xFFFFFFFF (le 1 block ++ zeros 1 ++ le 2 slot ++ le 4 count)

end Sys2Proof.Machine
end

