-- ==== Sys2Proof/Machine/Golden.lean ====
section
/-! DEFINITION. Golden tests: the set's format, what is compared, and how an outcome moves ages, latches and deferral
counts (R380 to R391). -/

namespace Sys2Proof.Machine

/-! ### The golden set image -/

def goldEntries (g : Bytes) : Nat := rd g 56 2
/-- Field at an offset of entry e (R381). -/
def gent (g : Bytes) (e off n : Nat) : Nat := rd g (256 + 64 * e + off) n
def goldPages (g : Bytes) (e : Nat) : Nat := gent g e 8 4
def goldExpected (g : Bytes) (e : Nat) : Bytes := slice g (gent g e 16 8) (gent g e 24 4)

def State.gold (s : State) (p : Nat) : Golden := tget s.vrd.golds p
def State.modGold (s : State) (p : Nat) (f : Golden → Golden) : State :=
  { s with vrd := { s.vrd with golds := tset s.vrd.golds p (f (s.gold p)) } }

/-- VRD_GLD_CFG.GOLD_PART (R379, R395). -/
def Cfg.goldPart (c : Cfg) (p : Nat) : Nat := fld (c.word (0x140200 + 0x20 * p)) 0 6

/-- GLD_START and GLD_END of a configuration leave a golden slot (R82). -/
def Cfg.goldSlot (c : Cfg) : Bool := c.edge 5 != c.edge 6

/-- Tenant of plan slot p: that of its report slot. -/
def Cfg.slotTenant (c : Cfg) (r : Nat) : Nat := fld (c.word (0x3C1000 + 0x40 * r)) 16 3
def Cfg.plnTenant (c : Cfg) (p : Nat) : Nat := c.slotTenant (c.plnReport p)

/-- The open contexts that plan slot p serves. -/
def State.planCtxs (s : State) (p : Nat) : List Nat := s.openCtxs.filter fun c => s.planOf (s.watch c).slot == some p

/-- A context with K above 0 is due (R386). -/
def State.goldDue (s : State) (p c : Nat) : Bool :=
  let w := s.watch c
  0 < w.k && (w.k ≤ (s.gold p).age || w.latch != .clear)

/-! ### Judging the golden report -/

/-- The bytes of got from lo to hi that have arrived differ from the expected ones. -/
def bytesDiffer (got expd : Bytes) (lo hi : Nat) : Bool :=
  let n := min hi got.length
  slice got lo (n - lo) != slice expd (lo - 256) (n - lo)

/-- Elements of a bounded-tolerance block that have arrived and lie outside their tolerance (R390). -/
def elemsDiffer (img got expd : Bytes) (l : Nat) : Bool :=
  let base := prjBlockOff img l + 16
  (List.range (lyrP img l * (lyrK img l + lyrN img l))).any fun e =>
    let o := base + 4 * e
    if o + 4 ≤ got.length then
      match f32.decode (rd got o 4), f32.decode (rd expd (o - 256) 4) with
      | .fin a m x, .fin b n y =>
        let (d, k) := absDiff (.fin a m x) (.fin b n y)
        decide (lyrTol img l < ceilUlps d k (ulpExp f32 (.fin false n y)))
      | u, v => u != v || u.isNan
    else false

/-- The sections of a golden report that have arrived differ from the expected bytes (R390). -/
def goldDiffers (img set got : Bytes) (e : Nat) : Bool :=
  let expd := goldExpected set e
  (bitAt (gent set e 12 1) 0 && bytesDiffer got expd 256 prjOff) ||
  (List.range (planLayers img)).any (fun l =>
    if profExact (lyrProf img l) then bytesDiffer got expd (prjBlockOff img l) (prjBlockOff img (l + 1)) else elemsDiffer img got expd l) ||
  bytesDiffer got expd (mrkOff img) (mrkOff img + 64 * planTensors img)

/-! ### Outcomes -/

/-- What a context takes from an outcome of its plan slot (R391). -/
def Watch.goldOutcome (w : Watch) (oc : Nat) (due : Bool) : Watch :=
  if oc = 2 then { w with latch := .clear, defer := 0 }
  else if oc = 0x10 then (if w.k > 0 then { w with latch := .failed } else w)
  else if due then
    let d := sat 4 (w.defer + 1)
    { w with defer := d, latch := if d > w.g then .overdue else w.latch }
  else w

/-- The outcome of the offered test of plan slot p (R389, R391): 2 PASS, 3 DEFERRED_BUSY, 4 DEFERRED_LATE, 0x10 FAIL. -/
def State.goldOutcome (s : State) (p oc : Nat) : State :=
  let ctxs := s.planCtxs p
  let s1 := ctxs.foldl (fun q c => q.modWatch c fun w => w.goldOutcome oc (s.goldDue p c)) s
  let overdue := ctxs.any fun c => (s1.watch c).latch == .overdue && (s.watch c).latch != .overdue
  let s2 := s1.modGold p fun g => { g with
    outcome := oc, last := oc
    latchFailed := if oc = 0x10 then true else if oc = 2 then false else g.latchFailed
    age := if oc = 2 then 0 else g.age
    passes := if oc = 2 then inc 16 g.passes else g.passes
    passFrame := if oc = 2 then s.fr.num else g.passFrame
    fails := if oc = 0x10 then inc 16 g.fails else g.fails
    deferrals := if oc = 3 ∨ oc = 4 then inc 16 g.deferrals else g.deferrals }
  let s3 := { s2 with vrd := { s2.vrd with pendingGold := s2.vrd.pendingGold && oc != 3 } }
  s3.evidence 0x0604 (s.cfg.active.plnTenant p) (b2n (oc == 0x10 || overdue)) 0xFFFFFFFF
    (le 1 p ++ le 1 oc ++ le 1 s.vrd.offeredEntry ++ le 1 (if oc = 0x10 then 2 else if overdue then 3 else 0))

/-- The offered test has no outcome yet. -/
def State.goldOpen (s : State) (p : Nat) : Bool := s.vrd.offered == some p && (s.gold p).outcome == 1

end Sys2Proof.Machine
end

