-- ==== Sys2Proof/Machine/Report.lean ====
section
/-! DEFINITION. Frame reports and golden reports: the fill pointer and order rules, the field checks, the check-value
units, and completion (R119 to R158, R336 to R339). -/

namespace Sys2Proof.Machine

/-! ### Slot configuration -/

def Cfg.slotWord (c : Cfg) (i off : Nat) : Nat := c.word (0x3C1000 + 0x40 * i + off)
def Cfg.slotValid (c : Cfg) (i : Nat) : Bool := i < 128 && bitAt (c.slotWord i 0) 0
def Cfg.slotPoly (c : Cfg) (i : Nat) : Nat := fld (c.slotWord i 0) 1 2
def Cfg.slotPart (c : Cfg) (i : Nat) : Nat := fld (c.slotWord i 0) 8 6
def Cfg.slotStream (c : Cfg) (i : Nat) : Nat := fld (c.slotWord i 4) 0 30
def Cfg.slotPages (c : Cfg) (i : Nat) : Nat := fld (c.slotWord i 0xC) 0 17
def Cfg.slotTag (c : Cfg) (i : Nat) : Nat := c.slotWord i 0x10 + 2 ^ 32 * c.slotWord i 0x14

/-- A slot is armed while an open context names its STREAM_ID (R119). -/
def State.armed (s : State) (i : Nat) : Bool :=
  s.cfg.active.slotValid i && s.vrd.ctxs.any fun (_, w) => w.isOpen && w.slot == i && w.stream == s.cfg.active.slotStream i

/-- The image of the plan active for a report slot; empty without one (R124). -/
def State.slotPlan (s : State) (i : Nat) : Option Plan := (s.planOf i).bind fun p => (s.plan p).active

/-! ### Field checks -/

/-- What a report is checked against. -/
structure RepCtx where
  typ : Nat := 1
  stream : Nat := 0
  /-- Fold stream of R148. -/
  fold : Nat := 0
  limit : Nat := 0
  frame : Nat := 0
  /-- Local time that stands for the frame tick. -/
  start : Nat := 0
  tag : Nat := 0
  poly : Nat := 0
  digest : Bytes := []
  img : Bytes := []
deriving DecidableEq, Repr, Inhabited

/-- A check of a report: offset of its field, bytes needed, outcome, code (R133). -/
abbrev Chk := Nat × Nat × Bool × Nat

/-- The failure at the lowest offset among the checks whose bytes are in: offset and code (R144). -/
def firstFail (n : Nat) (cs : List Chk) : Option (Nat × Nat) :=
  cs.foldl (fun acc (off, ready, ok, code) =>
    if ready ≤ n ∧ ok = false then
      match acc with
      | some (o, c) => if off < o then some (off, code) else some (o, c)
      | none => some (off, code)
    else acc) none

/-- The failure at the lower offset of two. -/
def lower (a b : Option (Nat × Nat)) : Option (Nat × Nat) :=
  match a, b with
  | some x, some y => if y.1 < x.1 then some y else some x
  | some x, none => some x
  | none, y => y

/-- A field with the value it must have. -/
def eqChk (b : Bytes) (off n v code : Nat) : Chk := (off, off + n, rd b off n == v, code)
/-- A reserved field. -/
def zeroChk (b : Bytes) (off n : Nat) : Chk := (off, off + n, zeroAt b off n, 0x19)
/-- Padding, judged byte by byte. -/
def padChks (b : Bytes) (off n : Nat) : List Chk := (List.range n).map fun i => zeroChk b (off + i) 1

/-- Checks of the header (R122, R123, R133). -/
def headerChks (x : RepCtx) (b : Bytes) (hdrAt : Option Nat) : List Chk :=
  let prjLen := mrkOff x.img - prjOff
  [ eqChk b 0 4 0x46464C43 0x10, eqChk b 4 1 1 0x10, eqChk b 5 1 x.typ 0x10, eqChk b 6 2 256 0x14,
    eqChk b 8 4 x.stream 0x11, (12, 16, rd b 12 4 ≤ x.limit, 0x13),
    (12, 64, rd b 12 4 == alignUp (rd b 56 4 + rd b 60 4) 64 + 64, 0x14), eqChk b 16 8 x.frame 0x12,
    (24, 256, x.start ≤ rd b 24 8 * 16 + 100 * us16 && rd b 24 8 * 16 ≤ hdrAt.getD 0 + 100 * us16, 0x15),
    eqChk b 32 8 x.tag 0x16, eqChk b 40 4 256 0x14, eqChk b 44 4 73792 0x14, eqChk b 48 4 prjOff 0x14,
    eqChk b 52 4 prjLen 0x14, eqChk b 56 4 (mrkOff x.img) 0x14, (60, 68, rd b 60 4 == 64 * rd b 66 2, 0x14),
    eqChk b 64 2 (planLayers x.img) 0x1B, eqChk b 66 2 (planTensors x.img) 0x1C, (68, 69, rd b 68 1 < 2, 0x19),
    eqChk b 69 1 x.poly 0x18, zeroChk b 70 2,
    (72, 104, slice b 72 32 == (if x.digest = [] then zeros 32 else x.digest), 0x17), zeroChk b 104 152 ]

/-- A cell that fails R339. -/
def cellBad (c : Byte) : Bool := fld c.toNat 0 2 == 3 || (fld c.toNat 0 2 == 0 && fld c.toNat 2 6 != 0)

/-- The first bad cell that has arrived. -/
def gridFail (b : Bytes) : Option (Nat × Nat) := ((slice b 320 65536).findIdx? cellBad).map fun i => (320 + i, 0x1A)

/-- Checks of object entry i of an outputs section whose OBJ_COUNT is n (R338, R339). -/
def objectChks (b : Bytes) (n i : Nat) : List Chk :=
  let o := 65856 + 32 * i
  if n ≤ i then (List.range 32).map fun k => (o + k, o + k + 1, rd b (o + k) 1 == 0, 0x1A)
  else
    let id := rd b (o + 4) 2
    [ (o, o + 1, bitAt (rd b o 1) 0, 0x1A), (o, o + 1, rd b o 1 < 2, 0x19), (o + 1, o + 2, rd b (o + 1) 1 ≤ 6, 0x1A),
      (o + 2, o + 3, rd b (o + 2) 1 < 64, 0x19), zeroChk b (o + 3) 1,
      (o + 4, o + 6, id != 0 && (List.range i).all (fun k => rd b (65856 + 32 * k + 4) 2 != id), 0x1A), zeroChk b (o + 6) 2,
      (o + 8, o + 10, rd b (o + 8) 2 ≤ 4095, 0x1A), (o + 10, o + 12, rd b (o + 10) 2 ≤ 4095, 0x1A),
      (o + 12, o + 14, 1 ≤ rd b (o + 12) 2 && rd b (o + 12) 2 ≤ 4096, 0x1A),
      (o + 14, o + 16, 1 ≤ rd b (o + 14) 2 && rd b (o + 14) 2 ≤ 4096, 0x1A), zeroChk b (o + 22) 10 ]

/-- The failure at the lowest offset in the outputs section (R336 to R339). -/
def outputsFail (b : Bytes) : Option (Nat × Nat) :=
  let n := b.length
  let head := firstFail n [ eqChk b 256 1 1 0x1A, zeroChk b 257 1, (258, 260, rd b 258 2 ≤ 256, 0x1A),
    eqChk b 260 4 65536 0x1A, eqChk b 264 4 8192 0x1A, zeroChk b 268 52 ]
  let objs := (List.range (min 256 (ceilDiv (n - 65856) 32))).findSome? fun i => firstFail n (objectChks b (rd b 258 2) i)
  lower head (lower (gridFail b) objs)

/-- Checks of the projection block of layer l (R124). -/
def blockChks (img b : Bytes) (l : Nat) : List Chk :=
  let o := prjBlockOff img l
  let body := 16 + lyrP img l * (lyrK img l + lyrN img l) * profEs (lyrProf img l)
  [ eqChk b o 4 l 0x1B, eqChk b (o + 4) 1 (lyrProf img l) 0x1B, eqChk b (o + 5) 1 (lyrP img l) 0x1B,
    eqChk b (o + 6) 1 (profEs (lyrProf img l)) 0x1B, zeroChk b (o + 7) 1, eqChk b (o + 8) 4 (lyrK img l) 0x1B,
    eqChk b (o + 12) 4 (lyrN img l) 0x1B ] ++ padChks b (o + body) (prjBlockLen img l - body)

/-- Checks of the Merkle entry of tensor t (R125). -/
def merkleChks (img b : Bytes) (t : Nat) : List Chk :=
  let o := mrkEntry img t
  [ eqChk b o 4 t 0x1C, zeroChk b (o + 4) 4, eqChk b (o + 8) 8 (tnsLen img t) 0x1C, eqChk b (o + 16) 4 (tnsLeaves img t) 0x1C,
    eqChk b (o + 20) 1 (tnsDepth img t) 0x1C, zeroChk b (o + 21) 11 ]

/-- Offset of the trailer that the plan's layout gives. -/
def trailerOff (img : Bytes) : Nat := mrkOff img + 64 * planTensors img

/-- The CHECK of a report with the check value of all that stands before it, `len` bytes (R127, R128, R147). -/
def checkOk (x : RepCtx) (b : Bytes) (len : Nat) : Bool :=
  rd b len 8 == streamCheck x.poly x.fold (x.frame % 2 ^ 32) 0 256 (b.take len)

/-- Checks of the trailer (R127, R133); CHECK is judged like every field, once its bytes are in (R144). -/
def trailerChks (x : RepCtx) (b : Bytes) : List Chk :=
  let t := trailerOff x.img
  [ (t, t + 8, slice b t 8 == slice b 16 8, 0x13), (t + 8, t + 12, slice b (t + 8) 4 == slice b 12 4, 0x13), zeroChk b (t + 12) 4,
    zeroChk b (t + 24) 40 ] ++ if t + 24 ≤ b.length then [(t + 16, t + 24, checkOk x b (t + 16), 0x1D)] else []

/-- The failure at the lowest offset among the bytes that have arrived (R133, R144). -/
def reportFail (x : RepCtx) (b : Bytes) (hdrAt : Option Nat) : Option (Nat × Nat) :=
  let n := b.length
  match firstFail n (headerChks x b hdrAt) with
  | some f => some f
  | none => match outputsFail b with
  | some f => some f
  | none =>
    firstFail n (((List.range (planLayers x.img)).flatMap fun l => if prjBlockOff x.img l < n then blockChks x.img b l else []) ++
      ((List.range (planTensors x.img)).flatMap fun t => if mrkEntry x.img t < n then merkleChks x.img b t else []) ++
      trailerChks x b)

/-! ### Check-value units -/

/-- Running value after more bytes of a stream, the first at stream offset `off` (R147). -/
def foldRun (p stream seq : Nat) : Nat → Nat → Bytes → Nat
  | _, cv, [] => cv
  | off, cv, b :: r =>
    let cv' := if off % 256 = 0 then crcUpdate p cv (foldHead stream seq off) else cv
    foldRun p stream seq (off + 1) (crcUpdate p cv' [b]) r

/-- A context after n bytes of which `cov` are covered by the check. -/
def CvuCtx.take (c : CvuCtx) (cov : Bytes) (n : Nat) : CvuCtx :=
  { c with val := foldRun c.poly c.stream c.seq c.offset c.val cov, offset := c.offset + n }

/-- A stream's context is set up anew, in its unit as well where one holds it (R151). -/
def State.initCtx (s : State) (k stream seq off poly : Nat) : State :=
  let c : CvuCtx := { stream := stream, seq := seq % 2 ^ 32, offset := off, poly := poly, valid := true, val := crcInit poly }
  let units := s.pw.units.foldl (fun (t : Tbl CvuUnit) (u, x) =>
    tset t u (if x.loaded && x.ctx == k then { x with cur := c } else x)) s.pw.units
  { s with pw := { s.pw with ctxs := tset s.pw.ctxs k c, units := units } }

/-- The unit that holds context k. -/
def PortW.unitOf (p : PortW) (k : Nat) : Option Nat :=
  (List.range 64).find? fun u => let x : CvuUnit := tget p.units u; x.loaded && x.ctx == k && !x.test

/-- The least recently used unit that takes TLPs (R153, R154). -/
def PortW.lru (p : PortW) : Nat :=
  let free := (List.range 64).filter fun u => !(tget p.units u : CvuUnit).test
  free.foldl (fun a u => if (tget p.units u : CvuUnit).used < (tget p.units a : CvuUnit).used then u else a) (free.headD 0)

/-- Context k is loaded into a unit; the longest back-pressure is a free value of at most 64 main clocks (R152, R153). -/
def State.loadCtx (s : State) (k : Nat) : State :=
  match s.pw.unitOf k with
  | some _ => s
  | none =>
    let (v, s1) := s.fresh
    let p := s1.pw
    let u := p.lru
    let x : CvuUnit := tget p.units u
    let ctxs := if x.loaded then tset p.ctxs x.ctx x.cur else p.ctxs
    { s1 with pw := { p with
      ctxs := ctxs, swaps := inc 32 p.swaps, waitMax := max p.waitMax (v % 65)
      units := tset p.units u { x with ctx := k, loaded := true, cur := tget ctxs k, loads := inc 32 x.loads } } }

/-- A TLP of context k with n bytes, of which `cov` are covered, passes through its unit. -/
def State.foldCtx (s : State) (k : Nat) (cov : Bytes) (n : Nat) : State :=
  let s1 := s.loadCtx k
  match s1.pw.unitOf k with
  | none => s1
  | some u =>
    { s1 with pw := { s1.pw with
      useClock := s1.pw.useClock + 1
      units := tmod s1.pw.units u fun x => { x with cur := x.cur.take cov n, used := s1.pw.useClock + 1 } } }

/-- The running value of context k as it stands. -/
def State.ctxVal (s : State) (k : Nat) : CvuCtx :=
  match s.pw.unitOf k with
  | some u => (tget s.pw.units u : CvuUnit).cur
  | none => tget s.pw.ctxs k

/-! ### Accepting writes -/

/-- What becomes of a write to a report (R129 to R138). -/
inductive WriteFate where
  | stale
  | late
  | fail (code off : Nat) (rep : Report) (taken : Nat)
  | accept (rep : Report)
deriving DecidableEq, Repr, Inhabited

/-- The order and length rules and the field checks on a write of `data` at `off`; `late` holds from the deadline on.
DESIGN CHOICE (log 9, log 59), where the spec ranks no rule above another or is silent: a write from the deadline on is
late, never stale as well; a write to an abandoned report is stale; a write that fails a field check advances the fill
pointer over all of its bytes below the limit. -/
def Report.write (r : Report) (x : RepCtx) (off : Nat) (data : Bytes) (poisoned late : Bool) (now mc : Nat) : WriteFate :=
  if late then .late
  else if 0x10 ≤ r.code ∨ r.abandoned then .stale
  else if r.bytes = [] ∧ off ≠ 0 then .stale
  else if poisoned then .fail 0x20 off r 0
  else if r.code = 2 then .fail 0x1F off r 0
  else if off ≠ r.bytes.length then .fail 0x1E off r 0
  else
    let all := r.bytes ++ data
    let known := 16 ≤ all.length ∧ rd all 12 4 ≤ x.limit
    let lim := if known then rd all 12 4 else x.limit
    let kept := all.take lim
    let r1 := { r with
      bytes := kept, code := 1, lastAt := some mc
      hdrAt := if r.hdrAt = none ∧ 256 ≤ kept.length then some now else r.hdrAt }
    let excess : Option (Nat × Nat) := if lim < all.length then some (lim, 0x13) else none
    match lower (reportFail x kept r1.hdrAt) excess with
    | some (o, c) => .fail c o r1 (kept.length - r.bytes.length)
    | none => .accept r1

/-- Bytes of a write that CHECK covers: those below TOTAL_LEN − 48 (R128). -/
def coveredPart (r : Report) (from_ : Nat) : Bytes :=
  let total := rd r.bytes 12 4
  let hi := if 16 ≤ r.bytes.length then min r.bytes.length (total - 48) else r.bytes.length
  slice r.bytes from_ (hi - from_)

/-- Every byte up to TOTAL_LEN has been accepted. -/
def Report.full (r : Report) : Bool := 256 ≤ r.bytes.length && rd r.bytes 12 4 == r.bytes.length

/-! ### Report slots -/

/-- What the report of slot i is checked against. -/
def State.slotCtx (s : State) (i : Nat) : RepCtx :=
  let c := s.cfg.active
  let p := s.slotPlan i
  { typ := 1, stream := c.slotStream i, fold := c.slotStream i, limit := c.slotPages i * 4096, frame := s.fr.num,
    start := s.fr.tick, tag := c.slotTag i, poly := c.slotPoly i, digest := p.elim [] (·.digest), img := p.elim [] (·.img) }

/-- The golden report's context (R140): GLD_START in place of the frame tick, 256 MiB in place of the buffer. -/
def State.goldCtx (s : State) : RepCtx :=
  { s.slotCtx s.pw.goldSlot with
    typ := 2, fold := 0xC0000000 + s.cfg.active.slotStream s.pw.goldSlot, limit := 268435456, start := s.edgeAt 5 }

/-- REPORT evidence (R144, R455). -/
def State.reportRecord (s : State) (slot tenant code off : Nat) : State :=
  s.evidence 0x0201 tenant 1 0xFFFFFFFF (le 1 slot ++ le 1 code ++ zeros 2 ++ le 4 off)

/-- FLAGS.FAILED of context k, wherever it stands (R149). -/
def State.failCtx (s : State) (k : Nat) : State :=
  let c := tget s.pw.ctxs k
  let units := s.pw.units.map fun (u, x) => (u, if x.loaded && x.ctx == k then { x with cur := { x.cur with failed := true } } else x)
  { s with pw := { s.pw with ctxs := tset s.pw.ctxs k { c with failed := true }, units := units } }

/-- A failure of a slot's report (R134, R149, R158). -/
def State.failReport (s : State) (i code off : Nat) (r : Report) : State :=
  ((s.failCtx i).modSlot i fun x => { x with rep := { r with code := code, off := off }, doneNs := 0xFFFFFFFF }).reportRecord i
    (s.cfg.active.slotTenant i) code off

/-- Count a discarded write. -/
def State.staleWrite (s : State) (i : Nat) : State := s.modSlot i fun x => { x with stale := inc 16 x.stale }
def State.lateWrite (s : State) (i : Nat) : State := s.modSlot i fun x => { x with lateWrite := inc 16 x.lateWrite }
/-- Count a poisoned TLP that another rule discards (R112). -/
def State.countPoison (s : State) (poisoned : Bool) : State :=
  if poisoned then { s with pw := { s.pw with poisoned := inc 16 s.pw.poisoned } } else s

/-- A write to the window of slot i (R121, R129 to R138). DESIGN CHOICE (log 59): a poisoned TLP that fails its report is
not counted in CVU_WPORT_EVT.POISONED, which R112 asks only of those it discards. -/
def State.slotWrite (s : State) (i off : Nat) (data : Bytes) (poisoned : Bool) : State :=
  if !(s.fr.ticking && s.armed i) then (s.staleWrite i).countPoison poisoned
  else
    let r := (s.slot i).rep
    match r.write (s.slotCtx i) off data poisoned (s.past 0) s.tmb.now s.mc with
    | .late => (s.lateWrite i).countPoison poisoned
    | .stale => (s.staleWrite i).countPoison poisoned
    | .fail code o r1 n => (s.foldCtx i (coveredPart r1 r.bytes.length) n).failReport i code o r1
    | .accept r1 => (s.foldCtx i (coveredPart r1 r.bytes.length) data.length).modSlot i fun x => { x with rep := r1 }

/-- A complete report that declares itself busy defers the slot's golden test (R389). -/
def State.reportBusy (s : State) (i : Nat) (b : Bytes) : State :=
  match s.planOf i with
  | some p => if s.goldOpen p && bitAt (rd b 68 1) 0 then s.goldOutcome p 3 else s
  | none => s

/-- The checker finishes the report of slot i: CHECK is judged (R133, R135). -/
def State.slotComplete (s : State) (i : Nat) : State :=
  let r := (s.slot i).rep
  if r.code = 1 ∧ r.full ∧ r.abandoned = false ∧ s.past 0 = false then
    if checkOk (s.slotCtx i) r.bytes (r.bytes.length - 48) then
      (s.modSlot i fun x => { x with rep := { r with code := 2, off := 0 }, doneNs := sat 32 s.nsSinceTick, doneMc := s.mc }).reportBusy i r.bytes
    else s.failReport i 0x1D (r.bytes.length - 48) r
  else s

/-- A report slot has a report to judge at D_c: it is armed, or a report is in progress in it (R137). -/
def State.slotJudged (s : State) (i : Nat) : Bool := s.armed i || (s.slot i).rep.code == 1

/-- At D_c a report that is neither complete nor failed is incomplete (R137, R144). -/
def State.slotDeadline (s : State) (i : Nat) : State :=
  let r := (s.slot i).rep
  if r.code = 0 ∨ r.code = 1 then
    (s.modSlot i fun x => { x with rep := { r with code := 3, off := r.bytes.length }, doneNs := 0xFFFFFFFF }).reportRecord i
      (s.cfg.active.slotTenant i) 3 r.bytes.length
  else if r.code = 2 then s
  else s.modSlot i fun x => { x with doneNs := 0xFFFFFFFF }

/-- At the frame tick a slot's code is archived, and an armed slot's context set up (R139, R151). `last` is the number
of the frame that ends. -/
def State.slotTick (s : State) (last i : Nat) : State :=
  let r := (s.slot i).rep
  let s1 := s.modSlot i fun x => { x with rep := {}, lastFrame := last, lastCode := r.code, lastOff := r.off }
  if s1.armed i then s1.initCtx i (s.cfg.active.slotStream i) s1.fr.num 0 (s.cfg.active.slotPoly i) else s1

/-! ### The golden report -/

/-- The golden report fails or passes: the code is kept, recorded, and the test's outcome follows (R140, R389). -/
def State.goldFail (s : State) (code off : Nat) (r : Report) : State :=
  let s0 := s.failCtx 128
  let s1 := { s0 with pw := { s0.pw with gold := { r with code := code, off := off } } }
  let s2 := s1.reportRecord 0xFF (s.cfg.active.slotTenant s.pw.goldSlot) code off
  match s.vrd.offered with
  | some p => if s.goldOpen p then s2.goldOutcome p 0x10 else s2
  | none => s2

/-- The test that is offered compares unequal on the bytes so far (R390). -/
def State.goldUnequal (s : State) (b : Bytes) : Bool :=
  match s.vrd.offered with
  | some p =>
    match (s.gold p).active, s.slotPlan s.pw.goldSlot with
    | some set, some pl => goldDiffers pl.img set b s.vrd.offeredEntry
    | _, _ => false
  | none => false

/-- A golden test is pending in this frame (GOLD.PENDING, R388). -/
def State.goldPending (s : State) : Bool := s.fr.ticking && s.vrd.pendingGold && s.vrd.offered.isSome

/-- A write to the golden report window (R140): armed while the test is pending; accepted from GLD_START to GLD_END, late
between a GLD_END and the next GLD_START. DESIGN CHOICE (log 59): discarded writes count in CVU_SLOT_CNT of the slot last
under test, as the golden report has no counters of its own. -/
def State.goldWrite (s : State) (off : Nat) (data : Bytes) (poisoned : Bool) : State :=
  let i := s.pw.goldSlot
  if !(s.goldPending && (s.past 5 || s.pw.goldEnded)) then (s.staleWrite i).countPoison poisoned
  else if !s.past 5 then (s.lateWrite i).countPoison poisoned
  else
    let r := s.pw.gold
    match r.write s.goldCtx off data poisoned (s.past 6) s.tmb.now s.mc with
    | .late => (s.lateWrite i).countPoison poisoned
    | .stale => (s.staleWrite i).countPoison poisoned
    | .fail code o r1 n => (s.foldCtx 128 (coveredPart r1 r.bytes.length) n).goldFail code o r1
    | .accept r1 =>
      let s1 := s.foldCtx 128 (coveredPart r1 r.bytes.length) data.length
      let s2 := { s1 with pw := { s1.pw with gold := r1 } }
      match s.vrd.offered with
      | some p => if s2.goldUnequal r1.bytes && s2.goldOpen p then s2.goldOutcome p 0x10 else s2
      | none => s2

/-- The golden report completes (R389, R390). -/
def State.goldComplete (s : State) : State :=
  let r := s.pw.gold
  if r.code = 1 ∧ r.full ∧ r.abandoned = false ∧ s.past 5 ∧ s.past 6 = false then
    if checkOk s.goldCtx r.bytes (r.bytes.length - 48) then
      let s1 := { s with pw := { s.pw with gold := { r with code := 2 } } }
      match s.vrd.offered with
      | some p => if s.goldOpen p then s1.goldOutcome p (if s.goldUnequal r.bytes then 0x10 else 2) else s1
      | none => s1
    else s.goldFail 0x1D (r.bytes.length - 48) r
  else s

/-- GLD_START: the golden report of the test offered starts anew, and context 128 is set up (R139, R140, R151). -/
def State.gldStart (s : State) : State :=
  match s.vrd.offered with
  | some _ => { s with pw := { s.pw with gold := {} } }.initCtx 128 s.goldCtx.fold s.fr.num 0 s.goldCtx.poly
  | none => s

/-- GLD_END: a golden report that is not complete is incomplete, and its test deferred (R137, R140, R389). -/
def State.gldEnd (s : State) : State :=
  let s := { s with pw := { s.pw with goldEnded := true } }
  match s.vrd.offered with
  | none => s
  | some p =>
    let r := s.pw.gold
    let s1 := if (r.code = 0 ∨ r.code = 1) ∧ s.vrd.pendingGold then
        ({ s with pw := { s.pw with gold := { r with code := 3, off := r.bytes.length } } }).reportRecord 0xFF
          (s.cfg.active.slotTenant s.pw.goldSlot) 3 r.bytes.length
      else s
    if s1.goldOpen p then s1.goldOutcome p 4 else s1

end Sys2Proof.Machine
end

