-- ==== Sys2Proof/Machine/StoatOps.lean ====
section
/-! DEFINITION. The linear audit, the challenges and the Stoat engines: what each event does to items, rotation and
units (R198 to R211, R220, R230 to R271). -/

namespace Sys2Proof.Machine

/-! ### Shares and rotation -/

/-- The shares of a plan in plan slot p under a configuration (R205). -/
def Cfg.sharesOf (c : Cfg) (p : Nat) (img : Bytes) : List Nat := shareStarts (c.auditCap2 (c.plnPart p)) 0 0 (planBlocks img)

/-- Rotation period (R206). -/
def PlanSlot.period (x : PlanSlot) : Nat := x.shares.length

/-- First block of a share, and the block after its last. -/
def PlanSlot.shareLo (x : PlanSlot) (k : Nat) : Nat := x.shares.getD k 0
def PlanSlot.shareHi (x : PlanSlot) (k total : Nat) : Nat := if k + 1 < x.shares.length then x.shares.getD (k + 1) 0 else total

/-- The share that holds a block (R208). -/
def shareHolding (starts : List Nat) (blk : Nat) : Nat := ((starts.filter fun b => b ≤ blk).length) - 1

/-- A changed configuration divides the audit stream anew (R208). -/
def State.redivide (s : State) (p : Nat) : State :=
  match (s.plan p).active with
  | none => s
  | some pl =>
    let x := s.plan p
    let starts := s.cfg.active.sharesOf p pl.img
    if starts = x.shares then s
    else s.modPlan p fun y => { y with shares := starts, pos := shareHolding starts (x.shareLo x.pos) }

/-! ### Engines and their units -/

def State.eng (s : State) (e : Nat) : Engine := tget s.aud.stt.engines e
def State.modStt (s : State) (f : Stoat → Stoat) : State := { s with aud := { s.aud with stt := f s.aud.stt } }
def State.modEng (s : State) (e : Nat) (f : Engine → Engine) : State :=
  s.modStt fun t => { t with engines := tmod t.engines e f }

/-- A unit that an engine holds. -/
def State.unitTaken (s : State) (u : SttUnit) : Bool := (List.range 17).any fun e => (s.eng e).busy == some u

/-! ### The linear audit item -/

/-- The linear audit item of plan slot p at D_c (R198, R210). -/
def State.auditStart (s : State) (p : Nat) : State :=
  let x := s.plan p
  match x.active with
  | none => s.modPlan p fun y => { y with code := 0, running := false }
  | some pl =>
    if planLayers pl.img = 0 then s.modPlan p fun y => { y with code := 0, running := false }
    else if (s.slot (s.cfg.active.plnReport p)).rep.code ≠ 2 then s.modPlan p fun y => { y with code := 4, running := false }
    else s.modPlan p fun y => { y with code := 1, running := true, nextBlk := x.shareLo x.pos, doneBlks := 0, records := 0 }

/-- AUDIT_MISMATCH evidence (R211, R456). -/
def mismatchPayload (p prof l : Nat) (c : Comparison) : Bytes :=
  let ex := profExact prof
  le 1 p ++ le 1 c.vec ++ le 1 prof ++ le 1 c.code ++ le 4 l ++ le 4 c.col ++ zeros 4 ++ (if ex then le 8 c.qy else le 4 c.qy ++ zeros 4) ++
    (if ex then le 16 c.r else le 4 c.r ++ zeros 12) ++ le 4 c.m ++ le 4 (sat 32 c.dev)

/-- One comparison enters the item, the counters of its layer, and the log (R200, R211, R214). -/
def State.takeComparison (s : State) (p l prof : Nat) (c : Comparison) : State :=
  let s1 := s.modPlan p fun x => { x with
    layers := tmod x.layers l fun y => { y with
      pass := if c.code = 2 then inc 32 y.pass else y.pass
      fail := if c.code = 2 then y.fail else inc 32 y.fail
      maxDev := if c.code = 0x12 then y.maxDev else max y.maxDev (sat 32 c.dev) }
    code := if c.code ≠ 2 ∧ x.code = 1 then c.code else x.code
    firstLayer := if c.code ≠ 2 ∧ x.code = 1 then l else x.firstLayer
    firstVec := if c.code ≠ 2 ∧ x.code = 1 then c.vec else x.firstVec
    firstCol := if c.code ≠ 2 ∧ x.code = 1 then c.col else x.firstCol
    records := if c.code = 2 then x.records else x.records + 1 }
  if c.code ≠ 2 ∧ (s.plan p).records < 8 then
    s1.evidence 0x0301 (s.cfg.active.plnTenant p) 1 0xFFFFFFFF (mismatchPayload p prof l c)
  else s1

/-- A block has passed or failed at its latest audit (R214 LAST_PASS). -/
def LayerStat.block (y : LayerStat) (j total frame : Nat) (ok : Bool) : LayerStat :=
  let oks := if ok then insNat j y.okBlocks else y.okBlocks.erase j
  { y with okBlocks := oks, lastPass := if ok ∧ oks.length = total then frame else y.lastPass }

/-- The share is done: the item passes, the rotation advances, and a rotation may complete (R201, R207, R209). -/
def State.auditShareEnd (s : State) (p total : Nat) : State :=
  let x := s.plan p
  if x.shareLo x.pos + x.doneBlks < x.shareHi x.pos total then s
  else
    let s1 := s.modPlan p fun y => { y with running := false }
    if x.code ≠ 1 then s1
    else s1.modPlan p fun y =>
      let last := y.pos + 1 ≥ y.period
      { y with
        code := 2, doneNs := sat 32 (s.nsSince 0), pos := if last then 0 else y.pos + 1
        age := if last then 0 else y.age
        span := if last then sat 8 (y.sinceDone + 1) else y.span
        sinceDone := if last then 0 else y.sinceDone
        rotDone := last || y.rotDone }

/-- Column block `idx` of plan slot p has been accumulated: its comparisons are made (R199 to R201). -/
def State.auditBlock (s : State) (p idx : Nat) : State :=
  let x := s.plan p
  match x.active with
  | none => s
  | some pl =>
    let blocks := planBlocks pl.img
    match blocks[idx]? with
    | none => s
    | some (l, j, _) =>
      if !x.running || s.past 1 then s
      else
        let cs := compareBlock pl.img pl.wimg (s.slot (s.cfg.active.plnReport p)).rep.bytes l j
        let s1 := cs.foldl (fun q c => q.takeComparison p l (lyrProf pl.img l) c) s
        let n := ceilDiv (lyrN pl.img l) 32
        let s2 := s1.modPlan p fun y => { y with
          doneBlks := y.doneBlks + 1
          layers := tmod y.layers l fun z => z.block j n s.fr.num (cs.all fun c => c.code == 2) }
        s2.auditShareEnd p blocks.length

/-- An uncorrectable error in a weight block fetched for the audit, or next to be fetched, fails the item; the block counts
as done and is compared no more (R202). -/
def State.auditWeightError (s : State) (p idx : Nat) : State :=
  let x := s.plan p
  match x.active with
  | none => s
  | some pl =>
    let blocks := planBlocks pl.img
    match blocks[idx]? with
    | none => s
    | some (l, j, _) =>
      let u := SttUnit.block p idx
      let waiting := idx == x.nextBlk && decide (idx < x.shareHi x.pos blocks.length)
      if !x.running || s.past 1 || !(waiting || s.unitTaken u || s.aud.stt.again.contains u) then s
      else
        let n := ceilDiv (lyrN pl.img l) 32
        let s0 := s.modStt fun t => { t with
          again := t.again.erase u, engines := tmap (fun e => if e.busy = some u then { e with busy := none } else e) t.engines }
        let s1 := s0.modPlan p fun y => { y with
          nextBlk := max y.nextBlk (idx + 1)
          code := if y.code = 1 then 0x13 else y.code
          firstLayer := if y.code = 1 then l else y.firstLayer
          firstVec := if y.code = 1 then 0 else y.firstVec
          firstCol := if y.code = 1 then 32 * j else y.firstCol
          doneBlks := y.doneBlks + 1
          layers := tmod y.layers l fun z => z.block j n s.fr.num false }
        s1.auditShareEnd p blocks.length

/-- State of an item with a NO_REPORT code: as the frame report item (R210, R264). -/
def State.reportFailed (s : State) (slot : Nat) : Bool := 0x10 ≤ (s.slot slot).rep.code

/-- The linear audit item of plan slot p at D_v (R210, R213, R89). -/
def State.auditEnd (s : State) (p : Nat) : State :=
  let x := s.plan p
  let code := if x.code = 1 then 3 else x.code
  let total := (x.active.elim [] fun pl => planBlocks pl.img).length
  let left := x.shareHi x.pos total - (x.shareLo x.pos + x.doneBlks)
  let s0 := if x.running then s.abandoned 3 p left (s.cfg.active.plnTenant p) else s
  let failed := 0x10 ≤ code || (code == 4 && s.reportFailed (s.cfg.active.plnReport p))
  let s1 := s0.modPlan p fun y => { y with
    code := code, lastCode := code, lastFrame := s.fr.num, running := false
    failed := if failed then inc 16 y.failed else y.failed
    incomplete := if !failed && (code == 3 || code == 4) then inc 16 y.incomplete else y.incomplete
    doneNs := if code = 2 ∨ code = 0 then y.doneNs else 0xFFFFFFFF }
  if failed then { s1 with aud := { s1.aud with fails := inc 32 s1.aud.fails } } else s1

/-- The audit and challenges items of a new frame: outstanding where the active plan has audited layers or challenges
(R210, R264). -/
def State.itemsTick (s : State) (p : Nat) : State :=
  let n (f : Bytes → Nat) := (s.plan p).active.elim 0 fun pl => b2n (f pl.img != 0)
  s.modPlan p fun y => { y with code := n planLayers, chCode := n planChlTotal, running := false }

/-- The counters of R209 at a frame tick. -/
def State.auditTick (s : State) (p : Nat) : State :=
  match (s.plan p).active with
  | none => s
  | some _ => s.modPlan p fun y => { y with
      age := if y.rotDone then y.age else inc 16 y.age, sinceDone := if y.rotDone then 0 else y.sinceDone + 1, rotDone := false }

/-- A staged plan becomes active (R195). -/
def State.activatePlan (s : State) (p : Nat) : State :=
  match (s.plan p).staged with
  | none => s.modPlan p fun x => { x with switchAt := none }
  | some pl => s.modPlan p fun x => { x with
      active := some pl, staged := none, switchAt := none, stageCode := 3, stageLayer := 0
      shares := s.cfg.active.sharesOf p pl.img, pos := 0, span := 0, age := 0, sinceDone := 0, rotDone := false, layers := [] }

/-! ### Drawing challenges -/

/-- R239 is in force: no challenges are drawn. -/
def Drbg.healthFail (d : Drbg) : Bool := d.testsFail || 2048 ≤ d.reseedAge

/-- The challenges of target t of plan slot p are posted from window offset `off` on. -/
def postTarget (img : Bytes) (p slot t : Nat) : List Nat → Nat → List Challenge × Nat
  | [], off => ([], off)
  | tile :: r, off =>
    let w := tnsCols img (tgt img t 8 2) / tgtCols img t
    let n := 128 + openBytes img t (tile / w) (tile % w)
    let c : Challenge := {
      plan := p, slot := slot, target := t, leafCount := (opened img t (tile / w) (tile % w)).length
      row := tile / w, col := tile % w, openOff := off, openLen := n, status := 1, weights := tgtAa img t }
    let (rest, e) := postTarget img p slot t r (off + alignUp n 4096)
    (c :: rest, e)

/-- The plan slots that draw challenges in this frame (R240, R264). -/
def State.drawing (s : State) (p : Nat) : Bool := (s.plan p).chCode == 1

/-- The challenges item of plan slot p at D_c (R264). -/
def State.challengeStart (s : State) (p : Nat) : State :=
  let code := match (s.plan p).active with
    | none => 0
    | some pl =>
      if planChlTotal pl.img = 0 then 0
      else if (s.slot (s.cfg.active.plnReport p)).rep.code ≠ 2 then 4
      else if s.aud.drbg.healthFail then 5 else 1
  s.modPlan p fun x => { x with chCode := code, chRecords := 0 }

/-- The draw of one target. -/
def State.drawTarget (s : State) (img : Bytes) (p t : Nat) : State :=
  let (tiles, d) := Drbg.tiles (tgtTiles img t) (tgt img t 2 2) [] s.aud.drbg
  let m := s.aud.mbox
  let (es, off) := postTarget img p (s.cfg.active.plnReport p) t tiles m.windowLen
  { s with aud := { s.aud with drbg := d, mbox := { m with entries := m.entries ++ es, windowLen := off } } }

/-- The whole draw at D_c, out of one generate request with the frame number as additional input (R238, R240). -/
def State.drawAll (s : State) : State :=
  let s0 := { s with aud := { s.aud with
    mbox := ({ state := 1, noDrbg := s.aud.drbg.healthFail } : Mailbox), drbg := s.aud.drbg.begin (le 8 s.fr.num) } }
  let s1 := (List.range 16).foldl (fun q p =>
    match (q.plan p).active with
    | some pl => if q.drawing p then (List.range (planTargets pl.img)).foldl (fun r t => r.drawTarget pl.img p t) q else q
    | none => q) s0
  { s1 with aud := { s1.aud with drbg := s1.aud.drbg.finish } }

/-- The mailbox is posted, and every opening's CVU context set up (R241, R249). -/
def State.mailboxPosted (s : State) : State :=
  let m := s.aud.mbox
  let ns := if m.entries = [] then 0xFFFFFFFF else sat 32 (s.nsSince 0)
  let s1 := { s with aud := { s.aud with mbox := { m with state := 2, postedAt := s.tmb.now, postedNs := ns } } }
  m.entries.zipIdx.foldl (fun q (c, i) =>
    q.initCtx (129 + i) (0x40000000 + s.cfg.active.slotStream c.slot) s.fr.num c.openOff (s.cfg.active.slotPoly c.slot)) s1

/-! ### Challenges -/

def State.chl (s : State) (i : Nat) : Option Challenge := s.aud.mbox.entries[i]?
def State.setChl (s : State) (i : Nat) (c : Challenge) : State :=
  { s with aud := { s.aud with mbox := { s.aud.mbox with entries := s.aud.mbox.entries.set i c } } }

/-- Challenge i fails: its status, the item, the record (R260, R265, R457). -/
def State.failChallenge (s : State) (i code leaf row col acc dev : Nat) : State :=
  match s.chl i with
  | none => s
  | some c =>
    let p := c.plan
    let x := s.plan p
    let s1 := ((s.setChl i { c with status := code }).failCtx (129 + i)).modPlan p fun y => { y with
      chCode := if y.chCode = 1 ∨ y.chCode = 2 then 0x10 else y.chCode
      chFirst := if y.chCode = 1 ∨ y.chCode = 2 then i else y.chFirst
      chFirstCode := if y.chCode = 1 ∨ y.chCode = 2 then code else y.chFirstCode
      chRecords := y.chRecords + 1 }
    if x.chRecords < 8 then
      s1.evidence 0x0401 (s.cfg.active.plnTenant p) 1 0xFFFFFFFF
        (le 1 p ++ le 1 code ++ le 2 i ++ le 2 c.target ++ le 2 leaf ++ le 4 c.row ++ le 4 c.col ++ le 4 row ++ le 4 col ++
          le 8 acc ++ le 8 dev)
    else s1

/-- A failure that concerns no leaf and no element. -/
def State.failPlain (s : State) (i code : Nat) : State := s.failChallenge i code 0xFFFF 0xFFFFFFFF 0xFFFFFFFF 0 0

/-- A challenge is still open: posted, not failed, not passed, before D_v. -/
def State.chlOpen (s : State) (c : Challenge) : Bool := c.status < 4 && !s.past 1

/-- A challenge whose trailer and leaves have all passed is VERIFIED (R253). -/
def Challenge.verify (c : Challenge) : Challenge :=
  if c.trailerOk && c.leaves.length == c.leafCount && c.status < 3 && !c.abandoned then { c with status := 3 } else c

/-- Checks of an opening's header and trailer (R246, R250). -/
def openingFail (s : State) (i : Nat) (c : Challenge) (b : Bytes) : Option (Nat × Nat) :=
  let t := c.openLen - 64
  firstFail b.length
    [ eqChk b 0 4 0x4F504C43 0x10, eqChk b 4 1 1 0x10, eqChk b 5 1 3 0x10, eqChk b 6 2 64 0x10,
      eqChk b 8 4 (s.cfg.active.slotStream c.slot) 0x10, eqChk b 12 4 c.openLen 0x12, eqChk b 16 8 s.fr.num 0x10,
      eqChk b 24 2 i 0x10, eqChk b 26 2 c.target 0x10, eqChk b 28 2 c.leafCount 0x10, (30, 32, zeroAt b 30 2, 0x10),
      eqChk b 32 4 c.row 0x10, eqChk b 36 4 c.col 0x10, (40, 64, zeroAt b 40 24, 0x10),
      (t, t + 8, slice b t 8 == slice b 16 8, 0x12), (t + 8, t + 12, slice b (t + 8) 4 == slice b 12 4, 0x12),
      (t + 12, t + 16, zeroAt b (t + 12) 4, 0x10),
      (t + 16, t + 64, rd b (t + 16) 8 == streamCheck (s.cfg.active.slotPoly c.slot)
        (0x40000000 + s.cfg.active.slotStream c.slot) (s.fr.num % 2 ^ 32) c.openOff 256 (b.take (t + 16)), 0x14),
      (t + 24, t + 64, zeroAt b (t + 24) 40, 0x10) ]

/-- Count a stale write to the opening window. -/
def State.openingStale (s : State) : State := { s with aud := { s.aud with wStale := inc 16 s.aud.wStale } }

/-- A write to the opening receive window at offset `off` (R248). -/
def State.openingWrite (s : State) (off : Nat) (data : Bytes) (poisoned : Bool) : State :=
  let m := s.aud.mbox
  if s.past 1 then { s with aud := { s.aud with wLate := inc 16 s.aud.wLate } }
  else if m.state ≠ 2 then s.openingStale
  else
    match m.entries.findIdx? fun c => c.openOff ≤ off && off < c.openOff + c.openLen with
    | none => { s with aud := { s.aud with wOutside := inc 16 s.aud.wOutside } }
    | some i =>
      match s.chl i with
      | none => s
      | some c =>
        let o := off - c.openOff
        if 0x10 ≤ c.status ∨ c.abandoned then s.openingStale
        else if poisoned then s.failPlain i 0x18
        else if c.bytes = [] ∧ o ≠ 0 then s.openingStale
        else if c.status = 3 ∨ c.status = 4 then s.failPlain i 0x1A
        else if o ≠ c.bytes.length then s.failPlain i 0x11
        else
          let all := (c.bytes ++ data).take c.openLen
          let cov := slice all c.bytes.length (min all.length (c.openLen - 48) - c.bytes.length)
          let s1 := s.foldCtx (129 + i) cov (all.length - c.bytes.length)
          let excess : Option (Nat × Nat) := if c.openLen < o + data.length then some (c.openLen, 0x12) else none
          let c1 := { c with bytes := all, status := 2 }
          match lower (openingFail s i c1 all) excess with
          | some (_, code) => (s1.setChl i c1).failPlain i code
          | none => s1.setChl i (Challenge.verify { c1 with trailerOk := all.length == c.openLen })

/-- LEAF_VERIFY: record k of challenge i has been hashed (R251 to R253). -/
def State.leafVerify (s : State) (i k : Nat) : State :=
  match s.chl i with
  | none => s
  | some c =>
    match (s.plan c.plan).active with
    | none => s
    | some pl =>
      let tbl := leafTable pl.img 64 (opened pl.img c.target c.row c.col)
      match tbl[k]? with
      | none => s
      | some x =>
        if s.chlOpen c ∧ !c.abandoned ∧ x.off + 4096 + 32 * tnsDepth pl.img x.tensor ≤ c.bytes.length ∧ !c.leaves.contains k then
          if leafReaches pl.img (s.slot c.slot).rep.bytes c.bytes x then
            s.setChl i (Challenge.verify { c with leaves := insNat k c.leaves })
          else s.failChallenge i 0x15 k 0xFFFFFFFF 0xFFFFFFFF 0 0
        else s

/-- The last challenge of plan slot p has passed: the item passes (R261). -/
def State.challengePass (s : State) (p : Nat) : State :=
  let mine := s.aud.mbox.entries.filter fun c => c.plan == p
  if (s.plan p).chCode = 1 ∧ mine.all (fun c => c.status == 4) then
    s.modPlan p fun x => { x with chCode := 2, chDoneNs := sat 32 (s.nsSince 0) }
  else s

/-- A tile's recomputation ends: its elements are compared (R256 to R258). -/
def State.tileDone (s : State) (i : Nat) : State :=
  match s.chl i with
  | none => s
  | some c =>
    match (s.plan c.plan).active with
    | none => s
    | some pl =>
      if c.status = 3 ∧ s.past 1 = false then
        let tbl := leafTable pl.img 64 (opened pl.img c.target c.row c.col)
        match tileFails pl.img pl.wimg c.bytes tbl c.target c.row c.col with
        | some (r, k, acc, dev) => s.failChallenge i (if tgt pl.img c.target 13 1 = 0 then 0x16 else 0x17) 0xFFFF r k acc dev
        | none => (s.setChl i { c with status := 4 }).challengePass c.plan
      else s

/-- The challenges at D_v: the outstanding ones are INCOMPLETE, the mailbox closes (R243, R262, R264, R89). -/
def State.challengeEnd (s : State) : State :=
  let es := s.aud.mbox.entries
  let s0 := (List.range 16).foldl (fun q p =>
    let x := q.plan p
    let code := if x.chCode = 1 then 3 else x.chCode
    let failed := 0x10 ≤ code || (code == 4 && q.reportFailed (s.cfg.active.plnReport p))
    let n := (es.filter fun c => c.plan == p && c.status < 4).length
    let q1 := q.modPlan p fun y => { y with
      chCode := code, chLastCode := code, chLastFrame := s.fr.num
      chFailed := if failed then inc 16 y.chFailed else y.chFailed
      chIncomplete := if !failed && (code == 3 || code == 4 || code == 5) then inc 16 y.chIncomplete else y.chIncomplete
      chDoneNs := if code = 2 ∨ code = 0 then y.chDoneNs else 0xFFFFFFFF }
    if n > 0 then q1.abandoned 4 p n (s.cfg.active.plnTenant p) else q1) s
  { s0 with aud := { s0.aud with
    mbox := { s0.aud.mbox with state := 3, entries := es.map fun c => if c.status < 4 then { c with status := 5 } else c } } }

/-- The mailbox at the frame tick (R243). -/
def State.mailboxTick (s : State) : State :=
  { s with aud := { s.aud with mbox := {}, drbg := { s.aud.drbg with reseedAge := inc 16 s.aud.drbg.reseedAge } } }

/-! ### Dispatch and faults -/

/-- The engine in SPARE. -/
def State.spareEng (s : State) : Option Nat := (List.range 17).find? fun e => (s.eng e).st == .spare

/-- The ready unit of lowest rank (R220, R255). -/
def State.nextUnit (s : State) : Option SttUnit :=
  if s.past 1 then none
  else match s.aud.stt.again with
  | u :: _ => some u
  | [] =>
    match (List.range s.aud.mbox.entries.length).find? fun i =>
      match s.chl i with
      | some c => c.status == 3 && c.weights && !s.unitTaken (.tile i)
      | none => false with
    | some i => some (.tile i)
    | none =>
      (List.range 16).findSome? fun p =>
        let x := s.plan p
        let total := (x.active.elim [] fun pl => planBlocks pl.img).length
        if x.running ∧ x.nextBlk < x.shareHi x.pos total then some (.block p x.nextBlk) else none

/-- UNIT_DISPATCH: engine e takes it (R255). -/
def State.dispatch (s : State) (e : Nat) : State :=
  if (s.eng e).st = .service ∧ (s.eng e).busy = none ∧ e < 17 then
    match s.nextUnit with
    | none => s
    | some u =>
      let s1 := s.modEng e fun x => { x with busy := some u }
      if s.aud.stt.again.head? = some u then s1.modStt fun t => { t with again := t.again.drop 1 }
      else match u with
        | .block p idx => s1.modPlan p fun x => { x with nextBlk := idx + 1 }
        | .tile _ => s1
  else s

/-- Every unit in hand is given up: D_v has come, or its work has been abandoned (R89). -/
def State.dropUnits (s : State) : State :=
  s.modStt fun t => { t with again := [], engines := tmap (fun x => { x with busy := none }) t.engines }

/-- ENGINE evidence (R455). -/
def State.engineRecord (s : State) (e kind col : Nat) : State := s.evDev 0x0402 2 (le 1 e ++ le 1 kind ++ le 1 col)

/-- The element number of an engine among the repairs in progress. -/
def engElem (e : Nat) : Nat := 0x100 + e

/-- The unit of engine e is discarded and goes ahead of the waiting ones (R220). -/
def State.repeatUnit (s : State) (e : Nat) : State :=
  match (s.eng e).busy with
  | none => s
  | some u => (s.modStt fun t => { t with again := t.again ++ [u], repeats := inc 16 t.repeats }).modEng e fun x => { x with busy := none }

/-- Engine e goes to FAILED; a swap it belonged to is over (R266). -/
def State.engineFailed (s : State) (e : Nat) : State :=
  let s1 := (s.modEng e fun x => { x with st := .failed, busy := none }).switchOff e
  let s2 := if s1.aud.stt.swap && s1.aud.stt.swapFrom == e then s1.modStt fun t => { t with swap := false } else s1
  s2.repairEnds (engElem e)

/-- The spare engine goes into service. -/
def State.useSpare (s : State) (sp : Nat) : State := s.modEng sp fun x => { x with st := .service }

/-- A failed slice, or a fault during one, of engine e in TEST (R266). -/
def State.engineTestFail (s : State) (e : Nat) : State :=
  let prior := (s.eng e).prior
  let s1 := (s.modEng e fun x => { x with st := .failed, busy := none }).switchOff e
  if prior = .service then
    match s.spareEng with
    | some sp => s1.useSpare sp
    | none => s1.singleFault 0x05
  else s1

/-- A fault of engine e is counted, in the engine's registers and for the device (R219, R275, R276). -/
def State.countFault (s : State) (e kind col : Nat) : State :=
  (s.modEng e fun y => { y with kind := kind, column := col, faults := inc 16 y.faults, faultTime := s.tmb.now }).modStt
    fun t => { t with faults := inc 16 t.faults }

/-- An engine fault (R219, R220, R266 to R269). -/
def State.engineFault (s : State) (e kind col : Nat) : State :=
  let x := s.eng e
  let s1 := (s.countFault e kind col).engineRecord e kind col
  match x.st with
  | .failed => s1
  | .retest => s1.engineFailed e
  | .test => s1.engineTestFail e
  | .spare => (s1.modEng e fun y => { y with st := .failed }).switchOff e
  | .service =>
    if s.glb.st = .degraded ∨ s.glb.repairs ≠ [] then (s1.repeatUnit e).enterSafe 0x10
    else
      let s2 := ((s1.repeatUnit e).modEng e fun y => { y with st := .retest }).requestRetest (engElem e)
      match s.spareEng with
      | some sp => ((s2.useSpare sp).modStt fun t => { t with swap := true, swapFrom := e, swaps := inc 16 t.swaps }).repairBegins (engElem e)
      | none =>
        let s3 := s2.modStt fun t => { t with degradedBy := some e }
        if s.glb.st = .safe then s3 else s3.enterDegraded 0x02

/-- The outcome of a slice of engine e, retest or rotation (R266). -/
def State.engineSlice (s : State) (e : Nat) (pass : Bool) : State :=
  match (s.eng e).st with
  | .retest =>
    if pass then
      if s.aud.stt.swap && s.aud.stt.swapFrom == e then
        ((s.modEng e fun x => { x with st := .spare }).modStt fun t => { t with swap := false }).repairEnds (engElem e)
      else if s.aud.stt.degradedBy = some e then
        ((s.modEng e fun x => { x with st := .service }).modStt fun t => { t with degradedBy := none }).exitDegraded 0x02
      else s.modEng e fun x => { x with st := .spare }
    else ((s.countFault e 5 0).engineFailed e).engineRecord e 5 0
  | .test =>
    if pass then s.modEng e fun x => { x with st := x.prior }
    else ((s.countFault e 5 0).engineTestFail e).engineRecord e 5 0
  | _ => s

/-! ### SHA3 engines -/

def shaElem (k : Nat) : Nat := 0x600 + k

/-- A lockstep mismatch isolates a SHA3 engine until its retest slice has finished (R270). -/
def State.sha3Mismatch (s : State) (k : Nat) : State :=
  let t := s.aud.stt
  if t.sha3Retest.contains k || t.sha3Failed.contains k then s
  else
    let s1 := (s.modStt fun t => { t with sha3Retest := insNat k t.sha3Retest, sha3Faults := inc 8 t.sha3Faults }).engineRecord k 0x10 0
    if s.glb.st = .degraded ∨ s.glb.repairs ≠ [] then s1.enterSafe 0x10
    else (s1.requestRetest (shaElem k)).repairBegins (shaElem k)

/-- The outcome of a SHA3 engine's slice (R271). -/
def State.sha3Slice (s : State) (k : Nat) (pass : Bool) : State :=
  let s1 := (s.modStt fun t => { t with sha3Retest := t.sha3Retest.erase k }).repairEnds (shaElem k)
  if pass then s1 else (s1.modStt fun t => { t with sha3Failed := insNat k t.sha3Failed }).singleFault 0x05

end Sys2Proof.Machine
end

