-- ==== Sys2Proof/Machine/BadgerImg.lean ====
section
/-! DEFINITION. The Badger image: its fields, its format checks and its fit into a model slot (R292 to R307). -/

namespace Sys2Proof.Machine

/-! ### Fields (R292, R294, R296) -/

def bLayout (b : Bytes) : Nat := rd b 12 1
def bSeq (b : Bytes) : Bool := bLayout b == 1
def bTiles (b : Bytes) : Nat := rd b 13 1
def bSrcs (b : Bytes) : Nat := rd b 14 1
def bTag (b : Bytes) : Nat := rd b 16 8
def bLayers (b : Bytes) : Nat := rd b 24 2
def bHist (b : Bytes) : Nat := rd b 26 2
def bSram (b : Bytes) : Nat := rd b 28 4
def bRunUs (b : Bytes) : Nat := rd b 32 4
def bDriftTol (b : Bytes) : Nat := rd b 36 1
def bConf (b : Bytes) : Nat := rd b 37 1
def bEmits (b : Bytes) : Nat := rd b 38 1
def bLyrOff (b : Bytes) : Nat := rd b 44 4
def bPrmOff (b : Bytes) : Nat := rd b 48 4
def bPrmLen (b : Bytes) : Nat := rd b 52 4
def bWgtOff (b : Bytes) : Nat := rd b 56 4
def bSigOff (b : Bytes) : Nat := rd b 64 4
def bHistDigest (b : Bytes) : Bytes := slice b 72 32
/-- Field at an offset of source entry i and of layer entry i. -/
def bsrc (b : Bytes) (i off n : Nat) : Nat := rd b (256 + 32 * i + off) n
def blyr (b : Bytes) (i off n : Nat) : Nat := rd b (bLyrOff b + 32 * i + off) n

/-- Fields of a layer entry. -/
structure BLayer where
  op : Nat
  tile : Nat
  mfirst : Nat
  mcount : Nat
  a : Nat
  b : Nat
  out : Nat
  rows : Nat
  k : Nat
  n : Nat
  param : Nat
  arg : Nat
deriving DecidableEq, Repr, Inhabited

def bLayer (b : Bytes) (i : Nat) : BLayer :=
  { op := blyr b i 0 1, tile := blyr b i 1 1, mfirst := blyr b i 2 1, mcount := blyr b i 3 1, a := blyr b i 4 4,
    b := blyr b i 8 4, out := blyr b i 12 4, rows := blyr b i 16 4, k := blyr b i 20 2, n := blyr b i 22 2,
    param := blyr b i 24 4, arg := blyr b i 28 4 }

/-- An absent operand (R296). -/
def noOperand : Nat := 0xFFFFFFFF
/-- Space and byte offset of an operand reference. -/
def opSpace (r : Nat) : Nat := fld r 28 4
def opOff (r : Nat) : Nat := fld r 0 28

/-- Bytes of a role's stretch of history and of its validity bitmap (R297, R303). -/
def stretchLen (hist : Nat) : Nat := hist / 8 * 256 + ceilDiv (hist / 8) 8

/-- Bytes of operand A, operand B and the result of a layer; 0 where the operation has none (R297). -/
def BLayer.sizes (l : BLayer) (hist : Nat) : Nat × Nat × Nat :=
  let e := l.rows * l.n
  match l.op with
  | 0x01 => (l.rows * l.k, 0, 4 * e)
  | 0x02 => (4 * e, 4 * e, 4 * e)
  | 0x10 => (4 * e, 0, e)
  | 0x11 => (e, 0, e)
  | 0x12 => (e, e, e)
  | 0x13 => (l.rows * l.k, 0, e)
  | 0x14 => (l.rows * l.k, 0, e)
  | 0x20 => (0, 0, stretchLen hist)
  | 0x21 => (256, 0, 0)
  | 0x22 => let v := if l.arg = 0 then l.n else 4 * l.n; (v, 0, v)
  | _ => (l.n, 0, 0)

/-- Parameter bytes of a layer (R297). -/
def BLayer.paramLen (l : BLayer) : Nat :=
  match l.op with
  | 0x10 => 12 * l.n
  | 0x11 => 256
  | 0x13 => 4 * l.rows * l.n
  | _ => 0

/-- Length of the input area of an image: the end of its last source. -/
def bAreaLen (b : Bytes) : Nat := (List.range (bSrcs b)).foldl (fun a i => max a (bsrc b i 16 4 + bsrc b i 20 4)) 0

/-- One more than the highest macro that a layer of image tile t names (R298). -/
def bMacros (b : Bytes) (t : Nat) : Nat :=
  (List.range (bLayers b)).foldl (fun a i =>
    let l := bLayer b i
    if l.op = 1 ∧ l.tile = t then max a (l.mfirst + l.mcount) else a) 0

/-- Image tiles whose macros are stored: one replica under SEQUENCE (R298). -/
def bStored (b : Bytes) : Nat := if bSeq b then 1 else bTiles b
def bMacroTotal (b : Bytes) : Nat := (List.range (bStored b)).foldl (fun a t => a + bMacros b t) 0

/-- Weight w[k][n] of macro m of image tile t as a byte (R298). -/
def bWeight (b : Bytes) (t m k n : Nat) : Int :=
  let base := (List.range t).foldl (fun a i => a + bMacros b i) 0
  sgn 8 (rd b (bWgtOff b + (base + m) * 131072 + k * 256 + n) 1)

/-! ### Format (R299) -/

/-- The header (R292); `lim` is the length that was given with the image. -/
def bHeaderOk (b : Bytes) : Bool :=
  rd b 0 4 == 0x44424C43 && rd b 4 1 == 1 && rd b 5 1 == 3 && rd b 6 2 == 256 && rd b 8 4 == b.length &&
  (if bLayout b = 0 then 1 ≤ bTiles b && bTiles b ≤ 8 && bHist b == 0 && allZero (bHistDigest b)
   else bLayout b == 1 && bTiles b == 8 && 8 ≤ bHist b && bHist b ≤ 4096 && bHist b % 8 == 0) &&
  1 ≤ bSrcs b && bSrcs b ≤ 16 && zeroAt b 15 1 && 1 ≤ bLayers b && bLayers b ≤ 4096 &&
  bSram b % 1024 == 0 && bSram b ≤ 262144 && 1 ≤ bRunUs b && bRunUs b ≤ 200000 && 1 ≤ bDriftTol b &&
  1 ≤ bEmits b && bEmits b ≤ 7 && zeroAt b 39 1 && rd b 40 4 == 256 &&
  bLyrOff b == alignUp (256 + 32 * bSrcs b) 64 && bPrmOff b == alignUp (bLyrOff b + 32 * bLayers b) 64 &&
  bWgtOff b == alignUp (bPrmOff b + bPrmLen b) 4096 && rd b 60 4 == 131072 * bMacroTotal b &&
  bSigOff b == bWgtOff b + rd b 60 4 && bSigOff b + 2420 == b.length && zeroAt b 68 4 && zeroAt b 104 152

/-- Length of a transformed input (R295). -/
def bSrcLen (b : Bytes) (i : Nat) : Nat :=
  let e := bsrc b i 4 2 * bsrc b i 6 2
  match bsrc b i 2 1 with
  | 0 => if bsrc b i 3 1 = 0 then 65536 else 8192
  | 1 => e
  | _ => 2 * e

/-- A source entry (R294, R295). -/
def bSourceOk (b : Bytes) (i : Nat) : Bool :=
  let kind := bsrc b i 0 1
  let xf := bsrc b i 2 1
  let cam := xf == 1
  (if kind = 1 then (cam || xf == 2) && bsrc b i 1 1 < 16 && bsrc b i 3 1 == 0
   else xf == 0 && bsrc b i 3 1 < 2 && ((kind == 2 && bsrc b i 1 1 < 4) || (kind == 3 && bsrc b i 1 1 < 128))) &&
  (if cam then 1 ≤ bsrc b i 8 1 && bsrc b i 8 1 ≤ 16 && 1 ≤ bsrc b i 9 1 && bsrc b i 9 1 ≤ 16
   else bsrc b i 8 1 == 0 && bsrc b i 9 1 == 0 && bsrc b i 12 2 == 0 && bsrc b i 14 2 == 0) &&
  (if xf = 2 then 5 ≤ bsrc b i 10 2 && bsrc b i 10 2 ≤ 200 else bsrc b i 10 2 == 0) &&
  bsrc b i 20 4 == bSrcLen b i && zeroAt b (256 + 32 * i + 24) 8

/-- Length of a space as the image declares it (R296); `none` for a reserved space. -/
def bSpace (b : Bytes) (sp : Nat) : Option Nat :=
  if sp = 8 then some (bAreaLen b)
  else if sp < (if bSeq b then 1 else bTiles b) then some (bSram b)
  else none

/-- An operand of n bytes lies in its space. -/
def bOperandOk (b : Bytes) (r n : Nat) : Bool := (bSpace b (opSpace r)).elim false fun len => opOff r + n ≤ len

/-- Two byte ranges overlap. -/
def overlaps (o1 n1 o2 n2 : Nat) : Bool := 0 < n1 && 0 < n2 && o1 < o2 + n2 && o2 < o1 + n1

/-- Layer j writes the operand of n bytes at r, in the tile space of r. -/
def bWrites (b : Bytes) (r n j : Nat) : Bool :=
  let l := bLayer b j
  l.tile == opSpace r && l.out != noOperand && overlaps (opOff l.out) (l.sizes (bHist b)).2.2 (opOff r) n

/-- Layer i does not read the operand of n bytes at r, in a tile space it does not execute on, before every layer that
writes it (R299). -/
def bOrderOk (b : Bytes) (i r n : Nat) : Bool :=
  let writers := (List.range (bLayers b)).filter (bWrites b r n)
  bSeq b || opSpace r == 8 || opSpace r == (bLayer b i).tile || writers.isEmpty || writers.any (· < i)

/-- The rules of R297 for ARG and the shape of each operation. -/
def BLayer.argOk (l : BLayer) (seq : Bool) : Bool :=
  match l.op with
  | 0x14 => 2 ≤ l.arg && l.arg ≤ 64 && l.k == l.n * l.arg
  | 0x20 => seq && l.arg == 0
  | 0x21 => seq && l.arg == 0 && l.rows == 1 && l.k == 256
  | 0x22 => seq && l.arg < 2
  | 0x30 => l.arg < 3
  | _ => l.arg == 0

/-- REQUANT parameters in range (R225). -/
def bRequantOk (b : Bytes) (l : BLayer) : Bool :=
  l.op != 0x10 || (List.range l.n).all fun c => requantOk b (bPrmOff b + l.param + 12 * c)

/-- GATHER indices stay in A's space (R297, R299). -/
def bGatherOk (b : Bytes) (l : BLayer) : Bool :=
  l.op != 0x13 || (List.range (l.rows * l.n)).all fun e =>
    let x := rd b (bPrmOff b + l.param + 4 * e) 4
    x == 0xFFFFFFFF || bOperandOk b l.a (x + 1)

/-- A layer entry (R296, R297, R299). -/
def bLayerOk (b : Bytes) (i : Nat) : Bool :=
  let l := bLayer b i
  let seq := bSeq b
  let (na, nb, no) := l.sizes (bHist b)
  [1, 2, 0x10, 0x11, 0x12, 0x13, 0x14, 0x20, 0x21, 0x22, 0x30].contains l.op &&
  (if seq then l.tile == 0 else l.tile < bTiles b) &&
  (if l.op = 1 then 0 < l.k && 0 < l.n && l.mcount == ceilDiv l.k 512 * ceilDiv l.n 256 && l.mfirst + l.mcount ≤ 32
   else l.mfirst == 0 && l.mcount == 0) &&
  1 ≤ l.rows && l.rows ≤ 65536 && l.argOk seq &&
  (l.op == 0x20 || (bOperandOk b l.a na && bOrderOk b i l.a na)) &&
  (if nb = 0 then l.b == noOperand else bOperandOk b l.b nb && bOrderOk b i l.b nb) &&
  (if no = 0 then l.out == noOperand else opSpace l.out == l.tile && bOperandOk b l.out no) &&
  (if l.paramLen = 0 then l.param == 0 else l.param + l.paramLen ≤ bPrmLen b) &&
  bRequantOk b l && bGatherOk b l

/-- Some MVM layer of image tile t uses row k and column n of macro m. -/
def bUsed (b : Bytes) (t m k n : Nat) : Bool :=
  (List.range (bLayers b)).any fun i =>
    let l := bLayer b i
    let q := m - l.mfirst
    let w := ceilDiv l.n 256
    l.op == 1 && l.tile == t && l.mfirst ≤ m && m < l.mfirst + l.mcount &&
      512 * (q / w) + k < l.k && 256 * (q % w) + n < l.n

/-- Unused rows and columns hold 0, and so does every byte between the parts (R293, R298). -/
def bWeightsOk (b : Bytes) : Bool :=
  ((List.range (bStored b)).all fun t => (List.range (bMacros b t)).all fun m => (List.range 512).all fun k =>
    (List.range 256).all fun n => bUsed b t m k n || bWeight b t m k n == 0) &&
  zeroAt b (256 + 32 * bSrcs b) (bLyrOff b - (256 + 32 * bSrcs b)) &&
  zeroAt b (bLyrOff b + 32 * bLayers b) (bPrmOff b - (bLyrOff b + 32 * bLayers b)) &&
  zeroAt b (bPrmOff b + bPrmLen b) (bWgtOff b - (bPrmOff b + bPrmLen b))

/-- The first entry at which the header, the source table or the layer table breaks R299; LAYER 0 for the first two. -/
def bTablesFail (b : Bytes) : Option Nat :=
  if b.length < 256 ∨ !bHeaderOk b then some 0
  else if (firstIdx (bSrcs b) (bSourceOk b)).isSome then some 0
  else firstIdx (bLayers b) (bLayerOk b)

/-! ### Fit (R305, R307) -/

/-- BDG_M_CFG and BDG_M_SRAM (R331). -/
def Cfg.mCfg (c : Cfg) (m : Nat) : Nat := c.word (0x100400 + 0x40 * m)
def Cfg.mValid (c : Cfg) (m : Nat) : Bool := m < 4 && bitAt (c.mCfg m) 0
def Cfg.mPart (c : Cfg) (m : Nat) : Nat := fld (c.mCfg m) 2 6
def Cfg.mMask (c : Cfg) (m : Nat) : Nat := if c.mValid m then fld (c.mCfg m) 8 8 else 0
def Cfg.mBase (c : Cfg) (m : Nat) : Nat := fld (c.mCfg m) 16 5
def Cfg.mCount (c : Cfg) (m : Nat) : Nat := if c.mValid m then fld (c.mCfg m) 21 6 else 0
def Cfg.mSram (c : Cfg) (m : Nat) : Nat := fld (c.word (0x100404 + 0x40 * m)) 8 9
/-- Roles of TILE_MASK, ascending. -/
def Cfg.mRoles (c : Cfg) (m : Nat) : List Nat := bitList 8 (c.mMask m)

/-- Pages of an image with its input and output areas (R305). -/
def bPages (b : Bytes) : Nat :=
  let e := bEmits b
  ceilDiv b.length 4096 + ceilDiv (bAreaLen b) 4096 +
    ceilDiv ((if bitAt e 0 then 65536 else 0) + (if bitAt e 1 then 8192 else 0) + (if bitAt e 2 then 320 else 0)) 4096

/-- Pages of BDG_PART's regions in L-die SRAM or a tier that allow READ and WRITE (R300). -/
def Cfg.masterPages (c : Cfg) (p : Nat) : Nat :=
  ((c.partRegions p).filter fun r => r.target != 0 && r.read && r.write).foldl (fun a r => a + r.size) 0

/-- What R305 compares for an image and slot m of a configuration, with `used` pages of BDG_PART taken. -/
structure BFit where
  reason : Nat
  report : Bytes
deriving DecidableEq, Repr, Inhabited

/-- The checks of R305 and the report of R307. -/
def bFit (c : Cfg) (m used : Nat) (b : Bytes) : BFit :=
  let roles := (c.mRoles m).length
  let mc := c.mCount m
  let ts := List.range (bStored b)
  let counts := ts.map (bMacros b)
  let need := counts.foldl max 0
  let total := counts.foldl (· + ·) 0
  let tilesBad : Bool := if bSeq b then c.mMask m != 0xFF else bTiles b > roles
  let macrosBad := counts.any (· > mc)
  let sramNeed := bSram b + 32 * bHist b
  let sramHave := 1024 * c.mSram m
  let mHave := c.masterPages (c.mPart m) - used
  let reason := b2n tilesBad + 2 * b2n macrosBad + 4 * b2n (sramNeed > sramHave) + 8 * b2n (bPages b > mHave)
  let misfit (t : Nat) : Bool := (if bSeq b then tilesBad else t ≥ roles) || bMacros b t > mc
  let short := ts.foldl (fun a t => a + (if !bSeq b ∧ t ≥ roles then bMacros b t else bMacros b t - mc)) 0
  { reason := reason
    report := le 1 m ++ le 1 reason ++ le 1 ((ts.find? misfit).getD 0xFF) ++ zeros 1 ++ le 1 (bTiles b) ++ le 1 roles ++
      le 1 need ++ le 1 mc ++ le 4 (131072 * total) ++ le 4 (131072 * mc * (if bSeq b then 1 else roles)) ++
      le 4 (131072 * short) ++ le 4 sramNeed ++ le 4 sramHave ++ le 4 (sramNeed - sramHave) ++ le 4 (bPages b) ++
      le 4 mHave ++ zeros 8 }

end Sys2Proof.Machine
end

