-- ==== Sys2Proof/Machine/BadgerPass.lean ====
section
/-! DEFINITION. A Badger pass: the transforms of the inputs and the layers of the image (R277, R295 to R303). -/

namespace Sys2Proof.Machine

/-! ### Free values

A pass draws its free values, the residuals of R277 and the elements the spec does not give, from a running index. -/

/-- The free byte with index i. -/
def freeByte (i : Nat) : Byte := BitVec.ofNat 8 (Config.freeNat i)

/-- b with the bytes it lacks of n as free values from index i. -/
def fillFree (i n : Nat) (b : Bytes) : Bytes :=
  b.take n ++ (List.range (n - b.length)).map fun j => freeByte (i + b.length + j)

/-! ### Camera lines: the packing of MIPI CSI-2 v3.0, which R282 names (PRESUMED from that standard) -/

/-- Bits per pixel of a data type (R282); 0 for one that is not listed. -/
def csiBits (dt : Nat) : Nat :=
  match dt with
  | 0x2A => 8 | 0x2B => 10 | 0x2C => 12 | 0x2D => 14 | 0x2E => 16 | 0x1E => 16 | 0x24 => 24
  | _ => 0

/-- Payload bytes of a line of w pixels. -/
def lineBytes (dt w : Nat) : Nat := ceilDiv (w * csiBits dt) 8

/-- Source bit depth of the value that CAM_BOX averages (R295). -/
def csiDepth (dt : Nat) : Nat := if dt = 0x1E ∨ dt = 0x24 then 8 else csiBits dt

/-- Value of pixel x of a line (R295: luma of YUV422, (R + 2G + B) >> 2 of RGB888). -/
def csiPixel (dt : Nat) (line : Bytes) (x : Nat) : Nat :=
  match dt with
  | 0x2B => rd line (x / 4 * 5 + x % 4) 1 * 4 + fld (rd line (x / 4 * 5 + 4) 1) (2 * (x % 4)) 2
  | 0x2C => rd line (x / 2 * 3 + x % 2) 1 * 16 + fld (rd line (x / 2 * 3 + 2) 1) (4 * (x % 2)) 4
  | 0x2D => rd line (x / 4 * 7 + x % 4) 1 * 64 + fld (rd line (x / 4 * 7 + 4) 3) (6 * (x % 4)) 6
  | 0x2E => rd line (2 * x) 2
  | 0x1E => rd line (2 * x + 1) 1
  | 0x24 => (rd line (3 * x + 2) 1 + 2 * rd line (3 * x + 1) 1 + rd line (3 * x) 1) / 4
  | _ => rd line x 1

/-- BDG_S_CFG, BDG_S_CFG2 and BDG_S_REC of source k (R333). -/
def Cfg.srcWord (c : Cfg) (k off : Nat) : Nat := c.word (0x100C00 + 0x20 * k + off)
def Cfg.srcValid (c : Cfg) (k : Nat) : Bool := k < 16 && bitAt (c.srcWord k 0) 0
def Cfg.srcEth (c : Cfg) (k : Nat) : Bool := bitAt (c.srcWord k 0) 1
def Cfg.srcPort (c : Cfg) (k : Nat) : Nat := fld (c.srcWord k 0) 2 2
def Cfg.srcVc (c : Cfg) (k : Nat) : Nat := fld (c.srcWord k 0) 4 4
def Cfg.srcDt (c : Cfg) (k : Nat) : Nat := fld (c.srcWord k 0) 8 6
/-- LINES, or MIN_POINTS. -/
def Cfg.srcLines (c : Cfg) (k : Nat) : Nat := fld (c.srcWord k 0) 16 16
/-- WIDTH, or UDP_PORT. -/
def Cfg.srcWidth (c : Cfg) (k : Nat) : Nat := fld (c.srcWord k 4) 0 16
def Cfg.srcVlan (c : Cfg) (k : Nat) : Nat := fld (c.srcWord k 4) 16 12
def Cfg.srcStride (c : Cfg) (k : Nat) : Nat := fld (c.srcWord k 8) 0 7
def Cfg.srcSkip (c : Cfg) (k : Nat) : Nat := fld (c.srcWord k 8) 8 8
def Cfg.srcXyzType (c : Cfg) (k : Nat) : Nat := fld (c.srcWord k 8) 16 2
def Cfg.srcXyzOff (c : Cfg) (k : Nat) : Nat := fld (c.srcWord k 8) 18 6

/-- CAM_BOX (R295); an element whose block reaches outside the picture is free. -/
def camBox (c : Cfg) (k : Nat) (lines : List Bytes) (b : Bytes) (i f : Nat) : Bytes :=
  let w := bsrc b i 4 2
  let fx := bsrc b i 8 1
  let fy := bsrc b i 9 1
  let dt := c.srcDt k
  (List.range (w * bsrc b i 6 2)).map fun e =>
    let row := bsrc b i 14 2 + e / w
    let col := bsrc b i 12 2 + e % w
    if fy * (row + 1) ≤ c.srcLines k ∧ fx * (col + 1) ≤ c.srcWidth k then
      let sum := (List.range fy).foldl (fun a j => (List.range fx).foldl (fun a x =>
        a + csiPixel dt (lines.getD (fy * row + j) []) (fx * col + x)) a) 0
      BitVec.ofNat 8 (toBits 8 ((sum / (fx * fy) / 2 ^ (csiDepth dt - 8) : Nat) - 128 : Int))
    else freeByte (f + e)

/-! ### Lidar records -/

/-- A coordinate in mm as a fraction with positive denominator (R289); `none` for a NaN. An infinity is a number
beyond every grid. -/
def coord (t raw : Nat) : Option (Int × Nat) :=
  match t with
  | 0 => some (sgn 16 raw, 1)
  | 1 => some (sgn 32 raw, 1)
  | _ => match f32.decode raw with
    | .nan => none
    | .inf n => some ((if n then -1 else 1) * (2 ^ 200 : Nat), 1)
    | .fin n m e =>
      let v : Int := (if n then -1 else 1) * (1000 * m : Nat)
      if 0 ≤ e then some (v * (2 ^ e.toNat : Nat), 1) else some (v, 2 ^ (-e).toNat)

/-- Cell of a coordinate along an axis of n cells of `cm` cm (R295). -/
def bevIndex (n cm : Nat) (q : Option (Int × Nat)) : Option Nat :=
  match q with
  | none => none
  | some (x, d) =>
    let v : Int := (2 * x + (10 * n * cm * d : Nat)) / (20 * cm * d : Nat)
    if 0 ≤ v ∧ v < n then some v.toNat else none

/-- round(z / 0.05 m) with z in mm: a tie goes either way, by the free value f. -/
def bevHeight (z : Int × Nat) (f : Nat) : Int :=
  let up : Int := (2 * z.1 + (50 * z.2 : Nat)) / (100 * z.2 : Nat)
  let tie := (2 * z.1 + (50 * z.2 : Nat)) % (100 * z.2 : Nat) == 0
  clampI (-127) 127 (if tie && Config.freeNat f % 2 == 1 then up - 1 else up)

/-- The two elements of a cell from the heights of its points (R295). -/
def bevCell (zs : List (Option (Int × Nat))) (f : Nat) : Bytes :=
  match zs with
  | [] => [0, BitVec.ofNat 8 (toBits 8 (-128))]
  | z0 :: r =>
    let top := r.foldl (fun (a : Option (Int × Nat)) z =>
      match a, z with
      | some x, some y => some (if x.1 * y.2 < y.1 * x.2 then y else x)
      | _, _ => none) z0
    [BitVec.ofNat 8 (min 127 zs.length),
     match top with
     | some z => BitVec.ofNat 8 (toBits 8 (bevHeight z f))
     | none => freeByte f]

/-- LIDAR_BEV (R295). -/
def lidarBev (c : Cfg) (k : Nat) (pts : List Point) (b : Bytes) (i f : Nat) : Bytes :=
  let w := bsrc b i 4 2
  let h := bsrc b i 6 2
  let cm := bsrc b i 10 2
  let t := c.srcXyzType k
  let placed := pts.filterMap fun p =>
    match bevIndex w cm (coord t p.x), bevIndex h cm (coord t p.y) with
    | some x, some y => some (y * w + x, coord t p.z)
    | _, _ => none
  (List.range (w * h)).flatMap fun e => bevCell ((placed.filter fun q => q.1 == e).map (·.2)) (f + e)

/-! ### The input area -/

def State.model (s : State) (m : Nat) : ModelSlot := tget s.bdg.slots m
def State.source (s : State) (k : Nat) : Source := tget s.bdg.sources k

/-- One transformed input of image b, free values from index f (R295). -/
def State.inputOf (s : State) (b : Bytes) (i f : Nat) : Bytes :=
  let ref := bsrc b i 1 1
  let c := s.cfg.active
  let grid := bsrc b i 3 1 == 0
  let x := match bsrc b i 0 1, bsrc b i 2 1 with
    | 1, 1 => camBox c ref (s.source ref).lines b i f
    | 1, _ => lidarBev c ref (s.source ref).points b i f
    | 2, _ => if grid then (s.model ref).out.grid else (s.model ref).out.objects
    | _, _ => if grid then slice (s.slot ref).rep.bytes 320 65536 else slice (s.slot ref).rep.bytes 65856 8192
  fillFree f (bsrc b i 20 4) x

/-- b with the bytes at off replaced, grown with zero bytes where it is shorter. -/
def putAt (b : Bytes) (off : Nat) (x : Bytes) : Bytes := if b.length < off then padTo off b ++ x else patch b off x

/-- The input area with every input in place, and the next free index. -/
def State.inputArea (s : State) (b : Bytes) (f : Nat) : Bytes × Nat :=
  (List.range (bSrcs b)).foldl (fun (a, f) i =>
    (putAt a (bsrc b i 16 4) (s.inputOf b i f), f + bsrc b i 20 4)) ([], f)

/-! ### Layers -/

/-- A pass under way: tile SRAM by image tile or replica, outputs, staged step, next free index. -/
structure Pass where
  sram : Tbl Bytes := []
  out : ShadowOut := {}
  step : Option Bytes := none
  free : Nat := 0
deriving DecidableEq, Repr, Inhabited

/-- What does not change during a pass: the image, its input area, the history. -/
structure PassEnv where
  img : Bytes
  area : Bytes
  hist : List (Option Bytes)
deriving DecidableEq, Repr, Inhabited

/-- n bytes of an operand as replica (or tile) t reads them. -/
def Pass.read (p : Pass) (e : PassEnv) (t r n : Nat) : Bytes :=
  let m := if opSpace r = 8 then e.area else tget p.sram (if bSeq e.img then t else opSpace r)
  padTo n (slice m (opOff r) n)

def Pass.write (p : Pass) (t r : Nat) (x : Bytes) : Pass :=
  { p with sram := tset p.sram t (putAt (tget p.sram t) (opOff r) x) }

/-- Byte e of b as int8, word e as int32, and back. -/
def i8 (b : Bytes) (e : Nat) : Int := sgn 8 (rd b e 1)
def i32 (b : Bytes) (e : Nat) : Int := sgn 32 (rd b (4 * e) 4)
def ofI8 (v : Int) : Bytes := le 1 (toBits 8 v)
def ofI32 (v : Int) : Bytes := le 4 (toBits 32 v)
def satI32 (v : Int) : Int := clampI (-2147483648) 2147483647 v

/-- The residual error of R277 with index i: a free value of the 24-bit accumulator. -/
def residual (i : Nat) : Int := sgn 24 (Config.freeNat i)

/-- Element r, n of MVM (R277, R297); the residuals of its macros begin at index f. -/
def mvmAt (e : PassEnv) (l : BLayer) (a : Bytes) (f r n : Nat) : Int :=
  let w := ceilDiv l.n 256
  let q := ceilDiv l.k 512
  let exact := (List.range l.k).foldl (fun acc k =>
    acc + i8 a (r * l.k + k) * bWeight e.img l.tile (l.mfirst + k / 512 * w + n / 256) (k % 512) (n % 256)) (0 : Int)
  (List.range q).foldl (fun acc i => acc + residual (f + (r * l.n + n) * q + i)) exact

/-- The stretch of history of role t and its validity bitmap (R297, R303): history is kept newest first, and role 0
holds the newest. -/
def histRead (e : PassEnv) (t : Nat) : Bytes :=
  let n := bHist e.img / 8
  let part := (((List.range n).map fun j => e.hist.getD (t * n + j) none)).reverse
  part.flatMap (fun x => padTo 256 (x.getD [])) ++ le (ceilDiv n 8) (ofBitList (firstIdx' part))
where
  /-- Positions of the valid steps. -/
  firstIdx' (part : List (Option Bytes)) : List Nat := (part.zipIdx.filter fun x => x.1.isSome).map (·.2)

/-- The result of a layer that computes on one tile or replica alone (R297). -/
def Pass.compute (p : Pass) (e : PassEnv) (l : BLayer) (t : Nat) : Bytes :=
  let (na, nb, _) := l.sizes (bHist e.img)
  let a := p.read e t l.a na
  let b := p.read e t l.b nb
  let cnt := l.rows * l.n
  let prm := bPrmOff e.img + l.param
  match l.op with
  | 0x01 => (List.range cnt).flatMap fun x => ofI32 (mvmAt e l a p.free (x / l.n) (x % l.n))
  | 0x02 => (List.range cnt).flatMap fun x => ofI32 (satI32 (i32 a x + i32 b x))
  | 0x10 => (List.range cnt).flatMap fun x => le 1 (requantAt e.img (prm + 12 * (x % l.n)) (rd a (4 * x) 4))
  | 0x11 => (List.range cnt).flatMap fun x => slice e.img (prm + (i8 a x + 128).toNat) 1
  | 0x12 => (List.range cnt).flatMap fun x => ofI8 (clampI (-128) 127 (i8 a x + i8 b x))
  | 0x13 => (List.range cnt).flatMap fun x =>
      let j := rd e.img (prm + 4 * x) 4
      if j = 0xFFFFFFFF then [0] else p.read e t (l.a + j) 1
  | 0x14 => (List.range cnt).flatMap fun x =>
      ofI8 ((List.range l.arg).foldl (fun m g => max m (i8 a (x / l.n * l.k + x % l.n * l.arg + g))) (-128))
  | 0x20 => histRead e t
  | _ => []

/-- XCHG over the replicas' vectors (R297). -/
def xchg (l : BLayer) (vs : List Bytes) : Bytes :=
  (List.range l.n).flatMap fun c =>
    if l.arg = 0 then ofI8 (vs.foldl (fun m v => max m (i8 v c)) (-128))
    else ofI32 (satI32 (vs.foldl (fun m v => m + i32 v c) 0))

/-- EMIT appends to its section (R297, R342). -/
def ShadowOut.emit (o : ShadowOut) (sec : Nat) (x : Bytes) : ShadowOut :=
  match sec with
  | 0 => { o with grid := o.grid ++ x }
  | 1 => { o with objects := o.objects ++ x }
  | _ => { o with temporal := o.temporal ++ x }

/-- One layer, on its tile or on every replica (R297, R302). -/
def Pass.layer (p : Pass) (e : PassEnv) (i : Nat) : Pass :=
  let l := bLayer e.img i
  let ts := if bSeq e.img then List.range 8 else [l.tile]
  let (na, _, _) := l.sizes (bHist e.img)
  if l.op = 0x30 then { p with out := p.out.emit l.arg (p.read e l.tile l.a na) }
  else if l.op = 0x21 then { p with step := some (p.read e 0 l.a na) }
  else if l.op = 0x22 then
    let v := xchg l (ts.map fun t => p.read e t l.a na)
    ts.foldl (fun q t => q.write t l.out v) p
  else
    ts.foldl (fun q t =>
      let q1 := q.write t l.out (q.compute e l t)
      if l.op = 1 then { q1 with free := q1.free + l.rows * l.n * ceilDiv l.k 512 } else q1) p

/-- The first n layers of the image of slot m: the pass after them (R296). -/
def State.runPass (s : State) (m n : Nat) : Pass :=
  let x := s.model m
  let img := x.active.getD []
  let (area, f) := s.inputArea img s.free
  (List.range n).foldl (fun p i => p.layer { img := img, area := area, hist := x.hist } i) { sram := x.sram, free := f }

end Sys2Proof.Machine
end

