-- ==== Sys2Proof/Machine/ResetOps.lean ====
section
/-! DEFINITION. Restarting from a step: what every restart clears, what survives, and what Shroud clears (R661 to
R670, R690). -/

namespace Sys2Proof.Machine

/-- Lifecycle state of a fuse map: the highest blown group + 1, 0 BLANK (R746). -/
def lifeOf (fuses : Nat) : Nat :=
  ((List.range 5).filter fun g => fld fuses (2 * g) 2 != 0).foldl (fun a g => max a (g + 1)) 0

/-- CFG_LIFE.STATE: from the shadow loaded at the last power-on or SYS_RESET_N (R749). -/
def State.life (s : State) : Nat := lifeOf s.nvm.shadow

/-- The switched domains that step k releases (R684); SRAM banks follow R686 instead. -/
def stepDomains (k : Nat) : List Nat :=
  match k with
  | 2 => [113, 131]
  | 3 => [128]
  | 4 => [106, 107, 108, 109, 118, 119, 120, 121, 122, 123, 127]
  | 5 => [110, 111, 112, 124, 130]
  | 6 => List.range 17
  | 7 => ((List.range 18).map (17 + ·)) ++ [126, 129]
  | 8 => [99, 100, 101, 125]
  | 9 => [102, 103, 104, 105, 114, 115, 116, 117]
  | _ => []

/-- Step that releases a domain (R684). -/
def domainStep (d : Nat) : Nat :=
  if d < 17 then 6 else if d < 35 then 7 else if d < 99 then 4
  else (((List.range 10).find? fun k => (stepDomains k).contains d)).getD 11

/-- Bit of OFF_MASK that keeps a domain off (R671, R685). -/
def offBit (d : Nat) : Option Nat :=
  if 99 ≤ d ∧ d ≤ 101 then some (d - 99)
  else if 102 ≤ d ∧ d ≤ 105 then some (d - 102 + 3)
  else if 114 ≤ d ∧ d ≤ 117 then some (d - 114 + 7)
  else none

/-- The step has been released. -/
def State.atStep (s : State) (k : Nat) : Bool := match s.rst.released with | some j => k ≤ j | none => false

/-! ### Shroud -/

/-- A standard output driven off and in OFF (the row "Any" of R522). -/
def So.cleared (x : So) (cyc : Nat) : So :=
  { x with
    st := .off, faultCode := 0, minOff := false, edmTimer := false, been := []
    offAt := if x.st = .on then some cyc else x.offAt }

/-- A privileged output driven off and in OFF (the row "Any" of R523). -/
def Pv.cleared (x : Pv) (cyc : Nat) : Pv :=
  { x with
    st := .off, faultCode := 0, lsDrv := false, hsPin := false, minOff := false, hsOnAt := none, senseFrom := none, senseTimer := false
    been := [], offAt := if x.st = .on ∨ x.st = .lsOn then some cyc else x.offAt }

/-- Every output of Shroud is driven off and in OFF. -/
def Shroud.outputsOff (h : Shroud) (cyc : Nat) : Shroud :=
  { h with souts := tmap (·.cleared cyc) h.souts, prvs := tmap (·.cleared cyc) h.prvs }

/-- What every reset but one of Fox alone clears in Shroud (R662). -/
def Shroud.cleared (h : Shroud) (cyc : Nat) : Shroud :=
  let g := h.outputsOff cyc
  { g with
    cfgActive := false, cfgGen := 0, cfg := [], safeLatch := false, mirror := 0, mirrorCause := 0
    link := {}, fns := [], slots := [], soutReq := 0, prvReq := 0, hsCmd := 0, pchRun := 0
    discFrom := [], discOff := false, pulsing := [], pulseAt := [], pulseEnd := [] }

/-! ### Restart -/

/-- SEQ of the first record after a restart that clears the log: one above the highest archived or mirrored
(R451). -/
def Nvm.nextSeq (v : Nvm) : Nat := max v.archNewest (v.mirror.foldl (fun a e => max a e.seq) 0) + 1

/-- The blocks of steps Dk to D10, k at most 3, at their reset values; flash, MRAM, fuses and the sequencer stay. The
queue, the clock and the free values are the model's own and stay too. -/
def State.resetBlocks (s : State) (k : Nat) : State :=
  { s with
    glb := {}, die := {}, fr := {}, prt := {}, pw := {}, aud := {}, bdg := {}, vrd := {}, hst := {}, cor := {}
    pch := {}, plx := {}, tmb := {}
    mem := { soft := s.mem.soft }
    owl := { flash := if k ≤ 2 then {} else s.owl.flash }, log := {}
    cfg := { nonce := s.cfg.nonce }
    fox := if k ≤ 2 then {} else { s.fox with quotes := [], archiving := false, warned := [] }
    tck := if k ≤ 2 then {} else { s.tck with session := false, haltCores := false, haltFox := false }
    scn := if k ≤ 2 then {} else s.scn }

/-- The STATE record of a reset out of DEGRADED or SAFE into START_UP; it is written with the others when the log is up
again (R41, R455). -/
def State.leavesRecord (s : State) : List PendingRecord :=
  if s.glb.st = .degraded ∨ s.glb.st = .safe then
    [{ kind := 0x0105, severity := 2, payload := le 1 OpState.startUp.code ++ le 1 0 ++ le 1 0 }]
  else []

/-- The level of an input with a pull-down (R659). -/
def pinHigh (d : PinDrive) : Bool := d == .high
def Reset.pinsHigh (r : Reset) : Bool := pinHigh r.pins.sys && pinHigh r.pins.pwr

/-- The board drives the two inputs so, at main clock `mc`. -/
def Reset.seePins (r : Reset) (p : ResetPins) (mc : Nat) : Reset :=
  { r with pins := p, highFrom := if pinHigh p.sys && pinHigh p.pwr then some (r.highFrom.getD mc) else none }

/-- The conditions of the steps in `good` hold at main clock `mc`, those of the others do not (R676, R678). -/
def Reset.seeGood (r : Reset) (good : List Nat) (mc : Nat) : Reset :=
  { r with
    condFrom := good.map fun k => (k, (r.condFrom.lookup k).getD mc)
    waitRefclk := r.waitRefclk && !good.contains 1 }

/-- The condition of step k is interrupted: its count starts from 0 (R678). -/
def Reset.interrupt (r : Reset) (k : Nat) : Reset := { r with condFrom := r.condFrom.filter (·.1 != k) }

/-- The sequencer restarts from Dk with a source; a restart that is running already keeps the earlier step and its
source (R661 to R669). The step is 1 or more. The blocks of the steps above
it stop, and with them the clocks that the conditions of those steps name. -/
def State.restart (s : State) (k source : Nat) (brownout : Bool) : State :=
  let r := s.rst
  let busy := r.restarting && r.released.isSome
  let k' := if busy then min k r.from_ else k
  let src := if busy ∧ r.from_ < k then r.source
             else if busy ∧ r.from_ = k then min source r.source else source
  let n := s.nvm.rst
  let flags := b2n brownout + 2 * b2n n.warned
  let sev := if [3, 5, 6, 7].contains src then 2 else 0
  let n' : ResetNv := { n with
    source := src, brownout := brownout, powerFail := n.warned, warned := false
    counts := tinc n.counts 16 source
    pending := n.pending ++ [{ kind := 0x0C01, severity := sev, payload := le 1 src ++ le 1 flags ++ le 1 k' ++ zeros 1 }] ++
      if k' ≤ 3 then s.leavesRecord else [] }
  let s1 := s.resetBlocks k'
  { s1 with
    shr := s.shr.cleared s.cyc
    nvm := { s.nvm with rst := n', shadow := if k' ≤ 1 then s.nvm.fuses else s.nvm.shadow }
    rst := { r with
      released := some (k' - 1), releasedAt := s.mc, from_ := k', source := src, restarting := true, held := none
      tripHold := r.tripHold && 2 ≤ k', waitRefclk := false, resetOutN := false
      condFrom := r.condFrom.filter fun x => x.1 ≤ k'
      resetOutAt := if r.resetOutN then s.mc else r.resetOutAt
      pf := {}
      cgWait := r.cgWait.filter fun (j, _) => j < k'
      on := r.on.filter fun d => domainStep d < k'
      pdLast := 0, pdCount := 0
      pinTaken := if k' ≤ 1 then [] else r.pinTaken } }

/-- A reset source is ignored while a power-fail warning is handled (R694), and while a hold lasts that only power-on
and SYS_RESET_N end (R679). -/
def State.resettable (s : State) : Bool := s.rst.pf.since.isNone && s.rst.held.isNone

/-- A reset source that restarts from Dk, unless it is ignored. -/
def State.resetSource (s : State) (k source : Nat) : State :=
  if s.resettable then s.restart k source false else s

/-- A reset of Fox alone (R661 code 0x4, and code 0x5 when it restarts D2 only): nothing else changes (R663). -/
def State.resetFox (s : State) (source : Nat) : State :=
  if s.resettable then
    let n := s.nvm.rst
    let sev := if source = 5 then 2 else 0
    { s with
      fox := { st := .reset, temps := s.fox.temps, tempOk := s.fox.tempOk,
               warned := s.fox.warned }
      rst := { s.rst with on := s.rst.on.erase 113 }
      tck := { s.tck with haltFox := false }
      nvm := { s.nvm with rst := { n with
        source := source, counts := tinc n.counts 16 source, powerFail := n.warned, brownout := false, warned := false
        pending := n.pending ++ [{ kind := 0x0C01, severity := sev, payload := le 1 source ++ le 1 (2 * b2n n.warned) ++ le 1 2 ++ zeros 1 }] } } }
  else s

end Sys2Proof.Machine
end

