-- ==== Sys2Proof/Machine/Reset.lean ====
section
/-! DEFINITION. Reset, power and release: the commands of chapter 14. -/

namespace Sys2Proof.Machine

/-! ### The option block -/

/-- GAP_k minimum in REFCLK cycles (R677). -/
def gapMin (k : Nat) : Nat := if k = 4 ∨ k = 6 ∨ k = 7 then 2500 else 250

/-- A copy is valid (R672). -/
def optValid (b : Bytes) : Bool :=
  b.length == 512 && rd b 0 4 == 0x4B4F4C43 && rd b 4 1 == 1 && zeroAt b 5 3 && fld (rd b 12 1) 6 2 == 0 &&
  fld (rd b 13 1) 2 6 == 0 && [12, 14, 16, 18, 20].contains (rd b 14 1) && zeroAt b 15 1 && zeroAt b 34 2 &&
  25000 ≤ rd b 36 4 && rd b 36 4 ≤ 2500000 && rd b 40 4 < 2048 && zeroAt b 44 464 && rd b 508 4 == crcK (b.take 508)

/-- Fields of the option block in use; its defaults where neither copy was valid (R673). -/
def Reset.hCfg (r : Reset) : Nat := if r.opt = [] then 0 else rd r.opt 12 1
def Reset.gddrRate (r : Reset) : Nat := if r.opt = [] then 12 else rd r.opt 14 1
def Reset.gap (r : Reset) (k : Nat) : Nat := if r.opt = [] then gapMin k else max (gapMin k) (rd r.opt (16 + 2 * (k - 2)) 2)
def Reset.cgTimeout (r : Reset) : Nat := if r.opt = [] then 250000 else rd r.opt 36 4
def Reset.offMask (r : Reset) : Nat := if r.opt = [] then 0 else rd r.opt 40 4
def Reset.optCrc (r : Reset) : Nat := rd r.opt 508 4

/-- A domain that OFF_MASK never powers (R685). -/
def Reset.masked (r : Reset) (d : Nat) : Bool := (offBit d).elim false (bitAt r.offMask)

/-- Step D1 reads both copies and uses one (R673), and leaves an OPTION record for the log (R698). -/
def State.loadOption (s : State) : State :=
  let a := optValid s.nvm.optA
  let b := optValid s.nvm.optB
  let useB := b && (!a || rd s.nvm.optB 8 4 > rd s.nvm.optA 8 4)
  let used := if !a && !b then 2 else if useB then 1 else 0
  let opt := if !a && !b then [] else if useB then s.nvm.optB else s.nvm.optA
  let mis := a && b && s.nvm.optA != s.nvm.optB
  let dflt := !a && !b
  let rec_ : PendingRecord :=
    { kind := 0x0C02, severity := b2n (mis || dflt),
      payload := le 1 used ++ le 1 (b2n a) ++ le 1 (b2n b) ++ zeros 1 ++ le 4 (rd opt 8 4) }
  { s with
    rst := { s.rst with opt := opt, used := used, aValid := a, bValid := b, mismatch := mis, optDefault := dflt }
    nvm := { s.nvm with shadow := s.nvm.fuses, rst := { s.nvm.rst with pending := s.nvm.rst.pending ++ [rec_] } } }

/-! ### Releasing a step -/

/-- Main clocks in a REFCLK cycle of 25 MHz. -/
def refMc : Nat := 72

/-- Step k may be released now (R658, R659, R665, R666, R677 to R679, R681, R690, R751). -/
def State.mayRelease (s : State) (k : Nat) : Bool :=
  let r := s.rst
  let el := s.mc - r.releasedAt
  r.held.isNone && !r.pf.holding && !(r.tripHold && 3 ≤ k) && k ≤ 10 && r.released == (if k = 0 then none else some (k - 1)) &&
  !(2 ≤ k && s.life == 5) &&
  (if k ≤ 1 then el ≥ 100 * usMc else el ≥ r.gap k * refMc) &&
  (k == 0 || r.pinsHigh) && (k != 1 || r.highFrom.elim false fun t => t + msMc ≤ s.mc) && !(r.waitRefclk && 2 ≤ k) &&
  (k == 0 || (r.condFrom.lookup k).elim false fun t => t + (if k = 1 then 0 else 256 * refMc) ≤ s.mc) &&
  (k != 8 || s.mc - r.resetOutAt ≥ msMc)

/-! ### Reset sources -/

/-- POWER_ON: everything starts anew from D0; flash, MRAM and fuses stay (R658, R661, R664). -/
def State.powerOn (s : State) : State :=
  let n := s.nvm.rst
  let nvm := { s.nvm with shadow := s.nvm.fuses, rst := { n with
    source := 1, brownout := false, powerFail := n.warned, warned := false, counts := tinc n.counts 16 1
    pending := n.pending ++ [{ kind := 0x0C01, payload := le 1 1 ++ le 1 (2 * b2n n.warned) ++ le 1 0 ++ zeros 1 }] ++ s.leavesRecord } }
  { mc := s.mc, free := s.free, pending := s.pending, nvm := nvm, cfg := { nonce := s.cfg.nonce },
    mem := { soft := s.mem.soft },
    rst := { releasedAt := s.mc, resetOutAt := s.mc } }

/-- POWER_ON, with the two reset inputs as the board drives them. -/
def execPowerOn (dt : Nat) (pins : ResetPins) (s : State) : Host.Outcome State Fault Refusal :=
  let s := (s.advance dt).powerOn
  .next { s with rst := s.rst.seePins pins s.mc }

/-- SYS_RESET: the pin is low, driven or not (R659), for 1 µs: restart from D1. It alone beside power-on ends a hold
(R661, R679). A running warning ignores it (R694), and the restart that follows the warning covers it (R669, R693). -/
def execSysReset (dt : Nat) (sys : PinDrive) (s : State) : Host.Outcome State Fault Refusal :=
  let s := s.advance dt
  .next (if pinHigh sys then s
    else
      let s1 := { s with rst := s.rst.seePins { s.rst.pins with sys := sys } s.mc }
      if s.rst.pf.since.isNone then s1.restart 1 2 false else s1)

/-- HOLD: step k has not been released CG_TIMEOUT after its gap; `cond` is the failing condition's index (R679). -/
def execHold (dt k cond : Nat) (s : State) : Host.Outcome State Fault Refusal :=
  let s := s.advance dt
  let r := s.rst
  .next (
    if 2 ≤ k ∧ k ≤ 10 ∧ r.held.isNone ∧ r.released = some (k - 1) ∧ !(r.tripHold && 3 ≤ k) ∧ !r.pf.holding ∧ !s.mayRelease k ∧
       s.mc - r.releasedAt ≥ (r.gap k + r.cgTimeout) * refMc then
      let n := s.nvm.rst
      { s with
        rst := { r with held := some k, resetOutN := false, resetOutAt := if r.resetOutN then s.mc else r.resetOutAt }
        nvm := { s.nvm with rst := { n with
          lastHold := k, counts := tinc n.counts 16 0
          pending := n.pending ++ [{ kind := 0x0C03, severity := 3, payload := le 1 k ++ le 1 cond ++ zeros 2 }] } } }
    else s)

/-- A clock or supply of step k's condition is lost before the step is released (R678). -/
def State.interrupt (s : State) (k : Nat) : State := { s with rst := s.rst.interrupt k }

/-- CLOCK_FAULT: `which` is 0 for REFCLK, 1 for Fox's clock, 2 for another clock, of the condition of `step`. From the
release of the step it is a clock fault; before, it interrupts the step's condition (R665, R678, R680). -/
def execClockFault (dt which step : Nat) (s : State) : Host.Outcome State Fault Refusal :=
  let s := s.advance dt
  .next (
    if which = 0 then
      if s.atStep 1 && s.resettable then
        let s1 := (s.interrupt 1).restart 2 5 false
        { s1 with rst := { s1.rst with waitRefclk := true } }
      else s.interrupt 1
    else if which = 1 then (if s.atStep 3 then (s.interrupt 3).resetFox 5 else s.interrupt 3)
    else if s.atStep step then (s.interrupt step).resetSource 3 5
    else s.interrupt step)

/-- POWER_GOOD_FAILURE: a supply of the condition of `step` is lost. From the release of the step VDD_L, that of D2,
restarts from D2, any other from D3; before, it interrupts the step's condition (R678, R680). The spec gives the restart
no code of R661, so RST_CAUSE.SOURCE is a free value among its nine codes (R9). -/
def execPowerGoodFailure (dt step : Nat) (s : State) : Host.Outcome State Fault Refusal :=
  let s := s.advance dt
  let (v, s1) := s.fresh
  .next (if s.atStep step then (s1.interrupt step).resetSource (if step = 2 then 2 else 3) (1 + v % 9) else s.interrupt step)

/-- DOMAIN evidence (R698). -/
def State.domainRecord (s : State) (d event : Nat) : State :=
  s.evDev 0x0C05 (if event = 2 then 2 else 0) (le 1 d ++ le 1 event)

/-- DOMAIN_POWER_GOOD_TIMEOUT: the domain stays off (R688). -/
def execDomainPowerGoodTimeout (dt d : Nat) (s : State) : Host.Outcome State Fault Refusal :=
  let s := s.advance dt
  .next (if d < 132 then
      { s with rst := { s.rst with on := s.rst.on.erase d, pdLast := d, pdCount := inc 16 s.rst.pdCount } }.domainRecord d 2
    else s)

/-- THERMAL_TRIP: D3 to D10 are held unpowered (R666). -/
def execThermalTrip (dt : Nat) (s : State) : Host.Outcome State Fault Refusal :=
  let s := s.advance dt
  .next (if s.resettable then
      let s1 := s.restart 3 6 false
      { s1 with rst := { s1.rst with tripHold := true, tripAt := s.mc } }
    else s)

/-- THERMAL_TRIP_HOLD_END: every comparator has reported a temperature below the warning threshold for 1 s: the sequencer restarts from D3 with source 0x6 (R666). -/
def execThermalTripHoldEnd (dt : Nat) (s : State) : Host.Outcome State Fault Refusal :=
  let s := s.advance dt
  .next (if s.rst.tripHold ∧ s.rst.tripAt + 1000 * msMc ≤ s.mc then
      { s with rst := { s.rst with tripHold := false, releasedAt := s.mc, source := 6 },
               nvm := { s.nvm with rst := { s.nvm.rst with source := 6 } } }
    else s)

/-- Every standard and privileged output is OFF (R539, R667). -/
def State.allOff (s : State) : Bool :=
  (s.shr.souts.all fun (_, x) => x.st == .off) && (s.shr.prvs.all fun (_, x) => x.st == .off)

/-- FOX_SOFTWARE_REQUEST: accepted only with every output OFF and no trust slot bound (R667). -/
def State.foxRequest (s : State) : State :=
  if s.allOff && (s.shr.slots.all fun (_, x) => !x.bound) then s.resetSource 3 8 else s

def execFoxSoftwareRequest (dt : Nat) (s : State) : Host.Outcome State Fault Refusal := .next (s.advance dt).foxRequest

/-! ### Power failure -/

/-- The POWER_FAIL record of R690 goes into the black box, and into the log where there is one. -/
def State.powerFailRecord (s : State) (src : Nat) : State :=
  let p := le 1 src ++ le 1 s.glb.st.code ++ le 2 s.log.lag ++ le 8 s.frameNum
  if s.logReady then s.logRecord 0x0C04 0xFF 3 0xFFFFFFFF p
  else
    let m := s.nvm.mirror
    let e : Evidence := { kind := 0x0C04, severity := 3, payload := p }
    { s with nvm := { s.nvm with mirror := (if m.length < 256 then m else m.drop 1) ++ [e] } }

/-- A power-fail warning from its recognition to the hold of D2 to D10 (R690, R692). BB_US is a free value of at most
40 µs. -/
def State.powerFail (s : State) (src : Nat) : State :=
  let s1 := s.sendSafeAll 0
  let s2 := s1.powerFailRecord src
  let (v, s3) := s2.fresh
  let n := s3.nvm.rst
  let out := s3.out
  let s4 := s3.resetBlocks 2
  { s4 with
    out := out
    shr := { s3.shr.cleared s3.cyc with safeLatch := true }
    nvm := { s3.nvm with rst := { n with warnings := inc 16 n.warnings, bbUs := v % 41, lastSrc := src, warned := true } }
    rst := { s3.rst.seePins { s3.rst.pins with pwr := if src = 0 then .low else s3.rst.pins.pwr } s3.mc with
      pf := { since := some s3.mc, holding := true }
      released := if s3.atStep 1 then some 1 else s3.rst.released
      releasedAt := s3.mc, restarting := true, from_ := 1, source := 1
      resetOutN := false, resetOutAt := if s3.rst.resetOutN then s3.mc else s3.rst.resetOutAt
      on := s3.rst.on.filter fun d => domainStep d < 2
      tripHold := s3.rst.tripHold, held := s3.rst.held
      condFrom := s3.rst.condFrom.filter fun x => x.1 ≤ 2 } }

/-- POWER_FAIL_WARNING: `src` as RST_PF.LAST_SRC (R689). -/
def execPowerFailWarning (dt src : Nat) (s : State) : Host.Outcome State Fault Refusal :=
  let s := s.advance dt
  .next (if src ≤ 2 ∧ (s.rst.pf.since.isNone ∨ s.rst.pf.holding) then s.powerFail src else s)

/-- BROWNOUT: the warning has been clear, and PWR_FAIL_N high, for 10 ms; restart from D1 with source 0x1 and BROWNOUT (R693). -/
def execBrownout (dt : Nat) (s : State) : Host.Outcome State Fault Refusal :=
  let s := s.advance dt
  .next (match s.rst.pf.since with
    | some t => if s.mc - t ≥ 10 * msMc then
        let s1 := s.restart 1 1 true
        { s1 with rst := { (s1.rst.seePins { s1.rst.pins with pwr := .high } (s.mc - 10 * msMc)) with pf := {} } }
      else s
    | none => s)

end Sys2Proof.Machine
end

