-- ==== Sys2Proof/Machine/SafetyFns.lean ====
section
/-! DEFINITION. Safety-function units and safety outputs of chapter 10: their parameters, their evaluation in either
channel (R513 to R518), the permit (R521) and what each output does when its permit or its sense changes (R522,
R523). -/

namespace Sys2Proof.Machine

/-! ### Parameters -/

/-- A word of the active Shroud section by BAR0 offset (R542). -/
def Shroud.w (h : Shroud) (off : Nat) : Nat := (tget h.cfg off).toNat
def Shroud.compat (h : Shroud) : Bool := bitAt (h.w 0x201000) 0
def Shroud.chDiscMs (h : Shroud) : Nat := fld (h.w 0x201000) 1 7
def Shroud.tpEn (h : Shroud) (k : Nat) : Bool := k < 8 && bitAt (h.w 0x201004) k
def Shroud.filt (h : Shroud) (i : Nat) : Nat := fld (h.w (0x201100 + 4 * i)) 0 8
def Shroud.tpSrc (h : Shroud) (i : Nat) : Nat := fld (h.w (0x201100 + 4 * i)) 8 3
def Shroud.tpChk (h : Shroud) (i : Nat) : Bool := bitAt (h.w (0x201100 + 4 * i)) 11

/-- Parameters of a safety-function unit (R542). -/
structure FnCfg where
  typ : Nat := 0
  antiv : Bool := false
  auto : Bool := false
  lockEn : Bool := false
  discMs : Nat := 0
  a : Nat := 0
  b : Nat := 0
  c : Nat := 0
  d : Nat := 0
  reset : Nat := 0
  lock : Nat := 0
  sout : Nat := 0
  prv : Nat := 0
deriving DecidableEq, Repr, Inhabited

def Shroud.fnCfg (h : Shroud) (n : Nat) : FnCfg :=
  let base := 0x201200 + 0x10 * n
  let g := h.w base
  let i := h.w (base + 4)
  let x := h.w (base + 8)
  let o := h.w (base + 12)
  { typ := fld g 0 3, antiv := bitAt g 3, auto := bitAt g 4, lockEn := bitAt g 5, discMs := fld g 16 9,
    a := fld i 0 5, b := fld i 8 5, c := fld i 16 5, d := fld i 24 5, reset := fld x 0 5, lock := fld x 8 5,
    sout := fld o 0 16, prv := fld o 16 4 }

/-- The inputs a unit uses in a role other than RESET_IN (R537). -/
def FnCfg.inputs (c : FnCfg) : List Nat :=
  [c.a, c.b] ++ (if c.typ = 3 then [c.c, c.d] else []) ++ (if c.typ = 2 ∧ c.lockEn then [c.lock] else [])

/-- A reset is needed to enter RUN (R513). -/
def FnCfg.needsReset (c : FnCfg) : Bool := c.typ == 1 || c.typ == 4 || (c.typ == 2 && !c.auto)

/-! ### Conditions of R513 and R515 over filtered levels -/

def FnCfg.relA (c : FnCfg) (lv : Nat → Bool) : Bool := lv c.a
def FnCfg.relB (c : FnCfg) (lv : Nat → Bool) : Bool := lv c.b != c.antiv
def FnCfg.hand1 (c : FnCfg) (lv : Nat → Bool) : Bool := lv c.a && !lv c.b
def FnCfg.hand2 (c : FnCfg) (lv : Nat → Bool) : Bool := lv c.c && !lv c.d

/-- Release; its opposite is demand (R513). -/
def FnCfg.release (c : FnCfg) (lv : Nat → Bool) : Bool :=
  if c.typ = 3 then c.hand1 lv && c.hand2 lv
  else c.relA lv && c.relB lv && (c.typ != 2 || !c.lockEn || lv c.lock)

/-- Full demand (R517). -/
def FnCfg.full (c : FnCfg) (lv : Nat → Bool) : Bool :=
  if c.typ = 3 then !lv c.a && lv c.b && !lv c.c && lv c.d else !c.relA lv && !c.relB lv

/-- Discrepancy (R515). -/
def FnCfg.disc (c : FnCfg) (lv : Nat → Bool) : Bool :=
  if c.typ = 3 then (lv c.a == lv c.b) || (lv c.c == lv c.d) else c.relA lv != c.relB lv

/-! ### One unit in one channel -/

/-- The clock of a channel: the time, and its units in a millisecond. The hard-wired channel decides by its own
measurement; the processor channel adopts the other's outcome within 10 % of a limit (R518). -/
structure Chan where
  now : Nat
  ms : Nat
  band : Bool
deriving DecidableEq, Repr, Inhabited

/-- The measured interval lies in the band in which the processor channel does not decide (R518). -/
def Chan.inBand (k : Chan) (t limitMs : Nat) : Bool :=
  k.band && 9 * limitMs * k.ms ≤ 10 * t && 10 * t ≤ 11 * limitMs * k.ms

/-- Full demand has been held for DISC_MS (R517), in FAULT also if it has been seen to last so long; `none` while the
measured time lies in the band of R518. -/
def Fn.held (f : Fn) (c : FnCfg) (k : Chan) : Option Bool :=
  if f.fullOk then some true
  else match f.fullFrom with
    | some t => if k.inBand (k.now - t) c.discMs then none else some (k.now - t ≥ c.discMs * k.ms)
    | none => some false

/-- Timers restarted or stopped by the present levels (R515 to R517). -/
def Fn.timers (f : Fn) (c : FnCfg) (lv : Nat → Bool) (k : Chan) : Fn :=
  { f with
    discFrom := if c.disc lv then some (f.discFrom.getD k.now) else none
    handFrom := if c.typ = 3 ∧ (c.hand1 lv != c.hand2 lv) then some (f.handFrom.getD k.now) else none
    fullFrom := if c.full lv then some (f.fullFrom.getD k.now) else none
    fullOk := f.st == .fault && f.held c k == some true }

/-- Entry into RUN, or its refusal while a bound output is in SHUTDOWN or LOCKED (R517, R525); `busy` is `none` where
the processor channel adopts the outcome of the hard-wired channel (R518). -/
def Fn.tryRun (f : Fn) (busy : Option Bool) (refusedTo : FnState) : Fn × Bool :=
  match busy with
  | none => ({ f with adopt := true }, false)
  | some true => ({ f with st := refusedTo, refused := inc 16 f.refused }, true)
  | some false => ({ f with st := .run }, false)

/-- The unit after a change of a filtered level (R517); the second component says that RUN was refused. -/
def Fn.onLevels (f0 : Fn) (c : FnCfg) (lv : Nat → Bool) (k : Chan) (busy : Option Bool) : Fn × Bool :=
  let hand := f0.handFrom
  let f := f0.timers c lv k
  match f.st with
  | .stop =>
    if c.release lv then
      if c.needsReset then ({ f with st := .armed }, false)
      else if c.typ = 3 then
        match hand with
        | some t =>
          if k.inBand (k.now - t) 500 then ({ f with adopt := true }, false)
          else if k.now - t ≤ 500 * k.ms then f.tryRun busy .blocked
          else ({ f with st := .blocked }, false)
        | none => f.tryRun busy .blocked
      else f.tryRun busy .blocked
    else (f, false)
  | .armed => if c.release lv then (f, false) else ({ f with st := .stop }, false)
  | .run => if c.release lv then (f, false) else ({ f with st := if c.typ = 3 then .blocked else .stop }, false)
  | .blocked => if c.full lv then ({ f with st := .stop }, false) else (f, false)
  | .fault => (f, false)

/-- The unit after an accepted reset (R514, R517). -/
def Fn.onReset (f : Fn) (c : FnCfg) (k : Chan) (busy : Option Bool) (xs : Bool) : Fn × Bool :=
  match f.st with
  | .armed => f.tryRun busy .armed
  | .fault =>
    if xs then (f, false)
    else match f.held c k with
      | some true => ({ f with st := .stop, faultCode := 0, fullOk := false }, false)
      | some false => (f, false)
      | none => ({ f with adopt := true }, false)
  | _ => (f, false)

/-- FAULT ends without a reset for TWOHAND and for GUARD with AUTO once full demand has lasted DISC_MS (R517). -/
def Fn.onTime (f : Fn) (c : FnCfg) (k : Chan) (xs : Bool) : Fn :=
  if f.st = .fault ∧ (c.typ = 3 ∨ (c.typ = 2 ∧ c.auto)) ∧ !xs then
    match f.held c k with
    | some true => { f with st := .stop, faultCode := 0, fullOk := false }
    | some false => f
    | none => { f with adopt := true }
  else f

/-- The unit in FAULT with a code (R511, R515, R517). -/
def Fn.toFault (f : Fn) (code : Nat) : Fn := { f with st := .fault, faultCode := code, fullOk := false, adopt := false }

/-! ### Outputs -/

def Shroud.soValid (h : Shroud) (o : Nat) : Bool := o < 16 && h.cfgActive && bitAt (h.w (0x201600 + 0x10 * o)) 0
def Shroud.pvValid (h : Shroud) (p : Nat) : Bool := p < 4 && h.cfgActive && bitAt (h.w (0x201700 + 0x10 * p)) 0
def Shroud.soTrustReq (h : Shroud) (o : Nat) : Bool := bitAt (h.w (0x201600 + 0x10 * o)) 1
def Shroud.pvTrustReq (h : Shroud) (p : Nat) : Bool := bitAt (h.w (0x201700 + 0x10 * p)) 1
def Shroud.soEdmEn (h : Shroud) (o : Nat) : Bool := bitAt (h.w (0x201600 + 0x10 * o)) 2
def Shroud.soHbMs (h : Shroud) (o : Nat) : Nat := fld (h.w (0x201600 + 0x10 * o)) 16 14
def Shroud.pvHbMs (h : Shroud) (p : Nat) : Nat := fld (h.w (0x201700 + 0x10 * p)) 16 14
def Shroud.soMinOff (h : Shroud) (o : Nat) : Nat := fld (h.w (0x201604 + 0x10 * o)) 0 14
def Shroud.soEdmMs (h : Shroud) (o : Nat) : Nat := fld (h.w (0x201604 + 0x10 * o)) 16 10
def Shroud.pvMinOff (h : Shroud) (p : Nat) : Nat := fld (h.w (0x201704 + 0x10 * p)) 0 14
def Shroud.pvSenseUs (h : Shroud) (p : Nat) : Nat := fld (h.w (0x201704 + 0x10 * p)) 16 14

/-- The VALID units (TYPE not 0) whose mask includes a standard or a privileged output. -/
def Shroud.soFns (h : Shroud) (o : Nat) : List Nat := (List.range 64).filter fun n => (h.fnCfg n).typ != 0 && bitAt (h.fnCfg n).sout o
def Shroud.pvFns (h : Shroud) (p : Nat) : List Nat := (List.range 64).filter fun n => (h.fnCfg n).typ != 0 && bitAt (h.fnCfg n).prv p

/-- The last accepted STATE frame shows CONFIGURED, RUNNING or DEGRADED, and the safe latch is clear (R521). -/
def Shroud.stateAllows (h : Shroud) : Bool :=
  1 ≤ h.mirror && h.mirror ≤ 3 && !h.safeLatch && h.cfgActive && !h.discOff && !h.link.lost

/-- Nominal Shroud cycles of a time in ms. -/
def cycMs (n : Nat) : Nat := n * 40000

/-- Trust of an output that slots with bit `f` name (R531). -/
def Shroud.trusted (h : Shroud) (cyc limMs : Nat) (f : TrustSlot → Bool) : Bool :=
  let l := (h.slots.map (·.2)).filter fun t => t.bound && f t
  !l.isEmpty && l.all fun t => match t.hbAt with | some x => cyc - x < cycMs limMs | none => false

def Shroud.soTrusted (h : Shroud) (cyc o : Nat) : Bool := h.trusted cyc (h.soHbMs o) fun t => bitAt t.sout o
def Shroud.pvTrusted (h : Shroud) (cyc p : Nat) : Bool := h.trusted cyc (h.pvHbMs p) fun t => bitAt t.prv p

/-- The permit of a standard output (R521; R535 in compatibility mode; R526 for a refused request). -/
def Shroud.soPermit (h : Shroud) (cyc o : Nat) : Bool :=
  h.stateAllows && h.soValid o && bitAt h.soutReq o && !(tget h.souts o).refusedReq &&
  (h.compat || (h.soFns o).all fun n => (tget h.fns n).st == .run) && (!h.soTrustReq o || h.soTrusted cyc o)

/-- The permit of a privileged output (R521, R535). -/
def Shroud.pvPermit (h : Shroud) (cyc p : Nat) : Bool :=
  h.stateAllows && h.pvValid p && !h.compat && bitAt h.prvReq p &&
  ((h.pvFns p).all fun n => (tget h.fns n).st == .run) && (!h.pvTrustReq p || h.pvTrusted cyc p)

/-- EDM open, or taken as met when EDM_EN is 0 (R522). -/
def Shroud.edmOpen (h : Shroud) (o : Nat) : Bool := !h.soEdmEn o || (tget h.souts o).edm

/-- The output is in SHUTDOWN or LOCKED (R517, R525); a shut-down that completed in this very cycle still counts
(R503). -/
def Shroud.soBusy (h : Shroud) (cyc o : Nat) : Bool :=
  let x := tget h.souts o
  x.st == .shutdown || x.st == .locked || x.doneAt == some cyc
def Shroud.pvBusy (h : Shroud) (cyc p : Nat) : Bool :=
  let x := tget h.prvs p
  x.st == .shutdown || x.st == .locked || x.doneAt == some cyc

/-- The outputs bound to a unit that are in SHUTDOWN or LOCKED: (0 standard or 1 privileged, index). -/
def Shroud.busyOf (h : Shroud) (cyc : Nat) (c : FnCfg) : List (Nat × Nat) :=
  ((bitList 16 c.sout).filter (h.soBusy cyc)).map ((0, ·)) ++ ((bitList 4 c.prv).filter (h.pvBusy cyc)).map ((1, ·))

/-- A standard output enters LOCKED with a code (R522). -/
def So.lock (x : So) (code cyc : Nat) : So :=
  { x with
    st := .locked, faultCode := code, locks := inc 16 x.locks, been := [], minOff := false, edmTimer := false
    offAt := if x.st = .on then some cyc else x.offAt, edmFrom := if x.edm then some cyc else none }

/-- A standard output on the change of its permit (rows OFF and ON of R522); a code that locks it is the second
component. -/
def So.onPermit (x : So) (permit edmOpen : Bool) (cyc : Nat) : So × Nat :=
  match x.st with
  | .off =>
    if !permit then (x, 0)
    else if edmOpen then ({ x with st := .on, onAt := cyc, edmTimer := true, edmSeen0 := false }, 0)
    else (x.lock 0x10 cyc, 0x10)
  | .on => if permit then (x, 0) else ({ x with st := .shutdown, offAt := some cyc, minOff := true, edmTimer := true }, 0)
  | _ => (x, 0)

/-- SHUTDOWN ends when MIN_OFF_MS has ended and EDM is open (R522). -/
def So.onOff (x : So) (edmOpen : Bool) (cyc : Nat) : So :=
  if x.st = .shutdown ∧ !x.minOff ∧ edmOpen then { x with st := .off, edmTimer := false, doneAt := some cyc } else x

/-- A privileged output enters LOCKED with a code (R523). -/
def Pv.lock (x : Pv) (code cyc : Nat) : Pv :=
  { x with
    st := .locked, faultCode := code, locks := inc 16 x.locks, been := [], lsDrv := false, minOff := false, hsOnAt := none, senseTimer := false
    senseFrom := none, offAt := some cyc, zeroFrom := if x.lsSense || x.hsSense then none else some cyc }

/-- A privileged output shuts down (R523). -/
def Pv.shut (x : Pv) (code cyc : Nat) : Pv :=
  { x with
    st := .shutdown, faultCode := code, lsDrv := false, minOff := true, offAt := some cyc, hsOnAt := none, senseFrom := none
    senseTimer := false }

/-- A privileged output on the change of its permit (R523). -/
def Pv.onPermit (x : Pv) (permit : Bool) (cyc : Nat) : Pv × Nat :=
  match x.st with
  | .off =>
    if !permit then (x, 0)
    else if x.lsSense || x.hsSense then (x.lock 0x14 cyc, 0x14)
    else ({ x with st := .lsOn, lsDrv := true, lsOnAt := cyc, senseTimer := true, hsOnAt := if x.hsPin then some cyc else none }, 0)
  | .lsOn | .on => if permit then (x, 0) else (x.shut 0 cyc, 0)
  | _ => (x, 0)

/-- SHUTDOWN ends when MIN_OFF_MS has ended and both senses read 0 (R523). -/
def Pv.onOff (x : Pv) (cyc : Nat) : Pv :=
  if x.st = .shutdown ∧ !x.minOff ∧ !x.lsSense ∧ !x.hsSense then { x with st := .off, doneAt := some cyc } else x

/-- The units that stand in STOP, BLOCKED or FAULT. -/
def Shroud.resting (h : Shroud) (l : List Nat) : List Nat :=
  l.filter fun n => let st := (tget h.fns n).st; st == .stop || st == .blocked || st == .fault

/-- LOCKED ends (R522): EDM open for MIN_OFF_MS without interruption, and every bound unit has been at rest. -/
def Shroud.soUnlock (h : Shroud) (cyc o : Nat) (x : So) : So :=
  let been := (h.resting (h.soFns o)).foldl (fun l n => insNat n l) x.been
  let long := !h.soEdmEn o || (match x.edmFrom with | some t => x.edm && cyc - t ≥ cycMs (h.soMinOff o) | none => false)
  if x.st = .locked then
    if long && (h.soFns o).all been.contains then { x with st := .off, faultCode := 0, been := [] } else { x with been := been }
  else x

/-- LOCKED ends (R523): both senses 0 for MIN_OFF_MS without interruption, and every bound unit has been at rest. -/
def Shroud.pvUnlock (h : Shroud) (cyc p : Nat) (x : Pv) : Pv :=
  let been := (h.resting (h.pvFns p)).foldl (fun l n => insNat n l) x.been
  let long := match x.zeroFrom with | some t => !x.lsSense && !x.hsSense && cyc - t ≥ cycMs (h.pvMinOff p) | none => false
  if x.st = .locked then
    if long && (h.pvFns p).all been.contains then { x with st := .off, faultCode := 0, been := [] } else { x with been := been }
  else x

/-- A standard output settles under the present conditions; a code other than 0 says that it locked. -/
def Shroud.settleSo (h : Shroud) (cyc o : Nat) : Shroud × Nat :=
  let x1 := (h.soUnlock cyc o (tget h.souts o)).onOff (h.edmOpen o) cyc
  let (x2, code) := x1.onPermit (h.soPermit cyc o) (h.edmOpen o) cyc
  ({ h with souts := tset h.souts o x2, locks := if code = 0 then h.locks else inc 16 h.locks }, code)

/-- A privileged output settles under the present conditions. -/
def Shroud.settlePv (h : Shroud) (cyc p : Nat) : Shroud × Nat :=
  let x0 := tget h.prvs p
  let hs := h.stateAllows && !h.compat && bitAt h.hsCmd p
  -- R523: the HS pin commanded off in LS_ON or ON shuts the output down; R524: the pin follows HS
  let x1 := if (x0.st = .on ∨ x0.st = .lsOn) ∧ x0.hsPin ∧ !hs then x0.shut 0 cyc else x0
  let x2 := { x1 with hsPin := hs, hsOffAt := if x0.hsPin && !hs then some cyc else x1.hsOffAt,
                      hsOnAt := if x1.st = .lsOn ∧ hs ∧ !x0.hsPin then some cyc else x1.hsOnAt }
  -- R523: an HS sense that reads 1 already is within SENSE_US of the command
  let x2 := if x2.st = .lsOn ∧ hs ∧ !x0.hsPin ∧ x2.hsSense then
    { x2 with st := .on, hsOnAt := none, senseTimer := false, senseFrom := if x2.lsSense then none else some cyc } else x2
  let x3 := (h.pvUnlock cyc p x2).onOff cyc
  let (x4, code) := x3.onPermit (h.pvPermit cyc p) cyc
  ({ h with prvs := tset h.prvs p x4, locks := if code = 0 then h.locks else inc 16 h.locks }, code)

/-- Fault frames of outputs that have locked. -/
def State.settleOutputs (s : State) : State :=
  let s1 := (List.range 16).foldl (fun q o =>
    let (h, code) := q.shr.settleSo q.cyc o
    let q1 := { q with shr := h }
    if code = 0 then q1 else q1.shroudFault code o 0) s
  (List.range 4).foldl (fun q p =>
    let (h, code) := q.shr.settlePv q.cyc p
    let q1 := { q with shr := h }
    if code = 0 then q1 else q1.shroudFault code p 0) s1

/-! ### Channels -/

/-- Filtered level of an input in either channel. -/
def Shroud.lv (h : Shroud) (i : Nat) : Bool := (tget h.sins i).filt
def PchSide.lv (h : PchSide) (i : Nat) : Bool := (tget h.sins i).filt

/-- The hard-wired channel's clock (R501) and the processor channel's, which evaluates alone in compatibility mode
(R535). -/
def State.hchan (s : State) : Chan := { now := s.cyc, ms := 40000, band := false }
def State.pchan (s : State) : Chan := { now := s.mc, ms := msMc, band := !s.shr.compat }

/-- The processor channel's own judgement that one output is in SHUTDOWN or LOCKED, by what it measured since OUTPUTS
showed the drive off at `shut`; `none` in the band of R518. It knows of a lock from the FAULT frame. -/
def State.pchJudge (s : State) (shut : Option Nat) (minOff : Nat) (locked opened : Bool) : Option Bool :=
  match shut with
  | some t => if s.pchan.inBand (s.mc - t) minOff then none else some (locked || s.mc - t < minOff * msMc || !opened)
  | none => some locked

/-- The same for every output bound to a unit: `none` where one of them lies in the band. -/
def State.pchBusy (s : State) (c : FnCfg) : Option Bool :=
  let so := (bitList 16 c.sout).map fun o =>
    s.pchJudge (s.pch.soShut.lookup o) (s.shr.soMinOff o) ((tget s.shr.souts o).st == .locked)
      (!s.shr.soEdmEn o || bitAt s.pch.edm o)
  let pv := (bitList 4 c.prv).map fun p =>
    s.pchJudge (s.pch.pvShut.lookup p) (s.shr.pvMinOff p) ((tget s.shr.prvs p).st == .locked)
      (!bitAt s.pch.lsSense p && !bitAt s.pch.hsSense p)
  if (so ++ pv).contains none then none else some ((so ++ pv).contains (some true))

/-- A cross-short stands on an input of the unit. -/
def anyXs (sins : Tbl Sin) (c : FnCfg) : Bool := c.inputs.any fun i => (tget sins i).xsNow

/-- The REFUSED record (R545): the first bound output in SHUTDOWN or LOCKED, and what is left of its MIN_OFF_MS. -/
def State.refusedRecord (s : State) (n : Nat) (l : List (Nat × Nat)) : State :=
  match l with
  | [] => s
  | (kind, i) :: _ =>
    let left (offAt : Option Nat) (minOff : Bool) (lim : Nat) : Nat :=
      if minOff then (match offAt with | some t => (cycMs lim - (s.cyc - t)) / 40000 | none => 0) else 0
    let rem := if kind = 0 then (let x := tget s.shr.souts i; left x.offAt (x.minOff && x.st == .shutdown) (s.shr.soMinOff i))
               else (let x := tget s.shr.prvs i; left x.offAt (x.minOff && x.st == .shutdown) (s.shr.pvMinOff i))
    s.evDev 0x0803 0 (le 1 n ++ le 1 kind ++ le 1 i ++ zeros 1 ++ le 4 rem)

/-- The inputs of a channel after a unit has gone from `old` to `new`: leaving FAULT clears the cross-short bits of the
unit's inputs (R541 SIO_IN_XS). -/
def clearXs (sins : Tbl Sin) (c : FnCfg) (old new : FnState) : Tbl Sin :=
  if old = .fault ∧ new ≠ .fault then c.inputs.foldl (fun t i => tmod t i fun x => { x with xs := false }) sins else sins

/-- Unit n of the hard-wired channel takes a new value; a refusal is counted and recorded (R525). -/
def State.hchSet (s : State) (n : Nat) (r : Fn × Bool) : State :=
  let s1 := { s with shr := { s.shr with
    fns := tset s.shr.fns n r.1, sins := clearXs s.shr.sins (s.shr.fnCfg n) (tget s.shr.fns n).st r.1.st } }
  if r.2 then
    ({ s1 with shr := { s1.shr with refused := inc 16 s1.shr.refused } }).refusedRecord n (s.shr.busyOf s.cyc (s.shr.fnCfg n))
  else s1

/-- Unit n of the processor channel takes a new value. A refusal is counted and recorded here only where this channel
evaluates alone (R525, R535; DEDUCED, log entry 66). -/
def State.pchSet (s : State) (n : Nat) (r : Fn × Bool) : State :=
  let s1 := { s with pch := { s.pch with
    fns := tset s.pch.fns n r.1, sins := clearXs s.pch.sins (s.shr.fnCfg n) (tget s.pch.fns n).st r.1.st } }
  if r.2 && s.shr.compat then
    ({ s1 with pch := { s1.pch with refused := inc 16 s1.pch.refused } }).refusedRecord n (s.shr.busyOf s.cyc (s.shr.fnCfg n))
  else s1

/-- The units in use. -/
def Shroud.units (h : Shroud) : List Nat := if h.cfgActive then (List.range 64).filter fun n => (h.fnCfg n).typ != 0 else []

/-- Every unit of the hard-wired channel evaluated on the present levels; none in compatibility mode (R535). -/
def State.hchEval (s : State) : State :=
  if s.shr.compat then s
  else s.shr.units.foldl (fun q n =>
    let c := q.shr.fnCfg n
    let f1 := (tget q.shr.fns n).onTime c q.hchan (anyXs q.shr.sins c)
    q.hchSet n (f1.onLevels c q.shr.lv q.hchan (some (q.shr.busyOf q.cyc c != [])))) s

/-- Every unit of the processor channel evaluated on its own filtered levels (R512). -/
def State.pchEval (s : State) : State :=
  s.shr.units.foldl (fun q n =>
    let c := q.shr.fnCfg n
    let f1 := (tget q.pch.fns n).onTime c q.pchan (anyXs q.pch.sins c)
    q.pchSet n (f1.onLevels c q.pch.lv q.pchan (q.pchBusy c))) s

/-- A reset pressed from `t` to now is accepted: at least 50 ms and no more than 3,000 ms (R514). -/
def Chan.resetOk (k : Chan) (t : Nat) : Bool := 50 * k.ms ≤ k.now - t && k.now - t ≤ 3000 * k.ms

/-- The falling edge of reset input i after it had been 1 since `t`: the units with that RESET_IN (R514). -/
def State.hchReset (s : State) (i t : Nat) : State :=
  if s.shr.compat || !s.hchan.resetOk t then s
  else s.shr.units.foldl (fun q n =>
    let c := q.shr.fnCfg n
    if c.reset = i ∧ c.needsReset then
      q.hchSet n ((tget q.shr.fns n).onReset c q.hchan (some (q.shr.busyOf q.cyc c != [])) (anyXs q.shr.sins c))
    else q) s

def State.pchReset (s : State) (i t : Nat) : State :=
  s.shr.units.foldl (fun q n =>
    let c := q.shr.fnCfg n
    let k := q.pchan
    if c.reset = i ∧ c.needsReset then
      if k.inBand (k.now - t) 50 || k.inBand (k.now - t) 3000 then
        q.pchSet n ({ tget q.pch.fns n with adopt := true }, false)
      else if k.resetOk t then
        q.pchSet n ((tget q.pch.fns n).onReset c k (q.pchBusy c) (anyXs q.pch.sins c))
      else q
    else q) s

end Sys2Proof.Machine
end

