-- ==== Sys2Proof/Machine/ShroudLink.lean ====
section
/-! DEFINITION. Receiving on the Stay link (R24 to R28, R504 to R508), the processor channel's requests (R532, R579,
R717), and what each accepted frame does. -/

namespace Sys2Proof.Machine

/-! ### Accepting and rejecting a frame -/

/-- Place of the frame after one of a TYPE in the group of four: PCH_FUNC and PCH_OUT, or INPUTS, HCH and OUTPUTS,
open the group, and event positions fill it (R505). -/
def posAfter (pos typ : Nat) : Nat :=
  match typ with
  | 0x01 | 0x81 => 1
  | 0x02 | 0x82 => 2
  | 0x83 => 3
  | _ => (pos + 1) % 4

/-- A sent frame is kept once among the last 8, and an event frame stops waiting (R505, R508). -/
def StaySide.noteSent (l : StaySide) (f : StayFrame) (mc : Nat) : StaySide :=
  let all := (l.sent.filter fun g => g.seq != f.seq) ++ [f]
  { l with sent := all.drop (all.length - 8), nextSeq := (f.seq + 1) % 256, pos := posAfter l.pos f.typ
           stateAt := if f.typ = 0x06 then mc else l.stateAt
           waiting := l.waiting.eraseP fun w => w.typ == f.typ && w.payload == f.payload }

/-- Priority of an event frame, 0 the highest (R505). -/
def eventPrio (typ : Nat) : Nat := if typ = 0x07 then 0 else if typ = 0x03 then 1 else if typ = 0x06 then 3 else 2

/-- What an event position carries: the oldest waiting event frame of the highest priority, or IDLE (R505). -/
def StaySide.event (l : StaySide) : StayFrame :=
  ((List.range 4).findSome? fun p => l.waiting.find? fun f => eventPrio f.typ == p).getD { payload := zeros 10 }

/-- A STATE frame waits when none has been sent for 90 µs, so that one goes out at least every 100 µs (R506; DESIGN
CHOICE of the 90 µs, log entry 51). -/
def State.stateDue (s : State) : State :=
  if s.mc - s.pch.link.stateAt ≥ 90 * usMc && !(s.pch.link.waiting.any fun f => f.typ == 0x06) then s.sendStateFrame else s

/-- The event frame that the L die sends next, if an event position follows (R505). -/
def State.lDieSends (s : State) : State :=
  if s.pch.link.pos < 2 then s
  else
    let q := s.stateDue
    q.emit (.toShroud q.pch.link.event.typ q.pch.link.nextSeq q.pch.link.event.payload)

/-- The event frame that Shroud sends next, if its event position follows (R505). -/
def State.shroudSends (s : State) : State :=
  if s.shr.link.pos < 3 then s
  else s.emit (.fromShroud s.shr.link.event.typ s.shr.link.nextSeq s.shr.link.event.payload)

/-- The receiving half after an accepted frame (R25, R26). -/
def StaySide.accept (l : StaySide) (seq cyc : Nat) : StaySide :=
  { l with lastSeq := seq, lastAt := cyc, nakSent := false, live := true }

/-- The receiving half after a rejected frame, and whether it sends a NAK: the first after an accepted frame, and then
once 4 frame times of 16 cycles have brought no accepted frame (R507). -/
def StaySide.reject (l : StaySide) (cyc : Nat) : StaySide × Bool :=
  let l1 := { l with rejected := inc 16 l.rejected }
  if !l.nakSent || cyc - l.nakAt ≥ 64 then ({ l1 with nakSent := true, nakAt := cyc }, true) else (l1, false)

/-- SEQ the receiving half awaits. -/
def StaySide.expect (l : StaySide) : Nat := (l.lastSeq + 1) % 256

/-- The NAK frame goes out as the next frame, and a STAY_LINK record tells it (R507, R545). -/
def State.shroudRejects (s : State) : State :=
  let (l, nak) := s.shr.link.reject s.cyc
  let s1 := { s with shr := { s.shr with link := l } }
  if nak then
    (s1.emit (.fromShroud 0x7F l.nextSeq (padTo 10 (le 1 l.expect)))).evDev 0x0806 0 (le 1 1 ++ le 1 0 ++ le 1 l.expect)
  else s1

def State.lDieRejects (s : State) : State :=
  let (l, nak) := s.pch.link.reject s.cyc
  let s1 := { s with pch := { s.pch with link := l } }
  if nak then
    (s1.emit (.toShroud 0x7F l.nextSeq (padTo 10 (le 1 l.expect)))).evDev 0x0806 0 (le 1 0 ++ le 1 0 ++ le 1 l.expect)
  else s1

/-- Causes of R48. -/
def causeKnown (c : Nat) : Bool := c ≤ 6 || (0x10 ≤ c && c ≤ 0x19)

/-- Codes of R544. -/
def faultKnown (c : Nat) : Bool := c ≤ 3 || (0x10 ≤ c && c ≤ 0x15) || c == 0x20

/-- TYPE values of R504 that are not reserved. -/
def stayTypeKnown (t : Nat) : Bool := t ≤ 8 || t == 0x7F || (0x81 ≤ t && t ≤ 0x85)

/-- Reserved payload bytes and bits of a frame TYPE are 0, and no field holds a reserved encoding (R8, R10, R504). -/
def reservedOk (typ : Nat) (p : Bytes) : Bool :=
  p.length == 10 &&
  match typ with
  | 0x00 => allZero p
  | 0x01 => zeroAt p 8 2
  | 0x02 => zeroAt p 3 7
  | 0x03 | 0x04 => zeroAt p 1 1 && zeroAt p 7 3 && fld (rd p 6 1) 4 4 == 0
  | 0x05 => zeroAt p 1 1 && zeroAt p 4 6
  | 0x06 => rd p 0 1 ≤ 5 && causeKnown (rd p 1 1) && zeroAt p 2 8
  | 0x07 => causeKnown (rd p 0 1) && zeroAt p 1 9
  | 0x08 => zeroAt p 8 2
  | 0x7F => zeroAt p 1 9
  | 0x81 | 0x82 => zeroAt p 8 2
  | 0x83 => fld (rd p 7 1) 0 4 ≤ 5 && fld (rd p 7 1) 6 2 == 0 && zeroAt p 8 2
  | 0x84 => stayTypeKnown (rd p 0 1) && rd p 1 1 ≤ 1 && zeroAt p 3 1
  | 0x85 => faultKnown (rd p 0 1) && zeroAt p 2 2 && zeroAt p 8 2
  | _ => true

/-- Shroud receives a frame: accepted when SEQ follows on and no reserved byte is set (R25, R504); the frames of the
L die exist only once D3 is released. -/
def State.onShroud (s : State) (typ seq : Nat) (p : Bytes) (act : State → State) : State :=
  if !s.atStep 3 then s
  else
    let s0 := { s with pch := { s.pch with link := s.pch.link.noteSent { typ, seq, payload := p } s.mc } }
    if reservedOk typ p && seq == s0.shr.link.expect then
      (act { s0 with shr := { s0.shr with link := s0.shr.link.accept seq s0.cyc } }).settleOutputs.lDieSends
    else s0.shroudRejects

/-- The L die receives a frame. -/
def State.onLDie (s : State) (typ seq : Nat) (p : Bytes) (act : State → State) : State :=
  if !s.atStep 3 then s
  else
    let s0 := { s with shr := { s.shr with link := s.shr.link.noteSent { typ, seq, payload := p } s.mc } }
    if reservedOk typ p && seq == s0.pch.link.expect then
      (act { s0 with pch := { s0.pch with link := s0.pch.link.accept seq s0.cyc } }).shroudSends
    else s0.lDieRejects

/-! ### The processor channel's requests -/

/-- Age of a context in units of 1/16 ns (R373). -/
def State.age (s : State) (w : Watch) : Nat := s.tmb.now - w.trustTime

/-- The age exceeds MAX_AGE (R374). -/
def State.tooOld (s : State) (w : Watch) : Bool := s.age w > w.maxAge * us16

/-- A context bound to an output lets the processor channel request it (R532). -/
def State.ctxAllows (s : State) (w : Watch) : Bool := w.trustTime != 0 && !s.tooOld w && w.esc == .normal

/-- The gate of a receive connection is open (R578). -/
def State.gateOpen (s : State) (i : Nat) : Bool :=
  let c := s.conn i
  c.st == .live && c.armed && bitAt c.run (s.cfg.active.conn i 26 1)

/-- Every connection whose GATE names the output has an open gate (R579). -/
def State.gatesAllow (s : State) (prv : Bool) (o : Nat) : Bool :=
  s.cfg.active.conns.all fun i =>
    !(s.cfg.active.connRx i && bitAt (if prv then s.cfg.active.conn i 30 1 else s.cfg.active.conn i 28 2) o) || s.gateOpen i

/-- The processor channel may request outputs at all: the acting state energises them, and Owl-S is not in TRAP
(R41, R717). -/
def State.mayRequest (s : State) : Bool :=
  (s.acting == .configured || s.acting == .running) && s.owl.s.st != .trap && s.shr.cfgActive && !s.pch.link.lost

/-- SOUT_REQ of output o. -/
def State.reqSo (s : State) (o : Nat) : Bool :=
  s.mayRequest && s.shr.soValid o && ((s.shr.soFns o).all fun n => (tget s.pch.fns n).st == .run) && s.gatesAllow false o &&
  (!s.shr.soTrustReq o || s.openCtxs.all fun c => !bitAt (s.watch c).sout o || s.ctxAllows (s.watch c))

/-- PRV_REQ of output p. -/
def State.reqPv (s : State) (p : Nat) : Bool :=
  s.mayRequest && s.shr.pvValid p && !s.shr.compat && ((s.shr.pvFns p).all fun n => (tget s.pch.fns n).st == .run) &&
  s.gatesAllow true p &&
  (!s.shr.pvTrustReq p || s.openCtxs.all fun c => !bitAt (s.watch c).prv p || s.ctxAllows (s.watch c))

/-- HS of output p: on only while it requests, once OUTPUTS has shown LS drive 1, LS sense 1, HS sense 0 (R523). -/
def State.reqHs (s : State) (p : Nat) : Bool :=
  s.reqPv p && (bitAt s.pch.hsCmd p || (bitAt s.pch.lsDrv p && bitAt s.pch.lsSense p && !bitAt s.pch.hsSense p))

/-- The PCH_OUT frame the processor channel sends now: SOUT_REQ, PRV_REQ, HS. -/
def State.pchOut (s : State) : Nat × Nat × Nat :=
  (ofBitList ((List.range 16).filter s.reqSo), ofBitList ((List.range 4).filter s.reqPv),
   ofBitList ((List.range 4).filter s.reqHs))

/-! ### Frames from the L die to Shroud -/

/-- Since when the RUN bit of each unit has differed between the channels: none in compatibility mode (R520, R535). -/
def runDiffers (compat : Bool) (a b now : Nat) (old : List (Nat × Nat)) : List (Nat × Nat) :=
  if compat then [] else (bitList 64 (a ^^^ b)).map fun n => (n, (old.lookup n).getD now)

/-- PCH_FUNC: Shroud takes the RUN bits and watches for a lasting difference (R504, R520). -/
def State.takePchFunc (s : State) : State :=
  let run := runBits s.pch.fns
  { s with shr := { s.shr with pchRun := run
                               discFrom := runDiffers s.shr.compat run (runBits s.shr.fns) s.cyc s.shr.discFrom } }

/-- PCH_FUNC is accepted by Shroud. -/
def execPchFunc (dt seq : Nat) (s : State) : Host.Outcome State Fault Refusal :=
  let s := s.advance dt
  .next (s.onShroud 0x01 seq (le 8 (runBits s.pch.fns) ++ zeros 2) State.takePchFunc)

/-- R526: in compatibility mode a rising request of an output in SHUTDOWN or LOCKED is refused until it has fallen. -/
def State.refuseRising (s : State) (req : Nat) : State :=
  (List.range 16).foldl (fun q o =>
    let x := tget q.shr.souts o
    if !bitAt req o then { q with shr := { q.shr with souts := tset q.shr.souts o { x with refusedReq := false } } }
    else if q.shr.compat && !bitAt q.shr.soutReq o && q.shr.soBusy q.cyc o then
      ({ q with shr := { q.shr with souts := tset q.shr.souts o { x with refusedReq := true },
                                    refused := inc 16 q.shr.refused } }).refusedRecord 0xFF [(0, o)]
    else q) s

/-- PCH_OUT: the requests and the HS levels (R504, R521, R524). -/
def State.takePchOut (s : State) (r : Nat × Nat × Nat) : State :=
  let s1 := s.refuseRising r.1
  { s1 with
    shr := { s1.shr with soutReq := r.1, prvReq := r.2.1, hsCmd := r.2.2 }
    pch := { s1.pch with soutReq := r.1, prvReq := r.2.1, hsCmd := r.2.2 } }

/-- PCH_OUT is accepted by Shroud. -/
def execPchOut (dt seq : Nat) (s : State) : Host.Outcome State Fault Refusal :=
  let s := s.advance dt
  let r := s.pchOut
  .next (s.onShroud 0x02 seq (le 2 r.1 ++ le 1 (r.2.1 + 16 * r.2.2) ++ zeros 7) (·.takePchOut r))

/-- Fields of HEARTBEAT, BIND and UNBIND (R504). -/
def fSlot (p : Bytes) : Nat := rd p 0 1
def fCtx (p : Bytes) : Nat := rd p 2 2
def fSout (p : Bytes) : Nat := rd p 4 2
def fPrv (p : Bytes) : Nat := fld (rd p 6 1) 0 4

/-- HEARTBEAT evidence (R545). -/
def State.heartbeatRecord (s : State) (slot event ctx : Nat) : State :=
  s.evDev 0x0805 1 (le 1 slot ++ le 1 event ++ le 2 ctx)

/-- The least HB_LIMIT_MS of the outputs a slot names. -/
def Shroud.slotLimit (h : Shroud) (t : TrustSlot) : Option Nat :=
  (((bitList 16 t.sout).map h.soHbMs) ++ ((bitList 4 t.prv).map h.pvHbMs)).min?

/-- HEARTBEAT_LAPSE: a slot's age reaches HB_LIMIT_MS and its outputs lose trust (R531). -/
def State.heartbeatLapses (s : State) (n : Nat) : State :=
  let t := tget s.shr.slots n
  match t.bound, s.shr.slotLimit t, t.hbAt with
  | true, some lim, some x =>
    if s.cyc - x ≥ cycMs lim ∧ !t.lapsed then
      (({ s with shr := { s.shr with slots := tset s.shr.slots n { t with lapsed := true } } }).heartbeatRecord n 0 t.context).settleOutputs
    else s.settleOutputs
  | _, _, _ => s.settleOutputs

/-- A heartbeat is accepted only for its slot's binding; a lapse in the same cycle takes effect first (R530, R531). -/
def State.takeHeartbeat (s : State) (p : Bytes) : State :=
  let t := tget s.shr.slots (fSlot p)
  if fSlot p < 32 ∧ t.bound ∧ t.context = fCtx p ∧ t.sout = fSout p ∧ t.prv = fPrv p then
    let s1 := s.heartbeatLapses (fSlot p)
    { s1 with shr := { s1.shr with slots := tset s1.shr.slots (fSlot p) { t with hbAt := some s1.cyc, lapsed := false } } }
  else
    ({ s with shr := { s.shr with hbDiscarded := inc 32 s.shr.hbDiscarded } }).heartbeatRecord (fSlot p) 1 (fCtx p)

/-- HEARTBEAT. -/
def execHeartbeat (dt seq : Nat) (payload : Bytes) (s : State) : Host.Outcome State Fault Refusal :=
  .next ((s.advance dt).onShroud 0x03 seq payload (·.takeHeartbeat payload))

/-- An output can be bound: VALID with TRUST_REQ 1 in Shroud's own active section (R527, R528). -/
def Shroud.bindable (h : Shroud) (sout prv : Nat) : Bool :=
  ((bitList 16 sout).all fun o => h.soValid o && h.soTrustReq o) && (bitList 4 prv).all fun p => h.pvValid p && h.pvTrustReq p

/-- BIND: the slot is bound, or refused; ACK either way (R528). -/
def State.takeBind (s : State) (p : Bytes) : State :=
  let n := fSlot p
  let ok := n < 32 && !(tget s.shr.slots n).bound && s.shr.bindable (fSout p) (fPrv p)
  let s1 := if ok then { s with shr := { s.shr with
      slots := tset s.shr.slots n { bound := true, context := fCtx p, sout := fSout p, prv := fPrv p } } } else s
  s1.fromShroud 0x84 (le 1 4 ++ le 1 (b2n !ok) ++ le 1 n ++ zeros 1 ++ le 2 (fCtx p) ++ le 4 s1.shr.cfgGen)

def execBind (dt seq : Nat) (payload : Bytes) (s : State) : Host.Outcome State Fault Refusal :=
  .next ((s.advance dt).onShroud 0x04 seq payload (·.takeBind payload))

/-- UNBIND: the slot is freed when CONTEXT matches (R529). -/
def State.takeUnbind (s : State) (p : Bytes) : State :=
  let t := tget s.shr.slots (fSlot p)
  if t.bound ∧ t.context = fCtx p then { s with shr := { s.shr with slots := tset s.shr.slots (fSlot p) default } } else s

def execUnbind (dt seq : Nat) (payload : Bytes) (s : State) : Host.Outcome State Fault Refusal :=
  .next ((s.advance dt).onShroud 0x05 seq payload (·.takeUnbind payload))

/-- STATE: the mirrored operating state (R504, R533). -/
def State.takeState (s : State) (p : Bytes) : State :=
  { s with shr := { s.shr with mirror := fld (rd p 0 1) 0 4, mirrorCause := rd p 1 1 } }

def execStayState (dt seq : Nat) (payload : Bytes) (s : State) : Host.Outcome State Fault Refusal :=
  .next ((s.advance dt).onShroud 0x06 seq payload (·.takeState payload))

/-- SAFE: the safe latch is set and every output is switched off (R534). -/
def State.takeSafe (s : State) : State :=
  { s with shr := { s.shr with safeLatch := true }.outputsOff s.cyc }

def execStaySafe (dt seq : Nat) (payload : Bytes) (s : State) : Host.Outcome State Fault Refusal :=
  .next ((s.advance dt).onShroud 0x07 seq payload (·.takeSafe))

/-- The Shroud section of a configuration as BAR0 words 0x0020_1000 to 0x0020_17FC (R538, R542). -/
def Cfg.sioWords (c : Cfg) : Tbl W32 := c.regs.filter fun (o, w) => 0x201000 ≤ o && o < 0x201800 && w != 0

/-- The section `words` of a generation becomes active: outputs off, test periods anew, every unit in STOP (R517, R522,
R523, R538). -/
def Shroud.activate (h : Shroud) (cyc gen : Nat) (words : Tbl W32) : Shroud :=
  { h.outputsOff cyc with
    cfgActive := true, cfgGen := gen, cfg := words
    tpFrom := cyc, pulsing := [], pulseAt := [], discFrom := []
    sins := tmap (fun x => { x with xs := false }) h.sins
    fns := tmap (fun f => { f with
      st := .stop, faultCode := 0, fullOk := false, discFrom := none, handFrom := none, fullFrom := none }) h.fns }

def State.setShr (s : State) (h : Shroud) : State := { s with shr := h }

/-- CFG: Shroud checks its section against the frame's CRC, and activates it or refuses (R538). Every unit is in STOP then,
and moves on where its inputs are at release level already (R517). -/
def State.takeCfg (s : State) (p : Bytes) : State :=
  let raw := s.cfg.active.sioRaw
  let ok := raw.length == 2048 && crcK (raw.take 2044) == rd p 4 4 && rd raw 2044 4 == rd p 4 4
  let s1 := if ok then (s.setShr (s.shr.activate s.cyc (rd p 0 4) s.cfg.active.sioWords)).hchEval else s
  s1.fromShroud 0x84 (le 1 8 ++ le 1 (b2n !ok) ++ zeros 4 ++ le 4 (rd p 0 4))

def execCfg (dt seq : Nat) (payload : Bytes) (s : State) : Host.Outcome State Fault Refusal :=
  .next ((s.advance dt).onShroud 0x08 seq payload (·.takeCfg payload))

/-! ### Frames in either direction -/

/-- The frames a side resends from SEQ EXPECT on; none when it is more than 8 frames old (R508). -/
def StaySide.resend (l : StaySide) (expect : Nat) : List StayFrame := l.sent.dropWhile fun f => f.seq != expect

/-- NAK: the side that accepts it resends (R508); `atShroud` says that Shroud receives it. -/
def execNak (dt : Nat) (atShroud : Bool) (seq : Nat) (payload : Bytes) (s : State) : Host.Outcome State Fault Refusal :=
  let s := s.advance dt
  let e := rd payload 0 1
  .next (
    if atShroud then s.onShroud 0x7F seq payload fun q =>
      (q.shr.link.resend e).foldl (fun r f => r.emit (.fromShroud f.typ f.seq f.payload)) q
    else s.onLDie 0x7F seq payload fun q =>
      (q.pch.link.resend e).foldl (fun r f => r.emit (.toShroud f.typ f.seq f.payload)) q)

/-- IDLE: the expected SEQ advances and the link-loss count restarts (R25, R26). -/
def execIdle (dt : Nat) (atShroud : Bool) (seq : Nat) (payload : Bytes) (s : State) : Host.Outcome State Fault Refusal :=
  let s := s.advance dt
  .next (if atShroud then s.onShroud 0x00 seq payload id else s.onLDie 0x00 seq payload id)

/-- A frame as sent (R24): TYPE, SEQ, PAYLOAD and its CRC-32/K. -/
def stayFrameBytes (typ seq : Nat) (payload : Bytes) : Bytes :=
  let b := le 1 typ ++ le 1 seq ++ payload
  b ++ le 4 (crcK b)

/-- Both lane copies carry a valid CHECK and the second is the inverse of the first (R25). -/
def lanesOk (a b : Bytes) : Bool :=
  a.length == 16 && b == a.map (~~~ ·) && rd a 12 4 == crcK (a.take 12)

/-- Frame types of each direction (R504). -/
def typeKnown (atShroud : Bool) (t : Nat) : Bool :=
  if atShroud then t ≤ 8 || t == 0x7F else t == 0 || t == 0x7F || (0x81 ≤ t && t ≤ 0x85)

/-- STAY_FRAME_REJECT: the two lane copies that arrived, and the frame that was sent. It is rejected when R25 or R504
says so; a frame that passes is none of this command's and changes nothing. -/
def execStayFrameReject (dt : Nat) (atShroud : Bool) (typ : Nat) (payload lane0 lane1 : Bytes) (s : State) :
    Host.Outcome State Fault Refusal :=
  let s := s.advance dt
  let t := rd lane0 0 1
  let link := if atShroud then s.shr.link else s.pch.link
  let good := lanesOk lane0 lane1 && typeKnown atShroud t && reservedOk t (slice lane0 2 10) && rd lane0 1 1 == link.expect
  .next (
    if good || !s.atStep 3 then s
    else if atShroud then
      ({ s with pch := { s.pch with link := s.pch.link.noteSent { typ, seq := s.pch.link.nextSeq, payload } s.mc } }).shroudRejects
    else
      ({ s with shr := { s.shr with link := s.shr.link.noteSent { typ, seq := s.shr.link.nextSeq, payload } s.mc } }).lDieRejects)

/-! ### Frames from Shroud to the L die -/

/-- The TPO levels now (R510). -/
def Shroud.tpoLevels (h : Shroud) : Nat :=
  if h.cfgActive then ofBitList ((List.range 8).filter fun k => h.tpEn k && !h.pulsing.contains k) else 0

/-- SAFE_STATE_N (R533). -/
def Shroud.safeStateN (h : Shroud) : Bool := h.cfgActive && !h.safeLatch && !h.link.lost && 1 ≤ h.mirror && h.mirror ≤ 3

/-- Inputs as a bit mask. -/
def sinMask (f : Sin → Bool) (t : Tbl Sin) : Nat := ofBitList ((t.filter fun (_, x) => f x).map (·.1))

/-- A filter is frozen: its TPO is in its pulse or ended it less than 100 µs ago (R511). -/
def State.frozen (s : State) (i : Nat) : Bool :=
  s.shr.tpChk i && (s.shr.pulsing.contains (s.shr.tpSrc i) ||
    (match s.shr.pulseEnd.lookup (s.shr.tpSrc i) with | some t => s.cyc - t < cycUs 100 | none => false))

/-- The processor channel filters input i from a new sample (R509, R512), its count standing still while the filter is
frozen (R511); a fall of a reset input is a reset. -/
def State.pchSample (s : State) (raw i : Nat) : State :=
  let x := tget s.pch.sins i
  let r := bitAt raw i
  let flip := r != x.filt && (match x.diffFrom with | some t => s.mc - t ≥ s.shr.filt i * 180000 | none => false)
  let x1 : Sin :=
    if s.frozen i then { x with raw := r, sampleAt := s.mc, diffFrom := x.diffFrom.map fun t => t + (s.mc - x.sampleAt) }
    else if flip then
      { x with raw := r, sampleAt := s.mc, filt := r, diffFrom := none, highFrom := if r then some s.mc else none }
    else { x with raw := r, sampleAt := s.mc, diffFrom := if r != x.filt then some (x.diffFrom.getD s.mc) else none }
  let s1 := { s with pch := { s.pch with sins := tset s.pch.sins i x1 } }
  if flip && !s.frozen i && !r then (match x.highFrom with | some t => s1.pchReset i t | none => s1) else s1

/-- INPUTS: RAW and FILT reach the processor channel, which shows them (R541), filters RAW itself and evaluates its own
units (R512). -/
def State.takeInputs (s : State) (raw filt : Nat) : State :=
  let s1 : State := { s with pch := { s.pch with inRaw := raw, inFilt := filt } }
  ((List.range 32).foldl (fun q i => q.pchSample raw i) s1).pchEval

/-- INPUTS is accepted by the L die; `raw` is the last 1 µs sample of SIN0 to SIN31. -/
def execInputs (dt seq raw : Nat) (s : State) : Host.Outcome State Fault Refusal :=
  let s := s.advance dt
  let raw := raw % 2 ^ 32
  let sins := (List.range 32).foldl (fun t i => tmod t i fun x => { x with raw := bitAt raw i }) s.shr.sins
  let s1 := { s with shr := { s.shr with sins := sins } }
  let filt := sinMask (·.filt) sins
  .next (s1.onLDie 0x81 seq (le 4 raw ++ le 4 filt ++ zeros 2) (·.takeInputs raw filt))

/-- Outcomes of the hard-wired channel are adopted where the processor channel measured inside the band (R518); in
compatibility mode there are none (R535). -/
def State.adopt (s : State) : State :=
  if s.shr.compat then s else
  (s.pch.fns.filter (·.2.adopt)).foldl (fun q (n, f) =>
    let h := tget s.shr.fns n
    q.pchSet n ({ f with st := h.st, faultCode := h.faultCode, adopt := false }, false)) s

/-- HCH: the hard-wired channel's RUN bits (R504, R518, R520). -/
def State.takeHch (s : State) : State :=
  let run := if s.shr.compat then 0 else runBits s.shr.fns
  let s1 := s.adopt
  { s1 with pch := { s1.pch with hchRun := run
                                 discFrom := runDiffers s.shr.compat run (runBits s1.pch.fns) s1.mc s1.pch.discFrom } }

def execHch (dt seq : Nat) (s : State) : Host.Outcome State Fault Refusal :=
  let s := s.advance dt
  .next (s.onLDie 0x82 seq (le 8 (if s.shr.compat then 0 else runBits s.shr.fns) ++ zeros 2) State.takeHch)

/-- A mask over the outputs of Shroud. -/
def soMask (f : So → Bool) (t : Tbl So) : Nat := ofBitList ((t.filter fun (_, x) => f x).map (·.1))
def pvMask (f : Pv → Bool) (t : Tbl Pv) : Nat := ofBitList ((t.filter fun (_, x) => f x).map (·.1))

/-- The shut-downs that the processor channel measures after OUTPUTS has shown the drive levels `now` where it showed
`old`: one begins when a drive goes off, and ends when it goes on or when the channel's own measurement, or in the band
the output state of Shroud, says that it has completed (R518). -/
def State.shutTimes (s : State) (n old now : Nat) (minOff : Nat → Nat) (opened idle : Nat → Bool)
    (l : List (Nat × Nat)) : List (Nat × Nat) :=
  (List.range n).filterMap fun o =>
    if bitAt now o then none
    else if bitAt old o then some (o, s.mc)
    else match l.lookup o with
      | some t =>
        if (if s.pchan.inBand (s.mc - t) (minOff o) then idle o
            else decide (s.mc - t ≥ minOff o * msMc) && opened o) then none else some (o, t)
      | none => none

/-- OUTPUTS: the levels the L die shows and acts on (R504, R518, R523). -/
def State.takeOutputs (s : State) : State :=
  let h := s.shr
  let so := soMask (·.st == .on) h.souts
  let ls := pvMask (·.lsDrv) h.prvs
  { s with pch := { s.pch with
      soShut := s.shutTimes 16 s.pch.soutDrv so h.soMinOff (fun o => !h.soEdmEn o || (tget h.souts o).edm)
        (fun o => (tget h.souts o).st == .off) s.pch.soShut
      pvShut := s.shutTimes 4 s.pch.lsDrv ls h.pvMinOff (fun p => !(tget h.prvs p).lsSense && !(tget h.prvs p).hsSense)
        (fun p => (tget h.prvs p).st == .off) s.pch.pvShut
      soutDrv := so, edm := soMask (·.edm) h.souts
      lsDrv := ls, hsPin := pvMask (·.hsPin) h.prvs
      lsSense := pvMask (·.lsSense) h.prvs, hsSense := pvMask (·.hsSense) h.prvs
      tpo := h.tpoLevels, safeN := h.safeStateN, latch := h.safeLatch, mirror := h.mirror } }

/-- The OUTPUTS payload (R504). -/
def Shroud.outputsPayload (h : Shroud) : Bytes :=
  le 2 (soMask (·.st == .on) h.souts) ++ le 2 (soMask (·.edm) h.souts) ++
    le 1 (pvMask (·.lsDrv) h.prvs + 16 * pvMask (·.hsPin) h.prvs) ++
    le 1 (pvMask (·.lsSense) h.prvs + 16 * pvMask (·.hsSense) h.prvs) ++ le 1 h.tpoLevels ++
    le 1 (h.mirror + 16 * b2n h.safeStateN + 32 * b2n h.safeLatch) ++ zeros 2

def execOutputs (dt seq : Nat) (s : State) : Host.Outcome State Fault Refusal :=
  let s := s.advance dt
  .next (s.onLDie 0x83 seq s.shr.outputsPayload State.takeOutputs)

/-- CHANNEL evidence (R545). -/
def State.channelRecord (s : State) (n : Nat) : State :=
  s.evDev 0x0804 3 (le 1 n ++ le 1 (b2n ((tget s.shr.fns n).st == .run)) ++ le 1 (b2n ((tget s.pch.fns n).st == .run)))

/-- FAULT: the L die records the code (R504, R545); code 0x20 brings SAFE with cause 0x18 (R520). -/
def State.takeFault (s : State) (p : Bytes) : State :=
  let code := rd p 0 1
  let i := rd p 1 1
  let s1 := { s with pch := { s.pch with lastFault := code } }
  if code ∈ [1, 2, 3] then s1.evDev 0x0801 1 (le 1 i ++ le 1 code ++ zeros 2 ++ le 4 (rd p 4 4))
  else if code ∈ [0x10, 0x11, 0x12, 0x13] then s1.evDev 0x0802 1 (le 1 0 ++ le 1 i ++ le 1 code)
  else if code = 0x14 then s1.evDev 0x0802 1 (le 1 1 ++ le 1 i ++ le 1 code)
  else if code = 0x20 then (s1.channelRecord i).enterSafe 0x18
  else s1

def execStayFault (dt seq : Nat) (payload : Bytes) (s : State) : Host.Outcome State Fault Refusal :=
  .next ((s.advance dt).onLDie 0x85 seq payload (·.takeFault payload))

/-! ### Loss of the link -/

/-- 160 Shroud cycles without an accepted frame (R26), once frames have been accepted at all (R670). -/
def StaySide.isLost (l : StaySide) (cyc : Nat) : Bool := l.live && !l.lost && cyc - l.lastAt ≥ 160

/-- STAY_LINK_LOSS_SHROUD: everything off, the cause into the black box, and reset source 0x7 (R27, R661). -/
def execStayLinkLossShroud (dt : Nat) (s : State) : Host.Outcome State Fault Refusal :=
  let s := s.advance dt
  .next (if s.shr.link.isLost s.cyc && s.resettable then
      (s.evDev 0x0806 3 (le 1 1 ++ le 1 1 ++ le 1 s.shr.link.lastSeq)).restart 2 7 false
    else s)

/-- STAY_LINK_LOSS_L_DIE: the L die enters SAFE (R28). -/
def execStayLinkLossLDie (dt : Nat) (s : State) : Host.Outcome State Fault Refusal :=
  let s := s.advance dt
  .next (if s.pch.link.isLost s.cyc then
      (({ s with pch := { s.pch with link := { s.pch.link with lost := true } } }).evDev 0x0806 3
        (le 1 0 ++ le 1 1 ++ le 1 s.pch.link.lastSeq)).enterSafe 0x15
    else s)

end Sys2Proof.Machine
end

