-- ==== Sys2Proof/Machine/ShroudEvents.lean ====
section
/-! DEFINITION. Events on Shroud's own pins and timers: filtered inputs, test pulses, discrepancies, feedback and
sense lines, and the lapse of a heartbeat (R509 to R523, R531). -/

namespace Sys2Proof.Machine

/-- FILTERED_INPUT_CHANGE: input i has differed from its filtered level for FILT × 100 µs, its filter not frozen
(R509); units move, and a fall of a reset input is a reset (R514, R517). -/
def State.filterFlips (s : State) (i : Nat) : State :=
  if i < 32 ∧ !s.frozen i then
    let x := tget s.shr.sins i
    let up := !x.filt
    let x1 : Sin := { x with raw := up, filt := up, diffFrom := none, highFrom := if up then some s.cyc else none }
    let s1 := { s with shr := { s.shr with sins := tset s.shr.sins i x1 } }
    let s2 := if up then s1 else match x.highFrom with | some t => s1.hchReset i t | none => s1
    s2.hchEval.settleOutputs
  else s

def execFilteredInputChange (dt i : Nat) (s : State) : Host.Outcome State Fault Refusal :=
  .next ((s.advance dt).filterFlips i)

/-- Test period and pulse width in Shroud cycles (R510, R542). -/
def Shroud.tpPeriod (h : Shroud) : Nat := cycMs (fld (h.w 0x201000) 8 10)
def Shroud.tpWidth (h : Shroud) : Nat := cycUs (10 * fld (h.w 0x201004) 8 8)

/-- Cycle in which the pulse of TPO k of the present test period begins (R510); the first period begins when the
section is activated (DESIGN CHOICE, log entry 51). -/
def Shroud.pulseDue (h : Shroud) (cyc k : Nat) : Nat :=
  h.tpFrom + (cyc - h.tpFrom) / h.tpPeriod * h.tpPeriod + k * h.tpPeriod / 8

/-- The pulse of TPO k is due: its place in the present period has come and it has not begun in this period. -/
def Shroud.pulseOwed (h : Shroud) (cyc k : Nat) : Bool :=
  h.cfgActive && h.tpEn k && !h.pulsing.contains k && h.pulseDue cyc k ≤ cyc &&
  (match h.pulseAt.lookup k with | some t => t < h.pulseDue cyc k | none => true)

/-- TEST_PULSE_START: TPO k goes low and the filters it feeds freeze (R510, R511). -/
def execTestPulseStart (dt k : Nat) (s : State) : Host.Outcome State Fault Refusal :=
  let s := s.advance dt
  .next (if s.shr.pulseOwed s.cyc k then
      { s with shr := { s.shr with pulsing := insNat k s.shr.pulsing, pulseAt := tins k s.cyc s.shr.pulseAt } }.settleOutputs
    else s)

/-- The inputs tested by TPO k (R511). -/
def Shroud.tested (h : Shroud) (k : Nat) : List Nat := (List.range 32).filter fun i => h.tpChk i && h.tpSrc i == k

/-- Units of the hard-wired channel with a cross-short go to FAULT with code 0x02, each with its FAULT frame (R511,
R517). -/
def State.hchXs (s : State) (xs : List Nat) : State :=
  let mask := ofBitList xs
  let us := if s.shr.compat then [] else s.shr.units.filter fun n => (s.shr.fnCfg n).inputs.any xs.contains
  let s1 := us.foldl (fun q n =>
    (q.hchSet n ((tget q.shr.fns n).toFault 2, false)).shroudFault 2 n mask) s
  if us.isEmpty then s1.shroudFault 2 0xFF mask else s1

/-- Units of the processor channel with a cross-short go to FAULT (R512, R517). -/
def State.pchXs (s : State) (xs : List Nat) : State :=
  (s.shr.units.filter fun n => (s.shr.fnCfg n).inputs.any xs.contains).foldl
    (fun q n => q.pchSet n ((tget q.pch.fns n).toFault 2, false)) s

/-- The result of a test on each tested input, in either channel's table. -/
def judgeXs (t : Tbl Sin) (tested xs : List Nat) : Tbl Sin :=
  tested.foldl (fun a i => tmod a i fun x => { x with xsNow := xs.contains i, xs := x.xs || xs.contains i }) t

/-- TEST_PULSE_END: `before` are the inputs at 1 in every sample of the 50 µs before the pulse, `late` those at 1 in
any sample of its last 50 µs (R511); the pulse has lasted TP_WIDTH (R510). -/
def State.pulseEnds (s : State) (k before late : Nat) : State :=
  if s.shr.pulsing.contains k && s.cyc - (s.shr.pulseAt.lookup k).getD 0 ≥ s.shr.tpWidth then
    let tested := s.shr.tested k
    let seen := tested.filter fun i => bitAt before i
    let xs := seen.filter fun i => bitAt late i
    let s1 := { s with
      shr := { s.shr with pulsing := s.shr.pulsing.erase k, pulseEnd := tins k s.cyc s.shr.pulseEnd,
                          sins := judgeXs s.shr.sins seen xs }
      pch := { s.pch with sins := judgeXs s.pch.sins seen xs } }
    if xs.isEmpty then s1.settleOutputs else ((s1.hchXs xs).pchXs xs).settleOutputs
  else s

def execTestPulseEnd (dt k before late : Nat) (s : State) : Host.Outcome State Fault Refusal :=
  .next ((s.advance dt).pulseEnds k before late)

/-- Fault code of a discrepancy (R515). -/
def discCode (c : FnCfg) : Nat := if c.typ = 3 then 3 else 1

/-- DISC_MS ends for unit n of the processor channel: for a discrepancy (R515, R518), or, where there is none, for the full
demand that ends FAULT without a reset (R517). Where it evaluates alone it writes the record itself (R535, R545). -/
def State.pchDisc (s : State) (n : Nat) : State :=
  let c := s.shr.fnCfg n
  let f := tget s.pch.fns n
  match f.discFrom with
  | none => s.pchSet n (f.onTime c s.pchan (anyXs s.pch.sins c), false)
  | some t =>
    if f.st = .fault then s
    else if s.pchan.inBand (s.mc - t) c.discMs then s.pchSet n ({ f with adopt := true }, false)
    else if s.mc - t > c.discMs * msMc then
      let s1 := s.pchSet n (f.toFault (discCode c), false)
      if s.shr.compat then s1.evDev 0x0801 1 (le 1 n ++ le 1 (discCode c) ++ zeros 2 ++ le 4 0) else s1
    else s

/-- The same for the hard-wired channel, which tells the L die of a fault; none in compatibility mode (R535). -/
def State.hchDisc (s : State) (n : Nat) : State :=
  let c := s.shr.fnCfg n
  let f := tget s.shr.fns n
  if s.shr.compat then s
  else match f.discFrom with
    | none => (s.hchSet n (f.onTime c s.hchan (anyXs s.shr.sins c), false)).settleOutputs
    | some t =>
      if s.cyc - t > c.discMs * 40000 ∧ f.st ≠ .fault then
        ((s.hchSet n (f.toFault (discCode c), false)).shroudFault (discCode c) n 0).settleOutputs
      else s

/-- DISCREPANCY_TIMEOUT of unit n, in the processor channel (`pch`) or the hard-wired one. -/
def State.discTimeout (s : State) (pch : Bool) (n : Nat) : State :=
  if !s.shr.units.contains n then s else if pch then s.pchDisc n else s.hchDisc n

def execDiscrepancyTimeout (dt : Nat) (pch : Bool) (n : Nat) (s : State) : Host.Outcome State Fault Refusal :=
  .next ((s.advance dt).discTimeout pch n)

/-- TWOHAND_TIMEOUT of unit n: one hand pressed and 500 ms without the other (R516, R517, R518). -/
def State.handTimeout (s : State) (pch : Bool) (n : Nat) : State :=
  let c := s.shr.fnCfg n
  if !s.shr.units.contains n || c.typ != 3 then s
  else if pch then
    let f := tget s.pch.fns n
    match f.st, f.handFrom with
    | .stop, some t =>
      if s.pchan.inBand (s.mc - t) 500 then s.pchSet n ({ f with adopt := true }, false)
      else if s.mc - t ≥ 500 * msMc then s.pchSet n ({ f with st := .blocked }, false) else s
    | _, _ => s
  else if s.shr.compat then s
  else
    let f := tget s.shr.fns n
    match f.st, f.handFrom with
    | .stop, some t => if s.cyc - t ≥ 500 * 40000 then (s.hchSet n ({ f with st := .blocked }, false)).settleOutputs else s
    | _, _ => s

def execTwohandTimeout (dt : Nat) (pch : Bool) (n : Nat) (s : State) : Host.Outcome State Fault Refusal :=
  .next ((s.advance dt).handTimeout pch n)

/-- CHANNEL_DISCREPANCY: RUN bits have differed for longer than CH_DISC_MS; `shroud` says which channel sees it first,
n is the unit (R520). -/
def State.channelDiscrepancy (s : State) (shroud : Bool) (n : Nat) : State :=
  let lim := s.shr.chDiscMs
  if s.shr.compat || !s.shr.cfgActive then s
  else if shroud then
    match s.shr.discFrom.lookup n with
    | some t =>
      if s.cyc - t > lim * 40000 then
        let s1 := { s with shr := { s.shr with discOff := true, discFrom := [] }.outputsOff s.cyc }
        ((s1.shroudFault 0x20 n 0).channelRecord n).enterSafe 0x18
      else s
    | none => s
  else
    match s.pch.discFrom.lookup n with
    | some t =>
      if s.mc - t > lim * msMc then
        let s1 := { s with pch := { s.pch with soutReq := 0, prvReq := 0, hsCmd := 0, discFrom := [] } }
        (s1.channelRecord n).enterSafe 0x18
      else s
    | none => s

def execChannelDiscrepancy (dt : Nat) (shroud : Bool) (n : Nat) (s : State) : Host.Outcome State Fault Refusal :=
  .next ((s.advance dt).channelDiscrepancy shroud n)

/-! ### Standard outputs -/

def State.so (s : State) (o : Nat) : So := tget s.shr.souts o
def State.setSo (s : State) (o : Nat) (x : So) : State := { s with shr := { s.shr with souts := tset s.shr.souts o x } }

/-- A standard output locks: counted, and told to the L die (R522, R541). -/
def State.lockSo (s : State) (o code : Nat) : State :=
  let s1 := s.setSo o ((s.so o).lock code s.cyc)
  ({ s1 with shr := { s1.shr with locks := inc 16 s1.shr.locks } }).shroudFault code o 0

/-- EDM_CHANGE: EDM o changes level (R522). -/
def State.edmChanges (s : State) (o : Nat) : State :=
  if o < 16 then
    let x := s.so o
    let up := !x.edm
    let s1 := s.setSo o { x with edm := up, edmFrom := if up then some s.cyc else none, edmSeen0 := x.edmSeen0 || !up }
    if up ∧ x.st = .on ∧ x.edmSeen0 ∧ s.shr.soEdmEn o then (s1.lockSo o 0x12).settleOutputs else s1.settleOutputs
  else s

def execEdmChange (dt o : Nat) (s : State) : Host.Outcome State Fault Refusal := .next ((s.advance dt).edmChanges o)

/-- EDM_MS_EXPIRY: the contactor is in the wrong state EDM_MS after a switch-on or switch-off (R522). -/
def State.edmExpires (s : State) (o : Nat) : State :=
  let x := s.so o
  let lim := cycMs (s.shr.soEdmMs o)
  if o < 16 ∧ x.edmTimer ∧ s.shr.soEdmEn o then
    match x.st with
    | .on =>
      if s.cyc - x.onAt ≥ lim then
        if x.edm then (s.lockSo o 0x11).settleOutputs
        else s.setSo o { x with edmTimer := false }
      else s
    | .shutdown =>
      match x.offAt with
      | some t =>
        if s.cyc - t ≥ lim then
          if x.edm then s.setSo o { x with edmTimer := false } else (s.lockSo o 0x13).settleOutputs
        else s
      | none => s
    | _ => s
  else s

def execEdmMsExpiry (dt o : Nat) (s : State) : Host.Outcome State Fault Refusal := .next ((s.advance dt).edmExpires o)

/-! ### Privileged outputs -/

def State.pv (s : State) (p : Nat) : Pv := tget s.shr.prvs p
def State.setPv (s : State) (p : Nat) (x : Pv) : State := { s with shr := { s.shr with prvs := tset s.shr.prvs p x } }

/-- A privileged output locks (R523). -/
def State.lockPv (s : State) (p code : Nat) : State :=
  let s1 := s.setPv p ((s.pv p).lock code s.cyc)
  ({ s1 with shr := { s1.shr with locks := inc 16 s1.shr.locks } }).shroudFault code p 0

/-- MIN_OFF_EXPIRY of a standard or a privileged output: SHUTDOWN may end, or LOCKED clear (R522, R523). -/
def State.minOffExpires (s : State) (prv : Bool) (i : Nat) : State :=
  if prv then
    let x := s.pv i
    match x.offAt with
    | some t =>
      if x.st = .shutdown ∧ x.minOff ∧ s.cyc - t ≥ cycMs (s.shr.pvMinOff i) then (s.setPv i { x with minOff := false }).settleOutputs
      else s.settleOutputs
    | none => s.settleOutputs
  else
    let x := s.so i
    match x.offAt with
    | some t =>
      if x.st = .shutdown ∧ x.minOff ∧ s.cyc - t ≥ cycMs (s.shr.soMinOff i) then (s.setSo i { x with minOff := false }).settleOutputs
      else s.settleOutputs
    | none => s.settleOutputs

def execMinOffExpiry (dt : Nat) (prv : Bool) (i : Nat) (s : State) : Host.Outcome State Fault Refusal :=
  .next ((s.advance dt).minOffExpires prv i)

/-- SENSE_CHANGE: the low-side or the high-side sense line of output p changes level (R523). -/
def State.senseChanges (s : State) (p : Nat) (high : Bool) : State :=
  if p < 4 then
    let x := s.pv p
    let ls := if high then x.lsSense else !x.lsSense
    let hs := if high then !x.hsSense else x.hsSense
    let x1 := { x with
      lsSense := ls, hsSense := hs
      zeroFrom := if ls || hs then none else some (x.zeroFrom.getD s.cyc)
      senseFrom := if x.st = .on ∧ !(ls && hs) then some (x.senseFrom.getD s.cyc) else none }
    let inTime : Bool := match x.hsOnAt with | some t => decide (s.cyc - t ≤ cycUs (s.shr.pvSenseUs p)) | none => false
    let x2 := if x.st = .lsOn ∧ hs ∧ x.hsPin ∧ inTime then
        { x1 with st := .on, hsOnAt := none, senseTimer := false, senseFrom := if ls then none else some s.cyc } else x1
    (s.setPv p x2).settleOutputs
  else s

def execSenseChange (dt p : Nat) (high : Bool) (s : State) : Host.Outcome State Fault Refusal :=
  .next ((s.advance dt).senseChanges p high)

/-- SENSE_US_EXPIRY: a sense line is in the wrong state when SENSE_US ends (R523). -/
def State.senseExpires (s : State) (p : Nat) : State :=
  let x := s.pv p
  let lim := cycUs (s.shr.pvSenseUs p)
  if p < 4 then
    match x.st with
    | .lsOn =>
      let lsEnds : Bool := x.senseTimer && decide (s.cyc - x.lsOnAt ≥ lim)
      let hsEnds : Bool := match x.hsOnAt with | some t => decide (s.cyc - t ≥ lim) && !x.hsSense | none => false
      if (lsEnds && (!x.lsSense || x.hsSense)) || hsEnds then (s.lockPv p 0x14).settleOutputs
      else if lsEnds then s.setPv p { x with senseTimer := false }
      else s
    | .on =>
      match x.senseFrom with
      | some t => if s.cyc - t > lim then (s.lockPv p 0x14).settleOutputs else s
      | none => s
    | .shutdown =>
      let last := max (x.offAt.getD 0) (x.hsOffAt.getD 0)
      if s.cyc - last ≥ lim ∧ !x.hsPin ∧ (x.lsSense ∨ x.hsSense) then (s.lockPv p 0x14).settleOutputs else s
    | _ => s
  else s

def execSenseUsExpiry (dt p : Nat) (s : State) : Host.Outcome State Fault Refusal := .next ((s.advance dt).senseExpires p)

/-- HS_COMMAND_TIMEOUT: 10 ms in LS_ON without the HS pin commanded on: shut down with code 0x15 (R523). -/
def State.hsTimeout (s : State) (p : Nat) : State :=
  let x := s.pv p
  if p < 4 ∧ x.st = .lsOn ∧ !x.hsPin ∧ s.cyc - x.lsOnAt ≥ cycMs 10 then
    ((s.setPv p (x.shut 0x15 s.cyc)).shroudFault 0x15 p 0).settleOutputs
  else s

def execHsCommandTimeout (dt p : Nat) (s : State) : Host.Outcome State Fault Refusal := .next ((s.advance dt).hsTimeout p)

/-! ### Trust -/

def execHeartbeatLapse (dt n : Nat) (s : State) : Host.Outcome State Fault Refusal := .next ((s.advance dt).heartbeatLapses n)

end Sys2Proof.Machine
end

