-- ==== Sys2Proof/Machine/Plibex.lean ====
section
/-! DEFINITION. Plibex receiving and periodic sending, and the Ethernet links: the commands of chapter 11. -/

namespace Sys2Proof.Machine

def State.mac (s : State) (m : Nat) : Mac := tget s.plx.macs m
def State.modMac (s : State) (m : Nat) (f : Mac → Mac) : State := { s with plx := { s.plx with macs := tmod s.plx.macs m f } }

/-! ### TSN on the way in -/

/-- The stream filter that matches a frame (R548, R589). -/
def State.filterOf (s : State) (d : Datagram) : Option Nat :=
  (List.range 256).find? fun f =>
    let b := 0x1C8000 + 0x20 * f
    bitAt (s.cw b) 0 && s.cf b 1 2 == d.mac && s.cf b 4 12 == d.vlan && fld (s.cw64 (b + 8)) 0 48 == d.dmac

/-- A flow meter with CIR kb/s and CBS bytes takes n bytes: `none` where the frame is red (R548). Tokens are bytes
times main clocks in a second. -/
def Meter.take (m : Meter) (cir cbs n mc : Nat) : Option Meter :=
  let full := cbs * 1800000000
  let have_ := match m.tokens with
    | none => full
    | some t => min full (t + (mc - m.at_) * (cir * 125))
  if n * 1800000000 ≤ have_ then some { m with tokens := some (have_ - n * 1800000000), at_ := mc } else none

/-- The stream filter f discards a frame. -/
def State.sfDrop (s : State) (d : Datagram) (f : Nat) : State :=
  ({ s with plx := { s.plx with sfDropped := tinc s.plx.sfDropped 32 f } }).modMac d.mac fun x => { x with ip := inc 16 x.ip }

/-- The frame of filter f has met flow meter k, which then stands at `o`, or found it red. -/
def State.metered (s : State) (d : Datagram) (f k : Nat) (o : Option Meter) : State × Bool :=
  match o with
  | some m => ({ s with plx := { s.plx with meters := tset s.plx.meters k m } }, true)
  | none =>
    let m := tget s.plx.meters k
    (({ s with plx := { s.plx with meters := tset s.plx.meters k { m with red := inc 32 m.red } } }).sfDrop d f, false)

/-- The frame of filter f meets its flow meter k. -/
def State.meterFrame (s : State) (d : Datagram) (f k : Nat) : State × Bool :=
  s.metered d f k ((tget s.plx.meters k).take (s.cw (0x1CA000 + 0x10 * k)) (s.cw (0x1CA004 + 0x10 * k)) d.sdu s.mc)

/-- 802.1Qci: oversize and red frames are dropped (R548); the second component says that the frame goes on. -/
def State.police (s : State) (d : Datagram) : State × Bool :=
  match s.filterOf d with
  | none => (s, true)
  | some f =>
    if d.sdu > s.cf (0x1C8000 + 0x20 * f) 16 16 then (s.sfDrop d f, false)
    else if bitAt (s.cw (0x1C8004 + 0x20 * f)) 8 then s.meterFrame d f (s.cf (0x1C8004 + 0x20 * f) 0 8)
    else (s, true)

/-- 802.1CB individual recovery by the vector recovery algorithm (R548): the connection after the copy, and whether
it is passed on, eliminated as a repeat, or rogue (0, 1, 2). PRESUMED: the algorithm is IEEE 802.1CB's. -/
def Conn.recover (c : Conn) (hist resetMs seq mc : Nat) : Conn × Nat :=
  let fresh : Conn := { c with recSeq := some seq, recHist := [seq], recAt := mc }
  match c.recSeq with
  | none => (fresh, 0)
  | some r =>
    if mc - c.recAt ≥ resetMs * msMc then (fresh, 0)
    else
      let d := (seq + 65536 - r) % 65536
      if d < 32768 ∧ 0 < d then
        if d < hist then ({ c with recSeq := some seq, recHist := (seq :: c.recHist).take hist, recAt := mc }, 0) else (c, 2)
      else
        let back := (65536 - d) % 65536
        if back ≥ hist then (c, 2)
        else if c.recHist.contains seq then (c, 1)
        else ({ c with recHist := (seq :: c.recHist).take hist, recAt := mc }, 0)

/-! ### Receive checks -/

/-- Fields of a telegram, in network byte order (R550). -/
def net (b : Bytes) (off n : Nat) : Nat := ofLe (slice b off n).reverse

/-- The VALID receive entry with a CONN_ID (R573). -/
def State.rxEntry (s : State) (id : Nat) : Option Nat :=
  s.cfg.active.conns.find? fun i => s.cfg.active.connRx i && s.cfg.active.connId i == id

/-- Age of a telegram in ns: floor(t / 16) − TIME (R573). -/
def telegramAge (t : Nat) (b : Bytes) : Int := (t / 16 : Nat) - (net b 12 8 : Int)

/-- The first check of R573 that fails for a telegram on connection i, or 0. -/
def State.rxCode (s : State) (i : Nat) (d : Datagram) (t : Nat) : Nat :=
  let b := d.payload
  let g := s.cfg.active
  let c := s.conn i
  let n := net b 2 2
  let delta := (net b 8 4 + 2 ^ 32 - c.last) % 2 ^ 32
  let age := telegramAge t b
  if !((g.connMac i == d.mac || (g.connFrer i && (g.connMac i ^^^ 1) == d.mac)) && g.conn i 12 2 % 4096 == d.vlan &&
       slice g.plibex (128 + 64 * i + 40) 16 == d.srcIp && g.conn i 14 2 == d.srcPort && g.connV6 i == d.v6) then 3
  else if net b (20 + n) 4 != crcK (be 4 (g.connPeer i) ++ be 4 g.devId ++ b.take (20 + n)) then 4
  else if !(fld (net b 0 1) 0 4 == 4 && n == 8 && net b 1 1 < 4) then 5
  else if c.st == .live && delta == 0 then 6
  else if c.st == .live && delta > g.conn i 24 2 then 7
  else if !s.timeValid then 0xA
  else if age ≥ (g.conn i 20 4 * 1000 : Nat) then 8
  else if age < -(g.conn i 27 1 * 1000 : Nat) then 9
  else 0

/-- A rejection of a telegram (R573, R575): counted, and recorded at most once in 100 ms. -/
def State.rejectRx (s : State) (i code seq : Nat) : State :=
  let c := s.conn i
  let s0 := { s with plx := { s.plx with rxFault := inc 32 s.plx.rxFault } }
  let due : Bool := code != 6 && (match c.recordAt with | none => true | some t => decide (s.mc - t ≥ 100 * msMc))
  let c1 := { c with rejected := inc 16 c.rejected, lastFault := code }
  if due then
    (s0.setConn i { c1 with rejSince := 0, recordAt := some s.mc }).evidence 0x0901 (s.cfg.active.connOwner i) 1 0xFFFFFFFF
      (le 2 i ++ le 1 code ++ zeros 1 ++ le 4 seq ++ le 4 c.rejSince)
  else s0.setConn i { c1 with rejSince := inc 32 c.rejSince }

/-- An accepted telegram (R574, R576 to R578). -/
def State.acceptRx (s : State) (i : Nat) (b : Bytes) (t : Nat) : State :=
  let c := s.conn i
  let g := s.cfg.active
  let run := if bitAt (net b 1 1) 0 then 0 else net b 20 4
  let runBit := bitAt run (g.conn i 26 1)
  let ageUs := ((telegramAge t b + 999) / 1000).toNat
  let c1 := { c with
    st := .live, last := net b 8 4, count := inc 32 c.count, lastAt := s.tmb.now, wdFrom := s.mc
    maxAgeUs := max c.maxAgeUs (sat 32 ageUs), run := run, rfault := net b 24 4
    armed := match c.st with | .wait => true | .timeout => false | .live => c.armed || !runBit }
  let s1 := (s.setConn i c1)
  let s2 := { s1 with plx := { s1.plx with rxTotal := (s1.plx.rxTotal + 1) % 2 ^ 64 } }
  if c.st = .timeout then s2.evidence 0x0903 (g.connOwner i) 0 0xFFFFFFFF (le 2 i ++ le 1 2 ++ zeros 1 ++ le 4 (net b 8 4)) else s2

/-- A UDP payload that reached Plibex (R573). -/
def State.plibexIn (s : State) (d : Datagram) (t : Nat) : State :=
  let b := d.payload
  let bad (q : State) : State := { q with plx := { q.plx with rxFault := inc 32 q.plx.rxFault } }
  if !(24 ≤ b.length && fld (net b 0 1) 4 4 == 1 && net b 2 2 ≤ 64 && b.length == 24 + net b 2 2) then bad s
  else match s.rxEntry (net b 4 4) with
    | none => bad s
    | some i =>
      let go (q : State) : State :=
        let code := q.rxCode i d t
        if code = 0 then q.acceptRx i b t else q.rejectRx i code (net b 8 4)
      match s.cfg.active.connFrer i, d.rtag with
      | true, some q =>
        let (c, r) := (s.conn i).recover (s.cf 0x1C0028 0 6) (s.cf 0x1C0028 16 10) q s.mc
        let s1 := s.setConn i c
        if r = 0 then go s1
        else if r = 1 then { s1 with plx := { s1.plx with frerDiscarded := inc 16 s1.plx.frerDiscarded } }
        else { s1 with plx := { s1.plx with frerRogue := inc 16 s1.plx.frerRogue } }
      | _, _ => go s

/-- A frame arrives on a MAC: counted, checked and policed (R547, R548, R586); the second component says that its
datagram goes on. -/
def State.macIn (s : State) (d : Datagram) : State × Bool :=
  let s1 := s.modMac d.mac fun x => { x with rx := inc 32 x.rx }
  match d.fault with
  | .fcs => (s1.modMac d.mac fun x => { x with fcs := inc 16 x.fcs }, false)
  | .header => (s1.modMac d.mac fun x => { x with ip := inc 16 x.ip }, false)
  | .none => s1.police d

/-- PLIBEX_RX: a frame for LOCAL_PORT arrives; `ago` is how long ago, in 1/16 ns, its start delimiter was captured. -/
def State.plibexRx (s : State) (d : Datagram) (ago : Nat) : State :=
  let (s2, pass) := s.macIn d
  if pass then s2.plibexIn d (s.tmb.now - ago) else s2

def execPlibexRx (dt : Nat) (d : Datagram) (ago : Nat) (s : State) : Host.Outcome State Fault Refusal :=
  let s := s.advance dt
  .next (if d.mac < 4 ∧ s.atStep 9 then s.plibexRx d ago else s)

/-- RX_WATCHDOG_EXPIRY: WD_MS without an accepted telegram closes the gate (R577). -/
def execRxWatchdogExpiry (dt i : Nat) (s : State) : Host.Outcome State Fault Refusal :=
  let s := s.advance dt
  let c := s.conn i
  let g := s.cfg.active
  .next (if g.connValid i && g.connRx i && c.st == .live && s.mc - c.wdFrom ≥ g.connWdMs i * msMc then
      (s.setConn i { c with st := .timeout, timeouts := inc 16 c.timeouts }).evidence 0x0902 (g.connOwner i) 1 0xFFFFFFFF
        (le 2 i ++ zeros 2 ++ le 4 c.last ++ le 4 (sat 32 ((s.mc - c.wdFrom) / usMc)))
    else s)

/-! ### Sending -/

/-- A telegram that left more than 1 ms after its due time (R571). -/
def State.txLate (s : State) (i typ lateUs : Nat) : State :=
  if lateUs > 1000 then
    ({ s with plx := { s.plx with txLate := inc 32 s.plx.txLate } }).evidence 0x0904 (s.cfg.active.connOwner i) 1 0xFFFFFFFF
      (le 2 i ++ le 1 typ ++ zeros 1 ++ le 4 lateUs)
  else s

/-- The periodic telegram of a transmit connection (R565 to R567): SAFE_STATE in SAFE, the previous VERDICT payload,
the present one after its binding changed, or FUNC_STATE. -/
def State.periodic (s : State) (i : Nat) : State :=
  let c := s.conn i
  if s.glb.st = .safe then s.sendSafe s.glb.cause i
  else if s.cfg.active.connType i = 3 then s.sendTelegram i 3 false s.funcPayload
  else match c.lastPayload, c.rebound with
    | some (1, p), false => s.sendTelegram i 1 false p
    | _, _ => s.sendVerdict i

/-- A periodic telegram that has left since state `old` is held to its due time; one that R570 held back is not sent and
stays due. -/
def State.leftAfter (s old : State) (i typ due : Nat) : State :=
  if (s.conn i).txSeq = (old.conn i).txSeq then s else s.txLate i typ ((old.mc - due) / usMc)

/-- TX_PERIOD of a transmit connection; one that has sent nothing yet sends at the first. -/
def execTxPeriod (dt i : Nat) (s : State) : Host.Outcome State Fault Refusal :=
  let s := s.advance dt
  let g := s.cfg.active
  let period := g.connTxMs i * msMc
  .next (if g.connValid i && !g.connRx i && s.atStep 9 then
      match (s.conn i).sentAt with
      | none => s.periodic i
      | some t => if s.mc - t ≥ period then (s.periodic i).leftAfter s i (if s.glb.st = .safe then 2 else g.connType i) (t + period)
          else s
    else s)

/-- FUNC_STATE_SEND: the payload has changed, and 1 ms has passed since the previous telegram (R566). -/
def execFuncStateSend (dt i : Nat) (s : State) : Host.Outcome State Fault Refusal :=
  let s := s.advance dt
  let g := s.cfg.active
  let c := s.conn i
  let ready : Bool := match c.sentAt with | none => true | some t => decide (s.mc - t ≥ msMc)
  .next (if g.connValid i && !g.connRx i && g.connType i == 3 && s.glb.st != .safe && ready &&
            c.lastPayload != some (3, s.funcPayload) then
      s.sendTelegram i 3 false s.funcPayload
    else s)

/-- SAFE_STATE_REPEAT on a receive connection, every 100 ms in SAFE (R567, R569). -/
def execSafeStateRepeat (dt i : Nat) (s : State) : Host.Outcome State Fault Refusal :=
  let s := s.advance dt
  let g := s.cfg.active
  let from_ := (s.conn i).sentAt.getD 0
  let ready : Bool := (s.conn i).sentAt == none || s.mc - from_ ≥ 100 * msMc
  .next (if g.connValid i && g.connRx i && s.glb.st == .safe && ready then
      (s.sendSafe s.glb.cause i).txLate i 2 (if (s.conn i).sentAt = none then 0 else (s.mc - from_ - 100 * msMc) / usMc)
    else s)

/-! ### Links -/

/-- LINK: MAC m goes up at a speed, or down (R586, R590). -/
def execLink (dt m : Nat) (up : Bool) (speed : Nat) (s : State) : Host.Outcome State Fault Refusal :=
  let s := s.advance dt
  let g := s.cfg.active
  let used := g.conns.any fun i => g.connMac i == m || (g.connFrer i && (g.connMac i ^^^ 1) == m)
  .next (if m < 4 ∧ s.atStep 9 ∧ s.speedOk m speed then
      (s.modMac m fun x => { x with up := up, speed, preempt := x.preempt && up }).evDev 0x0905 (b2n used)
        (le 1 m ++ le 1 (b2n up) ++ le 1 speed)
    else s)

/-- PREEMPT: VERIFY_STATUS of MAC m changes (R588, R590). -/
def execPreempt (dt m status : Nat) (s : State) : Host.Outcome State Fault Refusal :=
  let s := s.advance dt
  .next (if m < 2 ∧ s.atStep 9 ∧ status ≤ 5 then
      (s.modMac m fun x => { x with
        verify := status
        preempt := bitAt (s.cw (0x1C4018 + 0x1000 * m)) 0 && x.up &&
          (status == 3 || (status == 5 && !bitAt (s.cw (0x1C4018 + 0x1000 * m)) 1)) }).evDev 0x0906 0
        (le 1 m ++ le 1 status)
    else s)

end Sys2Proof.Machine
end

