-- ==== Sys2Proof/Machine/BadgerOps.lean ====
section
/-! DEFINITION. What the events of Badger do: sources, passes, history, switches, tiles, rotation and calibration (R284
to R290, R303, R304, R313 to R328). -/

namespace Sys2Proof.Machine

def State.modModel (s : State) (m : Nat) (f : ModelSlot → ModelSlot) : State :=
  { s with bdg := { s.bdg with slots := tmod s.bdg.slots m f } }
def State.modSource (s : State) (k : Nat) (f : Source → Source) : State :=
  { s with bdg := { s.bdg with sources := tmod s.bdg.sources k f } }
def State.modBdg (s : State) (f : Badger → Badger) : State := { s with bdg := f s.bdg }
def State.tile (s : State) (t : Nat) : Tile := tget s.bdg.tiles t
def State.modTile (s : State) (t : Nat) (f : Tile → Tile) : State :=
  s.modBdg fun b => { b with tiles := tmod b.tiles t f }

/-! ### Slots, inputs and passes -/

/-- Roles that the active image of slot m runs on (R301, R302). -/
def State.slotRoles (s : State) (m : Nat) : List Nat :=
  match (s.model m).active with
  | none => []
  | some b => if bSeq b then List.range 8 else (s.cfg.active.mRoles m).take (bTiles b)

/-- The tile that serves a role. -/
def State.roleTile (s : State) (r : Nat) : Option Nat :=
  (List.range 9).find? fun t => (s.tile t).st == .active && (s.tile t).role == r

/-- Every role of the slot is served. -/
def State.served (s : State) (m : Nat) : Bool := (s.slotRoles m).all fun r => (s.roleTile r).isSome

/-- State of input i of slot m's image: 0 complete, 1 awaited, 2 incomplete, damaged or failed (R316, R318). -/
def State.inputState (s : State) (b : Bytes) (i : Nat) : Nat :=
  let ref := bsrc b i 1 1
  match bsrc b i 0 1 with
  | 1 => let c := (s.source ref).code
         if c = 2 then 0 else if c ≥ 3 || s.past 2 then 2 else 1
  | 2 => let c := (s.model ref).code
         if c = 3 then 0 else if c = 0 || c = 4 || c = 5 then 2 else 1
  | _ => let c := (s.slot ref).rep.code
         if c = 2 then 0 else if c ≥ 3 || s.past 0 then 2 else 1

/-- The first input of an image in a state. -/
def State.inputIn (s : State) (b : Bytes) (v : Nat) : Option Nat := (List.range (bSrcs b)).find? fun i => s.inputState b i == v

/-- A waiting pass one of whose inputs has failed does not run in the frame: code 0x05 (R318, R321). -/
def State.settleInput (s : State) (m : Nat) : State :=
  let x := s.model m
  match x.active with
  | none => s
  | some b =>
    if x.code = 1 then
      match s.inputIn b 2 with
      | some i => s.modModel m fun y => { y with code := 5, input := i }
      | none => s
    else s

/-- The same for every slot, as often as one slot's failure can fail another. -/
def State.settleInputs (s : State) : State :=
  if s.fr.ticking then
    (List.range 4).foldl (fun q _ => (List.range 4).foldl (fun q m => q.settleInput m) q) s
  else s

/-! ### Macro operations and their reference residuals (R277 to R280) -/

/-- 100 ms in main clocks. -/
def hundredMs : Nat := 100 * msMc

/-- Weight k of reference column j, an int8 (R278). -/
def refWeight (j k : Nat) : Int := sgn 8 (Config.refWeight j k)

/-- The exact dot product of an input vector with reference column j (R278). -/
def refExact (x : Bytes) (j : Nat) : Int :=
  (x.foldl (fun (a : Int × Nat) b => (a.1 + sgn 8 b.toNat * refWeight j a.2, a.2 + 1)) (0, 0)).1

/-- Residual of reference column j in an operation, in the accumulator's domain (R277, R278). -/
def refResid (o : RefOp) (j : Nat) : Int := o.2.getD j 0 - refExact o.1 j

/-- The greatest of the 8 columns' values, in magnitude. -/
def refMax (f : Nat → Int) : Nat := (List.range 8).foldl (fun a j => max a (f j).natAbs) 0

/-- Largest residual among operations, and 1,024 times the mean residual of a block of 1,024, column by column, where
the columns differ the greatest (R279). -/
def refLargest (ops : List RefOp) : Nat := ops.foldl (fun a o => max a (refMax (refResid o))) 0
def refSum (ops : List RefOp) : Nat := refMax fun j => ops.foldl (fun a o => a + refResid o j) 0

/-- Macro `mac` of tile t performs n operations (R280). -/
def State.noteOps (s : State) (t mac n : Nat) : State :=
  s.modTile t fun x => { x with
    recent := (x.recent.filter fun o => s.mc < o.at_ + hundredMs) ++ [{ mac := mac, at_ := s.mc, ops := n }] }

/-- Operations of a macro in the last 100 ms (R280). -/
def State.macroOps (s : State) (t mac : Nat) : Nat :=
  (s.tile t).recent.foldl (fun a o => if o.mac = mac ∧ s.mc < o.at_ + hundredMs then a + o.ops else a) 0

/-- The MVM layers that image tile k of an image executes; under SEQUENCE every role runs them all (R302). -/
def bMvm (b : Bytes) (n k : Nat) : List BLayer :=
  ((List.range n).map (bLayer b)).filter fun l => l.op == 1 && (bSeq b || l.tile == k)

/-- The operations of the first n layers of slot m's pass: one a row in each macro of an MVM (R277, R297). -/
def State.noteLayers (s : State) (m n : Nat) : State :=
  let b := (s.model m).active.getD []
  let base := s.cfg.active.mBase m
  let roles := s.slotRoles m
  (List.range roles.length).foldl (fun q k => match s.roleTile (roles.getD k 0) with
    | none => q
    | some t => (bMvm b n k).foldl (fun q l =>
        (List.range l.mcount).foldl (fun q i => q.noteOps t (base + l.mfirst + i) l.rows) q) q) s

/-- Macro `mac` of tile t is programmed: with weights of the role the tile serves or is to take, or with the test
patterns of a calibration (R280, R322). -/
def State.programmed (s : State) (t mac : Nat) : Bool :=
  match (s.tile t).st with
  | .failed => false
  | .cal | .recal => true
  | .active | .ready => (List.range 4).any fun m =>
      let b := (s.model m).active.getD []
      let base := s.cfg.active.mBase m
      let roles := s.slotRoles m
      (List.range roles.length).any fun k => roles.getD k 0 == (s.tile t).role &&
        (bMvm b (bLayers b) k).any fun l => base + l.mfirst ≤ mac && mac < base + l.mfirst + l.mcount

/-- A running pass stops: the layers it has done, a free number of them, have written tile SRAM; its staged step is
discarded (R89, R326). The number of layers not done is the second component. -/
def State.stopPass (s : State) (m : Nat) : State × Nat :=
  let n := bLayers ((s.model m).active.getD [])
  let (v, s1) := s.fresh
  let done := v % (n + 1)
  let p := s1.runPass m done
  (({ s1.noteLayers m done with free := p.free }).modModel m fun y => { y with sram := p.sram, stagedStep := none }, n - done)

/-- The passes on role r are abandoned for a drift failure; where the role is left without a tile, so are the slots
that use it (R327). -/
def State.abandonRole (s : State) (r : Nat) (noTile : Bool) : State :=
  (List.range 4).foldl (fun q m =>
    let x := q.model m
    if !(q.slotRoles m).contains r then q
    else if x.code = 2 then (q.stopPass m).1.modModel m fun y => { y with code := 6, tileFault := true }
    else if noTile ∧ x.code = 1 then q.modModel m fun y => { y with code := 6 }
    else q) s

/-- The pass of slot m can start (R316): after SHD_START and the switch programming, its inputs complete, its roles
served, and the die link carrying traffic (R22). -/
def State.canStart (s : State) (m : Nat) : Bool :=
  let x := s.model m
  match x.active with
  | none => false
  | some b => s.inSlot 3 4 && (x.code == 1 || x.code == 6) && !x.programming && s.served m && s.die.retraining.isNone &&
      (List.range (bSrcs b)).all fun i => s.inputState b i == 0

/-- The pass starts; one that a drift failure had abandoned is a restart (R316, R326). -/
def State.passStart (s : State) (m : Nat) : State :=
  s.modModel m fun y => { y with code := 2, restarts := if y.tileFault then inc 16 y.restarts else y.restarts }

/-- The last layer completes: outputs, staged step, code DONE (R318, R321). -/
def State.passDone (s : State) (m : Nat) : State :=
  let n := bLayers ((s.model m).active.getD [])
  let p := s.runPass m n
  ({ s.noteLayers m n with free := p.free }).modModel m fun y => { y with
    code := 3, tileFault := false, sram := p.sram, out := p.out, stagedStep := p.step, doneNs := sat 32 s.nsSinceTick,
    doneMc := s.mc }

/-- The window of a SEQUENCE image takes one step (R304). -/
def ModelSlot.shift (x : ModelSlot) (b : Bytes) : ModelSlot :=
  if bSeq b then { x with hist := ((if x.code = 3 then x.stagedStep else none) :: x.hist).take (bHist b), stagedStep := none }
  else x

/-- Tenant of model slot m: that of its partition. -/
def State.modelTenant (s : State) (m : Nat) : Nat := s.cfg.active.prtTenant (s.cfg.active.mPart m)

/-- SHD_END of slot m (R89, R304, R321). A pass still WAITING did not start and so abandons no work: only one that is
RUNNING writes the record of abandoned work (DESIGN CHOICE, log entry 63). -/
def State.slotShdEnd (s : State) (m : Nat) : State :=
  let x := s.model m
  match x.active with
  | none => s
  | some b =>
    let s1 := if x.code = 2 then
        let (q, left) := s.stopPass m
        q.abandoned 5 m left (s.modelTenant m)
      else s
    let code := if x.code = 1 ∨ x.code = 2 then (if x.tileFault then 6 else 4) else x.code
    let s2 := s1.modModel m fun y => ModelSlot.shift { y with
      code := code, doneNs := if code = 3 then y.doneNs else 0xFFFFFFFF
      incomplete := if code = 3 then y.incomplete else inc 16 y.incomplete } b
    if code = 3 then s2
    else s2.evidence 0x0501 (s.modelTenant m) 0 0xFFFFFFFF (le 1 m ++ le 1 code ++ le 1 (if code = 5 then x.input else 0xFF))

def State.shdEnd (s : State) : State := (List.range 4).foldl (fun q m => q.slotShdEnd m) s.settleInputs

/-! ### Switching (R313, R314, R355) -/

/-- Floor of an image (R354). -/
def bFloor (b : Bytes) : Nat := min (bConf b) 63

/-- THR_CELL and THR_OBJ of the contexts bound to slot m rise to the new image's floor (R355). -/
def State.raiseThresholds (s : State) (m : Nat) (b : Bytes) : State :=
  s.openCtxs.foldl (fun q c =>
    let w := q.watch c
    let f := bFloor b
    if bitAt w.modelMask m && (w.thrCell < f || w.thrObj < f) then
      let cell := max w.thrCell f
      let obj := max w.thrObj f
      (q.modWatch c fun w => { w with thrCell := cell, thrObj := obj }).evidence 0x0601 w.tenant 0 c
        (le 1 w.thrCell ++ le 1 cell ++ le 1 w.thrObj ++ le 1 obj)
    else q) s

/-- The staged image of slot m becomes active, and its programming starts (R313, R314). -/
def State.activateModel (s : State) (m : Nat) : State :=
  let x := s.model m
  match x.staged with
  | none => s.modModel m fun y => { y with switchAt := none }
  | some b =>
    let keep : Bool := match x.active with
      | some o => bHist o == bHist b && bHistDigest o == bHistDigest b
      | none => false
    (s.modModel m fun y => { y with
      active := some b, staged := none, switchAt := none, stageCode := 3, stageLayer := 0, programming := true
      hist := if keep then y.hist else List.replicate (bHist b) none }).raiseThresholds m b

/-- The switches due in the frame that now begins. -/
def State.modelSwitches (s : State) : State :=
  (List.range 4).foldl (fun q m => match (q.model m).switchAt with
    | some n => if n ≤ q.fr.num then q.activateModel m else q
    | none => q) s

/-- A slot's registers at the frame tick: the code of the frame that ended is archived (R331); `last` is its number. -/
def State.modelTick (s : State) (last m : Nat) : State :=
  let s1 := s.modModel m fun y => { y with
    lastCode := y.code, lastFrame := last, input := 0xFF, tileFault := false, stagedStep := none }
  let code := if s1.cfg.active.mValid m && (s1.model m).active.isSome then (if s1.served m then 1 else 6) else 0
  s1.modModel m fun y => { y with code := code }

/-! ### Sources -/

def Source.tick (x : Source) : Source :=
  { x with lastCode := x.code, code := 0, doneNs := 0xFFFFFFFF, count := 0, started := false, ignoring := false,
           lines := [], points := [] }

/-- Frames belong to the current frame from its tick to ING_END (R284, R288). -/
def State.ingesting (s : State) : Bool := s.fr.ticking && !s.past 2

/-- The VALID CSI-2 source of a receiver and virtual channel. -/
def State.csiSource (s : State) (r vc : Nat) : Option Nat :=
  (List.range 16).find? fun k => s.cfg.active.srcValid k && !s.cfg.active.srcEth k && s.cfg.active.srcPort k == r &&
    s.cfg.active.srcVc k == vc

/-- A source of the frame is damaged, unless it is complete or damaged already (R287). -/
def Source.damage (x : Source) (code : Nat) : Source := if x.code ≤ 1 then { x with code := code } else x

/-- The lane counts of R282. -/
def csiLanes (l : CsiLink) : Bool := l.lanes == 1 || l.lanes == 2 || l.lanes == 4

/-- A packet on receiver r: counted, with the result of its header check: 0 good, 1 corrected, 2 uncorrectable, and
what the receiver measured of the link (R282, R334). -/
def CsiRx.packet (x : CsiRx) (l : CsiLink) (ecc : Nat) : CsiRx :=
  { x with lanes := l.lanes, rate := sat 12 l.rate, deskew := l.deskew, sot := sat 8 (x.sot + l.sot), up := l.hs,
           packets := inc 32 x.packets, ecc1 := if ecc = 1 then inc 8 x.ecc1 else x.ecc1,
           ecc2 := if ecc = 2 then inc 8 x.ecc2 else x.ecc2 }

def State.modCsi (s : State) (r : Nat) (f : CsiRx → CsiRx) : State := s.modBdg fun b => { b with csi := tmod b.csi r f }

/-- What a packet with an uncorrectable header does to its channel's source (R284). -/
def State.csiEcc2 (s : State) (r vc : Nat) : State :=
  match s.csiSource r vc with
  | some k => if s.ingesting then s.modSource k (·.damage 0x11) else s
  | none => s

/-- Frame Start (R284 to R286). -/
def Source.frameStart (x : Source) : Source :=
  if x.code = 2 then { x with extra := inc 8 x.extra, ignoring := true }
  else if x.started then
    let y := { x with restart := inc 8 x.restart }
    if x.code = 1 then { y with lines := [], count := 0 } else y
  else if x.code = 0 then { x with code := 1, started := true }
  else { x with started := true }

/-- A long packet of the source's data type with its payload, and whether its CRC is right (R284, R287). -/
def Source.line (x : Source) (len lines : Nat) (payload : Bytes) (crcOk : Bool) : Source :=
  if !x.started || x.ignoring then x
  else
    let y := { x with count := inc 32 x.count, errCrc := if crcOk then x.errCrc else inc 8 x.errCrc }
    if !crcOk then y.damage 0x10
    else if payload.length ≠ len ∨ x.lines.length ≥ lines then y.damage 0x12
    else if x.code = 1 then { y with lines := x.lines ++ [payload] } else y

/-- Frame End (R284, R287). -/
def Source.frameEnd (x : Source) (lines ns : Nat) : Source :=
  let y := { x with started := false, ignoring := false }
  if x.started ∧ x.code = 1 then
    if x.lines.length = lines then { y with code := 2, doneNs := ns } else { y with code := 0x12 }
  else y

/-- CRC-16 of a CSI-2 payload, by MIPI CSI-2 v3.0, which R282 names (PRESUMED from that standard). -/
def csiCrc (b : Bytes) : Nat := (b.foldl (crcByteR 0x8408#32) 0xFFFF#32).toNat

/-- The records of a datagram of an Ethernet source (R289). -/
def parseRecords (c : Cfg) (k : Nat) (payload : Bytes) : List Point :=
  let z := if c.srcXyzType k = 0 then 2 else 4
  let st := c.srcStride k
  (List.range ((payload.length - c.srcSkip k) / max 1 st)).map fun j =>
    let o := c.srcSkip k + j * st + c.srcXyzOff k
    { x := rd payload o z, y := rd payload (o + z) z, z := rd payload (o + 2 * z) z }

/-- The VALID Ethernet source that a datagram meets (R288). -/
def State.lidarSource (s : State) (d : Datagram) : Option Nat :=
  (List.range 16).find? fun k => s.cfg.active.srcValid k && s.cfg.active.srcEth k && s.cfg.active.srcPort k == d.mac &&
    s.cfg.active.srcVlan k == d.vlan && s.cfg.active.srcWidth k == d.dstPort

/-- Records join a source's frame, up to 262,144 (R289, R290). -/
def Source.take (x : Source) (pts : List Point) : Source :=
  let p := (x.points ++ pts).take 262144
  { x with points := p, count := p.length, code := if x.code = 0 then 1 else x.code }

/-- ING_END of a source (R284, R290). -/
def Source.ingEnd (x : Source) (eth : Bool) (minRecords ns : Nat) : Source :=
  if x.code ≤ 1 then
    if eth then (if x.count ≥ minRecords then { x with code := 2, doneNs := ns } else { x with code := 0x13 })
    else { x with code := 3 }
  else x

def State.ingEnd (s : State) : State :=
  let s1 := (List.range 16).foldl (fun q k =>
    if q.cfg.active.srcValid k then
      q.modSource k (·.ingEnd (q.cfg.active.srcEth k) (64 * q.cfg.active.srcLines k) (sat 32 q.nsSinceTick))
    else q) s
  s1.settleInputs

/-! ### Tiles -/

/-- Element code of tile t among the repairs. -/
def tileElem (t : Nat) : Nat := 0x700 + t

/-- CAL_LIMIT, DRIFT_LIMIT, GROSS_LIMIT (R329). -/
def State.calLimit (s : State) : Nat := s.cf 0x100008 0 8
def State.driftLimit (s : State) : Nat := s.cf 0x100008 8 8
def State.grossLimit (s : State) : Nat := s.cf 0x100008 16 8

/-- The serving tile whose last passed calibration is oldest; one with STALE_COEF is the oldest by construction
(R323). -/
def State.oldestTile (s : State) : Option Nat :=
  let key (t : Nat) : Nat := 2 * (s.tile t).calTime + (if (s.tile t).stale then 0 else 1)
  ((List.range 9).filter fun t => (s.tile t).st == .active).foldl (fun a t => match a with
    | none => some t
    | some u => if key t < key u then some t else a) none

/-- The tile in CAL or READY (BDG_STAT.SPARE). -/
def State.tileIn (s : State) (st : TileState) : Option Nat := (List.range 9).find? fun t => (s.tile t).st == st
def State.spareTile (s : State) : Option Nat :=
  (List.range 9).find? fun t => (s.tile t).st == .ready || (s.tile t).st == .cal

/-- A drift or calibration failure is kept in the tile's registers and recorded (R330, R455). -/
def State.tileRecord (s : State) (t macro_ kind resid : Nat) : State :=
  (s.modTile t fun x => { x with faultMacro := macro_ % 32, faultKind := kind, faultTime := s.tmb.now }).evDev 0x0503 2
    (le 1 t ++ le 1 macro_ ++ le 1 kind ++ le 1 (sat 8 resid))

/-- A calibration turn begins. -/
def Tile.beginCal (x : Tile) (fails : Nat) : Tile := { x with calStep := .measuring, turnFails := fails }

/-- A tile fails for good: NO_SPARE, the tile and its ADC bank switched off (R327, R684). -/
def State.tileFailed (s : State) (t : Nat) : State :=
  let s1 := (s.modTile t fun x => { x with st := .failed, calStep := .idle }).modBdg fun b => { b with noSpare := true }
  (s1.switchOff (17 + t)).switchOff (26 + t)

/-- The swap that waits for tile t ends (R327). -/
def State.endSwap (s : State) (t : Nat) : State :=
  if s.bdg.swap && s.bdg.swapFrom == t then (s.modBdg fun b => { b with swap := false }).repairEnds (tileElem t) else s

/-- A failure in a tile's calibration turn (R322, R327): of a check, the slice, the readback, or by drift. -/
def State.calFail (s : State) (t macro_ kind resid : Nat) : State :=
  let x := s.tile t
  let s1 := (s.modBdg fun b => { b with calFail := inc 16 b.calFail }).tileRecord t macro_ kind resid
  match x.st with
  | .cal => if x.turnFails = 0 then s1.modTile t (·.beginCal 1) else s1.tileFailed t
  | .recal => (s1.tileFailed t).endSwap t
  | _ => s1

/-- Role that a tile becoming READY is to take: that of the oldest serving tile. -/
def State.nextRole (s : State) : Nat := match s.oldestTile with | some o => (s.tile o).role | none => 0

/-- A tile becomes READY, or ACTIVE in a role that was left without a tile. -/
def State.tileReadyAs (s : State) (t : Nat) (role : Option Nat) : State :=
  match role with
  | some r => s.modTile t fun x => { x with st := .active, role := r }
  | none => let r := s.nextRole; s.modTile t fun x => { x with st := .ready, role := r }

/-- A tile's calibration passes (R322, R327). -/
def State.calPass (s : State) (t : Nat) : State :=
  let x := s.tile t
  let s1 := s.modTile t fun x => { x with
    lastCoefs := x.coefs, cals := inc 16 x.cals, calFrame := s.fr.num, calTime := s.mc, stale := false, calStep := .idle, turnFails := 0 }
  match x.st with
  | .cal => s1.tileReadyAs t none
  | .recal =>
    if s.bdg.swap && s.bdg.swapFrom == t then (s1.tileReadyAs t none).endSwap t
    else if s.bdg.degradedBy = some t then
      ((s1.tileReadyAs t s.bdg.orphanRole).modBdg fun b => { b with degradedBy := none, orphanRole := none }).exitDegraded 3
    else s1.tileReadyAs t none
  | _ => s1

/-- The slice of calibration step 4 ends (R322). -/
def State.tileSlice (s : State) (t : Nat) (pass : Bool) : State :=
  if (s.tile t).calStep = .slice then
    if pass then s.modTile t fun x => { x with calStep := .programming } else s.calFail t 0 4 0
  else s

/-- A serving tile fails by drift: a spare takes its role, or the device degrades, or it enters SAFE (R327). -/
def State.driftActive (s : State) (t : Nat) : State :=
  let r := (s.tile t).role
  if s.glb.st = .degraded ∨ s.glb.repairs ≠ [] then s.singleFault 3
  else
    let leave (q : State) : State := q.modTile t fun x => ({ x with st := .recal, stale := false }).beginCal 0
    match s.tileIn .ready, s.tileIn .cal with
    | some u, _ =>
      let s1 := (leave (s.abandonRole r false)).modTile u fun x => { x with st := .active, role := r }
      (s1.modBdg fun b => { b with swap := true, swapFrom := t }).repairBegins (tileElem t)
    | none, some u =>
      let s1 := (leave (s.abandonRole r false)).modTile u fun x => { x with
        st := .active, role := r, stale := true, coefs := x.lastCoefs, calStep := .idle, turnFails := 0 }
      (s1.modBdg fun b => { b with degradedBy := some t, orphanRole := none }).singleFault 3
    | none, none =>
      ((leave (s.abandonRole r true)).modBdg fun b => { b with degradedBy := some t, orphanRole := some r }).singleFault 3

/-- A drift failure of a macro of tile t (R279, R281, R327): kind 1 by the mean, 2 by a single residual. -/
def State.driftFailure (s : State) (t macro_ kind resid : Nat) : State :=
  let x := s.tile t
  if x.st = .failed then s
  else
    let s0 := s.modBdg fun b => { b with drift := inc 16 b.drift }
    match x.st with
    | .cal | .recal => s0.calFail t macro_ kind resid
    | .ready => (s0.tileRecord t macro_ kind resid).modTile t fun x => ({ x with st := .cal }).beginCal 1
    | _ => (s0.tileRecord t macro_ kind resid).driftActive t

/-- DRIFT of a tile in the current 100 ms (R330). -/
def State.tileDrift (s : State) (t : Nat) : Nat := if (s.tile t).driftIn = s.mc / (100 * msMc) then (s.tile t).drift else 0

/-- A block mean joins DRIFT. -/
def State.blockMean (s : State) (t mean : Nat) : State :=
  let d := max (s.tileDrift t) (sat 8 mean)
  s.modTile t fun x => { x with drift := d, driftIn := s.mc / (100 * msMc) }

/-- What a run of consecutive operations of a macro shows: a block of 1,024 has a mean, which joins DRIFT and must not
exceed DRIFT_LIMIT; no single residual may exceed GROSS_LIMIT (R279, R281, R330). RU count 1,024 (R277); registers and
records hold whole RU, rounded down (DESIGN CHOICE, log entry 63). -/
def State.refBlock (s : State) (t mac : Nat) (ops : List RefOp) : State :=
  let sum := refSum ops
  let big := refLargest ops
  let whole : Bool := ops.length == 1024
  let s1 := if whole then s.blockMean t (sum / 2 ^ 20) else s
  if s.grossLimit * 2 ^ 10 < big then s1.driftFailure t mac 2 (big / 2 ^ 10)
  else if whole ∧ s.driftLimit * 2 ^ 20 < sum then s1.driftFailure t mac 1 (sum / 2 ^ 20)
  else s1

/-- The rotation of R323, at a frame tick. -/
def State.rotate (s : State) : State :=
  match s.tileIn .ready, s.oldestTile with
  | some u, some o =>
    if s.mc - s.bdg.rotTime ≥ 500 * msMc then
      let r := (s.tile o).role
      let s1 := s.modTile u fun x => { x with st := .active, role := r }
      let s2 := s1.modTile o fun x => ({ x with st := .cal, stale := false }).beginCal 0
      s2.modBdg fun b => { b with rotations := inc 16 b.rotations, rotFrame := s.fr.num, rotTime := s.mc }
    else s
  | _, _ => s

/-- The start-up calibration of tile t ends, with its largest residual and its coefficients (R328, R330). -/
def State.startupTile (s : State) (t resid : Nat) (coefs : List Nat) (pass : Bool) : State :=
  let s1 := s.modTile t fun x => { x with resid := sat 8 resid, coefs := coefs }
  if pass then
    s1.modTile t fun x => { x with lastCoefs := coefs, cals := 1, calTime := s.mc, calStep := .idle, turnFails := 0 }
  else ((s1.modBdg fun b => { b with calFail := inc 16 b.calFail }).tileRecord t 0 3 resid).tileFailed t

/-- The start-up calibration of the nine tiles ends; `mask` names those that passed (R328). -/
def State.startupCal (s : State) (mask : Nat) (resids : List Nat) (coefs : List Coefs) : State :=
  let passed := bitList 9 mask
  let s1 := (List.range 9).foldl (fun q t =>
    q.startupTile t (resids.getD t 0) (coefs.getD t []) (passed.contains t)) s
  let s2 := s1.modBdg fun b => { b with calibrated := true, available := 8 ≤ passed.length, rotTime := s.mc }
  if passed.contains 8 then
    match (List.range 8).find? fun t => !passed.contains t with
    | some t => s2.tileReadyAs 8 (some t)
    | none => s2.tileReadyAs 8 none
  else s2

end Sys2Proof.Machine
end

