-- ==== Sys2Proof/Machine/Badger.lean ====
section
/-! DEFINITION. The commands of chapter 06 and of the die link. -/

namespace Sys2Proof.Machine

/-- CSI-2 receiver r is powered and out of reset (R684). -/
def State.csiOn (s : State) (r : Nat) : Bool := r < 4 && s.atStep 9 && s.rst.on.contains (114 + r)

/-- CSI_FRAME_START: a Frame Start on a virtual channel, or with `line` a Line Start, which is accepted and ignored
(R282, R284 to R286). A frame that starts after its source is complete is counted up to the next tick. -/
def execCsiFrameStart (dt r vc ecc : Nat) (line : Bool) (lk : CsiLink) (s : State) : Host.Outcome State Fault Refusal :=
  let s := s.advance dt
  .next (if s.csiOn r && csiLanes lk then
      let s1 := s.modCsi r (·.packet lk ecc)
      if ecc = 2 then s1.csiEcc2 r vc
      else if line then s1
      else match s1.csiSource r vc with
        | some k => if s1.ingesting || (s1.fr.ticking && (s1.source k).code == 2) then s1.modSource k (·.frameStart) else s1
        | none => s1
    else s)

/-- CSI_LONG_PACKET: payload and the CRC received with it (R284, R287). -/
def execCsiLongPacket (dt r vc ecc ty : Nat) (payload : Bytes) (crc : Nat) (lk : CsiLink) (s : State) :
    Host.Outcome State Fault Refusal :=
  let s := s.advance dt
  let ok := csiCrc payload == crc
  let g := s.cfg.active
  .next (if s.csiOn r && csiLanes lk then
      let s1 := s.modCsi r fun x => { (x.packet lk ecc) with crc := if ok || ecc == 2 then x.crc else inc 8 x.crc }
      if ecc = 2 then s1.csiEcc2 r vc
      else match s1.csiSource r vc with
        | some k => if s1.ingesting && g.srcDt k == ty then
            s1.modSource k (·.line (lineBytes ty (g.srcWidth k)) (g.srcLines k) payload ok) else s1
        | none => s1
    else s)

/-- CSI_FRAME_END: a Frame End, or with `line` a Line End, which is accepted and ignored (R282, R284, R287). -/
def execCsiFrameEnd (dt r vc ecc : Nat) (line : Bool) (lk : CsiLink) (s : State) : Host.Outcome State Fault Refusal :=
  let s := s.advance dt
  .next (if s.csiOn r && csiLanes lk then
      let s1 := s.modCsi r (·.packet lk ecc)
      if ecc = 2 then s1.csiEcc2 r vc
      else if line then s1
      else match s1.csiSource r vc with
        | some k => if s1.ingesting then s1.modSource k (·.frameEnd (s.cfg.active.srcLines k) (sat 32 s1.nsSinceTick)) else s1
        | none => s1
    else s)

/-- A MAC time stamp `ago` 1/16 ns before now lies in [0, ING_END) of the frame (R288). -/
def State.stampIn (s : State) (ago : Nat) : Bool :=
  s.fr.ticking && decide (s.fr.tick + ago ≤ s.tmb.now) && decide (s.tmb.now < s.edgeAt 2 + ago)

/-- LIDAR_DATAGRAM, with the age of its time stamp in 1/16 ns (R288 to R290). -/
def execLidarDatagram (dt : Nat) (d : Datagram) (ago : Nat) (s : State) : Host.Outcome State Fault Refusal :=
  let s := s.advance dt
  .next (if d.mac < 4 ∧ s.atStep 9 then
      let (s1, pass) := s.macIn d
      if pass then
        match s1.lidarSource d with
        | some k => if s1.stampIn ago then
            s1.modSource k (·.take (parseRecords s1.cfg.active k d.payload)) else s1
        | none => s1
      else s1
    else s)

/-- SHADOW_PASS_START of slot m (R316, R318). -/
def execShadowPassStart (dt m : Nat) (s : State) : Host.Outcome State Fault Refusal :=
  let s := (s.advance dt).settleInputs
  .next (if s.canStart m then s.passStart m else s)

/-- SHADOW_PASS_DONE of slot m, before SHD_END (R318, R321). -/
def execShadowPassDone (dt m : Nat) (s : State) : Host.Outcome State Fault Refusal :=
  let s := s.advance dt
  .next (if (s.model m).code = 2 ∧ s.past 4 = false ∧ s.die.retraining.isNone then s.passDone m else s)

/-- MODEL_PROGRAMMED: the weights of a switched image stand in every tile that needs them (R313). -/
def execModelProgrammed (dt m : Nat) (s : State) : Host.Outcome State Fault Refusal :=
  let s := s.advance dt
  .next (if (s.model m).programming then s.modModel m fun x => { x with programming := false } else s)

/-- DRIFT_FAILURE: consecutive operations of a macro whose block mean exceeds DRIFT_LIMIT, or one of whose residuals
exceeds GROSS_LIMIT (R278, R279, R281). -/
def execDriftFailure (dt t mac : Nat) (ops : List RefOp) (s : State) : Host.Outcome State Fault Refusal :=
  let s := s.advance dt
  .next (if t < 9 ∧ s.bdg.calibrated ∧ (s.tile t).st ≠ .failed then s.refBlock t mac ops else s)

/-- REFERENCE_OPERATIONS: 1,024 reference-only operations of a programmed macro that performed fewer in the last 100 ms
(R279, R280). -/
def execReferenceOperations (dt t mac : Nat) (ops : List RefOp) (s : State) : Host.Outcome State Fault Refusal :=
  let s := s.advance dt
  .next (if t < 9 ∧ s.bdg.calibrated ∧ ops.length = 1024 ∧ s.programmed t mac = true ∧ s.macroOps t mac < 1024 then
      (s.noteOps t mac 1024).refBlock t mac ops
    else s)

/-- CALIBRATION_MEASURED: steps 1 to 3 end, with the largest residual, the largest gain error in 1/1000, the largest
offset in RU and the corrected coefficients, which are stored (R322). -/
def execCalibrationMeasured (dt t mac resid gain off : Nat) (coefs : Coefs) (s : State) : Host.Outcome State Fault Refusal :=
  let s := s.advance dt
  .next (if t < 9 ∧ (s.tile t).calStep = .measuring ∧ s.bdg.calibrated then
      let s1 := s.modTile t fun x => { x with resid := sat 8 resid, coefs := coefs }
      if resid ≤ s.calLimit ∧ gain ≤ 100 ∧ off ≤ 16 then s1.modTile t fun x => { x with calStep := .slice }
      else s1.calFail t mac 3 resid
    else s)

/-- TILE_READY: step 5 ends, every macro verified or one not (R322, R327). -/
def execTileReady (dt t : Nat) (ok : Bool) (mac : Nat) (s : State) : Host.Outcome State Fault Refusal :=
  let s := s.advance dt
  .next (if t < 9 ∧ (s.tile t).calStep = .programming then
      if ok then s.calPass t else s.calFail t mac 5 0
    else s)

/-- STARTUP_CALIBRATION_DONE (R328). -/
def execStartupCalibrationDone (dt mask : Nat) (resids : List Nat) (coefs : List Coefs) (s : State) :
    Host.Outcome State Fault Refusal :=
  let s := s.advance dt
  .next (if s.atStep 7 ∧ s.bdg.calibrated = false then s.startupCal mask resids coefs else s)

/-! ### The die link (R22, R23) -/

/-- DIE_LINK_NEEDS_RETRAINING: Badger traffic stops. -/
def execDieLinkNeedsRetraining (dt : Nat) (s : State) : Host.Outcome State Fault Refusal :=
  let s := s.advance dt
  .next (if s.atStep 7 ∧ s.die.retraining.isNone then { s with die := { s.die with retraining := some s.mc } } else s)

/-- Retrainings of the last second, the one that now begins to count included. -/
def DieLink.count (d : DieLink) (mc : Nat) : List Nat := (d.recent.filter fun t => mc < t + 1000 * msMc) ++ [mc]

/-- DIE_LINK_RETRAIN: retraining completes within 1 ms; more than 4 in any second are too many (R23). -/
def execDieLinkRetrain (dt : Nat) (s : State) : Host.Outcome State Fault Refusal :=
  let s := s.advance dt
  .next (match s.die.retraining with
    | none => s
    | some t0 =>
      if s.mc ≤ t0 + msMc then
        let l := s.die.count s.mc
        let s1 := { s with die := { retraining := none, recent := l } }
        if 4 < l.length then s1.enterSafe 0x16 else s1
      else s)

/-- DIE_LINK_RETRAIN_TIMEOUT: 1 ms has passed (R23). -/
def execDieLinkRetrainTimeout (dt : Nat) (s : State) : Host.Outcome State Fault Refusal :=
  let s := s.advance dt
  .next (match s.die.retraining with
    | some t0 => if s.mc ≥ t0 + msMc then s.enterSafe 0x16 else s
    | none => s)

end Sys2Proof.Machine
end

