-- ==== Sys2Proof/Machine/ReedSolomon.lean ====
section
/-! DEFINITION. The Reed-Solomon codes over the stored memories: arithmetic in GF(2^8), the check bytes of a line and of a
TCM word, and their decoder (R628 to R633). Symbols are numbers below 256; a word lists its highest-degree coefficient
first. -/

namespace Sys2Proof.Machine

/-! ### GF(2^8) (R628) -/

/-- The product with α = 0x02, modulo x^8 + x^4 + x^3 + x^2 + 1. -/
def gfAlpha (a : Nat) : Nat := if a < 128 then 2 * a else (2 * a) ^^^ 0x11D

/-- The product with α^n. -/
def gfShift (a : Nat) : Nat → Nat
  | 0 => a
  | n + 1 => gfAlpha (gfShift a n)

/-- The product of two symbols: the sum of the shifts of a that the bits of b select. -/
def gfMul (a b : Nat) : Nat := (List.range 8).foldl (fun x i => if bitAt b i then x ^^^ gfShift a i else x) 0

/-- a^(2^n). -/
def gfSquares (a : Nat) : Nat → Nat
  | 0 => a
  | n + 1 => gfMul (gfSquares a n) (gfSquares a n)

/-- The inverse a^254 of a non-zero symbol: 254 is the sum of 2^1 to 2^7. -/
def gfInv (a : Nat) : Nat := (List.range 7).foldl (fun x i => gfMul x (gfSquares a (i + 1))) 1

/-- α^n. -/
def gfPow (n : Nat) : Nat := gfShift 1 n

/-! ### Encoding (R628, R629) -/

/-- A polynomial times x + c, highest degree first. -/
def polyRoot (p : List Nat) (c : Nat) : List Nat := List.zipWith (· ^^^ ·) (p ++ [0]) (0 :: p.map (gfMul c))

/-- The generator polynomial with the roots α^0 to α^(r−1). -/
def rsGen (r : Nat) : List Nat := (List.range r).foldl (fun p j => polyRoot p (gfPow j)) [1]

/-- One step of the division of m(x) · x^r by the generator, whose coefficients below the leading one are g. -/
def rsStep (g rem : List Nat) (m : Nat) : List Nat :=
  let f := m ^^^ rem.headD 0
  List.zipWith (fun a b => a ^^^ gfMul f b) (rem.tail ++ [0]) g

/-- The r check symbols of a message. -/
def rsCheck (r : Nat) (msg : List Nat) : List Nat :=
  let g := (rsGen r).tail
  msg.foldl (rsStep g) (List.replicate r 0)

/-! ### Decoding (R631 to R633) -/

/-- Syndrome j: the value of a received word at α^j. -/
def rsSyndrome (w : List Nat) (j : Nat) : Nat := w.foldl (fun a c => gfShift a j ^^^ c) 0

/-- A single error at the symbol with locator x has these syndromes: each is x times the one before, and they are not 0. -/
def oneError (x : Nat) : List Nat → Bool
  | a :: b :: t => a != 0 && b == gfMul a x && oneError x (b :: t)
  | [a] => a != 0
  | [] => false

/-- Syndromes with the contribution of an error at locator x removed, one fewer. -/
def withoutError (x : Nat) : List Nat → List Nat
  | a :: b :: t => (b ^^^ gfMul a x) :: withoutError x (b :: t)
  | _ => []

/-- The locator of the symbol at index i of a word of n symbols. -/
def locator (n i : Nat) : Nat := gfPow (n - 1 - i)

/-- The index whose symbol alone explains the syndromes, among those from `from_` on. -/
def findOne (n from_ : Nat) (s : List Nat) : Option Nat :=
  match s with
  | a :: b :: _ =>
    let x := gfMul b (gfInv a)
    if a = 0 then none else (List.range n).find? fun i => from_ ≤ i && locator n i == x && oneError x s
  | _ => none

/-- The pair of indices, in order, whose symbols together explain the syndromes, with the second's error times the sum
of both locators. -/
def findTwo (n : Nat) (s : List Nat) : Option (Nat × Nat) :=
  (List.range n).findSome? fun i => (findOne n (i + 1) (withoutError (locator n i) s)).map fun j => (i, j)

/-- What a decoder finds (R631). -/
inductive Decoded where
  /-- No error. -/
  | clean
  /-- One or two symbols corrected: the word, and how many. -/
  | corrected (word : List Nat) (symbols : Nat)
  /-- A located error falls in an address symbol. -/
  | address
  /-- Any other non-zero syndrome. -/
  | uncorrectable
deriving DecidableEq, Repr, Inhabited

/-- The word with e added to the symbol at index i. -/
def addAt (w : List Nat) (i e : Nat) : List Nat := w.set i (w.getD i 0 ^^^ e)

/-- The decoder of a word whose first `addr` symbols are the expected address and whose last r are its check symbols. -/
def rsDecode (r addr : Nat) (w : List Nat) : Decoded :=
  let s := (List.range r).map (rsSyndrome w)
  let n := w.length
  if s.all (· == 0) then .clean
  else match findOne n 0 s with
    | some i => if i < addr then .address else .corrected (addAt w i (s.headD 0)) 1
    | none => match findTwo n s with
      | some (i, j) =>
        if i < addr then .address
        else
          let e := gfMul ((withoutError (locator n i) s).headD 0) (gfInv (locator n i ^^^ locator n j))
          .corrected (addAt (addAt w j e) i (s.headD 0 ^^^ e)) 2
      | none => .uncorrectable

/-! ### Lines and TCM words (R627, R630) -/

/-- The symbols of bytes. -/
def symbols (b : Bytes) : List Nat := b.map (·.toNat)
def ofSymbols (l : List Nat) : Bytes := l.map (BitVec.ofNat 8)

/-- The address word of a line of an array; UNIT is 0 but for Stoat's and Badger's. -/
def lineAddress (array unit line : Nat) : Bytes := le 1 array ++ le 1 (if array = 4 ∨ array = 5 then unit else 0) ++ le 6 line

/-- The address word of a TCM word: core, memory (0 ITCM, 1 DTCM), word index. -/
def tcmAddress (core memory index : Nat) : Bytes := le 1 core ++ le 1 memory ++ le 2 index

/-- Address word, symbols of a stored word and number of check symbols, for a line or, as array 7, a TCM word. -/
def storedAddress (array unit memory line : Nat) : Bytes :=
  if array = 7 then tcmAddress unit memory line else lineAddress array unit line
def dataLen (array : Nat) : Nat := if array = 7 then 16 else 64
def checkLen (array : Nat) : Nat := if array = 7 then 4 else 8

/-- The stored bytes of data: the data and its check bytes (R629). -/
def storedBytes (array unit memory line : Nat) (data : Bytes) : Bytes :=
  data ++ ofSymbols (rsCheck (checkLen array) (symbols (storedAddress array unit memory line ++ data)))

/-- The stored bytes that a read finds, as the decoder sees them; a corrected word without its address. -/
def decodeStored (array unit memory line : Nat) (stored : Bytes) : Decoded :=
  let a := storedAddress array unit memory line
  match rsDecode (checkLen array) a.length (symbols (a ++ padTo (dataLen array + checkLen array) stored)) with
  | .corrected w n => .corrected (w.drop a.length) n
  | d => d

end Sys2Proof.Machine
end

