-- ==== Sys2Proof/Machine/Cores.lean ====
section
/-! DEFINITION. The control cores: the input ledger, checkpoints, the vote, dissent and resynchronisation (R468 to R497),
and the end of T_deg. -/

namespace Sys2Proof.Machine

/-! ### Cores -/

def State.core (s : State) (c : Nat) : Core := tget s.cor.cores c
def State.modCor (s : State) (f : Cores → Cores) : State := { s with cor := f s.cor }
def State.modCore (s : State) (c : Nat) (f : Core → Core) : State := s.modCor fun x => { x with cores := tmod x.cores c f }

/-- The element number of a core among the repairs in progress and the retests. -/
def coreElem (c : Nat) : Nat := 0x800 + c

/-- A core that takes part in the vote: in service, or resynchronised and running in TRAIL (R484, R496, R497). -/
def Core.votes (x : Core) : Bool := x.st == .service || (x.st == .resync && x.pos == 2)
def State.voters (s : State) : List Nat := (List.range 3).filter fun c => (s.core c).votes
def CoreState.code : CoreState → Nat | .service => 0 | .held => 1 | .test => 2 | .resync => 3 | .failed => 4

/-- The core in a position, 3 if it is empty. -/
def State.coreAt (s : State) (pos : Nat) : Nat := ((List.range 3).find? fun c => (s.core c).pos == pos).getD 3

/-- Main clocks in 4,096 core cycles (R470). -/
def staggerMc : Nat := 6144

/-- The cores are released: Fore in LEAD now, Main in MIDDLE and Mizzen in TRAIL later (R470). -/
def State.startCores (s : State) : State :=
  s.modCor fun x => { x with
    cores := [(0, { from_ := s.mc }), (1, { pos := 1, from_ := s.mc + staggerMc }), (2, { pos := 2, from_ := s.mc + 2 * staggerMc })] }

/-- A failed self-check of START_UP holds the control cores (R41). DEDUCED (log 55): each reads as HELD. -/
def State.holdAll (s : State) : State :=
  s.modCor fun x => { x with cores := (List.range 3).map fun c => (c, { s.core c with st := .held }) }

/-- After a resynchronisation the core in LEAD is stalled until the source is 4,096 behind it (R497). DEDUCED (log 57):
counted in retired instructions. -/
def State.leadStalled (s : State) (c : Nat) : Bool :=
  (s.core c).pos == 0 && s.cor.realign.elim false fun m => decide ((s.core m).instr + 4096 < (s.core c).instr)

/-- Core c executes instructions: released, in the vote, not stalled by R477 and not the source of a copy (R470, R477,
R497). -/
def State.coreRuns (s : State) (c : Nat) : Bool :=
  let x := s.core c
  x.votes && s.atStep 5 && decide (x.from_ ≤ s.mc) && x.flag == 0 && s.cor.source != some c && !s.leadStalled c

/-- How far core c may retire: 65,536 instructions past its last checkpoint (R480), and 1,024 behind the core ahead (R471). -/
def State.retireLimit (s : State) (c : Nat) : Nat :=
  let x := s.core c
  min (x.ckptInstr + 65536) (if x.pos = 0 then x.ckptInstr + 65536 else (s.core (s.coreAt (x.pos - 1))).instr - 1024)

/-- The cores retire up to the counts given for Fore, Main and Mizzen, each as far as the stagger unit lets it, from LEAD
to TRAIL (R471). -/
def State.retire (s : State) (counts : List Nat) : State :=
  let s1 := ((List.range 3).map s.coreAt).foldl (fun q c =>
    if q.coreRuns c then q.modCore c fun x => { x with instr := max x.instr (min (counts.getD c 0) (q.retireLimit c)) } else q) s
  if (s1.leadStalled (s1.coreAt 0)) then s1 else s1.modCor fun x => { x with realign := none }

/-- Core c reaches the instruction at its count: nothing has stalled it before. -/
def State.reaches (s : State) (counts : List Nat) (c : Nat) : Bool :=
  s.coreRuns c && ((s.retire counts).core c).instr == counts.getD c 0

/-- REPAIR evidence (R500). -/
def State.coreRecord (s : State) (c : Nat) : State :=
  let x := s.core c
  s.evDev 0x0702 (if x.st = .failed then 2 else 0) (le 1 c ++ le 1 x.st.code ++ le 1 x.pos)

/-! ### The input ledger (R472 to R477) -/

/-- The 64 bytes of an entry (R472). -/
def ledgerBytes (seq kind len source time addr : Nat) (value : Bytes) : Bytes :=
  let b := le 4 seq ++ le 1 kind ++ le 1 len ++ le 2 source ++ le 8 time ++ le 8 addr ++ padTo 32 (value.take len) ++ zeros 4
  b ++ le 4 (crcK b)

/-- SEQ of the oldest entry kept. -/
def Cores.oldest (x : Cores) : Nat := (x.ldgSeq + 2 ^ 32 - x.ledger.length) % 2 ^ 32

/-- The kept entry of a SEQ. -/
def Cores.entry (x : Cores) (seq : Nat) : Option LedgerEntry :=
  x.ledger[(seq + 2 ^ 32 - x.oldest) % 2 ^ 32]?

/-- Entries that every core in the vote has consumed are no longer kept (R476). -/
def State.pruneLedger (s : State) : State :=
  let v := s.voters
  s.modCor fun x => { x with ledger := x.ledger.dropWhile fun e => v.all e.taken.contains }

/-- Core c consumes the entry at its ledger position. -/
def State.consume (s : State) (c : Nat) (value : Bytes) : State :=
  let seq := (s.core c).ldgSeq
  let s1 := s.modCor fun x => { x with
    ledger := x.ledger.set ((seq + 2 ^ 32 - x.oldest) % 2 ^ 32)
      ((x.entry seq).elim {} fun e => { e with taken := insNat c e.taken })
    ldgValue := value }
  (s1.modCore c fun y => { y with ldgSeq := (seq + 1) % 2 ^ 32 }).pruneLedger

/-- The first core to reach a request samples the input into a new entry (R473); with 2,048 entries kept it stalls
(R476). -/
def State.sample (s : State) (c kind len source addr : Nat) (value : Bytes) : State :=
  if s.cor.ledger.length ≥ 2048 then s
  else
    let b := ledgerBytes s.cor.ldgSeq kind len source s.tmb.now addr value
    let s1 := s.modCor fun x => { x with
      ledger := x.ledger ++ [{ bytes := b }], ldgSeq := (x.ldgSeq + 1) % 2 ^ 32
      ldgHigh := max x.ldgHigh (x.ledger.length + 1) }
    s1.consume c (slice b 24 len)

/-- ADDR of a request: the address of an external read, the retired-instruction count of an interrupt, else 0 (R472, R475). -/
def State.requestAddr (s : State) (c kind addr : Nat) : Nat :=
  if kind = 1 then (s.core c).instr else if kind = 2 then addr else 0

/-- A request of core c: a sample, or a replay of the entry at its position. The core uses the entry only when its CHECK
is right and its KIND, LEN, SOURCE and ADDR are those of the request; otherwise it stalls with CRC_FAIL or ORDER until its
checkpoint is decided (R474, R475, R477). `bad` says that the entry fails CHECK at this core's read port. -/
def State.ledgerRequest (s : State) (c : Nat) (counts : List Nat) (kind len source addr : Nat) (value : Bytes) (bad : Bool) :
    State :=
  if !s.reaches counts c || kind < 1 || 5 < kind || len < 1 || 32 < len then s.retire counts
  else
    let s1 := s.retire counts
    let a := s1.requestAddr c kind addr
    match s1.cor.entry (s1.core c).ldgSeq with
    | none => s1.sample c kind len source a value
    | some e =>
      let b := e.bytes
      if bad || rd b 60 4 != crcK (b.take 60) then s1.modCore c fun x => { x with flag := 1 }
      else if rd b 4 1 != kind || rd b 5 1 != len || rd b 6 2 != source || rd b 16 8 != a then
        s1.modCore c fun x => { x with flag := 2 }
      else s1.consume c (slice b 24 len)

/-! ### Dissent (R484, R487, R494 to R496) -/

/-- The record of core c for a checkpoint number. -/
def State.ckptOf (s : State) (n c : Nat) : Option Bytes :=
  (s.cor.records.find? fun r => r.core == c && rd r.bytes 0 8 == n).map (·.bytes)

/-- FIELDS of a DISAGREE record: which fields of two records differ (R500). -/
def diffFields (a b : Bytes) : Nat :=
  let d (off n : Nat) := b2n (slice a off n != slice b off n)
  d 8 8 + 2 * d 16 8 + 4 * d 24 8 + 8 * d 32 8 + 16 * d 40 4 + 32 * d 47 1 + 64 * d 48 4 +
    128 * b2n (slice a 44 3 != slice b 44 3 || slice a 52 8 != slice b 52 8)

/-- The cores that stay keep their order in LEAD and MIDDLE when core c drops out (R496). -/
def State.dropPosition (s : State) (c : Nat) : State :=
  let p := (s.core c).pos
  let s1 := (List.range 3).foldl (fun q d => q.modCore d fun y => if y.pos != 3 && p < y.pos then { y with pos := y.pos - 1 } else y) s
  s1.modCore c fun y => { y with pos := 3 }

/-- The core is held: out of the vote, its records gone. -/
def State.holdCore (s : State) (c : Nat) (st : CoreState) : State :=
  ((s.dropPosition c).modCore c fun y => { y with st := st, copying := false, flag := 0, banks := [] }).modCor (fun x => { x with
    records := x.records.filter fun r => r.core != c, source := if x.source = none then none else if (s.core c).copying then none else x.source })
    |>.pruneLedger

/-- Core c dissents (R484, R487, R496): `kind` as GLB_CORE_C_STAT.KIND, the checkpoint, and the record fields that
differ. -/
def State.dissent (s : State) (c kind ckpt fields pc : Nat) : State :=
  let x := s.core c
  let s1 := s.modCore c fun y => { y with
    disagree := inc 8 y.disagree, kind := if x.st = .resync ∧ kind ≠ 5 then 7 else kind, faultTime := s.tmb.now, faultCkpt := ckpt, faultPc := pc }
  let s2 := s1.evDev 0x0701 2 (le 1 c ++ le 1 (s1.core c).kind ++ le 1 x.pos ++ le 1 fields ++ le 4 pc ++ le 8 ckpt)
  match x.st with
  | .resync => ((s2.holdCore c .failed).repairEnds (coreElem c)).coreRecord c
  | .service =>
    if s.glb.st = .degraded ∨ s.glb.repairs ≠ [] ∨ s.voters.length < 3 then s2.enterSafe 0x10
    else
      let failed := 3 ≤ (s2.core c).disagree
      let s3 := s2.holdCore c (if failed then .failed else .held)
      let s4 := if failed then s3.coreRecord c
                else (s3.repairBegins (coreElem c)).requestRetest (coreElem c)
      let s5 := s4.modCor fun y => { y with degradedBy := some c }
      if s.glb.st = .safe then s5 else s5.enterDegraded 0x01
  | _ => s2

/-! ### The vote -/

/-- Decisions of GLB_VOT_STAT.LAST (R498). -/
inductive VoteCode where
  | accept | dissent | order | ledger | twoFaults
deriving DecidableEq, Repr, Inhabited

def VoteCode.code : VoteCode → Nat | .accept => 0 | .dissent => 1 | .order => 2 | .ledger => 3 | .twoFaults => 4

/-- A half's decision: code, majority cores, dissenter. -/
structure Decision where
  code : VoteCode := .twoFaults
  majority : List Nat := []
  odd : Option Nat := none
deriving DecidableEq, Repr, Inhabited

/-- The decision by the FLAGS of the majority; `alone` when all three agree. Combinations that the table of R484 does
not list take a free decision. -/
def decideFlags (flags : Nat) (alone : Bool) (free : Nat) : VoteCode :=
  let crc := bitAt flags 0
  let ord := bitAt flags 1
  let other := match free % 5 with | 0 => VoteCode.accept | 1 => .dissent | 2 => .order | 3 => .ledger | _ => .twoFaults
  if alone then (if flags = 0 then .accept else if crc then .ledger else other)
  else if flags = 0 then .dissent
  else if crc then .twoFaults
  else if ord then .order
  else other

/-- What each half decides on checkpoint n (R484). -/
def State.decision (s : State) (n free : Nat) : Decision :=
  let v := s.voters
  let r := fun c => (s.ckptOf n c).map fun b => b.take 60
  let same := fun a b => (r a).isSome && r a == r b
  let fl := fun c => ((r c).map fun b => rd b 47 1).getD 0
  match v with
  | [a, b, c] =>
    if same a b && same b c then { code := decideFlags (fl a) true free, majority := [a, b, c] }
    else if same a b then { code := decideFlags (fl a) false free, majority := [a, b], odd := some c }
    else if same a c then { code := decideFlags (fl a) false free, majority := [a, c], odd := some b }
    else if same b c then { code := decideFlags (fl b) false free, majority := [b, c], odd := some a }
    else {}
  | [a, b] => if same a b && fl a == 0 then { code := .accept, majority := [a, b] } else {}
  | _ => {}

/-- Fault kind of a dissenter by its own record (R499). -/
def dissentKind (b : Option Bytes) : Nat :=
  match b with
  | none => 4
  | some r => if bitAt (rd r 47 1) 0 then 2 else if bitAt (rd r 47 1) 1 then 3 else 1

/-- The dissenter of a decision is handled. -/
def State.oddOut (s : State) (n : Nat) (d : Decision) : State :=
  match d.odd with
  | none => s
  | some c =>
    let own := s.ckptOf n c
    let maj := (d.majority.head?).bind (s.ckptOf n)
    s.dissent c (dissentKind own) n (match own, maj with | some a, some b => diffFields a b | _, _ => 0)
      (own.elim 0 fun b => rd b 48 4)

/-- LEDGER evidence (R500): the entry flagged follows the last one consumed. -/
def State.ledgerRecord (s : State) (sev : Nat) (maj : List Nat) (n flag : Nat) : State :=
  let seq := (((maj.head?).bind (s.ckptOf n)).elim 0 fun b => rd b 40 4 + 1) % 2 ^ 32
  let e := ((s.cor.entry seq).map (·.bytes)).getD []
  s.evDev 0x0703 sev (le 4 seq ++ le 1 (rd e 4 1) ++ le 1 (ofBitList maj) ++ le 2 (rd e 6 2) ++ le 1 flag)

/-- The ledger discards the entry flagged and every later one; the majority replays from it (R486). -/
def State.discardFrom (s : State) (maj : List Nat) (n : Nat) : State :=
  let seq := (((maj.head?).bind (s.ckptOf n)).elim 0 fun b => rd b 40 4 + 1) % 2 ^ 32
  let s1 := s.modCor fun x => { x with
    ledger := x.ledger.take ((seq + 2 ^ 32 - x.oldest) % 2 ^ 32), ldgSeq := seq }
  maj.foldl (fun q c => q.modCore c fun y => { y with ldgSeq := seq }) s1

/-- The bank that core c closed with checkpoint n leaves the core (R483). -/
def State.releaseBank (s : State) (n c : Nat) : State :=
  (((s.core c).banks.find? fun x => x.1 == n).elim [] (·.2)).foldl (fun q (addr, typ, data) => q.emit (.action c addr typ data)) s

/-- The banks of checkpoint n are free again and its cores go on (R477, R479, R483). -/
def State.freeBanks (s : State) (n : Nat) : State :=
  (List.range 3).foldl (fun q c => q.modCore c fun x => { x with banks := x.banks.filter fun b => b.1 != n, flag := 0 }) s

/-- The bank of the first majority core is released, and a core in RESYNC that agreed is back in service (R483, R496). -/
def State.accepted (s : State) (n : Nat) (d : Decision) : State :=
  let s0 := (d.majority.head?).elim s fun c => s.releaseBank n c
  let s1 := (s0.modCor fun x => { x with
    accepted := (x.accepted + 1) % 2 ^ 64, released := (d.majority.head?).map fun c => (c, n) }).freeBanks n
  if d.code = .accept ∧ d.majority.length = 3 then
    (d.majority.filter fun c => (s.core c).st == .resync).foldl (fun q c =>
      (((q.modCore c fun y => { y with st := .service }).coreRecord c).repairEnds (coreElem c)).exitDegraded 0x01) s1
  else s1

/-- A core that waits in RESYNC is copied into after a checkpoint accepted in DUAL: the core in MIDDLE is the source
(R497). -/
def State.startCopy (s : State) : State :=
  match (List.range 3).find? fun c => (s.core c).st == .resync && (s.core c).pos == 3 && !(s.core c).copying with
  | none => s
  | some c =>
    (s.modCore c fun y => { y with copying := true }).modCor fun x => { x with
      source := (List.range 3).find? fun m => (s.core m).pos == 1 && (s.core m).st == .service }

/-- The reaction to a decision on checkpoint n (R483 to R486). DEDUCED (log 56): ACCEPT_ORDER accepts the checkpoint too; it
counts in ACCEPTED and the bank is released. -/
def State.react (s : State) (n : Nat) (d : Decision) : State :=
  let dual := s.voters.length == 2
  let s0 := s.modCor fun x => { x with last := d.code.code }
  let done := fun (q : State) => q.modCor fun x => { x with records := x.records.filter fun r => rd r.bytes 0 8 != n }
  match d.code with
  | .accept => done (if dual then (s0.accepted n d).startCopy else s0.accepted n d)
  | .dissent => done ((s0.accepted n d).oddOut n d)
  | .order =>
    let s1 := ((s0.accepted n d).modCor fun x => { x with order := inc 16 x.order }).ledgerRecord 1 d.majority n 2
    done ((s1.oddOut n d).discardFrom d.majority n)
  | .ledger => done ((s0.ledgerRecord 3 d.majority n 1).enterSafe 0x13)
  | .twoFaults => done (s0.enterSafe 0x10)

/-- Checkpoint n is decided (R482, R484, R485). `a` and `b` replace the decision of half A or B, for a fault in that
half; `banks` says that the halves choose different banks. -/
def State.vote (s : State) (n : Nat) (a b : Option Nat) (banks : Bool) : State :=
  let (v, s1) := s.fresh
  let d := s1.decision n v
  let x := a.getD d.code.code
  let y := b.getD d.code.code
  if x ≠ y ∨ banks then
    ((s1.modCor fun q => { q with last := 5, records := q.records.filter fun r => rd r.bytes 0 8 != n }).evDev 0x0704 3
      (le 8 n ++ le 1 x ++ le 1 y)).enterSafe 0x12
  else s1.react n d

/-- Every core in the vote has its record of checkpoint n in (R482). -/
def State.allIn (s : State) (n : Nat) : Bool := s.voters.all fun c => (s.ckptOf n c).isSome

/-- What makes a core close its bank: an action barrier, 32 transactions in it, 65,536 instructions since its last
checkpoint, or R477 (R480). A core takes no checkpoint for another reason, and none while both banks are closed (R479). -/
def State.closes (s : State) (c : Nat) (actions : List Action) (barrier : Bool) : Bool :=
  let x := s.core c
  decide (x.banks.length < 2) && decide (actions.length ≤ 32) &&
    (barrier || actions.length == 32 || x.instr - x.ckptInstr == 65536 || x.flag != 0)

/-- Core c takes a checkpoint: it closes its bank of the transactions it has issued since its last one. -/
def State.closeBank (s : State) (c : Nat) (actions : List Action) : State :=
  s.modCore c fun x => { x with ckpt := x.ckpt + 1, ckptInstr := x.instr, banks := x.banks ++ [(x.ckpt + 1, actions)] }

/-- The record of the checkpoint that core c takes now (R481): the fields that its state gives, the signature of the bank
it closes, FLAGS as R477 asks; of two causes R477 is named, then a barrier, then a full bank (DESIGN CHOICE, log 57). `given`
adds REG_SIG, STORE_SIG and PC, which the firmware's run decides, and elsewhere the bits in which a faulty core's record is
wrong, those of CHECK among them. -/
def State.ckptBytes (s : State) (c : Nat) (actions : List Action) (barrier : Bool) (given : Bytes) : Bytes :=
  let x := s.core c
  let sig := crcUpdate 2 (crcInit 2) (actions.flatMap fun (addr, typ, data) => le 8 addr ++ data ++ le 1 typ)
  let cause := if x.flag ≠ 0 then 4 else if barrier then 1 else if actions.length = 32 then 2 else 3
  let sound := le 8 (x.ckpt + 1) ++ le 8 x.instr ++ zeros 16 ++ le 8 sig ++ le 4 (x.ldgSeq + 2 ^ 32 - 1) ++
    le 2 actions.length ++ le 1 cause ++ le 1 x.flag ++ zeros 12
  let b := List.zipWith (· ^^^ ·) sound given
  b ++ le 4 (crcK b ^^^ rd given 60 4)

/-- The 64 bytes of core c's record arrive at the voter; one whose CHECK fails counts as missing (R481). -/
def State.recordIn (s : State) (c : Nat) (r : Bytes) (a b : Option Nat) (banks : Bool) : State :=
  let n := rd r 0 8
  if rd r 60 4 ≠ crcK (r.take 60) then s
  else
    let s1 := s.modCor fun x => { x with
      records := if (s.ckptOf n c).isSome then x.records else x.records ++ [{ core := c, bytes := r, at_ := s.mc }] }
    if s1.allIn n then s1.vote n a b banks else s1

/-- CHECKPOINT: core c, at its count, has issued `actions` since its last checkpoint and takes one, at an action barrier
or for another reason of R480; its record arrives at the voter. -/
def State.checkpoint (s : State) (c : Nat) (counts : List Nat) (actions : List Action) (barrier : Bool)
    (given : Bytes) (a b : Option Nat) (banks : Bool) : State :=
  let s1 := s.retire counts
  if (s.reaches counts c || ((s.core c).votes && (s.core c).flag != 0)) && s1.closes c actions barrier then
    (s1.closeBank c actions).recordIn c (s1.ckptBytes c actions barrier (padTo 64 given)) a b banks
  else s1

/-- VOTE_TIMEOUT: 100 µs after the first record of a number, the vote is decided (R482). -/
def State.voteTimeout (s : State) (a b : Option Nat) (banks : Bool) : State :=
  match s.cor.records.head? with
  | some r => if s.mc - r.at_ ≥ 100 * usMc then s.vote (rd r.bytes 0 8) a b banks else s
  | none => s

/-- The copy into the repaired core ends: it starts in TRAIL from the source's state (R497). -/
def State.copyDone (s : State) : State :=
  match (List.range 3).find? fun c => (s.core c).copying, s.cor.source with
  | some c, some m =>
    let y := s.core m
    let s1 := s.modCore c fun x => { x with
      copying := false, pos := 2, instr := y.instr, ckpt := y.ckpt, ldgSeq := y.ldgSeq, ckptInstr := y.ckptInstr
      from_ := s.mc + staggerMc }
    s1.modCor fun x => { x with source := none, realign := some m }
  | _, _ => s

/-! ### The retest slice of a core (R496) -/

/-- The slice starts: the core goes from HELD to TEST. -/
def State.coreTest (s : State) (c : Nat) : State :=
  if (s.core c).st = .held then (s.modCore c fun y => { y with st := .test }).coreRecord c else s

/-- The slice ends. -/
def State.coreSlice (s : State) (c : Nat) (pass : Bool) : State :=
  if (s.core c).st ≠ .test then s
  else if pass then (s.modCore c fun y => { y with st := .resync }).coreRecord c
  else ((s.modCore c fun y => { y with st := .failed, kind := 6, faultTime := s.tmb.now }).repairEnds (coreElem c)).coreRecord c

/-! ### Commands -/

/-- LEDGER_REQUEST of core c; `counts` are the retired-instruction counts of Fore, Main and Mizzen. -/
def execLedgerRequest (dt c : Nat) (counts : List Nat) (kind len source addr : Nat) (value : Bytes) (bad : Bool) (s : State) :
    Host.Outcome State Fault Refusal :=
  .next ((s.advance dt).ledgerRequest c counts kind len source addr value bad)

def execCheckpoint (dt c : Nat) (counts : List Nat) (actions : List Action) (barrier : Bool) (given : Bytes)
    (a b : Option Nat) (banks : Bool) (s : State) : Host.Outcome State Fault Refusal :=
  .next ((s.advance dt).checkpoint c counts actions barrier given a b banks)

def execVoteTimeout (dt : Nat) (a b : Option Nat) (banks : Bool) (s : State) : Host.Outcome State Fault Refusal :=
  .next ((s.advance dt).voteTimeout a b banks)

def execResyncCopyDone (dt : Nat) (s : State) : Host.Outcome State Fault Refusal := .next (s.advance dt).copyDone

/-- TDEG_EXPIRY (R41, R492): the expiry takes effect even against a repair of the same main clock (R493). -/
def execTdegExpiry (dt : Nat) (s : State) : Host.Outcome State Fault Refusal :=
  let s := s.advance dt
  .next (if s.glb.st = .degraded ∧ s.mc - s.glb.tdegFrom ≥ s.glb.tdegS * 1000 * msMc then s.enterSafe 0x11 else s)

/-- INJECTION_TEST: the start-up test ends with `passed` steps in their expected outcome and the first failing step, 0
if none, after `us` µs (R488, R489). -/
def execInjectionTest (dt passed first us : Nat) (s : State) : Host.Outcome State Fault Refusal :=
  let s := s.advance dt
  .next (
    if s.atStep 5 ∧ !s.glb.booted ∧ (s.glb.st = .startUp ∨ (s.glb.st = .degraded ∧ s.glb.prior = .startUp)) then
      let ok := first = 0 ∧ passed = 10
      let s1 := (s.modCor fun x => { x with injPass := ok, injPassed := passed % 16, injFirst := first % 16, injTime := sat 16 us }).evDev
        0x0705 (if ok then 0 else 3) (le 1 passed ++ le 1 first ++ zeros 2 ++ le 4 us)
      if ok then (({ s1 with nvm := { s1.nvm with fuses := s1.nvm.fuses ||| ((2 ^ s1.cfg.svn - 1) * 2 ^ 2304) } }).modCor
        fun x => { x with
          ledger := [], ldgSeq := 0, ldgHigh := 0, ldgValue := [], records := []
          accepted := 0, last := 0, order := 0, released := none, source := none }).startCores
      else s1.holdAll.enterSafe 0x19
    else s)

end Sys2Proof.Machine
end

