-- ==== Sys2Proof/Machine/Comparator.lean ====
section
/-! DEFINITION. The comparator: corridors, matching, the counts and the code of a comparison (R340 to R362). -/

namespace Sys2Proof.Machine

/-! ### Corridors (R345, R351, R352) -/

/-- Vertex i of a corridor block. -/
def corrVertex (b : Bytes) (i : Nat) : Int × Int := (rd b (8 + 4 * i) 2, rd b (10 + 4 * i) 2)

/-- The edge from (x1, y1) to (x2, y2) crosses row py to the right of px (R351). -/
def edgeCrosses (px py : Int) (a b : Int × Int) : Bool :=
  let (x1, y1) := a
  let (x2, y2) := b
  (decide (y1 > py) != decide (y2 > py)) &&
    ((decide (y2 > y1) && decide ((px - x1) * (y2 - y1) < (py - y1) * (x2 - x1))) ||
     (decide (y2 < y1) && decide ((px - x1) * (y2 - y1) > (py - y1) * (x2 - x1))))

/-- Cell (cx, cy) lies in the corridor (R351). -/
def inCorridor (b : Bytes) (cx cy : Nat) : Bool :=
  bitAt (rd b 1 1) 0 ||
  let n := rd b 0 1
  (List.range n).foldl (fun ins i =>
    ins ^^ edgeCrosses (16 * cx + 8) (16 * cy + 8) (corrVertex b i) (corrVertex b ((i + 1) % n))) false

/-- An object entry of either side (R338). -/
structure Obj where
  valid : Bool
  cls : Nat
  conf : Nat
  x : Nat
  y : Nat
  hl : Nat
  hw : Nat
  vx : Int
  vy : Int
deriving DecidableEq, Repr, Inhabited

/-- Entry i of an objects section. -/
def objAt (b : Bytes) (i : Nat) : Obj :=
  let o := 32 * i
  { valid := bitAt (rd b o 1) 0, cls := rd b (o + 1) 1, conf := fld (rd b (o + 2) 1) 0 6, x := rd b (o + 8) 2,
    y := rd b (o + 10) 2, hl := rd b (o + 12) 2, hw := rd b (o + 14) 2, vx := sgn 16 (rd b (o + 18) 2),
    vy := sgn 16 (rd b (o + 20) 2) }

/-- |a − b| of naturals. -/
def dist (a b : Nat) : Nat := (a - b) + (b - a)

/-- Cells along one axis whose centre lies within h of c, and the cell of c itself (R352). -/
def axisCells (c h : Nat) : List Nat := (List.range 256).filter fun i => dist (16 * i + 8) c ≤ h

/-- The object lies in the corridor: a cell it covers does (R352). -/
def Obj.inside (o : Obj) (corr : Bytes) : Bool :=
  let h := max o.hl o.hw
  inCorridor corr (o.x / 16) (o.y / 16) ||
  (axisCells o.y h).any fun cy => (axisCells o.x h).any fun cx => inCorridor corr cx cy

/-- Two objects match (R356). -/
def Obj.matches (a b : Obj) (d : Nat) : Bool :=
  (a.cls == b.cls || a.cls == 0 || b.cls == 0) && dist a.x b.x ≤ d && dist a.y b.y ≤ d

/-! ### Shadow sections (R340 to R343) -/

/-- A valid shadow entry outside the encodings and ranges of R338; TRACK_ID may be 0 (R340). -/
def Obj.damaged (o : Obj) : Bool :=
  o.valid && (o.cls > 6 || o.x > 4095 || o.y > 4095 || o.hl < 1 || o.hl > 4096 || o.hw < 1 || o.hw > 4096)

/-- The sections a comparison reads. -/
structure Sections where
  grid : Bytes
  objects : Bytes
  temporal : Bytes
deriving DecidableEq, Repr, Inhabited

def Sections.damaged (x : Sections) : Bool :=
  x.grid.length != 65536 || x.grid.any (fun c => fld c.toNat 0 2 == 3) ||
  x.objects.length != 8192 || (List.range 256).any (fun i => (objAt x.objects i).damaged) ||
  x.temporal.length != 320 || rd x.temporal 256 1 > 15

/-- Model slots that a mask binds. -/
def maskSlots (mask : Nat) : List Nat := bitList 4 mask

/-- The bound slot whose EMITS holds section e (R320, R357). -/
def State.emitter (s : State) (mask e : Nat) : Option Nat :=
  (maskSlots mask).find? fun m => bitAt (bEmits ((s.model m).active.getD [])) e

/-- The shadow sections of a context. -/
def State.sections (s : State) (mask : Nat) : Sections :=
  let get (e : Nat) (f : ShadowOut → Bytes) : Bytes := (s.emitter mask e).elim [] fun m => f (s.model m).out
  { grid := get 0 (·.grid), objects := get 1 (·.objects), temporal := get 2 (·.temporal) }

/-! ### Counting (R357) -/

/-- Cells of the corridor where the accelerator's cell and the shadow's satisfy p. -/
def cellCount (corr acc shd : Bytes) (p : Nat → Nat → Bool) : Nat :=
  (List.range 65536).foldl (fun n i =>
    if p (rd acc i 1) (rd shd i 1) && inCorridor corr (i % 256) (i / 256) then n + 1 else n) 0

/-- The counts of R357 for a context with its thresholds, the accelerator's outputs (grid and objects) and the shadow
sections. -/
def countAll (w : Watch) (corr accGrid accObj : Bytes) (x : Sections) : CmpCounts :=
  let acc := (List.range 256).map (objAt accObj)
  let accV := acc.filter (·.valid)
  let shd := ((List.range 256).map (objAt x.objects)).filter (·.valid)
  let st (c : Nat) : Nat := fld c 0 2
  let conf (c : Nat) : Nat := fld c 2 6
  let missObj (o : Obj) : Bool :=
    o.conf ≥ w.thrObj && o.inside corr &&
      let ms := accV.filter fun a => a.matches o w.matchDist
      ms.isEmpty || (w.velTol > 0 && ms.all fun a => (a.vx - o.vx).natAbs > w.velTol || (a.vy - o.vy).natAbs > w.velTol)
  let flagged (bit : Nat) : Nat :=
    ((acc.zipIdx).filter fun (o, j) => o.valid && bitAt (rd x.temporal j 1) bit && o.inside corr).length
  let vanish := ((List.range (rd x.temporal 256 1)).filter fun i =>
    inCorridor corr (rd x.temporal (260 + 4 * i + 2) 1) (rd x.temporal (260 + 4 * i + 3) 1)).length
  { missCells := cellCount corr accGrid x.grid fun a b => st a == 1 && st b == 2 && conf b ≥ w.thrCell
    phantomCells := cellCount corr accGrid x.grid fun a b => st a == 2 && st b == 1 && conf b ≥ w.thrFree
    missObj := (shd.filter missObj).length
    phantomObj := (accV.filter fun a => a.inside corr && shd.all fun o => !(a.matches o w.matchDist)).length
    tempMiss := flagged 1 + vanish
    tempAppear := flagged 0 }

/-- Code of a finished comparison (R358, R362). -/
def Watch.cmpResult (w : Watch) (n : CmpCounts) : Nat :=
  if n.missCells ≥ w.missCells then 0x10 else if n.missObj > 0 then 0x11 else if n.tempMiss > 0 then 0x12 else 2

/-- The frame is a phantom frame (R359). -/
def Watch.phantom (w : Watch) (n : CmpCounts) : Bool :=
  w.cmpResult n == 2 && (n.phantomCells ≥ w.phantomCells || n.phantomObj > 0 || n.tempAppear > 0)

/-! ### Starting and finishing (R360) -/

/-- The context receives a verdict in the current frame (R365). -/
def State.eligible (s : State) (c : Nat) : Bool :=
  let w := s.watch c
  s.fr.ticking && w.isOpen && w.openedIn.elim true fun n => n < s.fr.num

/-- Every bound slot's pass is done in this frame (R319). -/
def State.shadowDone (s : State) (w : Watch) : Bool := (maskSlots w.modelMask).all fun m => (s.model m).code == 3

/-- The corridor of the current frame with the main clock of its acceptance; a fixed corridor is there from the tick, which
is no later than the other inputs. -/
def State.corridor (s : State) (w : Watch) : Option (Bytes × Nat) :=
  if w.corrFixed then some (w.corridor, 0)
  else (w.corridors.find? fun x => x.1 == s.fr.num).map (·.2)

/-- The report is complete, the passes are done and the comparison has not started. -/
def State.cmpInputs (s : State) (c : Nat) : Bool :=
  let w := s.watch c
  s.eligible c && w.modelMask != 0 && w.cmpCode == 1 && w.cmpStart.isNone && (s.slot w.slot).rep.code == 2 &&
    s.shadowDone w && !s.past 1

/-- The comparison can start (R360). -/
def State.cmpReady (s : State) (c : Nat) : Bool := s.cmpInputs c && (s.corridor (s.watch c)).isSome

/-- The main clock of its start (R360). -/
def State.cmpTime (s : State) (c : Nat) : Nat :=
  let w := s.watch c
  let corr := (s.corridor w).elim 0 (·.2)
  (maskSlots w.modelMask).foldl (fun a m => max a (s.model m).doneMc) (max corr (s.slot w.slot).doneMc)

/-- The context whose comparison starts next: in order of start time, then of number (R360). -/
def State.cmpNext (s : State) : Option Nat :=
  (s.openCtxs.filter s.cmpReady).foldl (fun a c => match a with
    | none => some c
    | some d => if s.cmpTime c < s.cmpTime d then some c else a) none

/-- A comparison without a corridor at D_c ends with code 0x04 (R350, R360). Another cause may still come before it in
the order of R362, so it is counted at D_v. -/
def State.noCorridor (s : State) (c : Nat) : State := s.modWatch c fun w => { w with cmpCode := 4 }

/-- At D_c and from then on: a comparison whose other inputs are there and which has no corridor. -/
def State.settleCorridor (s : State) (c : Nat) : State :=
  if s.past 0 && s.cmpInputs c && (s.corridor (s.watch c)).isNone then s.noCorridor c else s

/-- The comparison of context c starts. -/
def State.cmpStart (s : State) (c : Nat) : State :=
  let s1 := s.modWatch c fun w => { w with cmpStart := some s.mc }
  { s1 with vrd := { s1.vrd with comparing := some c } }

/-- The comparison of context c finishes (R344, R357 to R359, R362); after D_v its result is discarded. -/
def State.cmpFinish (s : State) (c : Nat) : State :=
  let w := s.watch c
  let s0 := { s with vrd := { s.vrd with comparing := none } }
  if w.cmpCode ≠ 1 ∨ w.cmpStart.isNone ∨ s.past 1 then s0
  else
    let x := s.sections w.modelMask
    if x.damaged then
      let s1 := s0.modWatch c fun w => { w with cmpCode := 6 }
      { s1 with vrd := { s1.vrd with cmpSchema := inc 16 s1.vrd.cmpSchema } }
    else match s.corridor w with
      | none => s0
      | some (corr, _) =>
        let r := (s.slot w.slot).rep.bytes
        let n := countAll w corr (slice r 320 65536) (slice r 65856 8192) x
        let ph := w.phantom n
        s0.modWatch c fun w => { w with
          cmpCode := w.cmpResult n, cmp := n, phantomNow := ph
          phantomFrames := if ph then inc 16 w.phantomFrames else w.phantomFrames }

/-- Code at D_v of a comparison that has not finished, by the order of its causes (R362). -/
def State.cmpCause (s : State) (w : Watch) : Nat :=
  if (s.slot w.slot).rep.code ≠ 2 then 7
  else if !(s.shadowDone w) then 5
  else if (s.sections w.modelMask).damaged then 6
  else if w.cmpCode = 4 ∨ (s.corridor w).isNone then 4
  else 3

/-- The comparison item at D_v (R344, R362, R394 VRD_CMP). -/
def State.cmpEnd (s : State) (c : Nat) : State :=
  let w := s.watch c
  let s1 := if w.cmpCode = 1 ∨ w.cmpCode = 4 then
      let code := s.cmpCause w
      let q := s.modWatch c fun w => { w with cmpCode := code }
      { q with vrd := { q.vrd with
          cmpSchema := if code = 6 then inc 16 q.vrd.cmpSchema else q.vrd.cmpSchema
          noCorridor := if code = 4 then inc 16 q.vrd.noCorridor else q.vrd.noCorridor } }
    else s
  s1.modWatch c fun w => { w with
    phantomNow := w.phantomNow && w.cmpCode == 2, lastCmp := w.cmpCode, lastCounts := w.cmp }

/-- A context's comparison registers at the frame tick. -/
def State.cmpTick (s : State) (c : Nat) : State :=
  s.modWatch c fun w => { w with
    cmpCode := if w.modelMask = 0 then 0 else 1, cmpStart := none, cmp := {}, phantomNow := false
    corridors := w.corridors.filter fun x => s.fr.num ≤ x.1 }

end Sys2Proof.Machine
end

