-- ==== Sys2Proof/Machine/VerdictUnit.lean ====
section
/-! DEFINITION. The verdict unit: item states, the decision table, escalation, lanes, trust age and heartbeats, the
offering of golden tests, and the commands COMPARISON_START, COMPARISON_DONE, AGE_MONITOR and TRUST_HEARTBEAT (R363 to
R392). -/

namespace Sys2Proof.Machine

/-! ### Items (R87, R210, R264, R362) -/

/-- State of an evidence item at D_v. -/
inductive Item where
  | notRequired | passed | failed | incomplete
deriving DecidableEq, Repr, Inhabited

/-- The frame report item (R143). -/
def reportItem (code : Nat) : Item := if code = 2 then .passed else if 0x10 ≤ code then .failed else .incomplete

/-- An audit, challenges or comparison item from its code; `asReport` is the code that follows the report item. -/
def itemOf (code asReport : Nat) (report : Item) : Item :=
  if code = 0 then .notRequired else if code = 2 then .passed else if code = asReport then report
  else if 0x10 ≤ code then .failed else .incomplete

/-- The audit items of a context: report, linear audit, challenges (R363). -/
def State.auditItems (s : State) (w : Watch) : List Item :=
  let r := if w.invalid.contains s.fr.num then Item.failed else reportItem (s.slot w.slot).rep.code
  match s.planOf w.slot with
  | some p => [r, itemOf (s.plan p).code 4 r, itemOf (s.plan p).chCode 4 r]
  | none => [r]

def State.cmpItem (s : State) (w : Watch) : Item := itemOf w.cmpCode 7 (reportItem (s.slot w.slot).rep.code)

/-- The underlying verdict: R363 without row 5 (R364). -/
def State.underlying (s : State) (c : Nat) : Nat :=
  let w := s.watch c
  let a := s.auditItems w
  let m := s.cmpItem w
  if s.glb.st = .safe then 7
  else if a.contains .failed then 3
  else if m = .failed then 2
  else if w.latch ≠ .clear then 4
  else if a.contains .incomplete ∨ m = .incomplete then 5
  else if s.glb.st = .degraded then 6
  else 1

/-- The verdict of R363: row 5 stands between rows 4 and 6. -/
def Watch.verdict (w : Watch) (under : Nat) : Nat :=
  if w.esc ≠ .normal ∧ (under = 5 ∨ under = 6 ∨ under = 1) then w.escCode else under

/-! ### Budget and escalation (R377, R378) -/

/-- What a frame's underlying verdict does to a context; the second component says that a record is due. -/
def Watch.escalate (w : Watch) (under : Nat) : Watch × Bool :=
  match w.esc with
  | .normal =>
    let hit : Bool := under = 2 ∨ under = 3
    let w1 := { w with counted := (hit :: w.counted).take 255 }
    if hit ∧ w1.inWindow > w.budget then ({ w1 with esc := .escalated, escCode := under, trusted := false }, true)
    else (w1, false)
  | .escalated => ({ w with counted := (false :: w.counted).take 255 }, false)
  | .clearing =>
    let w1 := { w with counted := (false :: w.counted).take 255 }
    if under = 1 ∨ under = 6 then
      if w.clean < 15 then ({ w1 with clean := w.clean + 1 }, false)
      else ({ w1 with esc := .normal, escCode := 0, clean := 0, counted := [] }, true)
    else if under = 5 then ({ w1 with clean := 0 }, false)
    else if under = 2 ∨ under = 3 ∨ under = 4 then ({ w1 with clean := 0, esc := .escalated }, false)
    else (w1, false)

/-- The frame's escalation step of context c, with its record (R378, R455). -/
def State.escalate (s : State) (c under : Nat) : State :=
  let (w, rec_) := (s.watch c).escalate under
  let s1 := s.setWatch c w
  if rec_ then s1.evidence 0x0603 w.tenant 1 c (le 1 w.esc.code ++ le 1 w.escCode ++ le 1 w.inWindow) else s1

/-! ### Lanes (R369) -/

def laneElem (l : Nat) : Nat := 0x300 + l
def State.lane (s : State) (l : Nat) : LaneState := tget s.vrd.lanes l
def State.setLane (s : State) (l : Nat) (x : LaneState) : State :=
  { s with vrd := { s.vrd with lanes := tset s.vrd.lanes l x } }
def State.laneRecord (s : State) (l event : Nat) : State := s.evDev 0x0605 2 (le 1 l ++ le 1 event)

/-- A lane's retest goes ahead of the other pending retests (R369). -/
def State.retestFirst (s : State) (k : Nat) : State :=
  let f := s.owl.slf
  { s with owl := { s.owl with slf := { f with retests := k :: f.retests.erase k } } }

/-- Some lane is not in SERVICE. -/
def State.laneOut (s : State) : Bool := (List.range 3).any fun k => s.lane k != .service

/-- A lane is outvoted: isolated, its context state out of step until close-out, its retest first (R369). -/
def State.outvote (s : State) (l : Nat) : State :=
  let s0 := ({ s with vrd := { s.vrd with outvoted := inc 16 s.vrd.outvoted } }).laneRecord l 0
  if s.laneOut ∨ s.glb.st = .degraded ∨ s.glb.repairs ≠ [] then s0.enterSafe 0x10
  else
    let s1 := { s0 with vrd := { s0.vrd with stale := insNat l s0.vrd.stale } }
    ((s1.setLane l .repair).retestFirst (laneElem l)).repairBegins (laneElem l)

/-- Two lanes in service disagree while the third is not in service; the record names the lower one (R369; DESIGN CHOICE,
log entry 64). -/
def State.laneSplit (s : State) : State :=
  let l := ((List.range 3).find? fun k => s.lane k == .service).getD 0
  (s.laneRecord l 0).enterSafe 0x10

/-- What the voter finds at D_v: 0 nothing, 1 to 3 a lane outvoted, 4 no two lanes agree, 5 the voter halves disagree
(R369). -/
def State.laneEvent (s : State) (ev : Nat) : State :=
  if s.glb.st = .safe ∨ ev = 0 ∨ 5 < ev then s
  else if ev = 4 ∧ s.laneOut = true then s.laneSplit
  else if ev ≥ 4 then s.enterSafe 0x17
  else if s.lane (ev - 1) = .service then s.outvote (ev - 1)
  else s

/-- At close-out an outvoted lane takes the majority's context state (R369). -/
def State.laneReinit (s : State) : State := { s with vrd := { s.vrd with stale := [] } }

/-- A lane's slice ends (R369, R737). -/
def State.laneSlice (s : State) (l : Nat) (pass : Bool) : State :=
  match s.lane l with
  | .repair =>
    let s1 := (s.laneRecord l (if pass then 1 else 2)).repairEnds (laneElem l)
    if pass then s1.setLane l .service else (s1.setLane l .failed).singleFault 0x05
  | .service => if pass then s else ((s.laneRecord l 2).setLane l .failed).singleFault 0x05
  | .failed => s

/-! ### D_v (R365 to R368) -/

/-- One context's verdict of the frame, unless SAFE_STATE has been issued for it already. -/
def State.verdictOf (s : State) (x : Nat × Nat) : State :=
  let (c, under) := x
  let w := s.watch c
  if w.issued = some s.fr.num ∨ !w.isOpen then s
  else
    let code := w.verdict under
    let (v, s1) := s.fresh
    let s2 := s1.escalate c under
    let ns := v % 16001
    let s3 := s2.issue c code (s.tmb.now + ns)
    let s4 := if code = 7 then w.plx.foldl (fun q i => q.sendSafe s.glb.cause i) s3 else s3
    { s4 with vrd := { s4.vrd with
        lastIssue := max s4.vrd.lastIssue (ns / 16), issueMax := max s4.vrd.issueMax (ns / 16) } }

/-- The verdicts of every open context (R368): every condition but row 1 is sampled at D_v. A context that SAFE_STATE has
reached in this frame has its verdict (R366). -/
def State.issueAll (s : State) (lanes : Nat) : State :=
  let due := (s.openCtxs.filter fun c => s.eligible c && (s.watch c).issued != some s.fr.num).map fun c => (c, s.underlying c)
  let s1 := s.laneEvent lanes
  due.foldl (fun q x => q.verdictOf x) { s1 with vrd := { s1.vrd with lastIssue := if due.isEmpty then s1.vrd.lastIssue else 0 } }

/-! ### Golden tests at the tick (R383, R386, R387) -/

/-- A stored set that matches the active plan becomes active at the tick: one for the plan that has been active, or at its
SWITCH_FRAME one for the plan that has been staged (R383). -/
def State.goldActivate (s : State) (p : Nat) : State :=
  let g := s.gold p
  let mine (x : Option Bytes) : Option Bytes := x.filter fun set => (s.plan p).active.elim false fun pl => slice set 24 32 == pl.digest
  match mine g.staged, mine g.arriving with
  | some set, _ => s.modGold p fun g => { g with active := some set, staged := none, arriving := none, next := 0, stageCode := 1 }
  | none, some set => s.modGold p fun g => { g with active := some set, arriving := none, next := 0, stageCode := 1 }
  | none, none => s.modGold p fun g => { g with arriving := none }

/-- Plan slot p can be offered a test: an active set, a golden partition, a due context (R387). -/
def State.goldCandidate (s : State) (p : Nat) : Bool :=
  (s.gold p).active.isSome && s.cfg.active.goldPart p != 0 && (s.planCtxs p).any (s.goldDue p)

/-- The slot chosen: the largest GOLD_AGE, then the lowest number. -/
def State.goldChoice (s : State) : Option Nat :=
  ((List.range 16).filter s.goldCandidate).foldl (fun a p => match a with
    | none => some p
    | some q => if (s.gold q).age < (s.gold p).age then some p else a) none

/-- Golden tests at the frame tick: sets become active, ages rise, and one slot is offered a test. -/
def State.goldTick (s : State) : State :=
  let s1 := (List.range 16).foldl (fun q p => (q.goldActivate p).modGold p fun g => { g with
    age := inc 16 g.age, outcome := 0 }) s
  match s1.goldChoice with
  | none => { s1 with vrd := { s1.vrd with offered := none, pendingGold := false } }
  | some p =>
    let g := s1.gold p
    let n := goldEntries (g.active.getD [])
    let s2 := s1.modGold p fun g => { g with outcome := 1, next := (g.next + 1) % max 1 n }
    { s2 with
      vrd := { s2.vrd with offered := some p, offeredEntry := g.next, pendingGold := true }
      pw := { s2.pw with goldSlot := s2.cfg.active.plnReport p } }

/-! ### Trust and age (R373 to R375) -/

/-- The age monitor on one context (R374). -/
def State.ageCheck (s : State) (c : Nat) : State :=
  let w := s.watch c
  if w.trusted ∧ s.tooOld w then
    let s1 := (s.modWatch c fun w => { w with trusted := false, aged := true }).evidence 0x0602 w.tenant 1 c
      (le 4 (sat 32 (s.age w / us16)) ++ le 4 w.maxAge)
    w.plx.foldl (fun q i => q.sendVerdict i) s1
  else s

/-- A heartbeat of a context with output bindings (R375, R504). -/
def State.heartbeat (s : State) (c : Nat) : State :=
  let w := s.watch c
  if (w.sout ≠ 0 ∨ w.prv ≠ 0) ∧ w.trusted ∧ !s.tooOld w then
    s.toShroud 0x03 (le 1 (tget s.pch.slotOf c) ++ zeros 1 ++ le 2 c ++ le 2 w.sout ++ le 1 w.prv ++ zeros 3)
  else s

/-! ### Commands -/

/-- COMPARISON_START of context c, when it is the next in order and the comparator is free (R360). -/
def execComparisonStart (dt c : Nat) (s : State) : Host.Outcome State Fault Refusal :=
  let s := (s.advance dt).settleCorridor c
  .next (if s.vrd.comparing.isNone ∧ s.cmpNext = some c then s.cmpStart c else s)

/-- COMPARISON_DONE (R360). -/
def execComparisonDone (dt : Nat) (s : State) : Host.Outcome State Fault Refusal :=
  let s := s.advance dt
  .next (match s.vrd.comparing with | some c => s.cmpFinish c | none => s)

/-- AGE_MONITOR (R374). -/
def execAgeMonitor (dt : Nat) (s : State) : Host.Outcome State Fault Refusal :=
  let s := s.advance dt
  .next (s.openCtxs.foldl (fun q c => q.ageCheck c) { s with vrd := { s.vrd with ageAt := s.tmb.now } })

/-- TRUST_HEARTBEAT: every 100 µs (R375). -/
def execTrustHeartbeat (dt : Nat) (s : State) : Host.Outcome State Fault Refusal :=
  let s := s.advance dt
  .next (if s.mc - s.vrd.hbAt ≥ 100 * usMc then
      s.openCtxs.foldl (fun q c => q.heartbeat c) { s with vrd := { s.vrd with hbAt := s.mc } }
    else s)

end Sys2Proof.Machine
end

