-- ==== Sys2Proof/Machine/SelfTest.lean ====
section
/-! DEFINITION. The self-test engine: the runtime slice table, what starts in a SELFTEST slot, and what the end of a slice
does to its element (R727 to R739). -/

namespace Sys2Proof.Machine

/-! ### The runtime slice table -/

/-- KIND and UNIT of table entry e: the rounds of R729 in order, then the on-demand entries. -/
def sliceEntry (e : Nat) : Nat × Nat :=
  if e < 34 then (if e % 2 = 0 then (1, e / 2) else (2, e / 2))
  else if e < 37 then (3, e - 34)
  else if e < 40 then (2, e - 20)
  else if e < 42 then (4, e - 40)
  else if e < 94 then (2, e - 22)
  else if e < 158 then (5, e - 94)
  else if e < 166 then (6, e - 158)
  else if e < 175 then (7, e - 166)
  else (8, e - 175)

/-- The entries of round r. -/
def roundEntries (r : Nat) : List Nat :=
  if r < 17 then [2 * r, 2 * r + 1]
  else if r = 17 then (List.range 6).map (34 + ·)
  else if r = 18 then (List.range 8).map (40 + ·)
  else if r < 25 then (List.range 7).map (48 + 7 * (r - 19) + ·)
  else if r = 25 then (List.range 4).map (90 + ·)
  else if r = 26 then (List.range 67).map (94 + ·)
  else (List.range 5).map (161 + ·)

/-- BUDGET_US of a KIND and of a round (R729). -/
def kindBudget (k : Nat) : Nat :=
  match k with | 1 => 1600 | 2 => 250 | 3 => 400 | 4 => 150 | 5 => 25 | 6 => 120 | 7 => 1400 | _ => 1500
def roundBudget (r : Nat) : Nat := (roundEntries r).foldl (fun a e => a + kindBudget (sliceEntry e).1) 0

/-- ROUND of an entry; 0xFF for one run only on demand. -/
def entryRound (e : Nat) : Nat := ((List.range 28).find? fun r => (roundEntries r).contains e).getD 0xFF

/-- A PORT round (R727, R729). -/
def portRound (r : Nat) : Bool := r == 26 || r == 27

/-- The table entry of a KIND and UNIT. -/
def entryOf (k u : Nat) : Option Nat := (List.range 178).find? fun e => sliceEntry e == (k, u)

/-- The 32 bytes of entry e; PATTERNS, SEED and SIGNATURE stand in the ROM only. -/
def sliceBytes (e : Nat) : Bytes :=
  let (k, u) := sliceEntry e
  le 1 k ++ le 1 u ++ le 1 (entryRound e) ++ le 1 (b2n (portRound (entryRound e))) ++ le 2 (kindBudget k) ++ padTo 26 (Config.sliceRom e)

/-! ### Elements -/

/-- Power domain of SRAM bank b; banks 0 to 7 stand in domain 118 (R684). -/
def bankDomain (b : Nat) : Nat := if b < 8 then 118 else 27 + b
def State.bankOn (s : State) (b : Nat) : Bool := s.rst.on.contains (bankDomain b)
def State.bank (s : State) (b : Nat) : Bank := tget s.mem.banks b
def State.modMem (s : State) (f : Memory → Memory) : State := { s with mem := f s.mem }
def State.modBank (s : State) (b : Nat) (f : Bank → Bank) : State := s.modMem fun m => { m with banks := tmod m.banks b f }
def State.modSlf (s : State) (f : SelfTest → SelfTest) : State := { s with owl := { s.owl with slf := f s.owl.slf } }

/-- The element number of an SRAM bank among the retests. -/
def bankElem (b : Nat) : Nat := 0x200 + b

/-- An entry whose element is FAILED, or whose bank is not powered, is skipped (R734). -/
def State.skipped (s : State) (e : Nat) : Bool :=
  match sliceEntry e with
  | (1, u) => (s.eng u).st == .failed
  | (2, u) => !s.bankOn u
  | (3, u) => s.lane u == .failed
  | (5, _) => s.owl.slf.cvuFailed != []
  | (6, u) => s.aud.stt.sha3Failed.contains u
  | _ => false

/-- CVU u is isolated for its slice: its context is saved first (R152, R154, R735). -/
def State.isolateCvu (s : State) (u : Nat) : State :=
  let x : CvuUnit := tget s.pw.units u
  { s with pw := { s.pw with
    ctxs := if x.loaded then tset s.pw.ctxs x.ctx x.cur else s.pw.ctxs
    units := tset s.pw.units u { x with test := true } } }

/-- CVU u returns to service with its context restored, unless another unit has taken it meanwhile (R736). -/
def State.returnCvu (s : State) (u : Nat) : State :=
  let x : CvuUnit := tget s.pw.units u
  let other := (List.range 64).any fun v => v != u && (tget s.pw.units v : CvuUnit).loaded && (tget s.pw.units v : CvuUnit).ctx == x.ctx
  let keep := x.loaded && !other
  let y : CvuUnit := { x with
    test := false, loaded := keep, cur := if keep then tget s.pw.ctxs x.ctx else {}
    loads := if keep then inc 32 x.loads else x.loads }
  { s with pw := { s.pw with units := tset s.pw.units u y } }

/-- The element of an entry is isolated (R735): what its own chapter says of the start of a slice. -/
def State.sliceBegins (s : State) (e : Nat) : State :=
  match sliceEntry e with
  | (1, u) =>
    let x := s.eng u
    if x.st = .service ∨ x.st = .spare then s.modEng u fun y => { y with st := .test, prior := x.st } else s
  | (5, u) => s.isolateCvu u
  | (8, u) => s.coreTest u
  | _ => s

/-! ### Starting slices (R730 to R734) -/

/-- A budget that starts now ends no later than SLF_END (R83). -/
def State.fits (s : State) (us : Nat) : Bool := decide (s.tmb.now + us * us16 ≤ s.edgeAt 8)

/-- Inside the SELFTEST slot. -/
def State.inSelfTest (s : State) : Bool := s.fr.ticking && s.fr.fired.contains 7 && !s.fr.fired.contains 8 && decide (s.tmb.now < s.edgeAt 8)

/-- The SELFTEST and GOLDEN slots of the frame overlap, and a golden test is offered (R732). -/
def State.goldenOverlap (s : State) : Bool :=
  s.vrd.offered.isSome && decide (s.fr.edgeUs 7 < s.fr.edgeUs 6) && decide (s.fr.edgeUs 5 < s.fr.edgeUs 8)

/-- The L-die sequencer starts an entry. -/
def State.startL (s : State) (e : Nat) : State := (s.sliceBegins e).modSlf fun f => { f with lRun := some (e, s.mc) }

/-- An entry of the round is skipped and counts as done (R734). -/
def SelfTest.skip (f : SelfTest) (e : Nat) : SelfTest :=
  { f with entries := tmod f.entries e fun x => { x with last := 3 }, doneHere := insNat e f.doneHere }

/-- The rotation pointer advances when every entry of its round is done; a rotation completes when it wraps (R733). -/
def State.advancePointer (s : State) : State :=
  let f := s.owl.slf
  if (roundEntries f.pointer).all f.doneHere.contains then
    let s1 := s.modSlf fun f => { f with running := false, doneHere := [], pointer := (f.pointer + 1) % 28 }
    if f.pointer = 27 then s1.modSlf fun g => { g with
      lastFrames := sat 16 f.frames, doneTime := s.tmb.now, frames := 0, startMc := s.mc, wrapped := some (s.mc - f.startMc) }
    else s1
  else s

/-- The next entry of the round that is running, skipping those of R734. -/
def State.roundNext : List Nat → State → State
  | [], s => s.advancePointer
  | e :: r, s =>
    if s.owl.slf.doneHere.contains e then State.roundNext r s
    else if s.skipped e then State.roundNext r (s.modSlf (·.skip e))
    else s.startL e

/-- The round at the pointer is not run in this frame (R731, R732). -/
def State.postpone (s : State) (reason : Nat) : State :=
  (s.modSlf fun f => { f with postponed := inc 16 f.postponed }).evDev 0x0D04 0 (le 1 s.owl.slf.pointer ++ le 1 reason)

/-- The round at the pointer starts, whole, or is postponed. -/
def State.startRound (s : State) : State :=
  let p := s.owl.slf.pointer
  if portRound p && s.goldenOverlap then s.postpone 1
  else if s.fits (roundBudget p) then State.roundNext (roundEntries p) (s.modSlf fun f => { f with running := true, doneHere := [] })
  else s.postpone 0

/-- A retest that the L-die sequencer runs: the entry of an element KIND × 256 + UNIT of KIND 1 to 6. -/
def lRetest (k : Nat) : Option Nat := if 0x100 ≤ k ∧ k < 0x700 then entryOf (k / 256) (k % 256) else none

/-- The L-die sequencer is free: the retests of the slot in order, each if it fits, and then the round (R731). -/
def State.nextL : List Nat → State → State
  | [], s => if s.owl.slf.running then State.roundNext (roundEntries s.owl.slf.pointer) s else s.startRound
  | k :: r, s =>
    match lRetest k with
    | none => State.nextL r s
    | some e =>
      if s.fits (kindBudget (k / 256)) && !s.skipped e then
        (s.modSlf fun f => { f with todo := r, retests := f.retests.erase k }).startL e
      else State.nextL r s

/-- The A-die sequencer is free: the slice of a tile that waits in calibration step 4 (R322, R730). -/
def State.nextA (s : State) : State :=
  match (List.range 9).find? fun t => (s.tile t).calStep == .slice && s.owl.slf.todo.contains (tileElem t) with
  | some t =>
    if s.fits (kindBudget 7) then s.modSlf fun f => { f with aRun := some (166 + t, s.mc), todo := f.todo.erase (tileElem t) } else s
  | none => s

/-- The core sequencer starts the retest slice of a core in HELD (R496, R730). -/
def State.nextC (s : State) : State :=
  match (List.range 3).find? fun c => (s.core c).st == .held && s.owl.slf.retests.contains (coreElem c) with
  | some c =>
    if s.fits (kindBudget 8) then
      (s.sliceBegins (175 + c)).modSlf fun f => { f with cRun := some (175 + c, s.mc), retests := f.retests.erase (coreElem c) }
    else s
  | none => s

/-- SLF_START: the three sequencers start (R730, R731). -/
def State.slfStart (s : State) : State :=
  if !s.owl.slf.tableOk then s
  else
    let tiles := ((List.range 9).filter fun t => (s.tile t).calStep == .slice).map tileElem
    let s1 := s.modSlf fun f => { f with todo := f.retests ++ tiles, running := false, doneHere := [] }
    let s2 := (s1.nextC).nextA
    if s2.owl.slf.lRun.isSome then s2 else State.nextL s2.owl.slf.retests s2

/-- SLF_END: no slice starts any more (R83). -/
def State.slfEnd (s : State) : State := s.modSlf fun f => { f with todo := [], running := false, doneHere := [] }

/-! ### The end of a slice (R735 to R738) -/

/-- SLICE_FAIL evidence (R745). -/
def State.sliceFail (s : State) (e sig : Nat) : State :=
  let (k, u) := sliceEntry e
  (s.modSlf fun f => { f with failed := inc 16 f.failed, failEntry := e, failTime := s.tmb.now }).evDev 0x0D03 2
    (le 1 e ++ le 1 k ++ le 1 u ++ zeros 1 ++ le 8 sig)

/-- The lowest spare row that is not in use. -/
def firstSpare (l : List Nat) : Nat := ((List.range 16).find? fun i => !l.contains i).getD 0

/-- n spare rows are retired, which the register shows only in number: the model takes the lowest free ones (R737). -/
def Bank.retire (x : Bank) (n : Nat) : Bank :=
  { x with rows := (List.range (min n 16)).foldl (fun l _ => insNat (firstSpare l) l) x.rows }

/-- A bank's slice ends (R645, R737): `rows` free spare rows failed and nothing else, or `rows` is 0. -/
def State.bankSlice (s : State) (b : Nat) (pass : Bool) (rows : Nat) : State :=
  if pass then
    let s1 := if s.owl.slf.banksBad.contains b then
        (s.modSlf fun f => { f with banksBad := f.banksBad.erase b }).exitDegraded 0x05 else s
    if s1.mem.degradedBank = some b then (s1.modMem fun m => { m with degradedBank := none }).exitDegraded 0x04 else s1
  else if rows ≠ 0 then s.modBank b (·.retire rows)
  else
    let s1 := s.requestRetest (bankElem b)
    if s.owl.slf.banksBad.contains b then s1
    else (s1.modSlf fun f => { f with banksBad := insNat b f.banksBad }).singleFault 0x05

/-- A CVU's slice ends (R736, R737). -/
def State.cvuSlice (s : State) (u : Nat) (pass : Bool) : State :=
  if pass then s.returnCvu u
  else ((s.modSlf fun f => { f with cvuFailed := insNat u f.cvuFailed }).singleFault 0x05)

/-- The outcome of a slice for its element (R737). -/
def State.sliceOutcome (s : State) (e : Nat) (pass : Bool) (rows : Nat) : State :=
  match sliceEntry e with
  | (1, u) => s.engineSlice u pass
  | (2, u) => s.bankSlice u pass rows
  | (3, u) => s.laneSlice u pass
  | (4, _) => if pass then s else s.enterSafe 0x12
  | (5, u) => s.cvuSlice u pass
  | (6, u) => s.sha3Slice u pass
  | (7, u) => s.tileSlice u pass
  | (_, u) => s.coreSlice u pass

/-- The slice that runs on sequencer q: 0 L die, 1 A die, 2 core. -/
def SelfTest.run (f : SelfTest) (q : Nat) : Option (Nat × Nat) := if q = 0 then f.lRun else if q = 1 then f.aRun else f.cRun

/-- Sequencer q is idle. -/
def SelfTest.idle (f : SelfTest) (q : Nat) : SelfTest :=
  if q = 0 then { f with lRun := none } else if q = 1 then { f with aRun := none } else { f with cRun := none }

/-- What a sequencer does when its slice has ended. -/
def State.sliceNext (s : State) (q : Nat) : State :=
  if !s.inSelfTest then s
  else if q = 0 then State.nextL s.owl.slf.todo s
  else if q = 1 then s.nextA
  else s.nextC

/-- The slice on sequencer q ends with an observed signature and its outcome. -/
def State.sliceEnds (s : State) (q sig : Nat) (pass : Bool) (rows : Nat) : State :=
  match s.owl.slf.run q with
  | none => s
  | some (e, _) =>
    let inRound := q = 0 ∧ s.owl.slf.running ∧ (roundEntries s.owl.slf.pointer).contains e
    let s1 := s.modSlf fun f => ({ f with
      entries := tmod f.entries e fun x => { last := if pass then 1 else 2, runs := inc 16 x.runs }
      passed := if pass then inc 16 f.passed else f.passed
      doneHere := if inRound then insNat e f.doneHere else f.doneHere }).idle q
    let s2 := if pass then s1 else s1.sliceFail e sig
    let s3 := s2.sliceOutcome e pass rows
    (if inRound ∧ !s3.inSelfTest then s3.advancePointer else s3).sliceNext q

/-! ### Commands -/

/-- SIGNATURE of entry e (R727). -/
def sliceSig (e : Nat) : Nat := rd (sliceBytes e) 16 8

/-- SLICE_DONE on sequencer q: the slice passes where the observed signature is SIGNATURE (R735). -/
def execSliceDone (dt q sig rows : Nat) (s : State) : Host.Outcome State Fault Refusal :=
  let s := s.advance dt
  .next (match s.owl.slf.run q with
    | some (e, _) => s.sliceEnds q sig (sig == sliceSig e) rows
    | none => s)

/-- SLICE_TIMEOUT: the slice on sequencer q has not finished within its budget, and fails (R735). The signature is a
free value. -/
def execSliceTimeout (dt q : Nat) (s : State) : Host.Outcome State Fault Refusal :=
  let s := s.advance dt
  .next (match s.owl.slf.run q with
    | some (e, t) =>
      if s.mc - t > kindBudget (sliceEntry e).1 * usMc then
        let (v, s1) := s.fresh
        s1.sliceEnds q (v % 2 ^ 64) false 0
      else s
    | none => s)

/-- ROTATION evidence (R745). -/
def State.rotationRecord (s : State) (frames mcs : Nat) (late : Bool) : State :=
  s.evDev 0x0D05 (b2n late) (le 4 frames ++ le 4 (sat 32 (mcs / msMc)) ++ le 1 (b2n late))

/-- ROTATION: a rotation has completed, or has taken more than 8 s (R733, R739). -/
def execRotation (dt : Nat) (s : State) : Host.Outcome State Fault Refusal :=
  let s := s.advance dt
  let f := s.owl.slf
  .next (match f.wrapped with
    | some d =>
      let late := decide (8000 * msMc < d)
      let s1 := s.modSlf fun f => { f with
        wrapped := none, lateCounted := false, rotLate := if late && !f.lateCounted then inc 16 f.rotLate else f.rotLate }
      s1.rotationRecord f.lastFrames d late
    | none =>
      if f.tableOk ∧ !f.lateCounted ∧ s.mc - f.startMc > 8000 * msMc then
        (s.modSlf fun f => { f with rotLate := inc 16 f.rotLate, lateCounted := true }).rotationRecord f.frames (s.mc - f.startMc) true
      else s)

end Sys2Proof.Machine
end

