-- ==== Sys2Proof/Machine/MemOps.lean ====
section
/-! DEFINITION. The addressed memories byte by byte: GDDR6, the L-die SRAM and the two tiers, in one canonical list of
cells (R627, R629, R634). -/

namespace Sys2Proof.Machine

/-! ### Lines and banks -/

/-- SRAM bank and row of a line of array 1, 2 or 3 (R627). -/
def lineBank (array line : Nat) : Nat :=
  if array = 1 then line / 65536 else if array = 2 then 8 + line / 57344 else 40 + line / 57344
def lineRow (array line : Nat) : Nat := (if array = 1 then line % 65536 else line % 57344) / 16
def isSram (array : Nat) : Bool := array == 1 || array == 2 || array == 3

/-- Key of a line in the tables of the model. -/
def lineKey (array unit line : Nat) : Nat := array * 2 ^ 64 + unit * 2 ^ 56 + line

/-! ### Cells -/

/-- Key of a byte: target code 0 GDDR6, 1 L-die SRAM, 2 S1, 3 S2, and the byte address in the target. -/
def cellKey (target addr : Nat) : Nat := target * 2 ^ 40 + addr

/-- What a byte that is not listed reads as: banks are written with zeros as they are powered, and the wipe writes zeros
(R686, R750). DESIGN CHOICE for memory that was never written. -/
def Memory.unlisted : Byte := 0

/-- The cells are in canonical form: keys strictly rising, none at the unlisted value. -/
def cellsWf : List Host.Cell → Bool
  | [] => true
  | [(_, b)] => b != Memory.unlisted
  | (k, b) :: (j, c) :: r => b != Memory.unlisted && decide (k < j) && cellsWf ((j, c) :: r)

/-- The canonical form of the memories. -/
def Memory.wf (m : Memory) : Bool := cellsWf m.cells

/-- The byte at a key. -/
def Memory.read (m : Memory) (k : Nat) : Byte := (m.cells.lookup k).getD Memory.unlisted

/-- The cells with the byte at a key replaced. -/
def cellPut (k : Nat) (b : Byte) : List Host.Cell → List Host.Cell
  | [] => if b = Memory.unlisted then [] else [(k, b)]
  | (j, c) :: r =>
    if k < j then (if b = Memory.unlisted then (j, c) :: r else (k, b) :: (j, c) :: r)
    else if k = j then (if b = Memory.unlisted then r else (k, b) :: r)
    else (j, c) :: cellPut k b r

/-- The byte at a key is written. -/
def Memory.write (m : Memory) (k : Nat) (b : Byte) : Memory := { m with cells := cellPut k b m.cells }

/-- n bytes from a key on. -/
def Memory.readN (m : Memory) (k n : Nat) : Bytes := (List.range n).map fun i => m.read (k + i)

/-- Bytes written from a key on. -/
def Memory.writeN (m : Memory) (k : Nat) : Bytes → Memory
  | [] => m
  | b :: r => (m.write k b).writeN (k + 1) r

/-! ### Stored lines -/

/-- The stored bytes of a line become those of its corrected data, or of data written whole (R634, R640, R648). -/
def Memory.rewrite (m : Memory) (array unit line : Nat) (data : Bytes) : Memory :=
  let k := lineKey array unit line
  let m1 := { m with raw := m.raw.filter (·.1 != k), bad := m.bad.erase k }
  if array < 4 then m1.writeN (cellKey array (line * 64)) data else m1

/-- A line that is copied: corrected where it decodes, byte for byte where it does not (R648). -/
def Memory.copyLine (m : Memory) (array line : Nat) : Memory :=
  match (m.raw.lookup (lineKey array 0 line)).map (decodeStored array 0 0 line) with
  | some (.corrected w _) => m.rewrite array 0 line (ofSymbols (w.take 64))
  | _ => m

/-! ### Repair entries (R650, R651) -/

/-- The valid entries of the fuse map: KIND, bank, row or column, spare. -/
def fuseRepairs (fuses : Nat) : List (Nat × Nat × Nat × Nat) :=
  (((List.range 54).map fun i => fld fuses (2368 + 32 * i) 32).filter fun e => bitAt e 0 && fld e 2 7 < 72).map fun e =>
    (fld e 1 1, fld e 2 7, fld e 9 12, fld e 21 4)

/-- A row is redirected to a spare row. -/
def Memory.mapRow (m : Memory) (b row sp : Nat) : Memory :=
  { m with rowMap := tins (b * 65536 + row) sp m.rowMap, banks := tmod m.banks b fun x => { x with rows := insNat sp x.rows } }

/-- The repair entries are applied: those of the fuse map first, and those of the soft table for the rows that no fuse
entry names (R651). Spare columns are in use from here on only (R650). -/
def Memory.applyRepairs (m : Memory) (fuses : Nat) : Memory :=
  let m1 := (fuseRepairs fuses).foldl (fun q (kind, b, row, sp) =>
    if kind = 0 then q.mapRow b row sp
    else { q with banks := tmod q.banks b fun x => { x with cols := if sp < 4 then insNat sp x.cols else x.cols } }) m
  m.soft.foldl (fun q (b, row, sp) => if (m1.rowMap.lookup (b * 65536 + row)).isSome then q else q.mapRow b row sp) m1

/-- A line of a target lies in powered memory (R684, R686). -/
def State.lineOn (s : State) (t line : Nat) : Bool :=
  s.atStep 4 && (if t = 0 then s.rst.on.contains 106 && s.rst.on.contains 107 && s.rst.on.contains 108 && s.rst.on.contains 109
    else s.rst.on.contains (let b := lineBank t line; if b < 8 then 118 else 27 + b))

/-- The stored line decodes as uncorrectable (R631, R634). -/
def State.lineBad (s : State) (t line : Nat) : Bool := s.mem.bad.any fun k => k / 2 ^ 64 == t && k % 2 ^ 56 == line

end Sys2Proof.Machine
end

