-- ==== Sys2Proof/Machine/Protect.lean ====
section
/-! DEFINITION. Memory protection: corrected and uncorrectable lines, row repair, EDC and the scrub (R627 to R652), and
what the NoC denies or leaves short (R40, R96, R98, R100). -/

namespace Sys2Proof.Machine

/-! ### Lines, banks and passes -/

/-- The scrub pass now running over an array: 2 s, or 60 s for GDDR6 (R639), counted from the release of D4. -/
def State.scrubPass (s : State) (array : Nat) : Nat := (s.mc - s.mem.scrubFrom) / ((if array = 0 then 60000 else 2000) * msMc)

/-- A count by target code, or in MEM_OTHER. -/
def Memory.countCe (m : Memory) (array : Nat) : Memory :=
  if array < 4 then { m with ce := tinc m.ce 16 array } else { m with otherCe := inc 16 m.otherCe }
def Memory.countUe (m : Memory) (array : Nat) : Memory :=
  if array < 4 then { m with ue := tinc m.ue 16 array } else { m with otherUe := inc 16 m.otherUe }

/-- REPAIR_EXHAUSTED evidence (R652). -/
def State.exhausted (s : State) (array bank line : Nat) : State :=
  s.evDev 0x0B04 2 (le 1 array ++ le 1 bank ++ zeros 2 ++ le 8 line)

/-- The lines of a row whose stored bytes are in error are copied to its spare (R648). -/
def Memory.copyRow (m : Memory) (array line : Nat) : Memory :=
  let row := line / 16 * 16
  ((List.range 16).filter fun i => (m.raw.lookup (lineKey array 0 (row + i))).isSome).foldl
    (fun q i => q.copyLine array (row + i)) m

/-- The row of a line is copied to a free spare row and redirected (R648), or cannot be (R652). -/
def State.repairRow (s : State) (array line : Nat) : State :=
  let b := lineBank array line
  let row := lineRow array line
  let sp := firstSpare (s.bank b).rows
  if 16 ≤ (s.bank b).rows.length then s.exhausted array b line
  else
    let s1 := s.modBank b fun x => { x with rows := insNat sp x.rows, repairs := inc 16 x.repairs }
    (s1.modMem fun m => { (m.copyRow array line) with
      rowMap := tins (b * 65536 + row) sp m.rowMap, inService := inc 12 m.inService
      softPending := m.softPending ++ [(b, row, sp)] }).evDev
      0x0B03 0 (le 1 b ++ zeros 1 ++ le 2 row ++ le 1 sp)

/-! ### Corrected lines (R631, R649, R656) -/

/-- A line's stored bytes are found in error. -/
def State.keepRaw (s : State) (array unit line : Nat) (stored : Bytes) : State :=
  s.modMem fun m => { m with raw := tset m.raw (lineKey array unit line) stored }

/-- A line is corrected by a read or by the scrub; `symbols` is 1 or 2, and only the scrub writes it back (R640). A TCM
word is array 7, its core the unit. -/
def State.correct (s : State) (array unit line channel symbols : Nat) (stored data : Bytes) (scrub : Bool) : State :=
  let s := if scrub then s.modMem fun m => m.rewrite array unit line data else s.keepRaw array unit line stored
  if array = 7 then s.modCore (unit % 3) fun x => { x with tcmCorr := inc 16 x.tcmCorr }
  else
    let k := lineKey array unit line
    let n := s.scrubPass array
    let seen := s.mem.corrected.any fun (x : Nat × Nat × Bool) => x.1 == k && x.2.1 == n
    let twice := scrub && s.mem.corrected.any fun (x : Nat × Nat × Bool) => x.1 == k && x.2.1 + 1 == n && x.2.2
    let s1 := s.modMem fun m => ({ m with
      corrected := (m.corrected.filter fun (x : Nat × Nat × Bool) => decide (n ≤ x.2.1 + 1)) ++ [(k, n, scrub)] }).countCe array
    let s2 := if isSram array then s1.modBank (lineBank array line) fun x => { x with ce := inc 32 x.ce }
      else if array = 0 then s1.modMem fun m => { m with gddr := tmod m.gddr (channel % 4) fun g => { g with ce := inc 32 g.ce } }
      else s1
    let s3 := if seen then s2 else s2.evDev 0x0B01 0
      (le 1 array ++ le 1 unit ++ le 1 symbols ++ le 1 (b2n scrub) ++ le 8 line)
    if isSram array && (symbols == 2 || twice) then s3.repairRow array line else s3

/-! ### Uncorrectable lines (R642 to R647) -/

/-- The partition that owns a line: that of the region which may write it, else of a region that covers it, else
partition 0 (R97, R642). -/
def Cfg.owner (c : Cfg) (array line : Nat) : Nat :=
  let page := line / 64
  let rs := c.regions.filter fun r => r.target == array && decide (r.base ≤ page) && decide (page < r.base + r.size)
  match rs.find? (·.write), rs.head? with
  | some r, _ => r.part
  | none, some r => r.part
  | none, none => 0

/-- CHL_PLN_CFG: CH_VALID and CH_PART (R232, R273). -/
def Cfg.chWord (c : Cfg) (p : Nat) : Nat := c.word (0x84100 + 0x40 * p)

/-- Context c depends on partition q (R643). -/
def State.dependsOn (s : State) (q c : Nat) : Bool :=
  let w := s.watch c
  let g := s.cfg.active
  g.slotPart w.slot == q ||
  ((s.planOf w.slot).elim false fun p =>
    g.plnPart p == q || (bitAt (g.chWord p) 0 && fld (g.chWord p) 1 6 == q) || g.goldPart p == q) ||
  (maskSlots w.modelMask).any fun m => g.mPart m == q

/-- What a detection concerns: 0 the scrub, 1 another read, 2 a block read for the linear audit of plan slot `a`, 3 a read
for challenge `a`, 4 the context state of verdict lane `a`, 5 data being sampled by the ledger, 6 a model slot's history
line that holds step `b` of slot `a`. -/
structure Detect where
  use : Nat := 0
  a : Nat := 0
  b : Nat := 0
deriving DecidableEq, Repr, Inhabited

/-- An image that contains the line is never reused (R646). -/
def State.imageBad (s : State) (p : Nat) : State :=
  s.modPlan p fun x => { x with active := x.active.map fun q => { q with bad := true } }

/-- Frame invalidation for a SAFETY partition (R643). -/
def State.invalidate (s : State) (q : Nat) (d : Detect) : State :=
  if d.use = 2 then (s.auditWeightError d.a d.b).imageBad d.a
  else if d.use = 3 then (if (s.chl d.a).elim false s.chlOpen then s.failPlain d.a 0x19 else s)
  else if !s.fr.ticking then s
  else
    let f := if s.past 1 then s.fr.num + 1 else s.fr.num
    (s.openCtxs.filter (s.dependsOn q)).foldl (fun r c => r.modWatch c fun w => { w with invalid := insNat f w.invalid }) s

/-- A line of GDDR6 in partition q was found so by the scrub or by another reader: whether it lies in the resident weight
image of a plan slot with that LA_PART, the spec does not say, and a free value decides (R646). -/
def State.imagesHit (s : State) (q : Nat) : State :=
  let (v, s1) := s.fresh
  (List.range 16).foldl (fun r p => if s.cfg.active.plnPart p = q ∧ bitAt v p then r.imageBad p else r) s1

/-- An AUX partition's line (R645). `clean` says that the GDDR6 line, written whole with zeros, reads back clean. -/
def State.auxError (s : State) (array unit line : Nat) (clean : Bool) : State :=
  if s.glb.st = .safe ∨ s.glb.st = .degraded ∨ s.glb.repairs ≠ [] then s.singleFault 0x04
  else
    let s1 := s.singleFault 0x04
    if array = 0 then
      if clean then (s1.modMem fun m => { m with
          bad := m.bad.erase (lineKey 0 unit line), raw := m.raw.filter (·.1 != lineKey 0 unit line),
          cells := m.cells.filter fun (k, _) => k / 64 != line }).exitDegraded 0x04
      else (s1.modMem fun m => { m with degradedLine := some line }).exhausted 0 0 line
    else
      let b := lineBank array line
      if 16 ≤ (s.bank b).rows.length then s1 else (s1.modMem fun m => { m with degradedBank := some b }).requestRetest (bankElem b)

/-- Severity of the UNCORRECTABLE record (R656). -/
def State.ueSeverity (s : State) (array q : Nat) (d : Detect) : Nat :=
  if d.use = 5 then 3
  else if d.use = 4 ∨ array = 4 ∨ array = 5 then 1
  else if array = 6 ∨ q = 0 then 3
  else if s.cfg.active.prtAux q then 2
  else 1

/-- The reaction to an uncorrectable error by the owner of the line (R642, R478, R487). Values the spec does not state
(the PC of a TCM fault, the kind of a tile's) are free. -/
def State.ueReact (s : State) (array unit line q : Nat) (d : Detect) (clean : Bool) : State :=
  let (v, s1) := s.fresh
  if array = 7 then s1.dissent (unit % 3) 5 (s.core (unit % 3)).ckpt 0 (v % 2 ^ 32)
  else if d.use = 5 then
    (s.evDev 0x0703 3 (le 4 s.cor.ldgSeq ++ le 1 2 ++ le 1 0 ++ le 2 d.a ++ le 1 3)).enterSafe 0x17
  else if d.use = 4 then s.laneEvent (d.a % 3 + 1)
  else if array = 4 then s.engineFault unit 4 0
  else if array = 5 then
    let s2 := if d.use = 6 then s1.modModel d.a fun x => { x with hist := x.hist.set d.b none } else s1
    s2.driftFailure unit 0 (v % 6) 0
  else if array = 6 ∨ q = 0 then s.enterSafe 0x17
  else if s.cfg.active.prtAux q then s.auxError array unit line clean
  else s.invalidate q d

/-- The lines detected in the present main clock. -/
def State.detected (s : State) : List Nat := if s.mem.detAt = s.mc then s.mem.detLines else []

/-- An uncorrectable or address error is handled (R631, R634, R642, R649). -/
def State.uncorrectableNew (s : State) (array unit line channel : Nat) (address : Bool) (d : Detect) (clean : Bool) : State :=
  let q := if array < 4 then s.cfg.active.owner array line else 0
  let s1 := if address then s.modMem fun m => { m with addrErr := inc 32 m.addrErr } else s
  if array = 7 then
    (s1.modCore (unit % 3) fun x => { x with tcmUncorr := inc 16 x.tcmUncorr }).ueReact array unit line 0 d clean
  else
    let s2 := s1.modMem fun m => ({ m with
      bad := insNat (lineKey array unit line) m.bad
      lastArray := array, lastUnit := unit, lastPart := q, lastScrub := d.use == 0, lastAddress := address
      lastLine := line, lastTime := s.tmb.now }).countUe array
    let s3 := if isSram array then s2.modBank (lineBank array line) fun x => { x with ue := inc 16 x.ue }
      else if array = 0 then s2.modMem fun m => { m with gddr := tmod m.gddr (channel % 4) fun g => { g with ue := inc 32 g.ue } }
      else s2
    let s4 := s3.evDev 0x0B02 (s.ueSeverity array q d) (le 1 array ++ le 1 unit ++ le 1 q ++ le 1 (b2n (d.use == 0)) ++ le 1 (b2n address) ++ zeros 3 ++ le 8 line)
    let s5 := s4.ueReact array unit line q d clean
    let s6 := if array = 0 ∧ d.use ≠ 2 then s5.imagesHit q else s5
    if isSram array then s6.repairRow array line else s6

/-- An uncorrectable or address error is detected; two detections of one line in the same main clock are one error
(R647). -/
def State.uncorrectable (s : State) (array unit line channel : Nat) (address : Bool) (d : Detect) (clean : Bool) : State :=
  let k := lineKey array unit line
  if s.detected.contains k then s
  else (s.modMem fun m => { m with detAt := s.mc, detLines := insNat k s.detected }).uncorrectableNew array unit line channel address d
    clean

/-! ### Commands -/

/-- A read of a line, or as array 7 of a TCM word, finds these stored bytes, and its decoder decides (R631). For a TCM word
`channel` is the memory, 0 ITCM or 1 DTCM. -/
def State.lineRead (s : State) (array unit line channel : Nat) (stored : Bytes) (d : Detect) (clean : Bool) : State :=
  let found := decodeStored array unit channel line stored
  let line := if array = 7 then channel * 2 ^ 32 + line else line
  match found with
  | .clean => s
  | .corrected w n => s.correct array unit line channel n stored (ofSymbols (w.take (dataLen array))) (d.use == 0)
  | .address => (s.keepRaw array unit line stored).uncorrectable array unit line channel true d clean
  | .uncorrectable => (s.keepRaw array unit line stored).uncorrectable array unit line channel false d clean

/-- CORRECTED: a read, or with `scrub` the scrub, finds a line with stored bytes in error (R631, R640, R649). -/
def execCorrected (dt array unit line channel : Nat) (stored : Bytes) (scrub : Bool) (s : State) :
    Host.Outcome State Fault Refusal :=
  let s := s.advance dt
  .next (if array ≤ 7 then s.lineRead array unit line channel stored { use := if scrub then 0 else 1 } false else s)

/-- UNCORRECTABLE: the same, with what the read was for (R631, R642). -/
def execUncorrectable (dt array unit line channel : Nat) (stored : Bytes) (use a b : Nat) (clean : Bool) (s : State) :
    Host.Outcome State Fault Refusal :=
  let s := s.advance dt
  .next (if array ≤ 7 then s.lineRead array unit line channel stored { use, a, b } clean else s)

/-- EDC: a burst of channel `ch`, which carries the `lines` lines from `line` on, has mismatched `n` times, 1 to 4. The
fourth is final: a read is uncorrectable for every line, a write leaves every line so (R637). -/
def execEdc (dt ch line lines n : Nat) (write clean : Bool) (s : State) : Host.Outcome State Fault Refusal :=
  let s := s.advance dt
  .next (if 1 ≤ n ∧ n ≤ 4 ∧ ch < 4 then
      let carried := (List.range lines).map (line + ·)
      let s1 := s.modMem fun m => { m with
        gddr := tmod m.gddr ch fun g => { g with
          edcRetry := sat 16 (g.edcRetry + n), edcFailed := if n = 4 then inc 16 g.edcFailed else g.edcFailed }
        bad := if n = 4 ∧ write then carried.foldl (fun l x => insNat (lineKey 0 0 x) l) m.bad else m.bad }
      let s2 := s1.evDev 0x0B05 1 (le 1 ch ++ le 1 (b2n write) ++ zeros 2 ++ le 8 line)
      if n = 4 ∧ write = false then carried.foldl (fun q x => q.uncorrectable 0 0 x ch false { use := 1 } clean) s2 else s2
    else s)

/-- SCRUB_LATE: an array has not been scrubbed within its period (R641). -/
def execScrubLate (dt array ms : Nat) (s : State) : Host.Outcome State Fault Refusal :=
  let s := s.advance dt
  .next ((s.modMem fun m => { m with late := inc 8 m.late }).evDev 0x0B06 1 (le 1 array ++ zeros 3 ++ le 4 ms))

/-- Slot kind k is open: INGEST, SHADOW, COMMIT, AUDIT, GOLDEN, SELFTEST (R76). -/
def State.slotOpen (s : State) (k : Nat) : Bool :=
  if k = 0 then s.fr.ticking && !s.past 2 else if k = 1 then s.inSlot 3 4 else if k = 2 then s.fr.ticking && !s.past 0
  else if k = 3 then s.inSlot 0 1 else if k = 4 then s.inSlot 5 6 else s.inSlot 7 8

/-- Partition p may issue transactions now: its SLOT_MASK includes a slot kind that is open, and in the close-out only
partition 0 works (R84, R100). DESIGN CHOICE (log 54): the spec does not say what holds while no slot kind is open and
the close-out has not come; no mask denies anything then. -/
def State.slotAllows (s : State) (p : Nat) : Bool :=
  p == 0 || (!s.past 9 &&
    (((List.range 6).all fun k => !s.slotOpen k) || (List.range 6).any fun k => s.slotOpen k && bitAt (s.cfg.active.prtSlots p) k))

/-- The NoC lets a transaction of partition p through: partition 0 anywhere in a target, any other within one region of
its own that permits the operation (R97, R98); in an open slot (R100); to powered banks (R687). -/
def State.nocAllowed (s : State) (p target : Nat) (write : Bool) (address len : Nat) : Bool :=
  target < 4 && decide (address + len ≤ targetPages target * 4096) &&
  (p == 0 || s.cfg.active.regions.any fun r => r.part == p && r.target == target && decide (r.base * 4096 ≤ address) &&
    decide (address + len ≤ (r.base + r.size) * 4096) && (if write then r.write else r.read)) &&
  s.slotAllows p &&
  (target == 0 || (List.range 72).all fun b =>
    s.bankOn b || !decide (lineBank target (address / 64) ≤ b) || !decide (b ≤ lineBank target ((address + len - 1) / 64)))

/-- NOC_DENIED: the NoC meets a transaction of partition p on len bytes of a target; one that is not allowed is discarded,
counted, recorded and completed with error status (R40, R98, R100, R687). -/
def execNocDenied (dt p target initiator : Nat) (write : Bool) (address len : Nat) (s : State) :
    Host.Outcome State Fault Refusal :=
  let s := s.advance dt
  .next (if s.nocAllowed p target write address len then s
    else (({ s with prt := { s.prt with denied := tinc s.prt.denied 16 (p % 64) } }).evDev 0x0102 1
      (le 1 p ++ le 1 target ++ le 2 initiator ++ zeros 4 ++ le 8 address)).emit (.nocError initiator address))

/-- BW_SHORT: a SAFETY partition has not received its minimum over 10 µs (R96). -/
def execBwShort (dt p target : Nat) (s : State) : Host.Outcome State Fault Refusal :=
  let s := s.advance dt
  .next (if s.cfg.active.prtSafety p then
      ({ s with prt := { s.prt with short := tinc s.prt.short 16 p } }).evDev 0x0103 1 (le 1 p ++ le 1 target)
    else s)

end Sys2Proof.Machine
end

