-- ==== Sys2Proof/Machine/ConfigOps.lean ====
section
/-! DEFINITION. The frame grid (R70 to R75) and what the activation of a configuration does to the blocks it
configures (R75, R205, R208, R564, R619, R686, R778, R779). -/

namespace Sys2Proof.Machine

/-! ### The frame rate (R74, R75) -/

/-- The frame tick starts at the first boundary strictly later than local time t, once the time base is valid and a frame
rate is configured (R74). -/
def State.armTick (s : State) (t : Nat) : State :=
  let c := s.cfg.active
  if s.tmb.valid ∧ !s.fr.ticking ∧ c.hasRate then
    { s with fr := { s.fr with nextTick := nextBoundary c.alignMs t, rateAt := 0 } }
  else s

/-- A new frame rate takes effect at local time b: when only the next tick lies at or after it, that tick moves to the
first tick of the new grid (R75). A tick that has not started yet starts at the first boundary at or after `b` (R74). -/
def State.rateFrom (s : State) (b : Nat) : State :=
  let c := s.cfg.active
  if s.fr.ticking ∧ c.hasRate then
    let f := { s.fr with rateAt := b }
    { s with fr := if b ≤ s.fr.nextTick then { f with nextTick := gridTime c.alignMs c.count (gridAt c.alignMs c.count b) } else f }
  else s.armTick (b - 1)

/-! ### Plibex connections (R564) -/

/-- The entry of the old configuration whose CONN_ID, DIR, PEER_ID and MAC an entry keeps. -/
def keptConn (old new : Cfg) (i : Nat) : Option Nat :=
  old.conns.find? fun j => old.connId j == new.connId i && old.connRx j == new.connRx i && old.connPeer j == new.connPeer i &&
    old.connMac j == new.connMac i

/-- Connections keep their count and receive state where their entry is kept, and start anew otherwise. -/
def State.remapConns (s : State) (old : Cfg) : State :=
  let new := s.cfg.active
  let conns := new.conns.foldl (fun t i => tset t i (match keptConn old new i with
    | some j => s.conn j
    | none => { wdFrom := s.mc })) ([] : Tbl Conn)
  let moved := fun j => new.conns.find? fun i => keptConn old new i == some j
  let s1 := { s with plx := { s.plx with conns := conns } }
  s1.openCtxs.foldl (fun q c => q.modWatch c fun w => { w with plx := w.plx.filterMap moved }) s1

/-- Open contexts keep to the report slot that carries their stream (R119). -/
def State.rebindSlots (s : State) : State :=
  s.openCtxs.foldl (fun q c => q.modWatch c fun w => { w with
    slot := ((List.range 128).find? fun i => s.cfg.active.slotValid i && s.cfg.active.slotStream i == w.stream).getD w.slot }) s

/-! ### Pulses, banks, Shroud -/

/-- OWNER of pulse p (R614, R625). -/
def Cfg.pulseOwner (c : Cfg) (p : Nat) : Nat := fld (c.word (0x180400 + 0x20 * p)) 4 3

/-- A changed OWNER disarms its pulse (R619). -/
def State.disarmMoved (s : State) (old : Cfg) : State :=
  (List.range 8).foldl (fun q p =>
    if old.pulseOwner p = s.cfg.active.pulseOwner p then q
    else { q with tmb := { q.tmb with pulses := tmod q.tmb.pulses p fun x => { x with armed := false } } }) s

/-- The banks 8 to 71 that a configuration needs: those of the pages of its regions in the tiers (R686). -/
def Cfg.needsBank (c : Cfg) (b : Nat) : Bool :=
  c.regions.any fun r =>
    let lo := if b < 40 then 896 * (b - 8) else 896 * (b - 40)
    r.target == (if b < 40 then 2 else 3) && decide (r.base < lo + 896) && decide (lo < r.base + r.size)

/-- A line key lies in bank b, 8 to 71. -/
def inBank (b k : Nat) : Bool :=
  let array := if b < 40 then 2 else 3
  k / 2 ^ 64 == array && lineBank array (k % 2 ^ 56) == b

/-- Banks that neither the active configuration nor a committed one needs are switched off (R686). -/
def State.trimBanks (s : State) : State :=
  ((List.range 64).map (8 + ·)).foldl (fun q b =>
    if q.cfg.active.needsBank b || q.cfg.next.elim false (·.needsBank b) then q
    else (q.switchOff (27 + b)).modMem fun m => { m with
      bad := m.bad.filter fun k => !inBank b k
      raw := m.raw.filter fun x => !inBank b x.1
      cells := m.cells.filter fun (k, _) => !(k / 2 ^ 40 == (if b < 40 then 2 else 3) &&
        lineBank (if b < 40 then 2 else 3) (k % 2 ^ 40 / 64) == b) }) s

/-- Banks that a configuration needs are switched on, each written with zeros (R686). -/
def State.powerBanks (s : State) (c : Cfg) : State :=
  ((List.range 64).map (8 + ·)).foldl (fun q b => if c.needsBank b then q.switchOn (27 + b) else q) s

/-- The CFG frame to Shroud (R538), unless the Shroud section is the active one byte for byte (R779) or the image has
none. -/
def State.sendCfgFrame (s : State) (old : Cfg) : State :=
  let c := s.cfg.active
  if c.sioRaw = [] ∨ (c.sioRaw = old.sioRaw ∧ s.shr.cfgActive) then s
  else
    let s1 := s.toShroud 0x08 (le 4 c.gen ++ le 4 (rd c.sioRaw 2044 4))
    { s1 with pch := { s1.pch with awaits := s1.pch.awaits + 1 } }

/-! ### Activation -/

/-- A configuration takes effect; its frame rate from local time `b` on (R75, R778). -/
def State.takeConfig (s : State) (c : Cfg) (b : Nat) : State :=
  let old := s.cfg.active
  let s1 := { s with cfg := { s.cfg with
    active := c, hasActive := true, next := none, atRestart := false, commitPending := false, pendingFrame := 0, boundary := 0 } }
  let s2 := (List.range 16).foldl (fun q p => q.redivide p) s1
  ((((s2.rebindSlots.remapConns old).disarmMoved old).trimBanks).sendCfgFrame old).rateFrom b

/-- A pending configuration whose boundary has come takes effect (R75, R778). -/
def State.activateDue (s : State) : State :=
  match s.cfg.next with
  | some c => if !s.cfg.atRestart ∧ s.cfg.boundary ≤ s.tmb.now then s.takeConfig c s.cfg.boundary else s
  | none => s

end Sys2Proof.Machine
end

