-- ==== Sys2Proof/Machine/Keys.lean ====
section
/-! DEFINITION. Keys, identities and signatures (R756, R757, R763). -/

namespace Sys2Proof.Machine

/-- n bytes of a fuse map from a bit on; byte 0 lies in the lowest bits. -/
def fuseBytes (fuses bit n : Nat) : Bytes := le n (fld fuses bit (8 * n))

/-- IKEY_HASH slot k, and how many slots are fused (R755, R760). -/
def ikeySlot (fuses k : Nat) : Bytes := fuseBytes fuses (1280 + 256 * k) 32
def ikeySlots (fuses : Nat) : Nat := ((List.range 3).filter fun k => !allZero (ikeySlot fuses k)).length

/-- Hash of the integrator key in use: of the key record in flash until the device is DEPLOYED, and the newest fused
slot from then on (R757, R760). -/
def State.ikeyHash (s : State) : Option Bytes :=
  if s.life ≤ 2 then s.nvm.ikey.map sha3
  else if ikeySlots s.nvm.fuses = 0 then none
  else some (ikeySlot s.nvm.fuses (ikeySlots s.nvm.fuses - 1))

/-- The integrator key, if it exists and is valid (R757). -/
def State.integKey (s : State) : Option Bytes :=
  match s.nvm.ikey, s.ikeyHash with
  | some k, some h => if k.length = 1312 ∧ sha3 k = h then some k else none
  | _, _ => none

/-- Nolind public key k, if it is valid and not revoked (R757). -/
def State.nolindKey (s : State) (k : Nat) : Option Bytes :=
  let b := tget s.nvm.nkeys k
  if k < 2 ∧ b.length = 1312 ∧ sha3 b = fuseBytes s.nvm.shadow (320 + 256 * k) 32 ∧ !bitAt (fld s.nvm.shadow 832 2) k then some b
  else none

/-- The signature block at SIG_OFF is valid under a key, over the SHA3-256 of the bytes before it (R756). -/
def sigValid (key : Option Bytes) (img : Bytes) (sigOff : Nat) : Bool :=
  key.elim false fun k => sigOff + 2420 ≤ img.length && Config.mldsaVerify k (sha3 (img.take sigOff)) (slice img sigOff 2420)

/-- Attestation seed, public key and DEVICE_ID (R763). -/
def State.attSeed (s : State) : Bytes := sha3 (le 1 1 ++ fuseBytes s.nvm.shadow 2048 32)
def State.attKey (s : State) : Bytes := Config.mldsaPublic s.attSeed
def State.deviceId (s : State) : Bytes := (sha3 s.attKey).take 16

end Sys2Proof.Machine
end

