-- ==== Sys2Proof/Machine/CfgImage.lean ====
section
/-! DEFINITION. Images of kind 0x05 to 0x0A: their headers, the sections of a configuration image, and which bits of
BAR0 are configuration fields (R758, R759, R765 to R767, R769). -/

namespace Sys2Proof.Machine

/-! ### The configuration registers (R766, R767) -/

/-- The BAR0 ranges a register section may lie in, in their order: first byte and last byte (R766). -/
def cfgRanges : List (Nat × Nat) :=
  [(0x100, 0x143), (0x1000, 0x1003), (0x10100, 0x101FF), (0x80100, 0x804FF), (0x84100, 0x844FF), (0x100008, 0x10000B),
   (0x100400, 0x1004FF), (0x100C00, 0x100DFF), (0x140200, 0x1403FF), (0x180008, 0x18001F), (0x180400, 0x1804FF),
   (0x1C0028, 0x1C002B), (0x1C4000, 0x1CAFFF), (0x201000, 0x2017FF), (0x2D0000, 0x2D07FF), (0x2D1000, 0x2D1FFF),
   (0x340100, 0x340137), (0x3C1000, 0x3C2FFF)]

/-- Configuration fields of the TSN ranges (R588, R589). -/
def tsnMask (o : Nat) : Nat :=
  if o < 0x1C8000 then
    let r := o % 0x1000
    if r = 0 then 0x1FF01
    else if r = 8 ∨ r = 0xC ∨ r = 0x10 then 0xFFFFFFFF
    else if r = 0x18 then 0xFF0F
    else if 0x100 ≤ r ∧ r < 0x900 then (if r % 8 = 0 then 0xFF else 0xFFFFFFFF)
    else 0
  else if o < 0x1CA000 then
    let r := o % 0x20
    if r = 0 then 0xFFFFFFF7 else if r = 4 then 0x1FF else if r = 8 then 0xFFFFFFFF else if r = 0xC then 0xFFFF else 0
  else if o % 0x10 < 8 then 0xFFFFFFFF
  else 0

/-- Configuration fields of the Shroud section (R542). -/
def sioMask (o : Nat) : Nat :=
  if o = 0x201000 then 0x3FFFF
  else if o = 0x201004 then 0xFFFF
  else if 0x201100 ≤ o ∧ o < 0x201180 then 0xFFF
  else if 0x201200 ≤ o ∧ o < 0x201600 then
    (if o % 0x10 = 0 then 0x1FF003F else if o % 0x10 = 4 then 0x1F1F1F1F else if o % 0x10 = 8 then 0x1F1F else 0xFFFFF)
  else if 0x201600 ≤ o ∧ o < 0x201700 then
    (if o % 0x10 = 0 then 0x3FFF0077 else if o % 0x10 = 4 then 0x3FF3FFF else 0)
  else if 0x201700 ≤ o ∧ o < 0x201740 then
    (if o % 0x10 = 0 then 0x3FFF0073 else if o % 0x10 = 4 then 0x3FFF3FFF else 0)
  else if o = 0x2017FC then 0xFFFFFFFF
  else 0

/-- Configuration fields of the partition and region entries (R101); the fixed entries of partitions 0 and 1 have
their own clamps (R97). -/
def memMask (o : Nat) : Nat :=
  if o < 0x2D0040 then (if o % 0x20 = 0 then 0x3F77 else if o % 0x20 = 4 ∨ o % 0x20 = 8 then 0xFFFFFFFF else 0)
  else if o < 0x2D1000 then (if o % 0x20 = 0 then 0x3F73 else if o % 0x20 = 4 ∨ o % 0x20 = 8 then 0xFFFFFFFF else 0)
  else if o % 0x10 = 0 then 0x3FFFFFF
  else if o % 0x10 = 4 then 0xFFFFFF
  else if o % 0x10 = 8 then 0x33F
  else 0

/-- Configuration fields of a report slot (R158, R159). -/
def slotMask (o : Nat) : Nat :=
  let r := o % 0x40
  if r = 0 then 0x73F07 else if r = 4 then 0x3FFFFFFF else if r = 8 then 0x3FFFFFF else if r = 0xC then 0x1FFFF
  else if r = 0x10 ∨ r = 0x14 then 0xFFFFFFFF else 0

/-- The bits of the word at a BAR0 offset that belong to configuration fields (R767). -/
def cfgMask (o : Nat) : Nat :=
  if o = 0x100 then 0x3FF3FFF
  else if 0x120 ≤ o ∧ o ≤ 0x140 then 0x3FFFF
  else if o = 0x1000 then 0x1FF
  else if 0x10100 ≤ o ∧ o < 0x10200 then (if o % 0x20 = 0 then 0x1F else if o % 0x20 = 4 then 0x7FFF7FFF else 0)
  else if 0x80100 ≤ o ∧ o < 0x80500 then (if o % 0x40 = 0 then 0x3FFF else 0)
  else if 0x84100 ≤ o ∧ o < 0x84500 then (if o % 0x40 = 0 then 0x7F else 0)
  else if o = 0x100008 then 0xFFFFFF
  else if 0x100400 ≤ o ∧ o < 0x100500 then (if o % 0x40 = 0 then 0x7FFFFFD else if o % 0x40 = 4 then 0x1FFFF else 0)
  else if 0x100C00 ≤ o ∧ o < 0x100E00 then
    (if o % 0x20 = 0 then 0xFFFF3FFF else if o % 0x20 = 4 then 0xFFFFFFF else if o % 0x20 = 8 then 0xFFFF7F else 0)
  else if 0x140200 ≤ o ∧ o < 0x140400 then (if o % 0x20 = 0 then 0x3F else 0)
  else if o = 0x180008 ∨ o = 0x18000C ∨ o = 0x180010 then 0xFFFFFF
  else if o = 0x180014 then 0xFFF
  else if o = 0x180018 then 0xFFFFFFFF
  else if o = 0x18001C then 3
  else if 0x180400 ≤ o ∧ o < 0x180500 then (if o % 0x20 = 0 then 0x70 else 0)
  else if o = 0x1C0028 then 0x3FF003F
  else if 0x1C4000 ≤ o ∧ o < 0x1CB000 then tsnMask o
  else if 0x201000 ≤ o ∧ o < 0x201800 then sioMask o
  else if 0x2D0000 ≤ o ∧ o < 0x2D2000 then memMask o
  else if o = 0x340100 ∨ o = 0x340104 ∨ (0x340110 ≤ o ∧ o ≤ 0x340130) then 0xFFFFFFFF
  else if o = 0x340134 then 0xFFFF
  else if 0x3C1000 ≤ o ∧ o < 0x3C3000 then slotMask o
  else 0

/-- A configuration word set; a word at its reset value is not listed. -/
def Cfg.setWord (c : Cfg) (o v : Nat) : Cfg :=
  { c with regs := if v = (cfgResetWord o).toNat then c.regs.filter (·.1 != o) else tins o (BitVec.ofNat 32 v) c.regs }

/-! ### Sections (R765) -/

/-- An entry of the section table. -/
structure Sect where
  typ : Nat := 0
  base : Nat := 0
  off : Nat := 0
  len : Nat := 0
deriving DecidableEq, Repr, Inhabited

/-- The section table of a configuration image. -/
def cfgSects (b : Bytes) : List Sect :=
  (List.range (rd b 24 2)).map fun i =>
    let e := 256 + 16 * i
    { typ := rd b e 1, base := rd b (e + 4) 4, off := rd b (e + 8) 4, len := rd b (e + 12) 4 }

def regSects (b : Bytes) : List Sect := (cfgSects b).filter (·.typ == 0)

/-- The bytes of the first section of a type; none where there is none. -/
def sectBytes (b : Bytes) (typ : Nat) : Bytes :=
  match (cfgSects b).find? (·.typ == typ) with
  | some x => slice b x.off x.len
  | none => []

/-- The byte that a register section of the image gives for a BAR0 offset. -/
def imageByte (b : Bytes) (l : List Sect) (a : Nat) : Option Nat :=
  (l.find? fun x => decide (x.base ≤ a) && decide (a < x.base + x.len)).map fun x => rd b (x.off + (a - x.base)) 1

/-- A section covers part of the word at o. -/
def coversWord (l : List Sect) (o : Nat) : Bool := l.any fun x => decide (x.base < o + 4) && decide (o < x.base + x.len)

/-- The word at o as the image gives it, bytes that no section covers at their reset value. -/
def imageWord (b : Bytes) (l : List Sect) (o : Nat) : Nat :=
  ((List.range 4).map fun j => ((imageByte b l (o + j)).getD (fld (cfgResetWord o).toNat (8 * j) 8)) * 256 ^ j).foldl (· + ·) 0

/-- Offsets of the words that the register sections cover, ascending. -/
def imageWords (l : List Sect) : List Nat :=
  (l.flatMap fun x => (List.range ((x.base + x.len + 3) / 4 - x.base / 4)).map fun i => 4 * (x.base / 4 + i)).foldl
    (fun a o => if a.getLast? = some o then a else a ++ [o]) []

/-- The Shroud section as the image gives it; none where no section covers any of it (R538). -/
def imageSio (b : Bytes) (l : List Sect) : Bytes :=
  if l.any fun x => decide (x.base < 0x201800) && decide (0x201000 < x.base + x.len) then
    (List.range 2048).map fun j => BitVec.ofNat 8 ((imageByte b l (0x201000 + j)).getD 0)
  else []

/-! ### Format of a configuration image (R765, R766, R769) -/

/-- Register sections ascend, do not overlap, and each lies within one range (R766). -/
def regSectsOk : List Sect → Nat → Bool
  | [], _ => true
  | x :: r, from_ =>
    decide (from_ ≤ x.base) && decide (0 < x.len) && (cfgRanges.any fun (lo, hi) => decide (lo ≤ x.base) && decide (x.base + x.len ≤ hi + 1)) &&
      regSectsOk r (x.base + x.len)

/-- Reserved fields of the Plibex section, and the entries that its header counts (R558, R559). -/
def plibexFormatOk (b : Bytes) : Bool :=
  let n := rd b 6 2
  b.length == 128 + 64 * n && fld (rd b 8 1) 4 4 == 0 && zeroAt b 9 7 && zeroAt b 80 48 &&
  (List.range n).all fun i =>
    let e := 128 + 64 * i
    fld (rd b (e + 4) 1) 6 2 == 0 && fld (rd b (e + 6) 1) 3 5 == 0 && fld (rd b (e + 7) 1) 3 5 == 0 &&
    fld (rd b (e + 12) 2) 12 4 == 0 && fld (rd b (e + 30) 1) 4 4 == 0 && zeroAt b (e + 31) 1 && zeroAt b (e + 38) 2 &&
    zeroAt b (e + 56) 8

/-- The section table is as defined. -/
def sectTableOk (b : Bytes) : Bool :=
  let l := cfgSects b
  let sig := rd b 28 4
  (l.all fun x => decide (x.typ < 3) && (x.typ == 0 || x.base == 0) && x.off % 64 == 0 &&
    decide (256 + 16 * l.length ≤ x.off) && decide (x.off + x.len ≤ sig) && (x.typ != 2 || x.len == 512)) &&
  ((List.range l.length).all fun i => zeroAt b (256 + 16 * i + 1) 3) &&
  decide ((l.filter (·.typ == 1)).length ≤ 1) && decide ((l.filter (·.typ == 2)).length ≤ 1) &&
  regSectsOk (regSects b) 0 &&
  (!(l.any (·.typ == 1)) || plibexFormatOk (sectBytes b 1)) && (!(l.any (·.typ == 2)) || optValid (sectBytes b 2))

/-- Header, section table and reserved fields of a configuration image are as defined. -/
def cfgFormatOk (b : Bytes) : Bool :=
  decide (2676 ≤ b.length) && rd b 0 4 == 0x47434C43 && rd b 4 1 == 1 && rd b 5 1 == 5 && rd b 6 2 == 256 && rd b 8 8 == b.length &&
  decide (1 ≤ rd b 24 2) && decide (rd b 24 2 ≤ 64) && zeroAt b 26 2 && rd b 28 4 + 2420 == b.length &&
  decide (256 + 16 * rd b 24 2 ≤ rd b 28 4) && (!zeroAt b 48 32 || zeroAt b 32 16) && zeroAt b 80 176 && sectTableOk b

/-! ### Images of kind 0x06 to 0x0A (R759) -/

/-- MAGIC of an image kind (R758). -/
def kindMagic (k : Nat) : Nat :=
  if k = 5 then 0x47434C43 else if k = 6 then 0x514C4C43 else if k = 7 then 0x594B4C43 else if k = 8 then 0x57464C43
  else if k = 9 then 0x58464C43 else 0x52544C43

/-- Header, body length and reserved fields of an image of kind 0x06 to 0x0A are as defined. -/
def smallFormatOk (b : Bytes) : Bool :=
  let k := rd b 5 1
  let life := k == 6 || k == 0xA
  let fw := k == 8 || k == 9
  decide (6 ≤ k) && decide (k ≤ 0xA) && rd b 0 4 == kindMagic k && rd b 4 1 == 1 && rd b 6 2 == 64 && rd b 8 8 == b.length &&
  rd b 16 4 + 2420 == b.length && decide (rd b 20 1 ≤ 2) && zeroAt b 22 2 &&
  (if life then [3, 4, 5].contains (rd b 21 1) else rd b 21 1 == 0 && zeroAt b 24 16) &&
  (if fw then decide (rd b 44 1 ≤ 32) else zeroAt b 40 5) && zeroAt b 45 19 &&
  (if life then rd b 16 4 == 96 else if k = 7 then rd b 16 4 == 64 + 1312 else decide (64 < rd b 16 4))

/-- An image of kind 0x05 to 0x0A has the format of its kind. -/
def imageFormatOk (b : Bytes) : Bool := if rd b 5 1 = 5 then cfgFormatOk b else smallFormatOk b

/-- SIG_OFF, and the digest of R771. -/
def imageSigOff (b : Bytes) : Nat := if rd b 5 1 = 5 then rd b 28 4 else rd b 16 4
def imageDigest (b : Bytes) : Bytes := sha3 (b.take (imageSigOff b))

/-- The key under which an image must be signed, if it exists and is valid (R757, R758, R760). -/
def State.imageKey (s : State) (b : Bytes) : Option Bytes :=
  let k := rd b 5 1
  let key := rd b 20 1
  if k = 5 then s.integKey
  else if k = 6 then (if key = 0 then s.integKey else none)
  else if k = 7 then
    (if key ≠ 0 then none
     else if s.life = 2 ∧ s.nvm.ikey = none then some (slice b 64 1312)
     else s.integKey)
  else if key = 0 then none
  else s.nolindKey (key - 1)

/-- SVN_MIN: the bits set in its fuse field (R755). -/
def State.svnMin (s : State) : Nat := (bitList 32 (fld s.nvm.fuses 2304 32)).length

/-- The check of R760, R761 or R762 that an image of kind 0x06 to 0x0A fails, as its code (R769); 0 where it holds. -/
def State.kindRefusal (s : State) (b : Bytes) : Nat :=
  let k := rd b 5 1
  if k = 7 then (if s.life = 3 ∧ 3 ≤ ikeySlots s.nvm.fuses then 0x12 else 0)
  else if k = 8 ∨ k = 9 then (if rd b 44 1 < s.svnMin then 0x15 else 0)
  else if k = 6 ∨ k = 0xA then (if slice b 24 16 = s.deviceId ∧ slice b 64 32 = s.cfg.nonce then 0 else 0x16)
  else 0

/-! ### Flash slots (R772, R783, R796) -/

/-- Bytes of the flash slot of an image kind; the kinds held in partition 0 have none. -/
def slotBytes (k : Nat) : Option Nat :=
  if k = 5 then some 0x100000 else if k = 8 then some 0x400000 else if k = 9 then some 0x200000 else none

/-- Commit record of a TYPE in a bank. -/
def Nvm.crec (v : Nvm) (bank k : Nat) : CommitRecord := tget v.records (bank * 256 + k)
def Nvm.slot (v : Nvm) (bank k : Nat) : Bytes := tget v.slots (bank * 256 + k)

/-- The banks that hold an intact commit record of a TYPE, the higher GEN first (R784). -/
def Nvm.ranked (v : Nvm) (k : Nat) : List Nat :=
  let a := v.crec 0 k
  let b := v.crec 1 k
  if a.ok && b.ok then (if a.gen < b.gen then [1, 0] else [0, 1])
  else if a.ok then [0] else if b.ok then [1] else []

/-- The bank that holds the active image of a kind. -/
def State.activeBank (s : State) (k : Nat) : Option Nat :=
  if k = 8 ∧ s.cfg.fwDigest ≠ [] then some s.cfg.fwSlot
  else if k = 9 ∧ s.cfg.foxDigest ≠ [] then some s.cfg.foxSlot
  else if k = 5 ∧ s.cfg.hasActive then [0, 1].find? fun b => (s.nvm.crec b 5).ok && (s.nvm.crec b 5).digest == s.cfg.active.digest
  else (s.nvm.ranked k).head?

/-- The bank into which an image of a kind is staged. -/
def State.stageBank (s : State) (k : Nat) : Nat := match s.activeBank k with | some 0 => 1 | _ => 0

end Sys2Proof.Machine
end

