-- ==== Sys2Proof/Machine/Operands.lean ====
section
/-! DEFINITION. The operands of a descriptor and of a watch parameter block: which bytes are fields, and the range
checks that clamp them (R345, R353, R354, R420, R431 to R436, R439). -/

namespace Sys2Proof.Machine

/-- A field with its checked value: offset, size in bytes, the value after its clamp. -/
abbrev FldVal := Nat × Nat × Nat

/-- The bytes from i on, up to n, that no field covers and that belong to one run. -/
def freeRun (fields : List (Nat × Nat)) (n i : Nat) : Nat :=
  (((List.range (n - i)).map (i + ·)).takeWhile fun j => !fields.any fun (o, k) => o ≤ j && j < o + k).length

/-- The reserved fields of an n-byte structure: its maximal runs of bytes that no field covers, as offset and length
(R433). -/
def reservedRuns (fields : List (Nat × Nat)) (n : Nat) : List (Nat × Nat) :=
  (List.range n).filterMap fun i =>
    let k := freeRun fields n i
    if 0 < k ∧ (i = 0 ∨ freeRun fields n (i - 1) = 0) then some (i, k) else none

/-- The offsets of the fields whose value is not the checked one. -/
def clampedAt (vals : List FldVal) (b : Bytes) : List Nat :=
  (vals.filter fun (o, n, v) => rd b o n != v).map (·.1)

/-- The structure with every field at its checked value. -/
def applyVals (vals : List FldVal) (b : Bytes) : Bytes := vals.foldl (fun x (o, n, v) => patch x o (le n v)) b

/-! ### Corridor blocks (R345) -/

/-- The fields of the corridor block at offset o of a structure. -/
def corridorVals (b : Bytes) (o : Nat) : List FldVal :=
  let whole := bitAt (rd b (o + 1) 1) 0
  let n := clampN 3 10 (rd b o 1)
  (o + 1, 1, rd b (o + 1) 1 % 2) :: (o + 2, 6, 0) ::
    (if whole then []
     else (o, 1, n) :: (List.range 10).flatMap fun i =>
       let v := o + 8 + 4 * i
       if i < n then [(v, 2, min 4096 (rd b v 2)), (v + 2, 2, min 4096 (rd b (v + 2) 2))] else [(v, 4, 0)])

/-! ### Descriptors (R420, R436) -/

/-- The opcodes of R422. -/
def opcodes : List Nat := [0x00, 0x01, 0x02, 0x03, 0x04, 0x10, 0x11, 0x12, 0x13, 0x14, 0x20, 0x21, 0x30, 0x31]

/-- OPCODE as executed: a reserved one runs as NOP (R434). -/
def opcodeOf (b : Bytes) : Nat := if opcodes.contains (rd b 0 1) then rd b 0 1 else 0

/-- SET of GOLDEN_SCHEDULE. -/
def goldSet (b : Bytes) : Bool := bitAt (rd b 12 1) 0

/-- The fields of a descriptor that R436 lists for its opcode, with the header's (R420). -/
def descFields (op : Nat) (b : Bytes) : List (Nat × Nat) :=
  [(0, 1), (1, 1), (4, 4)] ++
  (if op = 0x01 then [(8, 2), (16, 8)]
   else if op = 0x02 ∨ op = 0x03 then [(8, 2)]
   else if op = 0x04 then [(8, 2), (10, 6), (16, 48)]
   else if op = 0x10 then [(8, 1), (16, 8), (24, 8)]
   else if op = 0x11 ∨ op = 0x13 then [(8, 1), (16, 8)]
   else if op = 0x12 then [(8, 1), (16, 8), (24, 8), (32, 8), (40, 8)]
   else if op = 0x14 then [(8, 2), (10, 1), (11, 1), (12, 1)] ++ (if goldSet b then [(16, 8), (24, 8)] else [])
   else if op = 0x20 then [(16, 8), (24, 8)]
   else if op = 0x21 then [(8, 1), (9, 1), (16, 32), (48, 16)]
   else if op = 0x30 then [(8, 8), (16, 8), (24, 4)]
   else if op = 0x31 then [(8, 1)] ++ (if rd b 8 1 = 1 then [(10, 2)] else [])
   else [])

/-- An address with its bits [5:0] clamped to 0. -/
def addrVal (b : Bytes) (o : Nat) : FldVal := (o, 8, rd b o 8 / 64 * 64)

/-- IMAGE_LEN. -/
def lenVal (b : Bytes) (o : Nat) : FldVal := (o, 8, clampN 2676 (2 ^ 34) (rd b o 8))

/-- The checked values of a descriptor's fields that have a range (R436). -/
def descVals (op : Nat) (b : Bytes) : List FldVal :=
  [(0, 1, op), (1, 1, rd b 1 1 % 2)] ++
  (if op = 0x01 then [addrVal b 16]
   else if op = 0x04 then corridorVals b 16
   else if op = 0x10 ∨ op = 0x20 then [addrVal b 16, lenVal b 24]
   else if op = 0x12 then
     [addrVal b 16, lenVal b 24, addrVal b 32, (40, 8, if rd b 40 8 = 0 then 0 else clampN 2676 (2 ^ 34) (rd b 40 8))]
   else if op = 0x14 then
     [(11, 1, min 8 (rd b 11 1)), (12, 1, rd b 12 1 % 2)] ++ (if goldSet b then [addrVal b 16, lenVal b 24] else [])
   else if op = 0x21 then [(8, 1, if rd b 8 1 < 2 then rd b 8 1 else 1), (9, 1, rd b 9 1 % 2)]
   else if op = 0x30 then [addrVal b 16, (24, 4, clampN 1 65536 (rd b 24 4))]
   else if op = 0x31 then [(8, 1, if [1, 2, 3].contains (rd b 8 1) then rd b 8 1 else 3)]
   else [])

/-- The reserved fields of a descriptor, at 0. -/
def descReserved (op : Nat) (b : Bytes) : List FldVal := (reservedRuns (descFields op b) 64).map fun (o, n) => (o, n, 0)

/-- A descriptor after its range checks: CLAMP_MAP and the clamped bytes (R431, R433). -/
def clampDesc (b : Bytes) : Nat × Bytes :=
  let op := opcodeOf b
  let vals := descVals op b ++ descReserved op b
  (ofBitList (clampedAt vals b), applyVals vals b)

/-! ### The watch parameter block (R439) -/

/-- Entries of PLX_CONN at or above PLX_COUNT. -/
def unusedConns (b : Bytes) : List FldVal :=
  let n := min 8 (rd b 29 1)
  (List.range (8 - n)).map fun i => (32 + 4 * (n + i), 4, 0)

/-- The checked values of a parameter block's fields. -/
def paramVals (b : Bytes) : List FldVal :=
  [(0, 1, 1), (1, 1, rd b 1 1 % 16), (2, 1, rd b 2 1 % 2), (3, 1, rd b 3 1 % 16),
   (8, 4, clampN 100 10000000 (rd b 8 4)), (16, 1, if rd b 16 1 = 0xFF then 0xFF else min 15 (rd b 16 1)),
   (17, 1, if rd b 17 1 = 0 then 0 else max 8 (rd b 17 1)), (18, 1, min 63 (rd b 18 1)), (19, 1, min 63 (rd b 19 1)),
   (20, 1, min 63 (rd b 20 1)), (21, 1, max 1 (rd b 21 1)), (22, 1, max 1 (rd b 22 1)),
   (24, 2, clampN 1 1024 (rd b 24 2)), (26, 2, min 4000 (rd b 26 2)), (28, 1, min 8 (rd b 28 1)),
   (29, 1, min 8 (rd b 29 1)), (30, 2, 0), (112, 12, 0)] ++ unusedConns b ++
  (if bitAt (rd b 2 1) 0 then corridorVals b 64 else [(64, 48, 0)])

/-- The thresholds below a floor, raised to it (R354). -/
def floorVals (b : Bytes) (f : Nat) : List FldVal :=
  [(18, 1, max f (min 63 (rd b 18 1))), (20, 1, max f (min 63 (rd b 20 1)))]

/-- PARAM_MAP and the clamped block, with floor f of the bound images. -/
def clampParam (f : Nat) (b : Bytes) : Nat × Bytes :=
  let vals := paramVals b ++ floorVals b f
  (ofBitList (clampedAt vals b), applyVals vals b)

/-- The model slots that a parameter block binds. -/
def paramModels (b : Bytes) : List Nat := bitList 4 (rd b 1 1)

end Sys2Proof.Machine
end

