-- ==== Sys2Proof/Machine/HostOps.lean ====
section
/-! DEFINITION. Rings and descriptors: enabling and disabling a ring, doorbells, the choice of the descriptor taken next,
and how a taken descriptor is answered (R403 to R435, R446). -/

namespace Sys2Proof.Machine

def State.modRing (s : State) (fn r : Nat) (f : Ring → Ring) : State := s.setRing fn r (f (s.ring fn r))
def State.modHfn (s : State) (fn : Nat) (f : HostFn → HostFn) : State := s.setHfn fn (f (s.hfn fn))
def State.modHst (s : State) (f : Hosts → Hosts) : State := { s with hst := f s.hst }

/-- Ring r is one of the rings of the tenant of function fn (R408). -/
def State.hasRing (s : State) (fn r : Nat) : Bool := (s.tenantOf fn).elim false fun t => r < s.ringCount t

/-- TENANT of an evidence record about a function (R453). -/
def State.recTenant (s : State) (fn : Nat) : Nat := (s.tenantOf fn).getD 0xFF

/-! ### Ring control (R410 to R412) -/

/-- The ring selected by TEN_RING_SEL of a function (R467). -/
def State.selRing (s : State) (fn : Nat) : Nat := fld (s.hfn fn).ringSel.toNat 0 14

/-- The fields of TEN_R_CTL but ENABLE, written (R467). -/
def Ring.writeCtl (g : Ring) (v : Nat) : Ring :=
  { g with kind := fld v 1 2, sizeLog2 := fld v 3 5, poly := fld v 8 1, urgent := bitAt v 9, cplRing := fld v 10 14 }

/-- SETUP_ERR of an attempt to enable a ring; 0 where every check holds (R410). -/
def State.setupErr (s : State) (fn : Nat) (g : Ring) : Nat :=
  let c := s.ring fn g.cplRing
  if (s.tenantOf fn).isNone then 1
  else if g.sizeLog2 < 6 ∨ 16 < g.sizeLog2 then 2
  else if g.base.toNat % 4096 ≠ 0 ∨ g.wb.toNat % 64 ≠ 0 then 3
  else if g.kind = 3 then 4
  else if g.kind = 0 ∧ !(s.hasRing fn g.cplRing && c.enable && c.kind == 1) then 6
  else 0

/-- The ring starts afresh. -/
def Ring.start (g : Ring) : Ring :=
  { g with enable := true, setupErr := 0, pi := 0, ci := 0, dbSeq := 0, skipFirst := 0, skipLast := 0, unannounced := 0 }

/-- A write of TEN_R_CTL with ENABLE 1 to ring r of function fn (R410, R411); an owed lost notice goes out first (R449). -/
def State.enableRing (s : State) (fn r v : Nat) : State :=
  if (s.ring fn r).enable then s
  else
    let g := (s.ring fn r).writeCtl v
    let e := s.setupErr fn g
    if e = 0 then (s.setRing fn r g.start).writeNotice fn r
    else if e = 1 then s.modRing fn r fun x => { x with setupErr := 1 }
    else s.setRing fn r { g with setupErr := e }

/-- An enabled submission ring or an open watch context names completion ring r (R412). -/
def State.ringBound (s : State) (fn r : Nat) : Bool :=
  (s.hst.rings.any fun (k, g) => k / 16384 == fn && g.enable && g.kind == 0 && g.cplRing == r) ||
  s.openCtxs.any fun c => s.fnOf (s.watch c).tenant == fn && (s.watch c).cplRing == r

/-- The ring is disabled; what a completion ring holds is discarded (R412, R448). -/
def State.disableNow (s : State) (fn r : Nat) : State :=
  let g := s.ring fn r
  (s.setRing fn r { g with enable := false, owed := g.owed - g.waiting.length, waiting := [] }).dropHeld fn r

/-- A write of TEN_R_CTL with ENABLE 0 (R411, R412). -/
def State.disableRing (s : State) (fn r v : Nat) : State :=
  let g := s.ring fn r
  if !g.enable then s.setRing fn r (g.writeCtl v)
  else if g.kind = 1 ∧ s.ringBound fn r then s.setRing fn r { g with setupErr := 5 }
  else (s.disableNow fn r).modRing fn r fun x => { x with setupErr := 0 }

/-- A write of TEN_R_CTL by function fn (R467); one whose RING is not the tenant's is discarded, and the attempt of a
function without a tenant leaves its SETUP_ERR. -/
def State.writeRingCtl (s : State) (fn v : Nat) : State :=
  let r := s.selRing fn
  if bitAt v 0 && (s.tenantOf fn).isNone then s.enableRing fn r v
  else if !s.hasRing fn r then s
  else if bitAt v 0 then s.enableRing fn r v else s.disableRing fn r v

/-! ### Doorbells (R415 to R419) -/

/-- INDEX is valid (R417). -/
def Ring.indexOk (g : Ring) (index : Nat) : Bool :=
  let d := (index + 2 ^ 32 - g.ci) % 2 ^ 32
  if g.kind = 0 then d ≤ g.size && g.used ≤ d else d ≤ g.used

/-- Cause by which a doorbell is not accepted; 0 where it is (R418). -/
def State.dbCause (s : State) (fn r index seq : Nat) : Nat :=
  let g := s.ring fn r
  if !s.hasRing fn r then 1
  else if !g.enable then 2
  else if seq ≠ (g.dbSeq + 1) % 2 ^ 32 then 3
  else if !g.indexOk index then 4 else 0

/-- A doorbell that is not accepted (R418). -/
def State.rejectDb (s : State) (fn r cause index seq : Nat) : State :=
  let s1 := match s.tenantOf fn with
    | some t => s.modTenant t fun x => { x with dbErr := inc 16 x.dbErr }
    | none => s
  let s2 := if s.hasRing fn r then s1.modRing fn r fun g => { g with dbErrs := inc 16 g.dbErrs, lastDbErr := cause } else s1
  s2.evidence 0x0001 (s.recTenant fn) 1 0xFFFFFFFF (le 2 r ++ le 1 cause ++ zeros 1 ++ le 4 index ++ le 4 seq)

/-- One doorbell of ring r (R416, R418). -/
def State.doorbell (s : State) (fn r index seq : Nat) : State :=
  let c := s.dbCause fn r index seq
  if c = 0 then
    s.modRing fn r fun g => if g.kind = 0 then { g with dbSeq := seq, pi := index } else { g with dbSeq := seq, ci := index }
  else s.rejectDb fn r c index seq

/-- A write of whole words from ring r on: consecutive doorbells (R419). -/
def State.doorbells (s : State) (fn : Nat) : Nat → List Bytes → State
  | _, [] => s
  | r, w :: rest => (s.doorbell fn r (rd w 0 4) (rd w 4 4)).doorbells fn (r + 1) rest

/-- A write to the doorbell region at offset off (R415, R419). What a write that covers part of a word gives as INDEX and
SEQ of its record is not stated, so the two are free values. -/
def State.doorbellWrite (s : State) (fn off : Nat) (data : Bytes) : State :=
  if off % 8 = 0 ∧ data.length % 8 = 0 ∧ data ≠ [] then s.doorbells fn (off / 8) (chunks 8 data)
  else
    let (i, s1) := s.fresh
    let (q, s2) := s1.fresh
    s2.rejectDb fn (off / 8) 5 (i % 2 ^ 32) (q % 2 ^ 32)

/-! ### Fetching (R414, R421, R446) -/

/-- A completion ring has a free entry that no fetched descriptor has reserved (R446). -/
def State.hasEntry (s : State) (fn r : Nat) : Bool :=
  let g := s.ring fn r
  g.enable && g.kind == 1 && g.used + g.owed < g.size

/-- A descriptor of ring r can be fetched (R399, R412, R414, R446). -/
def State.canFetch (s : State) (fn r : Nat) : Bool :=
  let g := s.ring fn r
  s.hasRing fn r && g.enable && g.kind == 0 && g.pi != g.ci && s.acting != .startUp && (s.hfn fn).busMaster &&
    s.hasEntry fn g.cplRing

/-- CHECK of the descriptor of index i of ring r (R148, R421). -/
def State.descCheckOk (s : State) (fn r i : Nat) (b : Bytes) : Bool :=
  let g := s.ring fn r
  let stream := 0x80000000 ||| ((s.recTenant fn * 0x8000) ||| r)
  rd b 4 4 == streamCheck g.poly stream i (i % g.size * 64) 64 (patch b 4 (zeros 4))

/-- The descriptor at CI of ring r is fetched: the index moves on, and an entry is reserved (R413, R446). -/
def State.fetched (s : State) (fn r : Nat) : State :=
  let g := s.ring fn r
  let i := (g.ci + 1) % 2 ^ 32
  (((s.setRing fn r { g with ci := i, outstanding := g.outstanding ++ [(g.ci, g.cplRing)] }).modRing fn g.cplRing
    fun c => { c with owed := c.owed + 1 }).hostRead fn (g.entryAt g.ci) 64).writeBack fn r i

/-- A descriptor whose CHECK fails (R421). -/
def State.checkFailed (s : State) (fn r i : Nat) (b : Bytes) : State :=
  let s1 := match s.tenantOf fn with
    | some t => s.modTenant t fun x => { x with checkFail := inc 16 x.checkFail }
    | none => s
  (s1.evidence 0x0003 (s.recTenant fn) 1 0xFFFFFFFF (le 2 r ++ zeros 2 ++ le 4 i)).complete fn r i
    { status := 0x10, opcode := opcodeOf b }

/-- The fetch of the descriptor at CI of ring r ends with its 64 bytes, or fails (R421, R442). -/
def State.descFetch (s : State) (fn r : Nat) (bytes : Bytes) (ok : Bool) : State :=
  let i := (s.ring fn r).ci
  let b := padTo 64 bytes
  let s1 := s.fetched fn r
  if !ok then s1.complete fn r i { status := 0x14 }
  else if s.descCheckOk fn r i b then s1.modHst fun h => { h with fetched := h.fetched ++ [{ fn := fn, ring := r, index := i, bytes := b }] }
  else s1.checkFailed fn r i b

/-! ### Taking (R423, R424, R427) -/

def Desc.key (d : Desc) : Nat := ringKey d.fn d.ring

/-- The oldest fetched descriptor of each ring. -/
def State.fronts (s : State) : List Desc :=
  s.hst.fetched.filter fun d => (s.hst.fetched.find? fun e => e.key == d.key) == some d

/-- The descriptor can be taken: no earlier one of its ring is still being decided, and a fenced one waits until every
earlier one has completed (R423, R424). -/
def State.mayTake (s : State) (d : Desc) : Bool :=
  !(s.hst.openings.any fun o => o.fn == d.fn && o.ring == d.ring) &&
  (!bitAt (rd d.bytes 1 1) 0 || (s.ring d.fn d.ring).outstanding.head?.elim true fun x => x.1 == d.index)

/-- The ring after `turn` in the cyclic order of ring keys. -/
def inTurn (turn : Nat) (l : List Desc) : Option Desc :=
  let least (x : List Desc) : Option Desc := x.foldl (fun a d => match a with
    | none => some d
    | some e => if d.key < e.key then some d else a) none
  match least (l.filter fun d => turn < d.key) with
  | some d => some d
  | none => least l

/-- A function's tenant is AUX, or it has none. -/
def State.fnAux (s : State) (fn : Nat) : Bool := (s.tenantOf fn).elim true s.tenAux

/-- The descriptor the device takes next: SAFETY before AUX, one from each ring in turn (R427). -/
def State.nextTake (s : State) : Option Desc :=
  let ready := s.fronts.filter s.mayTake
  match inTurn s.hst.turnSafety (ready.filter fun d => !s.fnAux d.fn) with
  | some d => some d
  | none => inTurn s.hst.turnAux (ready.filter fun d => s.fnAux d.fn)

/-- A descriptor that has been taken, after its range checks. -/
structure Taken where
  fn : Nat
  ring : Nat
  index : Nat
  op : Nat
  clamps : Nat
  bytes : Bytes
  tenant : Nat
deriving DecidableEq, Repr, Inhabited

/-- CONTEXT of a descriptor that names a watch context. -/
def Taken.ctx (t : Taken) : Nat := rd t.bytes 8 2

/-- DETAIL: the context for watch opcodes, 0 otherwise (R441). -/
def Taken.detail (t : Taken) : Nat := if 1 ≤ t.op ∧ t.op ≤ 4 then t.ctx else 0

/-- The descriptor completes with a status, RESULT, DETAIL and DATA. -/
def Taken.answer (t : Taken) (s : State) (status result detail : Nat) (data : Bytes) : State :=
  s.complete t.fn t.ring t.index { status, opcode := t.op, result, detail, clampMap := t.clamps, data }

/-- Refused or stopped by a status without a RESULT (R404, R422, R429). -/
def Taken.stop (t : Taken) (s : State) (status : Nat) : State := t.answer s status 0 t.detail []

/-- Refused by its owning rule (R442 REFUSED). -/
def Taken.refuse (t : Taken) (s : State) (result : Nat) : State := t.answer s 0x13 result t.detail []

/-- DONE, or DONE_CLAMPED where a field was clamped. -/
def Taken.done (t : Taken) (s : State) (result : Nat) (data : Bytes) : State :=
  t.answer s (b2n (t.clamps != 0)) result t.detail data

/-- Opcodes that only a SAFETY tenant may use (R422). -/
def safetyOnly (op : Nat) : Bool := 0x10 ≤ op && op ≤ 0x21

/-- The descriptor's opcode is accepted in the operating state (R429). -/
def State.accepts (s : State) (t : Taken) : Bool :=
  if s.glb.st = .safe then [0x00, 0x30, 0x31].contains t.op
  else match s.acting with
    | .configured | .running => true
    | .maintenance => [0x00, 0x10, 0x12, 0x20, 0x21, 0x30, 0x31].contains t.op ||
        (t.op == 0x14 && goldSet t.bytes && rd t.bytes 10 1 == (s.watch t.ctx).k && rd t.bytes 11 1 == (s.watch t.ctx).g)
    | _ => false

/-- The device takes the next descriptor if `mine` says that its opcode is this command's: it is judged by class, by
operating state and by `owner`, and goes on to `act` (R404, R422, R429). -/
def State.onOpcode (s : State) (mine : Nat → Bytes → Bool) (owner : State → Taken → Bool) (act : State → Taken → State) :
    State :=
  match s.nextTake with
  | none => s
  | some d =>
    let (clamps, b) := clampDesc d.bytes
    let op := opcodeOf d.bytes
    if !mine op b then s
    else
      let s1 := s.modHst fun h => { h with
        fetched := h.fetched.erase d
        turnSafety := if s.fnAux d.fn then h.turnSafety else d.key
        turnAux := if s.fnAux d.fn then d.key else h.turnAux }
      let t : Taken := { fn := d.fn, ring := d.ring, index := d.index, op, clamps, bytes := b, tenant := s.recTenant d.fn }
      if t.tenant = 0xFF ∨ (safetyOnly op ∧ s.tenAux t.tenant) then t.stop s1 0x11
      else if !s1.accepts t then t.stop s1 0x17
      else if !owner s1 t then t.stop s1 0x12
      else act s1 t

/-- Nothing in the descriptor belongs to another tenant. -/
def noOwner (_ : State) (_ : Taken) : Bool := true

/-- The context belongs to the tenant, or is closed (R404). -/
def ownsCtx (s : State) (t : Taken) : Bool := !(s.watch t.ctx).isOpen || (s.watch t.ctx).tenant == t.tenant

end Sys2Proof.Machine
end

