-- ==== Sys2Proof/Machine/Rings.lean ====
section
/-! DEFINITION. The commands of the host links and rings: doorbells, fetches, ring control, messages, held records,
function reset (R399, R410 to R421, R446 to R464). -/

namespace Sys2Proof.Machine

/-! ### Host functions (R397) -/

/-- H_CFG of the option block in use (R671, R673). -/
def State.hCfg (s : State) : Nat := rd s.rst.opt 12 1

/-- Function fn (LINK × 2 + FUNCTION) is provided under H_CFG h (R397, R671). -/
def fnProvided (h fn : Nat) : Bool :=
  let link := fn / 2
  fn < 8 && (link % 2 == 0 || bitAt h (link / 2)) && (fn % 2 == 0 || bitAt h (2 + link))

/-- Function fn exists and its port is released and powered (R677, R684). -/
def State.hostOn (s : State) (fn : Nat) : Bool :=
  fnProvided s.hCfg fn && s.atStep 8 && s.rst.on.contains (99 + fn / 4)

/-! ### Ring control and doorbells -/

/-- RING_ENABLE: a write of TEN_R_CTL with ENABLE 1 by function fn; v is the word written (R410, R411). -/
def execRingEnable (dt fn v : Nat) (s : State) : Host.Outcome State Fault Refusal :=
  let s := s.advance dt
  .next (if s.hostOn fn && bitAt v 0 then s.writeRingCtl fn v else s)

/-- RING_DISABLE: a write of TEN_R_CTL with ENABLE 0 (R411, R412). -/
def execRingDisable (dt fn v : Nat) (s : State) : Host.Outcome State Fault Refusal :=
  let s := s.advance dt
  .next (if s.hostOn fn && !bitAt v 0 then s.writeRingCtl fn v else s)

/-- DOORBELL: a write of function fn to its doorbell region at offset off (R415 to R419). -/
def execDoorbell (dt fn off : Nat) (data : Bytes) (s : State) : Host.Outcome State Fault Refusal :=
  let s := s.advance dt
  .next (if s.hostOn fn && off < 0x20000 then s.doorbellWrite fn off data else s)

/-- DESCRIPTOR_FETCH: the descriptor at CI of ring r of function fn is fetched; the read gives `bytes`, or fails
(R399, R414, R421, R446). -/
def execDescriptorFetch (dt fn r : Nat) (bytes : Bytes) (ok : Bool) (s : State) : Host.Outcome State Fault Refusal :=
  let s := s.advance dt
  .next (if s.hostOn fn && s.canFetch fn r then s.descFetch fn r bytes ok else s)

/-- BUS_MASTER_ENABLE: host software writes the bit, and with it MSI-X Enable, the Function Mask and the two size codes of
the function's configuration space; records that waited in reserved entries and messages that may go out by now go out
(R398, R399, R458). -/
def execBusMasterEnable (dt fn : Nat) (on msixOn msixMask : Bool) (mps mrrs : Nat) (s : State) :
    Host.Outcome State Fault Refusal :=
  let s := s.advance dt
  .next (if s.hostOn fn then
      let s1 := s.modHfn fn fun h => { h with
        busMaster := on, msixOn := msixOn, msixMask := msixMask, maxPayload := min 2 mps, maxRead := min 5 mrrs }
      let s2 := if on then
          ((s1.hst.rings.map (·.1)).filter fun k => k / 16384 == fn).foldl (fun q k => q.writeWaiting fn (k % 16384)) s1
        else s1
      s2.sendPending fn
    else s)

/-! ### Messages and held records -/

/-- IRQ_MODERATION_TIMEOUT of ring r of function fn (R459). -/
def execIrqModerationTimeout (dt fn r : Nat) (s : State) : Host.Outcome State Fault Refusal :=
  let s := s.advance dt
  let g := s.ring fn r
  .next (if g.enable && g.kind != 0 && g.irqNow.irqEn && g.irqNow.modTime != 0 && g.unannounced != 0 &&
      decide (s.mc - g.firstAt ≥ g.irqNow.modTime * usMc) then s.ringMessage fn r else s)

/-- HELD_RECORD_WRITE: the oldest held record of a completion ring finds a free entry (R399, R447). -/
def execHeldRecordWrite (dt fn r : Nat) (s : State) : Host.Outcome State Fault Refusal :=
  .next ((s.advance dt).writeHeld fn r)

/-- LOST_NOTICE: the notice that a completion ring owes finds a free entry (R449). -/
def execLostNotice (dt fn r : Nat) (s : State) : Host.Outcome State Fault Refusal :=
  .next ((s.advance dt).writeNotice fn r)

/-- RING_GAP: an evidence ring that has skipped records finds a free entry (R454). -/
def execRingGap (dt fn r : Nat) (s : State) : Host.Outcome State Fault Refusal :=
  .next ((s.advance dt).ringGap fn r)

/-! ### Function reset and accesses -/

/-- A ring with its RW fields at their reset values (R463). -/
def Ring.cleared (g : Ring) : Ring :=
  { g with base := 0, wb := 0, enable := false, kind := 0, sizeLog2 := 0, poly := 0, urgent := false, cplRing := 0,
           irq := {}, irqNow := {} }

/-- Function fn is reset (R463, R464): its long operations stop without records but for a commit that has begun (banks
that an aborted commit powered go off again, R686), its rings are disabled at once. Its PCIe settings, the MSI-X table and the pending bits return to their PCIe reset values
(PRESUMED: the PCIe rules, log entry 53). -/
def State.resetFn (s : State) (fn : Nat) : State :=
  let commit := (s.hfn fn).longRun.elim false fun o => o.op == 0x21 && !o.begun
  let s0 := s.abortOps fn false (·.begun)
  let s1 := if commit then s0.trimBanks else s0
  let mine := (s1.hst.rings.map (·.1)).filter fun k => k / 16384 == fn
  let s2 := mine.foldl (fun q k => (q.disableNow fn (k % 16384)).modRing fn (k % 16384) Ring.cleared) s1
  s2.modHfn fn fun h => { h with
    busMaster := false, msixOn := false, msixMask := false, maxPayload := 0, maxRead := 2
    evtVector := 0, evtEnable := false, ringSel := 0, msix := [], pba := [] }

/-- FUNCTION_RESET: kind 0 is a Function Level Reset, 1 a hot reset and 2 a link-down of the function's link, which then
stands at SPEED and WIDTH, 0 while it is down (R463 to R465). -/
def execFunctionReset (dt fn kind speed width : Nat) (s : State) : Host.Outcome State Fault Refusal :=
  let s := s.advance dt
  .next (if s.hostOn fn then
      if kind = 0 then s.resetFn fn
      else [fn / 2 * 2, fn / 2 * 2 + 1].foldl (fun q f =>
        (q.resetFn f).modHfn f fun h => { h with speed := speed % 16, width := width % 32, up := speed != 0 }) s
    else s)

end Sys2Proof.Machine
end

