-- ==== Sys2Proof/Machine/CfgChecks.lean ====
section
/-! DEFINITION. The range checks of a configuration (R770): every field out of its range is clamped, and the clamps are
listed in the order of the BAR0 ranges of R766. A check that reads a field of another range reads it as validated. -/

namespace Sys2Proof.Machine

/-! ### A configuration under its checks -/

/-- A configuration under its range checks: its words and Plibex section so far, the clamps so far, the register sections
that the image has, and the option block that will be in use when it takes effect (R770). -/
structure Check where
  cfg : Cfg := {}
  clamps : List Clamp := []
  sects : List Sect := []
  opt : Bytes := []
deriving DecidableEq, Repr, Inhabited

/-- A clamp joins the list; a field that is clamped again keeps its place. -/
def noteClamp (c : Clamp) : List Clamp → List Clamp
  | [] => [c]
  | x :: r => if x.field = c.field ∧ x.lo = c.lo then c :: r else x :: noteClamp c r

/-- A field that no section covers takes its reset value and is not checked (R766). -/
def Check.has (k : Check) (o : Nat) : Bool := coversWord k.sects o

/-- A field of the word at o. -/
def Check.get (k : Check) (o lo w : Nat) : Nat := fld (k.cfg.word o) lo w

/-- A field takes a value; where that is not the one it had, it is clamped. -/
def Check.put (k : Check) (o lo w v : Nat) (safety : Bool) : Check :=
  if k.get o lo w = v then k
  else { k with cfg := k.cfg.setWord o (setFld (k.cfg.word o) lo w v), clamps := noteClamp { field := o, lo, value := v, safety } k.clamps }

/-- A field with a stated range goes to the nearer bound. -/
def Check.range (k : Check) (o lo w a b : Nat) (safety : Bool) : Check :=
  if k.has o then k.put o lo w (clampN a b (k.get o lo w)) safety else k

/-- A VALID bit at bit 0 that is clamped to 0. -/
def Check.drop (k : Check) (o : Nat) (bad : Bool) : Check := if bad && bitAt (k.cfg.word o) 0 then k.put o 0 1 0 true else k

/-- A check for each number below n, in ascending order. -/
def Check.each (k : Check) (n : Nat) (f : Check → Nat → Check) : Check := (List.range n).foldl f k

/-- The same for a list of fields of one word, each lowest bit and width, put to one value. -/
def Check.putAll (k : Check) (o : Nat) (l : List (Nat × Nat × Nat)) (safety : Bool) : Check :=
  l.foldl (fun q (lo, w, v) => q.put o lo w v safety) k

/-! ### Bits that are no configuration field (R767) -/

/-- Each bit that is not 0 counts as a field of its own. -/
def Check.mask (k : Check) (o : Nat) : Check :=
  (bitList 32 (k.cfg.word o)).foldl (fun q i => if bitAt (cfgMask o) i then q else q.put o i 1 0 false) k

/-! ### Frame (R71, R79, R80) and T_deg (R490) -/

def Check.rate (k : Check) : Check :=
  let k1 := (k.range 0x100 0 14 10 10000 true).range 0x100 16 10 1 1000 true
  let a := k1.get 0x100 0 14
  let c := k1.get 0x100 16 10
  if !k1.has 0x100 then k1
  else if a < 10 * c then k1.put 0x100 16 10 (a / 10) true
  else if 200 * c < a then k1.put 0x100 16 10 (ceilDiv a 200) true
  else k1

/-- Bounds of slot edge e in µs, from a frame period of f µs and the edges before it (R79). -/
def edgeBounds (f e : Nat) (at_ : Nat → Nat) : Nat × Nat :=
  match e with
  | 0 => (1000, f - 3100)
  | 1 => (at_ 0 + 1000, f - 2100)
  | 2 => (100, at_ 0)
  | 3 => (0, at_ 2 - 1)
  | 4 => (at_ 2, at_ 1 - 20)
  | 5 => (at_ 1, f - 100)
  | 6 => (at_ 5, f - 100)
  | 7 => (at_ 1, f - 2100)
  | _ => (at_ 7 + 2000, f - 100)

def Check.edges (k : Check) : Check :=
  k.each 9 fun q e =>
    let (a, b) := edgeBounds q.cfg.frameUs e q.cfg.edge
    q.range (0x120 + 4 * e) 0 18 a b true

/-! ### Tenants (R402) -/

/-- Rings of tenant t: the range overlaps that of another. -/
def Cfg.ringsMeet (c : Cfg) (t u : Nat) : Bool :=
  let b := fun x => fld (c.word (0x10104 + 0x20 * x)) 0 15
  let n := fun x => fld (c.word (0x10104 + 0x20 * x)) 16 15
  n t != 0 && n u != 0 && decide (b t < b u + n u) && decide (b u < b t + n t)

def Check.tenant (k : Check) (t : Nat) : Check :=
  let o := 0x10100 + 0x20 * t
  let below := (List.range t).filter k.cfg.tenValid
  let k1 := k.drop o (!fnProvided (rd k.opt 12 1) (k.cfg.tenFn t) || below.any fun u => k.cfg.tenFn u == k.cfg.tenFn t)
  let k2 := k1.range (o + 4) 16 15 0 16384 false
  let base := k2.get (o + 4) 0 15
  let k3 := if 32768 < base + k2.get (o + 4) 16 15 then k2.put (o + 4) 16 15 (32768 - base) false else k2
  if below.any (k3.cfg.ringsMeet t) then k3.put (o + 4) 16 15 0 false else k3

/-! ### Partitions (R92, R93, R97, R101) -/

/-- The fixed entries of partitions 0 and 1; the fields that differ in the image count as not safety-classified. -/
def Check.fixedPart (k : Check) (p : Nat) : Check :=
  let o := 0x2D0000 + 0x20 * p
  let k1 := if k.has o then k.putAll o [(0, 1, 1), (1, 1, p), (2, 1, 1 - p), (4, 3, 0), (8, 6, 0x3F)] false else k
  let m := if p = 0 then 4 else 0
  let k2 := if k1.has (o + 4) then k1.putAll (o + 4) [(0, 8, m), (8, 8, m), (16, 8, m), (24, 8, m)] false else k1
  if p = 0 ∧ k2.has (o + 8) then k2.putAll (o + 8) [(0, 8, 0), (8, 8, 0), (16, 8, 0), (24, 8, 0)] false else k2

/-- Shares of a target that the VALID partitions below p have taken (R92). -/
def Cfg.sharesBelow (c : Cfg) (p target : Nat) : Nat :=
  (((List.range p).filter fun q => decide (2 ≤ q) && c.prtValid q).map fun q => fld (c.prtMin q) (8 * target) 8).foldl (· + ·) 0

/-- Bandwidth shares of an entry of partitions 2 to 63 (R92, R93). DESIGN CHOICE (log 34): the spec does not say whether an
entry with VALID 0 is clamped or counted; here its minima are neither. -/
def Check.part (k : Check) (p : Nat) : Check :=
  let o := 0x2D0000 + 0x20 * p
  if !k.cfg.prtValid p then k
  else k.each 4 fun q i =>
    let q1 := if q.cfg.prtAux p then q.put (o + 4) (8 * i) 8 0 true else q.put (o + 8) (8 * i) 8 0 true
    q1.put (o + 4) (8 * i) 8 (min (q1.get (o + 4) (8 * i) 8) (252 - q1.cfg.sharesBelow p i)) true

/-! ### Regions (R99, R768) -/

/-- Two overlapping regions of different partitions break a rule of R99. -/
def Cfg.regionsClash (c : Cfg) (a b : Region) : Bool :=
  let shared (w r : Region) : Bool := !r.write && c.prtSafety r.part && c.prtSafety w.part && c.prtTenant r.part == c.prtTenant w.part
  a.target == b.target && decide (a.base < b.base + b.size) && decide (b.base < a.base + a.size) && a.part != b.part &&
  ((a.write && !shared a b) || (b.write && !shared b a) || c.prtAux a.part != c.prtAux b.part)

/-- Entry n is judged beside all others as the image gives them, `c`: of two that clash each breaks the rule (R99). -/
def Check.region (c : Cfg) (k : Check) (n : Nat) : Check :=
  let r := k.cfg.region n
  let bad := r.part == 0 || (r.part != 1 && !k.cfg.prtValid r.part) || decide (targetPages r.target < r.base + r.size) ||
    (r.target == 0 && decide (r.base ≤ 3670015) && decide (2621440 < r.base + r.size)) ||
    c.regions.any (c.regionsClash r)
  if r.size != 0 && bad then k.put (0x2D1004 + 0x10 * n) 0 24 0 true else k

/-! ### Report slots (R160) -/

/-- A partition has a region that allows READ and WRITE in one of the targets. -/
def Cfg.hasRw (c : Cfg) (p : Nat) (targets : List Nat) : Bool :=
  (c.partRegions p).any fun r => r.read && r.write && targets.contains r.target

/-- The buffer of report slot i lies within one READ and WRITE region of its PART, a partition 2 to 63. -/
def Cfg.bufferOk (c : Cfg) (i : Nat) : Bool :=
  let b := fld (c.slotWord i 8) 0 24
  decide (2 ≤ c.slotPart i) && (c.partRegions (c.slotPart i)).any fun r =>
    r.read && r.write && r.target == fld (c.slotWord i 8) 24 2 && decide (r.base ≤ b) && decide (b + c.slotPages i ≤ r.base + r.size)

def Check.slot (k : Check) (i : Nat) : Check :=
  let o := 0x3C1000 + 0x40 * i
  let id := k.cfg.slotStream i
  let k1 := k.drop o (id == 0 || (List.range i).any fun j => k.cfg.slotValid j && k.cfg.slotStream j == id)
  let k2 := if k1.cfg.slotPoly i = 3 then k1.put o 1 2 0 true else k1
  let z := k2.cfg.slotPages i
  let k3 := if k2.has (o + 0xC) && (z == 0 || decide (65536 < z)) then k2.put (o + 0xC) 0 17 65536 true else k2
  k3.drop o (!k3.cfg.bufferOk i)

/-! ### Plan slots (R187, R232, R379) -/

/-- Partition p is a SAFETY partition of tenant t. -/
def Cfg.safetyOf (c : Cfg) (t p : Nat) : Bool := c.prtSafety p && c.prtTenant p == t

def Check.plan (k : Check) (p : Nat) : Check :=
  let c := k.cfg
  let below := (List.range p).filter c.plnValid
  k.drop (0x80100 + 0x40 * p)
    (!c.slotValid (c.plnReport p) || (below.any fun q => c.plnReport q == c.plnReport p) ||
     !c.safetyOf (c.slotTenant (c.plnReport p)) (c.plnPart p) || !c.hasRw (c.plnPart p) [0] ||
     below.any fun q => c.plnPart q == c.plnPart p)

/-- CH_PART of plan slot p. -/
def Cfg.chPart (c : Cfg) (p : Nat) : Nat := fld (c.chWord p) 1 6

def Check.chl (k : Check) (p : Nat) : Check :=
  let c := k.cfg
  let h := c.chPart p
  let mine := (c.partRegions (c.plnPart p)).filter (·.target == 0)
  k.drop (0x84100 + 0x40 * p)
    (!c.plnValid p || !c.safetyOf (c.prtTenant (c.plnPart p)) h ||
     ((List.range 16).any fun q => c.plnValid q && c.plnPart q == h) ||
     ((List.range p).any fun q => bitAt (c.chWord q) 0 && c.chPart q == h) ||
     !((c.partRegions h).any fun r => r.target == 0 && r.read && !r.write &&
        mine.all fun x => decide (r.base ≤ x.base) && decide (x.base + x.size ≤ r.base + r.size)) ||
     !((c.partRegions h).any fun r => r.target != 0 && r.read && r.write && decide (1024 ≤ r.size)))

def Check.gold (k : Check) (p : Nat) : Check :=
  let c := k.cfg
  let g := c.goldPart p
  let bad := !c.plnValid p || !c.safetyOf (c.plnTenant p) g || !c.hasRw g [0] || !bitAt (c.prtSlots g) 4 ||
    ((List.range 16).any fun q => c.plnValid q && (c.plnPart q == g || (bitAt (c.chWord q) 0 && c.chPart q == g))) ||
    (List.range p).any fun q => c.goldPart q == g
  if g != 0 && bad then k.put (0x140200 + 0x20 * p) 0 6 0 true else k

/-! ### Badger (R291, R300, R325) -/

def Check.limits (k : Check) : Check :=
  let k1 := k.range 0x100008 0 8 1 32 true
  let k2 := k1.range 0x100008 8 8 (k1.get 0x100008 0 8) 64 true
  k2.range 0x100008 16 8 (k2.get 0x100008 8 8) 255 true

/-- Two model slots share a role and overlap in macros or in tile SRAM. -/
def Cfg.modelsMeet (c : Cfg) (m n : Nat) : Bool :=
  let mask := fun x => fld (c.mCfg x) 8 8
  let mac := fun x => fld (c.mCfg x) 21 6
  let ram := fun x => fld (c.word (0x100404 + 0x40 * x)) 0 8
  (mask m &&& mask n) != 0 &&
  ((decide (c.mBase m < c.mBase n + mac n) && decide (c.mBase n < c.mBase m + mac m)) ||
   (decide (ram m < ram n + c.mSram n) && decide (ram n < ram m + c.mSram m)))

def Check.model (k : Check) (m : Nat) : Check :=
  let o := 0x100400 + 0x40 * m
  let b := k.get o 16 5
  let k1 := if 32 < b + k.get o 21 6 then k.put o 21 6 (32 - b) true else k
  let r := k1.get (o + 4) 0 8
  let k2 := if 256 < r + k1.get (o + 4) 8 9 then k1.put (o + 4) 8 9 (256 - r) true else k1
  let c := k2.cfg
  let p := c.mPart m
  k2.drop o (k2.get o 8 8 == 0 || k2.get o 21 6 == 0 || k2.get (o + 4) 8 9 == 0 || !c.prtSafety p || !c.hasRw p [1, 2, 3] ||
    fld (c.prtSlots p) 0 2 != 3 || (List.range m).any fun n => c.mValid n && c.modelsMeet m n)

/-- Data types of R282. -/
def csiTypes : List Nat := [0x2A, 0x2B, 0x2C, 0x2D, 0x2E, 0x1E, 0x24]

/-- A VALID source of the same kind names the same input. -/
def Cfg.sameSource (c : Cfg) (a b : Nat) : Bool :=
  c.srcValid b && c.srcEth a == c.srcEth b && c.srcPort a == c.srcPort b &&
  (if c.srcEth a then c.srcVlan a == c.srcVlan b && c.srcWidth a == c.srcWidth b else c.srcVc a == c.srcVc b)

def Check.source (k : Check) (i : Nat) : Check :=
  let o := 0x100C00 + 0x20 * i
  let eth := k.cfg.srcEth i
  let k1 := if eth then k.putAll o [(4, 4, 0), (8, 6, 0)] true
            else (k.put (o + 4) 16 12 0 true).putAll (o + 8) [(0, 7, 0), (8, 8, 0), (16, 2, 0), (18, 6, 0)] true
  let c := k1.cfg
  let below := List.range i
  let size := if c.srcXyzType i = 0 then 6 else 12
  let bad :=
    if eth then (c.srcStride i < 8 || 64 < c.srcStride i) || c.srcXyzType i == 3 || decide (c.srcStride i < c.srcXyzOff i + size)
    else !csiTypes.contains (c.srcDt i) ||
      decide (4 ≤ (below.filter fun j => c.srcValid j && !c.srcEth j && c.srcPort j == c.srcPort i).length)
  k1.drop o (bad || below.any (c.sameSource i))

/-! ### Time base (R598, R607), FRER and TSN (R549, R585, R588, R589), Fox management (R800) -/

def Check.time (k : Check) : Check :=
  let k1 := k.range 0x18000C 0 24 1000 10000000 true
  let k2 := k1.range 0x180010 0 24 100 (k1.get 0x18000C 0 24) true
  let k3 := ((k2.range 0x180008 2 7 0 127 false).range 0x180008 13 3 0 5 false).range 0x180014 0 12 1 3600 false
  if k3.get 0x180008 0 2 = 3 then k3.put 0x180008 0 2 0 true else k3

def Check.frer (k : Check) : Check := (k.range 0x1C0028 0 6 2 32 false).range 0x1C0028 16 10 1 1000 false

def Check.tsn (k : Check) : Check :=
  let k1 := k.each 4 fun q m =>
    let o := 0x1C4000 + 0x1000 * m
    let q1 := (q.range o 8 9 1 256 false).range (o + 0x10) 0 32 1000 1000000000 false
    let q2 := if 2 ≤ m ∧ q1.has (o + 0x18) then q1.putAll (o + 0x18) [(0, 1, 0), (1, 1, 0), (2, 2, 0), (8, 8, 0)] false else q1
    q2.each 256 fun x g => x.range (o + 0x104 + 8 * g) 0 32 100 1000000000 false
  k1.each 256 fun q f => q.range (0x1C8000 + 0x20 * f) 16 16 64 9216 false

def Check.mgmt (k : Check) : Check :=
  let k1 := (k.range 0x340100 4 12 1 4094 false).range 0x340100 16 16 1024 65535 false
  let k2 := if k1.get 0x340104 0 16 = 0 then k1 else k1.range 0x340104 0 16 10 10000 false
  k2.range 0x340104 16 16 1024 65535 false

/-! ### The Shroud section (R513, R537, R542) -/

/-- Fields of instance n. -/
def Cfg.fnWord (c : Cfg) (n off : Nat) : Nat := c.word (0x201200 + 0x10 * n + off)
def Cfg.fnTyp (c : Cfg) (n : Nat) : Nat := fld (c.fnWord n 0) 0 3

/-- The instance needs a reset to enter RUN (R513). -/
def Cfg.fnNeedsReset (c : Cfg) (n : Nat) : Bool := c.fnTyp n == 1 || c.fnTyp n == 4 || (c.fnTyp n == 2 && !bitAt (c.fnWord n 0) 4)

/-- The inputs an instance uses other than RESET_IN. -/
def Cfg.fnInputs (c : Cfg) (n : Nat) : List Nat :=
  let w := c.fnWord n 4
  let t := c.fnTyp n
  if t = 0 then []
  else [fld w 0 5, fld w 8 5] ++ (if t = 3 then [fld w 16 5, fld w 24 5] else []) ++
    (if t == 2 && bitAt (c.fnWord n 0) 5 then [fld (c.fnWord n 8) 8 5] else [])

/-- Step 1 of R537 for the single fields: ranges; fields that a TYPE does not use are reserved and go to 0. -/
def Check.sioRanges (k : Check) : Check :=
  let k1 := ((k.range 0x201000 1 7 5 100 true).range 0x201000 8 10 10 1000 true).range 0x201004 8 8 20 200 true
  let k2 := k1.each 32 fun q i => q.range (0x201100 + 4 * i) 0 8 1 200 true
  let k3 := k2.each 64 fun q n =>
    let o := 0x201200 + 0x10 * n
    let t := q.cfg.fnTyp n
    let zero (x : Check) (off lo w : Nat) (used : Bool) : Check := if used then x else x.put (o + off) lo w 0 true
    if t = 0 then
      ((q.putAll o [(3, 1, 0), (4, 1, 0), (5, 1, 0), (16, 9, 0)] true).putAll (o + 4) [(0, 5, 0), (8, 5, 0), (16, 5, 0), (24, 5, 0)] true).putAll
        (o + 8) [(0, 5, 0), (8, 5, 0)] true |>.putAll (o + 0xC) [(0, 16, 0), (16, 4, 0)] true
    else
      let q1 := q.range o 16 9 10 500 true
      let q2 := zero (zero (zero q1 0 3 1 (t != 3)) 0 4 1 (t == 2)) 0 5 1 (t == 2)
      let q3 := zero (zero q2 4 16 5 (t == 3)) 4 24 5 (t == 3)
      zero (zero q3 8 0 5 (q3.cfg.fnNeedsReset n)) 8 8 5 (t == 2 && bitAt (q3.cfg.fnWord n 0) 5)
  let k4 := k3.each 16 fun q o =>
    let b := 0x201600 + 0x10 * o
    ((q.range b 16 14 1 10000 true).range (b + 4) 0 14 20 10000 true).range (b + 4) 16 10 10 1000 true
  k4.each 4 fun q p =>
    let b := 0x201700 + 0x10 * p
    ((q.range b 16 14 1 10000 true).range (b + 4) 0 14 20 10000 true).range (b + 4) 16 14 10 10000 true

/-- Step 4 of R537: an instance clamped to TYPE 0. -/
def Check.instance_ (k : Check) (n : Nat) : Check :=
  let c := k.cfg
  let t := c.fnTyp n
  let mine := c.fnInputs n
  let rst := fld (c.fnWord n 8) 0 5
  let below := (List.range n).filter fun m => c.fnTyp m != 0
  let asInput := fun i => below.any fun m => (c.fnInputs m).contains i
  let asReset := fun i => below.any fun m => c.fnNeedsReset m && fld (c.fnWord m 8) 0 5 == i
  let bad := decide (4 < t) || (t == 4 && bitAt (c.fnWord n 0) 3) || (mine.any fun i => asInput i || asReset i) ||
    (c.fnNeedsReset n && (mine.contains rst || asInput rst))
  if t != 0 && bad then k.put (0x201200 + 0x10 * n) 0 3 0 true else k

/-- Some instance in use has a bit of its mask set. -/
def Cfg.fnBinds (c : Cfg) (bit : Nat) : Bool := (List.range 64).any fun n => c.fnTyp n != 0 && bitAt (c.fnWord n 0xC) bit

/-- Tenant t is a VALID SAFETY tenant. -/
def Cfg.tenSafety (c : Cfg) (t : Nat) : Bool := c.tenValid t && !bitAt (c.word (0x10100 + 0x20 * t)) 1

/-- Step 5 of R537 for the output whose configuration lies at o and whose mask bit is `bit`. -/
def Check.output (k : Check) (o bit : Nat) : Check :=
  let c := k.cfg
  k.drop o (!c.fnBinds bit || (bitAt (c.word o) 1 && !c.tenSafety (fld (c.word o) 4 3)) || (decide (16 ≤ bit) && bitAt (c.word 0x201000) 0))

/-- Offset of the configuration of the output with mask bit b: SOUT 0 to 15, PRV 16 to 19. -/
def outCfg (b : Nat) : Nat := if b < 16 then 0x201600 + 0x10 * b else 0x201700 + 0x10 * (b - 16)

def Check.shroud (k : Check) : Check :=
  let k1 := k.sioRanges
  let top := (k1.get 0x201000 8 10 * 125 - 100) / 10
  let k2 := if k1.has 0x201004 ∧ top < k1.get 0x201004 8 8 then k1.put 0x201004 8 8 top true else k1
  let k3 := k2.each 32 fun q i =>
    let o := 0x201100 + 4 * i
    if bitAt (q.cfg.word o) 11 && !bitAt (q.cfg.word 0x201004) (q.get o 8 3) then q.put o 11 1 0 true else q
  let k4 := k3.each 64 Check.instance_
  let k5 := k4.each 20 fun q b => q.output (outCfg b) b
  let k6 := if bitAt (k5.cfg.word 0x201000) 0 then k5.each 20 fun q b => q.put (outCfg b) 1 1 0 true else k5
  k6.each 64 fun q n => q.each 20 fun x b =>
    if bitAt (x.cfg.fnWord n 0xC) b && !bitAt (x.cfg.word (outCfg b)) 0 then x.put (0x20120C + 0x10 * n) b 1 0 true else x

/-! ### The Plibex section (R558 to R561) -/

/-- A byte field of the Plibex section takes a value. -/
def Check.putB (k : Check) (off n v : Nat) : Check :=
  if rd k.cfg.plibex off n = v then k
  else { k with cfg := { k.cfg with plibex := patch k.cfg.plibex off (le n v) },
                clamps := noteClamp { field := 0x80000000 + off, value := v, safety := true } k.clamps }

def Check.rangeB (k : Check) (off n a b : Nat) : Check := k.putB off n (clampN a b (rd k.cfg.plibex off n))

/-- A sum of fractions in lowest terms. -/
def fracAdd (a b : Nat × Nat) : Nat × Nat :=
  let n := a.1 * b.2 + b.1 * a.2
  let g := Nat.gcd n (a.2 * b.2)
  (n / g, a.2 * b.2 / g)

/-- Telegrams per second of entry i, and of the VALID transmit entries below i on MAC m. -/
def Cfg.txRate (c : Cfg) (i : Nat) : Nat × Nat := (1000, c.connTxMs i)
def Cfg.connMacs (c : Cfg) (i : Nat) : List Nat := c.connMac i :: (if c.connFrer i then [c.connMac i ^^^ 1] else [])
def Cfg.macLoad (c : Cfg) (i m : Nat) : Nat × Nat :=
  (((List.range i).filter fun j => c.connValid j && !c.connRx j && (c.connMacs j).contains m).map c.txRate).foldl fracAdd (0, 1)

/-- Step 3 of R561. -/
def Cfg.connBad (c : Cfg) (i : Nat) : Bool :=
  let t := c.connType i
  let rx := c.connRx i
  c.connId i == 0 || ((List.range i).any fun j => c.connValid j && c.connId j == c.connId i) ||
  ((c.connMacs i).any fun m => !bitAt (rd c.plibex 8 1) m) || !(if rx then t == 4 else t == 1 || t == 3) ||
  !c.tenValid (c.connOwner i) || ((t == 1 || rx) && !c.tenSafety (c.connOwner i)) ||
  c.connPeer i == 0 || c.connPeer i == c.devId ||
  (!rx && (c.connMacs i).any fun m =>
    let (n, d) := fracAdd (c.macLoad i m) (c.txRate i)
    decide ((if m < 2 then 1000000 else 500000) * d < n))

def Check.plibexAll (k : Check) : Check :=
  if k.cfg.plibex = [] then k
  else
    let k1 := if 4096 < rd k.cfg.plibex 6 2 then k.putB 6 2 4096 else k
    let k2 := k1.rangeB 4 2 1024 65535
    let n := k2.cfg.connCount
    let k3 := k2.each n fun q i =>
      let e := 128 + 64 * i
      (((((q.rangeB (e + 12) 2 1 4094).rangeB (e + 14) 2 1024 65535).rangeB (e + 16) 2 1 1000).rangeB (e + 18) 2 2 10000).rangeB
        (e + 20) 4 100 1000000).rangeB (e + 24) 2 1 1024 |>.rangeB (e + 26) 1 0 31
    let k4 := k3.each n fun q i =>
      let e := 128 + 64 * i + 4
      if q.cfg.connValid i && q.cfg.connBad i then q.putB e 1 (rd q.cfg.plibex e 1 - 1) else q
    k4.each n fun q i =>
      let e := 128 + 64 * i
      let live := ofBitList ((List.range 20).filter fun b => bitAt (q.cfg.word (outCfg b)) 0)
      let keep := if q.cfg.connRx i then live else 0
      (q.putB (e + 28) 2 (rd q.cfg.plibex (e + 28) 2 &&& keep)).putB (e + 30) 1 (rd q.cfg.plibex (e + 30) 1 &&& (keep / 65536))

/-! ### All checks (R770) -/

/-- Place of a clamp in the order of R770: the ranges of R766, with the Plibex section after the TSN range. -/
def clampPlace (c : Clamp) : Nat :=
  if 0x80000000 ≤ c.field then 13
  else match cfgRanges.findIdx? fun (lo, hi) => decide (lo ≤ c.field) && decide (c.field ≤ hi) with
    | some i => if i ≤ 12 then i else i + 1
    | none => 0

/-- The clamps in the order of R770. -/
def orderClamps (l : List Clamp) : List Clamp := (List.range 19).flatMap fun i => l.filter fun c => clampPlace c == i

/-- The configuration of an image before its checks. -/
def rawCfg (b : Bytes) : Cfg :=
  let l := regSects b
  (imageWords l).foldl (fun c o => c.setWord o (imageWord b l o))
    { gen := rd b 16 4, digest := imageDigest b, optCrc := rd b 20 4, plibex := sectBytes b 1, sioRaw := imageSio b l,
      option := sectBytes b 2 }

/-- The checks in an order in which each finds validated what it reads: partitions, regions, report slots, plan slots;
tenants before the Shroud section, and that before Plibex. -/
def Check.run (k : Check) (ceil : Nat) : Check :=
  let k0 := (imageWords k.sects).foldl Check.mask k
  let k1 := (k0.rate.edges.range 0x1000 0 9 1 ceil true).each 8 Check.tenant
  let k2 := ((k1.fixedPart 0).fixedPart 1).each 64 fun q p => if p < 2 then q else q.part p
  let k3 := (k2.each 256 (Check.region k2.cfg)).each 128 Check.slot
  let k4 := (((k3.each 16 Check.plan).each 16 Check.chl).each 16 Check.gold).limits
  let k5 := ((k4.each 4 Check.model).each 16 Check.source).time
  k5.frer.tsn.shroud.plibexAll.mgmt

/-- The option block that will be in use when a configuration image takes effect (R770). -/
def State.optOf (s : State) (b : Bytes) : Bytes := match sectBytes b 2 with | [] => s.rst.opt | o => o

/-- The effective configuration of an image, and its clamp list (R770). -/
def State.checkImage (s : State) (b : Bytes) : Cfg × List Clamp :=
  let k := ({ cfg := rawCfg b, sects := regSects b, opt := s.optOf b : Check }).run s.tdegCeil
  (k.cfg, orderClamps k.clamps)

/-- CRC-32/K over the clamp list (R783). -/
def clampCrc (l : List Clamp) : Nat := crcK (l.flatMap fun c => le 4 c.field ++ le 1 c.lo ++ le 8 c.value ++ le 1 (b2n c.safety))

/-! ### Domains that a configuration uses (R685, R769) -/

/-- The switched-off domains that the fields of a configuration use: host ports of VALID tenants, port W where a report
slot is VALID, the MACs and CSI-2 receivers that VALID connections, filters, sources, gPTP and Fox use. -/
def Cfg.usesDomain (c : Cfg) (d : Nat) : Bool :=
  if d = 101 then (List.range 128).any c.slotValid
  else if 99 ≤ d ∧ d ≤ 100 then (List.range 8).any fun t => c.tenValid t && c.tenFn t / 4 == d - 99
  else if 102 ≤ d ∧ d ≤ 105 then
    let m := d - 102
    bitAt (rd c.plibex 8 1) m || (c.conns.any fun i => (c.connMacs i).contains m) ||
    ((List.range 16).any fun i => c.srcValid i && c.srcEth i && c.srcPort i == m) ||
    ((List.range 256).any fun f => bitAt (c.word (0x1C8000 + 0x20 * f)) 0 && fld (c.word (0x1C8000 + 0x20 * f)) 1 2 == m) ||
    bitAt (fld (c.word 0x180008) 9 4) m || bitAt (c.word (0x1C4000 + 0x1000 * m)) 0 || bitAt (c.word (0x1C4018 + 0x1000 * m)) 0 ||
    (bitAt (c.word 0x340100) 0 && fld (c.word 0x340100) 1 2 == m)
  else if 114 ≤ d ∧ d ≤ 117 then (List.range 16).any fun i => c.srcValid i && !c.srcEth i && c.srcPort i == d - 114
  else false

/-- A field of an image uses a domain in the OFF_MASK of its option block (R685). -/
def State.usesOff (s : State) (b : Bytes) : Bool :=
  (List.range 132).any fun d => (offBit d).elim false (bitAt (rd (s.optOf b) 40 4)) && (rawCfg b).usesDomain d

end Sys2Proof.Machine
end

