-- ==== Sys2Proof/Machine/Staging.lean ====
section
/-! DEFINITION. Staging and switching of audit plans, Badger images and golden sets, and the checks that the commit of a
configuration repeats (R188 to R197, R228, R233 to R237, R305 to R317, R380 to R385). -/

namespace Sys2Proof.Machine

/-! ### Long operations (R425, R426) -/

/-- An accepted long descriptor joins its function's queue. -/
def Taken.enqueue (t : Taken) (s : State) (slot : Nat) : State :=
  let o : LongOp := { fn := t.fn, ring := t.ring, index := t.index, op := t.op, bytes := t.bytes, clamps := t.clamps, slot,
                      order := s.hst.accepted }
  (s.modHst fun h => { h with accepted := h.accepted + 1 }).modHfn t.fn fun h => { h with longQ := h.longQ ++ [o] }

/-- The running long operation ends with a completion record. -/
def LongOp.finish (o : LongOp) (s : State) (status result detail : Nat) (data : Bytes) : State :=
  (s.modHfn o.fn fun h => { h with longRun := none }).complete o.fn o.ring o.index
    { status, opcode := o.op, result, detail, clampMap := o.clamps, data }

/-- DONE or DONE_CLAMPED, and REFUSED. -/
def LongOp.done (o : LongOp) (s : State) (result detail : Nat) (data : Bytes) : State :=
  o.finish s (b2n (o.clamps != 0)) result detail data
def LongOp.refuse (o : LongOp) (s : State) (result detail : Nat) : State := o.finish s 0x13 result detail []

/-- The running long operation of a function, if its opcode is op. -/
def State.running (s : State) (fn op : Nat) : Option LongOp := (s.hfn fn).longRun.filter fun o => o.op == op

/-- Pages of a byte string. -/
def pagesOf (b : Bytes) : Nat := ceilDiv b.length 4096

/-! ### Audit plans: staging -/

/-- A plan code stands in AUD_PLN_STAGE (R197). -/
def State.planCode (s : State) (p code layer : Nat) : State :=
  s.modPlan p fun x => { x with stageCode := code, stageLayer := layer }

/-- Owner check of a plan slot (R404). -/
def ownsPlan (s : State) (t : Taken) : Bool :=
  let p := rd t.bytes 8 1
  !s.cfg.active.plnValid p || s.cfg.active.plnTenant p == t.tenant

/-- PLAN_STAGE is accepted or refused (R191, R192). -/
def State.planStage (s : State) (t : Taken) : State :=
  let p := rd t.bytes 8 1
  if 16 ≤ p then t.answer s 0x13 0x19 0 []
  else if !s.cfg.active.plnValid p then t.answer (s.planCode p 0x19 0) 0x13 0x19 0 []
  else if (s.plan p).switchAt.isSome then t.answer (s.planCode p 0x1A 0) 0x13 0x1A 0 []
  else t.enqueue (s.modPlan p fun x => { x with staged := none }) p

/-- How the staging of a plan ends. -/
inductive StageEnd where
  | stored (pl : Plan)
  | refused (code layer reason index : Nat)
  | short (report : Bytes)
deriving DecidableEq, Repr, Inhabited

/-- The shortfall report of R236. -/
def shortReport (kind p index need have_ active : Nat) : Bytes :=
  le 1 kind ++ le 1 p ++ le 2 index ++ le 4 need ++ le 4 have_ ++ le 4 (need - have_) ++ le 8 active ++ zeros 8

/-- The first layer of a weight image whose pages no longer fit into `room` pages. -/
def firstMisfit (w : Bytes) : Nat → List Nat → Nat
  | _, [] => 0xFFFF
  | room, i :: r => let n := ceilDiv (wl w i 24 8) 4096; if room < n then wl w i 0 4 else firstMisfit w (room - n) r

/-- The space check of R237: plan image first, then the weight image; `w` is `none` where the resident one is reused. -/
def State.planSpace (s : State) (p : Nat) (b : Bytes) (w : Option Bytes) : Option Bytes :=
  let total := s.cfg.active.gddrPages (s.cfg.active.plnPart p)
  let held := match (s.plan p).active with | some a => pagesOf a.img + pagesOf a.wimg | none => 0
  let free := total - held
  let need := pagesOf b + w.elim 0 pagesOf
  if need ≤ free then none
  else
    let index := match w with
      | none => 0xFFFF
      | some x =>
        let head := pagesOf b + ceilDiv (rd x 32 8) 4096
        if free < head then 0xFFFF else firstMisfit x (free - head) (List.range (wLayers x))
    some (shortReport 1 p index need free held)

/-- A layer whose data does not match its DIGEST, or holds a weight that is not finite (R183, R188). -/
def badDigest (w : Bytes) : Option Nat := firstIdx (wLayers w) fun i => sha3 (wData w i) == slice w (256 + 64 * i + 32) 32
def badValue (w : Bytes) : Option Nat := firstIdx (wLayers w) fun i => !wNonFinite w i

/-- The active plan whose resident weight image a staged plan reuses (R189, R646). -/
def State.reusedPlan (s : State) (p : Nat) (b : Bytes) : Option Plan :=
  (s.plan p).active.filter fun a => planWDigest a.img == planWDigest b && !a.bad

/-- The checks of a plan with the weight image that was fetched with it (R178, R182 to R190, R228, R237). -/
def State.judgePlan (s : State) (p : Nat) (b w : Bytes) : StageEnd :=
  let key := s.integKey
  match checkPlan b with
  | .bad code layer reason index => .refused code layer reason index
  | .wide target need => .short (shortReport 2 p target need workingSetMax 0)
  | .ok =>
    if !sigValid key b (planSigOff b) then .refused 0x10 0 0 0
    else
      let digest := sha3 (b.take (planSigOff b))
      let reuse := s.reusedPlan p b
      match reuse with
      | some a =>
        if wTag a.wimg ≠ planTag b then .refused 0x14 0 0 0
        else match firstIdx (planLayers b) (layerMatches b a.wimg) with
        | some l => .refused 0x17 l 0 0
        | none => match s.planSpace p b none with
          | some r => .short r
          | none => .stored { img := b, wimg := a.wimg, digest := digest }
      | none =>
        if w = [] ∨ !weightOk w ∨ sha3 (w.take (wSigOff w)) ≠ planWDigest b ∨ wTag w ≠ planTag b then .refused 0x14 0 0 0
        else if !sigValid key w (wSigOff w) then .refused 0x13 0 0 0
        else match firstIdx (planLayers b) (layerMatches b w) with
        | some l => .refused 0x17 l 0 0
        | none => match s.planSpace p b (some w) with
          | some r => .short r
          | none => match badDigest w with
            | some i => .refused 0x15 (wl w i 0 4) 0 0
            | none => match badValue w with
              | some i => .refused 0x16 (wl w i 0 4) 0 0
              | none => .stored { img := b, wimg := w, digest := digest }

/-- The fetch for a PLAN_STAGE has ended with both images (R188, R197, R236). -/
def State.planStaged (s : State) (o : LongOp) (b w : Bytes) : State :=
  let p := rd o.bytes 8 1
  let s := if rd o.bytes 40 8 = 0 ∨ (s.reusedPlan p b).isSome then s else s.hostRead o.fn (rd o.bytes 32 8) (rd o.bytes 40 8)
  if !s.cfg.active.plnValid p then o.refuse (s.planCode p 0x19 0) 0x19 0
  else match s.judgePlan p b w with
    | .stored pl => o.done ((s.planCode p 0x01 0).modPlan p fun x => { x with staged := some pl, refuse := 0, refuseIdx := 0 }) 0x01 0 []
    | .refused code layer reason index =>
      let s1 := s.planCode p code layer
      o.refuse (if reason = 0 then s1 else s1.modPlan p fun x => { x with refuse := reason, refuseIdx := index }) code layer
    | .short r =>
      o.refuse (((s.planCode p 0x18 0).modPlan p fun x => { x with short := r }).evidence 0x0302 (s.cfg.active.plnTenant p) 0
        0xFFFFFFFF r) 0x18 0

/-! ### Audit plans: the checks of a switch and of a commit -/

/-- The committed configuration that will be active in a frame (R194, R311). -/
def State.cfgAt (s : State) (frame : Nat) : Cfg :=
  match s.cfg.next with
  | some c => if !s.cfg.atRestart && s.cfg.pendingFrame != 0 && s.cfg.pendingFrame ≤ frame then c else s.cfg.active
  | none => s.cfg.active

/-- CH_VALID of plan slot p (R232). -/
def Cfg.chValid (c : Cfg) (p : Nat) : Bool := bitAt (c.chWord p) 0

/-- The rotation period exceeds COVER_FLOOR, or a block exceeds the capacity of a frame (R105). -/
def Cfg.floorBad (c : Cfg) (p : Nat) (img : Bytes) : Bool :=
  planLayers img != 0 && (!sharesFit (c.auditCap2 (c.plnPart p)) img || planFloor img < (c.sharesOf p img).length)

/-- REASON where the plan alone opens more than its plan slot admits; without CH_VALID the capacity is 0 (R102, R233). -/
def Cfg.openBad (c : Cfg) (p : Nat) (img : Bytes) : Nat :=
  if !c.chValid p && 0 < planWorst img then 0x14 else if c.auditUs * 24000 < planWorst img then 0x10 else 0

/-- A joint check of R234 that fails, as REASON; 0 where all hold. -/
def Cfg.jointBad (c : Cfg) (items : List (Nat × Bytes)) : Nat :=
  let sum (f : Nat × Bytes → Nat) : Nat := items.foldl (fun a x => a + f x) 0
  if c.auditUs * 24000 < sum (fun x => planWorst x.2) then 0x10
  else if 895 < sum (fun x => planChlTotal x.2) then 0x11
  else if 2 ^ 32 < sum (fun x => planWindow x.2) then 0x12
  else if 15 * 1843200 * c.auditUs < sum (fun x => planAuditLoad x.2 (c.sharesOf x.1 x.2) + planTileLoad x.2) then 0x13
  else 0

/-- The plan of slot p that is active in a frame: the staged one from its SWITCH_FRAME on. -/
def State.planAt (s : State) (frame p : Nat) : Option Bytes :=
  let x := s.plan p
  if x.switchAt.elim false (· ≤ frame) then x.staged.map (·.img) else x.active.map (·.img)

/-- The plans active in a frame, with plan slot `q` as it would be. -/
def State.plansAt (s : State) (frame q : Nat) (img : Bytes) : List (Nat × Bytes) :=
  (List.range 16).filterMap fun p => if p = q then some (p, img) else (s.planAt frame p).map ((p, ·))

/-- SWITCH_FRAME lies in its range (R193, R310, R833). -/
def State.frameOk (s : State) (f : Nat) : Bool := s.fr.ticking && s.fr.num + 2 ≤ f && f ≤ s.fr.num + 1000

/-- Plan code by which a PLAN_SWITCH is refused, with REASON for CHL_PLN_REFUSE (R193, R194, R233, R234). -/
def State.planSwitchRefusal (s : State) (p f : Nat) : Nat × Nat :=
  let x := s.plan p
  if x.switchAt.isSome then (0x1A, 0)
  else if !s.frameOk f then (0x21, 0)
  else match x.staged with
    | none => (0x20, 0)
    | some pl =>
      let c := s.cfgAt f
      if c.slotTag (c.plnReport p) ≠ planTag pl.img then (0x22, 0)
      else if c.floorBad p pl.img then (0x23, 0)
      else if c.openBad p pl.img ≠ 0 then (0x24, c.openBad p pl.img)
      else match c.jointBad (s.plansAt f p pl.img) with
        | 0 => (0, 0)
        | r => (0x24, r)

/-- PLAN_SWITCH (R193 to R197). -/
def State.planSwitch (s : State) (t : Taken) : State :=
  let p := rd t.bytes 8 1
  let f := rd t.bytes 16 8
  if 16 ≤ p then t.answer s 0x13 0x19 0 []
  else if !s.cfg.active.plnValid p then t.answer (s.planCode p 0x19 0) 0x13 0x19 0 []
  else
    let (code, reason) := s.planSwitchRefusal p f
    if code = 0 then t.answer ((s.planCode p 0x02 0).modPlan p fun x => { x with switchAt := some f }) (b2n (t.clamps != 0)) 0x02 0 []
    else
      let s1 := s.planCode p code 0
      t.answer (if reason = 0 then s1 else s1.modPlan p fun x => { x with refuse := reason, refuseIdx := 0 }) 0x13 code 0 []

def execPlanSwitch (dt : Nat) (s : State) : Host.Outcome State Fault Refusal :=
  .next ((s.advance dt).onOpcode (fun op _ => op == 0x13) ownsPlan State.planSwitch)

/-- The checks of R196 for a configuration: the plan slot that fails, and REASON where the check is one of R234. -/
def State.plansRefuse (s : State) (c : Cfg) : Option (Nat × Nat) :=
  let items : List (Nat × Bytes) := (List.range 16).flatMap fun p =>
    let x := s.plan p
    (x.active.toList ++ (if x.switchAt.isSome then x.staged.toList else [])).map fun pl => (p, pl.img)
  let single := items.findSome? fun (p, img) =>
    if c.floorBad p img then some (p, 0) else if c.openBad p img ≠ 0 then some (p, c.openBad p img) else none
  let now := (List.range 16).filterMap fun p => (s.plan p).active.map fun pl => (p, pl.img)
  let frames := (List.range 16).filterMap fun p => (s.plan p).switchAt
  let sets := now :: frames.map fun f => (List.range 16).filterMap fun p => (s.planAt f p).map ((p, ·))
  let joint := sets.findSome? fun l => match c.jointBad l with
    | 0 => none
    | r => l.head?.map fun x => (x.1, r)
  match single with
  | some x => some x
  | none => joint

/-! ### Badger images -/

/-- A model code stands in BDG_M_STAGE (R315). -/
def State.modelCode (s : State) (m code layer : Nat) : State :=
  s.modModel m fun x => { x with stageCode := code, stageLayer := layer }

/-- Owner check of a model slot (R404). -/
def ownsModel (s : State) (t : Taken) : Bool :=
  let m := rd t.bytes 8 1
  !s.cfg.active.mValid m || s.modelTenant m == t.tenant

/-- MODEL_STAGE is accepted or refused (R308, R309). -/
def State.modelStage (s : State) (t : Taken) : State :=
  let m := rd t.bytes 8 1
  if 4 ≤ m then t.answer s 0x13 0x15 0 []
  else if !s.cfg.active.mValid m then t.answer (s.modelCode m 0x15 0) 0x13 0x15 0 []
  else if (s.model m).switchAt.isSome then t.answer (s.modelCode m 0x16 0) 0x13 0x16 0 []
  else t.enqueue (s.modModel m fun x => { x with staged := none }) m

/-- Pages of slot m's partition that the images of all slots hold there, the staged image of slot m left out (R305). -/
def State.masterUsed (s : State) (c : Cfg) (m : Nat) : Nat :=
  (List.range 4).foldl (fun a k =>
    if c.mPart k = c.mPart m then
      a + (s.model k).active.elim 0 bPages + (if k = m then 0 else (s.model k).staged.elim 0 bPages)
    else a) 0

/-- The fetch for a MODEL_STAGE has ended with the image (R299, R305 to R308, R315). -/
def State.modelStaged (s : State) (o : LongOp) (b : Bytes) : State :=
  let m := rd o.bytes 8 1
  let c := s.cfg.active
  if !c.mValid m then o.refuse (s.modelCode m 0x15 0) 0x15 0
  else match bTablesFail b with
    | some l => o.refuse (s.modelCode m 0x11 l) 0x11 l
    | none =>
      let fit := bFit c m (s.masterUsed c m) b
      if fit.reason ≠ 0 then
        o.refuse (((s.modelCode m 0x13 0).modModel m fun x => { x with short := fit.report }).evidence 0x0502 (s.modelTenant m) 0
          0xFFFFFFFF fit.report) 0x13 0
      else if !bWeightsOk b then o.refuse (s.modelCode m 0x11 0) 0x11 0
      else if !sigValid s.integKey b (bSigOff b) then o.refuse (s.modelCode m 0x10 0) 0x10 0
      else o.done ((s.modelCode m 0x01 0).modModel m fun x => { x with staged := some b }) 0x01 0 []

/-- The image of slot m that is active in a frame. -/
def State.modelAt (s : State) (frame m : Nat) : Option Bytes :=
  let x := s.model m
  if x.switchAt.elim false (· ≤ frame) then x.staged else x.active

/-- Every source of an image is bound under a configuration (R311). -/
def Cfg.sourcesOk (c : Cfg) (m : Nat) (img : Nat → Option Bytes) (b : Bytes) : Bool :=
  (List.range (bSrcs b)).all fun i =>
    let ref := bsrc b i 1 1
    match bsrc b i 0 1 with
    | 1 => c.srcValid ref && (c.srcEth ref == (bsrc b i 2 1 == 2))
    | 2 => ref != m && c.mValid ref && (img ref).isSome
    | _ => c.slotValid ref

/-- Pass end of slot m in µs after the tick; `none` where the slots wait for each other (R317). -/
def passEnd (c : Cfg) (img : Nat → Option Bytes) : Nat → Nat → Option Nat
  | 0, _ => none
  | k + 1, m =>
    match img m with
    | none => some 0
    | some b =>
      let start := (List.range (bSrcs b)).foldl (fun (a : Option Nat) i =>
        match a with
        | none => none
        | some t => match bsrc b i 0 1 with
          | 1 => some (max t (c.edge 2))
          | 2 => (passEnd c img k (bsrc b i 1 1)).map (max t)
          | _ => some (max t (c.edge 0))) (some 0)
      start.map (· + bRunUs b)

/-- The checks of R311 for an image in slot m under a configuration, as model code; 0 where all hold. -/
def Cfg.imageRefusal (c : Cfg) (m : Nat) (img : Nat → Option Bytes) (b : Bytes) (used : Nat) : Nat :=
  if (bFit c m used b).reason ≠ 0 then 0x13
  else if !c.sourcesOk m img b then 0x17
  else if (passEnd c img 5 m).elim true fun e => c.edge 4 < e then 0x22
  else if bDriftTol b < fld (c.word 0x100008) 8 8 then 0x23
  else 0

/-- While an open context binds slot m, EMITS stays (R311). -/
def State.emitsBad (s : State) (m : Nat) (b : Bytes) : Bool :=
  (s.openCtxs.any fun c => bitAt (s.watch c).modelMask m) && ((s.model m).active.elim true fun a => bEmits a != bEmits b)

/-- Model code by which a MODEL_SWITCH is refused (R310, R311). -/
def State.modelSwitchRefusal (s : State) (m f : Nat) : Nat :=
  let x := s.model m
  if x.switchAt.isSome then 0x16
  else if !s.frameOk f then 0x21
  else match x.staged with
    | none => 0x20
    | some b =>
      let c := s.cfgAt f
      let img := fun k => if k = m then some b else s.modelAt f k
      let r := c.imageRefusal m img b (s.masterUsed c m)
      if r ≠ 0 then r
      else if s.emitsBad m b then 0x24
      else if !s.bdg.available then 0x18
      else 0

/-- MODEL_SWITCH (R310, R311, R315). -/
def State.modelSwitch (s : State) (t : Taken) : State :=
  let m := rd t.bytes 8 1
  let f := rd t.bytes 16 8
  if 4 ≤ m then t.answer s 0x13 0x15 0 []
  else if !s.cfg.active.mValid m then t.answer (s.modelCode m 0x15 0) 0x13 0x15 0 []
  else
    let code := s.modelSwitchRefusal m f
    if code = 0 then t.answer ((s.modelCode m 0x02 0).modModel m fun x => { x with switchAt := some f }) (b2n (t.clamps != 0)) 0x02 0 []
    else t.answer (s.modelCode m code 0) 0x13 code 0 []

def execModelSwitch (dt : Nat) (s : State) : Host.Outcome State Fault Refusal :=
  .next ((s.advance dt).onOpcode (fun op _ => op == 0x11) ownsModel State.modelSwitch)

/-- The checks of R312 for a configuration: the model slot that fails; a pending image must fit beside the active one. -/
def State.modelsRefuse (s : State) (c : Cfg) : Option Nat :=
  (List.range 4).find? fun m =>
    let x := s.model m
    let bad (img : Nat → Option Bytes) (own : Nat) (b : Bytes) : Bool :=
      !c.mValid m || c.imageRefusal m img b (s.masterUsed c m - own) != 0 || s.emitsBad m b || !s.bdg.available
    x.active.elim false (fun b => bad (fun k => (s.model k).active) (bPages b) b) ||
    (match x.switchAt, x.staged with
     | some f, some b => bad (fun k => s.modelAt f k) 0 b
     | _, _ => false)

/-! ### Golden sets -/

def goldSigOff (g : Bytes) : Nat := rd g 64 8

/-- Header and entries of a golden set are as defined (R380, R381); EXP_LEN is checked against the plan. -/
def goldFormatOk (g : Bytes) : Bool :=
  let n := goldEntries g
  256 ≤ g.length && rd g 0 4 == 0x44474C43 && rd g 4 1 == 1 && rd g 5 1 == 4 && rd g 6 2 == 256 && rd g 8 8 == g.length &&
  1 ≤ n && n ≤ 64 && zeroAt g 58 6 && goldSigOff g + 2420 == g.length && zeroAt g 72 184 &&
  (List.range n).all fun e =>
    let i := gent g e 0 8
    let x := gent g e 16 8
    let k := gent g e 8 4
    i % 4096 == 0 && 1 ≤ k && k ≤ 1048576 && gent g e 12 1 < 2 && zeroAt g (256 + 64 * e + 13) 3 && x % 64 == 0 &&
    gent g e 28 4 == 0 && 256 + 64 * n ≤ i && i + 4096 * k ≤ goldSigOff g && 256 + 64 * n ≤ x &&
    x + gent g e 24 4 ≤ goldSigOff g &&
    sha3 (slice g i (4096 * k) ++ slice g x (gent g e 24 4)) == slice g (256 + 64 * e + 32) 32

/-- The plan whose PLAN_DIGEST and MODEL_TAG a set carries: the active one (true) or the staged one (R383, R385). -/
def State.goldPlan (s : State) (p : Nat) (g : Bytes) : Option (Bool × Plan) :=
  let hit (pl : Plan) : Bool := pl.digest == slice g 24 32 && planTag pl.img == rd g 16 8
  match (s.plan p).active.filter hit with
  | some pl => some (true, pl)
  | none => ((s.plan p).staged.filter hit).map ((false, ·))

/-- The largest input of a set exceeds the golden slot's share (R384). -/
def Cfg.goldTooBig (c : Cfg) (p : Nat) (g : Bytes) : Bool :=
  (List.range (goldEntries g)).any fun e =>
    (c.edge 6 - c.edge 5) * c.gddrMin (c.goldPart p) * 1875 < 2 * (4096 * goldPages g e)

/-- Staging code by which a golden set is refused; 0 where it is stored (R380 to R385). -/
def State.goldRefusal (s : State) (p : Nat) (g : Bytes) : Nat :=
  let c := s.cfg.active
  if c.goldPart p = 0 then 0x15
  else if !goldFormatOk g then 0x11
  else if !sigValid s.integKey g (goldSigOff g) then 0x10
  else match s.goldPlan p g with
    | none => 0x12
    | some (_, pl) =>
      if (List.range (goldEntries g)).any fun e => gent g e 24 4 != mrkOff pl.img + 64 * planTensors pl.img - 256 then 0x11
      else if c.goldTooBig p g then 0x14
      else if c.gddrPages (c.goldPart p) < pagesOf g + (s.gold p).active.elim 0 pagesOf then 0x13
      else 0

/-- A staging code stands in VRD_GLD_STAGE. -/
def State.goldCode (s : State) (p code : Nat) : State := s.modGold p fun g => { g with stageCode := code }

/-- The fetch for a GOLDEN_SCHEDULE with SET has ended with the image (R382, R383, R385). -/
def State.goldStaged (s : State) (o : LongOp) (g : Bytes) : State :=
  let p := o.slot
  let r := s.goldRefusal p g
  if r ≠ 0 then o.refuse (s.goldCode p r) r 0
  else
    let now := (s.goldPlan p g).elim false (·.1)
    let code := if now then 1 else 2
    o.done ((s.goldCode p code).modGold p fun x => if now then { x with arriving := some g } else { x with staged := some g }) code 0 []

/-- The result by which a GOLDEN_SCHEDULE is refused when it is taken, and the plan slot that keeps it (R82, R382,
R385). -/
def State.scheduleRefusal (s : State) (t : Taken) : Nat :=
  let w := s.watch t.ctx
  let need := rd t.bytes 10 1 ≠ 0 ∨ goldSet t.bytes
  if !w.isOpen then 0x11
  else if need ∧ (s.planOf w.slot).elim true (fun p => s.cfg.active.goldPart p == 0) then 0x15
  else if rd t.bytes 10 1 ≠ 0 ∧ !s.cfg.active.goldSlot then 0x16
  else 0

/-- GOLDEN_SCHEDULE: K and G of the context; with SET the fetch of the image begins (R382). -/
def State.goldSchedule (s : State) (t : Taken) : State :=
  let w := s.watch t.ctx
  let p := s.planOf w.slot
  let r := s.scheduleRefusal t
  if r ≠ 0 then
    t.answer (match p with | some q => if w.isOpen then s.goldCode q r else s | none => s) 0x13 r 0 []
  else
    let s1 := s.modWatch t.ctx fun x => { x with k := rd t.bytes 10 1, g := rd t.bytes 11 1 }
    if goldSet t.bytes then t.enqueue s1 (p.getD 0) else t.answer s1 (b2n (t.clamps != 0)) 0 0 []

/-- GOLDEN_SCHEDULE without SET (R382). -/
def execGoldenSchedule (dt : Nat) (s : State) : Host.Outcome State Fault Refusal :=
  .next ((s.advance dt).onOpcode (fun op b => op == 0x14 && !goldSet b) ownsCtx State.goldSchedule)

/-- The check of R384 for a configuration: the plan slot that fails. -/
def State.goldsRefuse (s : State) (c : Cfg) : Option Nat :=
  (List.range 16).find? fun p =>
    let g := s.gold p
    [g.active, g.arriving, if (s.plan p).switchAt.isSome then g.staged else none].any fun x => x.elim false (c.goldTooBig p)

end Sys2Proof.Machine
end

