-- ==== Sys2Proof/Machine/Commit.lean ====
section
/-! DEFINITION. Staging and committing images of kind 0x05 to 0x0A: CONFIG_STAGE, CONFIG_COMMIT, the commit records and
the change log (R747 to R762, R769 to R787). -/

namespace Sys2Proof.Machine

def State.modCfg (s : State) (f : CfgBlock → CfgBlock) : State := { s with cfg := f s.cfg }
def State.modNvm (s : State) (f : Nvm → Nvm) : State := { s with nvm := f s.nvm }

/-- A fresh CFG_NONCE (R754): 32 bytes of the DRBG, by one generate request (R238). -/
def State.freshNonce (s : State) : State :=
  let d := s.aud.drbg.begin (le 8 s.fr.num)
  { s with
    cfg := { s.cfg with nonce := sha3 (be seedLen d.v) }
    aud := { s.aud with drbg := d.finish } }

/-- A new lifecycle state has been fused and waits for the fuse map to be reloaded (R749). -/
def State.lifePending (s : State) : Bool := lifeOf s.nvm.fuses != s.life

/-! ### The change log (R785, R786) -/

/-- An entry joins the change log, which keeps its newest 4,096. -/
def State.clog (s : State) (tenant kind flags field : Nat) (old new : Bytes) (gen : Nat) : State :=
  let v := s.nvm
  let seq := v.clogSeq + 1
  let head := le 8 seq ++ le 8 s.tmb.now ++ le 1 tenant ++ le 1 kind ++ le 1 flags ++ zeros 1 ++ le 4 field ++ padTo 8 old ++
    padTo 8 new ++ le 4 gen ++ zeros 20 ++ (if s.cfg.clogBegun then v.clogHash else sha3 s.deviceId)
  let e : ClogEntry := { seq, bytes := head ++ sha3 head }
  { s with
    cfg := { s.cfg with clogBegun := true }
    nvm := { v with
      clog := (if v.clog.length < 4096 then v.clog else v.clog.drop 1) ++ [e]
      clogSeq := seq, clogHash := sha3 head } }

/-- The bits of a configuration word that are safety-classified (R81, R101, R159, R187, R232, R291, R300, R325, R379, R401,
R490, R536, R549, R606, R800, R834). -/
def safetyMask (o : Nat) : Nat :=
  if (0x10100 ≤ o ∧ o < 0x10200 ∧ o % 0x20 = 4) ∨ o = 0x180014 ∨ (0x180400 ≤ o ∧ o < 0x180500) ∨ o = 0x1C0028 ∨
     (0x1C4000 ≤ o ∧ o < 0x1CB000) ∨ (0x340100 ≤ o ∧ o < 0x340138) ∨ (0x2D0000 ≤ o ∧ o < 0x2D0040 ∧ o ≠ 0x2D0028) then 0
  else if o = 0x180008 then 3
  else cfgMask o

/-- An aligned 8-byte word of a configuration by its coded offset (R785). -/
def Cfg.word8 (c : Cfg) (f : Nat) : Nat :=
  if 0x90000000 ≤ f then rd c.option (f - 0x90000000) 8
  else if 0x80000000 ≤ f then rd c.plibex (f - 0x80000000) 8
  else c.word f + 2 ^ 32 * c.word (f + 4)

/-- The words that differ between two configurations, ascending (R786). -/
def diffWords (old new : Cfg) : List Nat :=
  let regs := ((old.regs ++ new.regs).map fun x => x.1 / 8 * 8).foldl (fun l o => insNat o l) []
  let span := fun (a b : Bytes) (k : Nat) => (List.range ((max a.length b.length + 7) / 8)).map fun i => k + 8 * i
  (regs ++ span old.plibex new.plibex 0x80000000 ++ span old.option new.option 0x90000000).filter fun f =>
    old.word8 f != new.word8 f

/-- FLAGS of a field entry. -/
def fieldFlags (old new : Cfg) (clamps : List Clamp) (f : Nat) : Nat :=
  let safe :=
    if 0x80000000 ≤ f then true
    else ((old.word f ^^^ new.word f) &&& safetyMask f) != 0 || ((old.word (f + 4) ^^^ new.word (f + 4)) &&& safetyMask (f + 4)) != 0
  b2n safe + 2 * b2n (clamps.any fun c => decide (f ≤ c.field) && decide (c.field < f + 8))

/-- The entries of a configuration commit (R786). -/
def State.clogConfig (s : State) (tenant : Nat) (old new : Cfg) (clamps : List Clamp) : State :=
  let l := diffWords old new
  let s1 :=
    if 1024 < l.length then s.clog tenant 3 0 0 old.digest new.digest new.gen
    else l.foldl (fun q f => q.clog tenant 1 (fieldFlags old new clamps f) f (le 8 (old.word8 f)) (le 8 (new.word8 f)) new.gen) s
  s1.clog tenant 2 0 0 [] [] new.gen

/-! ### CONFIG_STAGE (R769 to R772) -/

/-- A CONFIG_STAGE ends with a code (R798, R801): registers, record, completion. -/
def LongOp.staged (o : LongOp) (s : State) (code kind safety other : Nat) (id : Bytes) : State :=
  let s1 := s.modCfg fun c => { c with
    stagedCode := code, stagedKind := kind, safetyClamps := sat 8 safety, otherClamps := sat 8 other
    stagedId := if id = [] then c.stagedId else id }
  let s2 := s1.evidence 0x0E01 (s.recTenant o.fn) (b2n (16 ≤ code)) 0xFFFFFFFF
    (le 1 kind ++ le 1 code ++ le 2 (sat 16 safety) ++ le 2 (sat 16 other) ++ zeros 2 ++ padTo 16 id)
  if code < 16 then o.done s2 code 0 (le 4 safety ++ le 4 other ++ id) else o.refuse s2 code 0

/-- The code by which an image that has been fetched is refused; 0 where it is stored (R769). -/
def State.stageRefusal (s : State) (b : Bytes) (flash : Bool) : Nat :=
  let k := rd b 5 1
  if !imageFormatOk b then 0x11
  else match s.imageKey b with
    | none => 0x12
    | some key =>
      if !sigValid (some key) b (imageSigOff b) then 0x10
      else if k = 5 ∧ rd b 16 4 ≤ s.cfg.active.gen then 0x14
      else if k = 5 ∧ !((s.rst.opt != [] && rd b 20 4 == s.rst.optCrc) ||
          (sectBytes b 2 != [] && rd b 20 4 == rd (sectBytes b 2) 508 4)) then 0x2E
      else if k = 5 ∧ s.usesOff b then 0x13
      else match s.kindRefusal b with
        | 0 => if (slotBytes k).isSome ∧ (!flash ∨ (slotBytes k).getD 0 < b.length) then 0x17 else 0
        | r => r

/-- The image is stored: in flash, where its bank's slot and commit record are erased first, or in partition 0
(R772). A configuration that waited in that bank for its restart is gone with its record. -/
def State.storeStaged (s : State) (b : Bytes) (clamps : List Clamp) : State :=
  let k := rd b 5 1
  let bank := s.stageBank k
  let st : Staged := { kind := k, digest := imageDigest b, image := b, clamps }
  let s1 := s.modCfg fun c => { c with staged := tset c.staged k st }
  if (slotBytes k).isNone then s1
  else
    let s2 := s1.modNvm fun v => { v with records := tset v.records (bank * 256 + k) default, slots := tset v.slots (bank * 256 + k) b }
    if k = 5 ∧ s.cfg.atRestart then s2.modCfg fun c => { c with next := none, atRestart := false } else s2

/-- The fetch for a CONFIG_STAGE has ended with the image; `flash` says that the flash write succeeds (R769, R770). -/
def State.configStaged (s : State) (o : LongOp) (b : Bytes) (flash : Bool) : State :=
  let k := rd b 5 1
  let code := s.stageRefusal b flash
  if code ≠ 0 then o.staged s code k 0 0 []
  else
    let clamps := if k = 5 then (s.checkImage b).2 else []
    let safety := (clamps.filter (·.safety)).length
    o.staged (s.storeStaged b clamps) (if clamps = [] then 1 else 2) k safety (clamps.length - safety) ((imageDigest b).take 16)

/-- The work of a CONFIG_STAGE starts (R769). -/
def State.stageStart (s : State) (o : LongOp) : State := 
  if s.cfg.commitPending then o.staged s 0x2B 0 0 0 [] else s.hostRead o.fn (rd o.bytes 16 8) (rd o.bytes 24 8)

/-! ### Password (R773, R775) -/

/-- Shroud cycles in 600 s. -/
def lockCycles : Nat := 600 * 40000000

/-- The lockout of R775. -/
def State.pwLocked (s : State) : Bool := 4 ≤ s.nvm.pwFails && decide (s.cyc < s.nvm.pwAt + lockCycles)

/-- LOCK_S: seconds of the lockout that are left. -/
def State.lockS (s : State) : Nat := if s.pwLocked then ceilDiv (s.nvm.pwAt + lockCycles - s.cyc) 40000000 else 0

/-- PASSWORD is correct (R773). -/
def State.pwOk (s : State) (pw : Bytes) : Bool :=
  match s.nvm.password with
  | some (salt, hash) => sha3 (salt ++ pw) == hash
  | none => allZero pw && s.life == 2

/-- A wrong password is counted and recorded (R775, R801). -/
def State.pwFail (s : State) (tenant : Nat) : State :=
  let s1 := s.modNvm fun v => { v with pwFails := inc 8 v.pwFails, pwAt := s.cyc }
  s1.evidence 0x0E03 tenant 1 0xFFFFFFFF (le 1 s1.nvm.pwFails ++ zeros 3 ++ le 4 s1.lockS)

/-! ### CONFIG_COMMIT: checks (R747, R748, R776) -/

/-- A CONFIG_COMMIT ends with a code (R798, R801): registers, record, completion. -/
def LongOp.committed (o : LongOp) (s : State) (code detail kind gen : Nat) : State :=
  let s1 := s.modCfg fun c => { c with commitCode := code, detail := detail % 256 }
  let s2 := s1.evidence 0x0E02 (s.recTenant o.fn) (b2n (16 ≤ code)) 0xFFFFFFFF
    (le 1 kind ++ le 1 code ++ le 1 (rd o.bytes 8 1) ++ le 1 detail ++ le 4 gen ++ slice o.bytes 48 16)
  if code < 16 then o.done s2 code 0 [] else o.refuse s2 code 0

/-- The transition that a lifecycle request or return token asks for is allowed and its prerequisites hold (R747, R748). -/
def State.lifeAllowed (s : State) (st : Staged) : Bool :=
  let target := rd st.image 21 1
  if st.kind = 6 then
    if target = 3 then s.life == 2 && s.nvm.ikey.isSome && s.nvm.password.isSome && s.cfg.hasActive
    else if target = 4 then
      let tok := tget s.cfg.staged 0xA
      (s.life == 2 || s.life == 3) && tok.kind == 0xA && rd tok.image 21 1 == 4
    else target == 5 && s.life == 3
  else target == 5 && s.life == 4

/-- An open context would lose its report slot, plan slot, a model slot, a connection or an output under c (R776). -/
def State.wouldLose (s : State) (c : Cfg) : Bool :=
  s.openCtxs.any fun x =>
    let w := s.watch x
    !(c.slotValid w.slot && c.slotStream w.slot == w.stream && c.slotTenant w.slot == w.tenant) ||
    ((List.range 16).find? fun p => c.plnValid p && c.plnReport p == w.slot) != s.planOf w.slot ||
    ((bitList 4 w.modelMask).any fun m => !c.mValid m || c.prtTenant (c.mPart m) != w.tenant) ||
    (w.plx.any fun i => !(c.conns.any fun j => c.connId j == s.cfg.active.connId i && !c.connRx j && c.connType j == 1 &&
      c.connOwner j == w.tenant)) ||
    ((bitList 16 w.sout ++ (bitList 4 w.prv).map (16 + ·)).any fun b =>
      !(bitAt (c.word (outCfg b)) 0 && bitAt (c.word (outCfg b)) 1 && fld (c.word (outCfg b)) 4 3 == w.tenant))

/-- The staged image that STAGED_ID names. -/
def State.stagedBy (s : State) (id : Bytes) : Option Staged := (s.cfg.staged.map (·.2)).find? fun x => x.digest.take 16 == id

/-- The configuration of a staged image. -/
def State.cfgOf (s : State) (st : Staged) : Cfg := (s.checkImage st.image).1

/-- The checks of R776 from the device state on: code and DETAIL; code 0 where all hold. -/
def State.commitRefusal (s : State) (o : LongOp) (st : Staged) : Nat × Nat :=
  let k := st.kind
  let c := s.cfgOf st
  if s.lifePending ∨ (s.acting ≠ .maintenance ∧ ([6, 7, 8, 0xA].contains k ∨ (k = 5 ∧ c.option ≠ []))) then (0x2A, 0)
  else if (k = 6 ∨ k = 0xA) ∧ !s.lifeAllowed st then (0x2D, 0)
  else if (st.clamps.any (·.safety)) ∧ rd o.bytes 9 1 = 0 then (0x23, 0)
  else if k = 5 ∧ s.cfg.commitPending then (0x2B, 0)
  else if (rd o.bytes 8 1 = 1 ∧ s.openCtxs ≠ []) ∨ (k = 5 ∧ s.wouldLose c) then (0x25, 0)
  else if k ≠ 5 then (0, 0)
  else if c.sioRaw ≠ s.cfg.active.sioRaw ∧ !s.allOff then (0x24, 0)
  else match s.plansRefuse c with
    | some (p, _) => (0x26, p)
    | none => match s.modelsRefuse c with
      | some m => (0x27, m)
      | none => match s.goldsRefuse c with
        | some p => (0x28, p)
        | none => (0, 0)

/-! ### Start-up choice of images (R674, R784) -/

/-- The image of a commit record is present and carries a valid signature. -/
def State.imageOk (s : State) (bank k : Nat) : Bool :=
  let b := s.nvm.slot bank k
  rd b 5 1 == k && imageFormatOk b && imageDigest b == (s.nvm.crec bank k).digest &&
  (s.imageKey b).isSome && sigValid (s.imageKey b) b (imageSigOff b)

/-- The committed configuration in flash, where it is valid (R41, R674, R784). -/
def State.storedConfig (s : State) : Option Cfg :=
  match (s.nvm.ranked 5).head? with
  | none => none
  | some bank =>
    let r := s.nvm.crec bank 5
    if s.imageOk bank 5 && s.rst.opt != [] && r.optCrc == s.rst.optCrc then
      let (c, l) := s.checkImage (s.nvm.slot bank 5)
      if clampCrc l = r.clampCrc then some c else none
    else none

/-- The bank from which a firmware type runs, and whether it is the fallback; none where every record's image fails. -/
def State.firmwareBank (s : State) (k : Nat) : Option (Nat × Bool) :=
  match s.nvm.ranked k with
  | [] => none
  | a :: r => if s.imageOk a k then some (a, false) else (r.find? fun b => s.imageOk b k).map (·, true)

/-! ### CONFIG_COMMIT: modes and start (R41, R777) -/

/-- From when the frame rate of a configuration that takes effect now holds: the next alignment boundary of the running
grid (R75), else any time after this main clock (R74). -/
def State.rateTime (s : State) : Nat :=
  if s.fr.ticking ∧ s.cfg.active.hasRate then nextBoundary s.cfg.active.alignMs s.tmb.now else s.tmb.now + 1

/-- A configuration takes effect now. -/
def State.takeNow (s : State) (c : Cfg) : State := (s.powerBanks c).takeConfig c s.rateTime

/-- MODE is 0x00 in MAINTENANCE, and the stored configuration is valid: it is activated (R41). -/
def State.selectOperation (s : State) : State :=
  match s.storedConfig with
  | some c =>
    let s1 := if s.cfg.hasActive ∧ s.cfg.active = c then s else s.takeNow c
    { s1 with glb := { s1.glb with noConfig := false } }.actTo .configured
  | none => s

/-- MODE 0x01: every output goes off with the state (R41). -/
def State.selectMaintenance (s : State) : State := if s.acting = .configured then s.actTo .maintenance else s

/-- CONFIG_COMMIT with STAGED_ID 0 (R45, R749, R777). -/
def State.commitMode (s : State) (o : LongOp) : State :=
  if s.lifePending then o.committed s 0x2A 0 0 0
  else if rd o.bytes 8 1 = 1 then
    (if s.openCtxs ≠ [] then o.committed s 0x25 0 0 0 else o.committed s.selectMaintenance 0x06 0 0 0)
  else if s.acting ≠ .maintenance then o.committed s 0x06 0 0 0
  else match s.storedConfig with
    | some c => o.committed s.selectOperation 0x04 0 0 c.gen
    | none => o.committed s 0x20 0 0 0

/-- GEN of a staged image: that of a configuration, or 0. -/
def Staged.gen (st : Staged) : Nat := if st.kind = 5 then rd st.image 16 4 else 0

/-- Banks that a configuration needs and that are not powered. -/
def State.banksMissing (s : State) (c : Cfg) : List Nat :=
  ((List.range 64).map (8 + ·)).filter fun b => c.needsBank b && !s.rst.on.contains (27 + b)

/-- The commit of a staged image has passed its checks: the banks it needs are powered up; where none had to be, the
write of the commit record begins (R686, R781). -/
def State.commitBegin (s : State) (o : LongOp) (st : Staged) : State :=
  let c := s.cfgOf st
  let missing := if st.kind = 5 then s.banksMissing c else []
  let s1 := if missing = [] then s else s.powerBanks c
  s1.modHfn o.fn fun h => { h with longRun := some { o with begun := missing == [] } }

/-- CHL_PLN_REFUSE of the plan slot that a refused commit names (R196, R234). -/
def State.planReason (s : State) (c : Cfg) : State :=
  match s.plansRefuse c with
  | some (p, r) => if r = 0 then s else s.modPlan p fun x => { x with refuse := r, refuseIdx := 0 }
  | none => s

/-- The work of a CONFIG_COMMIT starts: the checks of R776 up to the power of the banks. -/
def State.commitStart (s : State) (o : LongOp) : State :=
  let id := slice o.bytes 48 16
  let st := s.stagedBy id
  let kind := st.elim 0 (·.kind)
  let gen := st.elim 0 (·.gen)
  if o.clamps ≠ 0 then o.committed s 0x2C 0 kind gen
  else if s.pwLocked then o.committed s 0x22 0 kind gen
  else if !s.pwOk (slice o.bytes 16 32) then o.committed (s.pwFail (s.recTenant o.fn)) 0x21 0 kind gen
  else
    let s1 := s.modNvm fun v => { v with pwFails := 0 }
    if allZero id then s1.commitMode o
    else match st with
      | none => o.committed s1 0x20 0 0 0
      | some x => match s1.commitRefusal o x with
        | (0, _) => s1.commitBegin o x
        | (code, detail) => o.committed (if code = 0x26 then s1.planReason (s.cfgOf x) else s1) code detail kind gen

/-! ### CONFIG_COMMIT: the record and its effects (R748, R760, R774, R778 to R786) -/

/-- The commit record is written (R783), after the change log entries; `clogSeq` is that of the COMMIT entry. -/
def State.writeRecord (s : State) (o : LongOp) (st : Staged) (gen clogSeq : Nat) : State :=
  let bank := s.stageBank st.kind
  let r : CommitRecord := { kind := st.kind, accept := rd o.bytes 9 1 == 1, gen, digest := st.digest, clogSeq, ok := true,
                            optCrc := if st.kind = 5 then rd st.image 20 4 else 0,
                            clampCrc := if st.kind = 5 then clampCrc st.clamps else 0 }
  s.modNvm fun v => { v with records := tset v.records (bank * 256 + st.kind) r }

/-- A new password record (R774). -/
def State.newPassword (s : State) (tenant : Nat) (b : Bytes) : State :=
  if zeroAt b 48 32 then s
  else
    let old := s.nvm.password.elim [] (·.2)
    (s.modNvm fun v => { v with password := some (slice b 32 16, slice b 48 32) }).clog tenant 7 0 0 (old.take 8) (slice b 48 8) (rd b 16 4)

/-- The option block is written one copy after the other, the older first (R675). -/
def State.writeOption (s : State) (b : Bytes) : State := if b = [] then s else s.modNvm fun v => { v with optA := b, optB := b }

/-- The first frame that runs under a configuration whose boundary lies at local time b (R75, R778). -/
def State.frameAt (s : State) (c : Cfg) (b : Nat) : Nat :=
  let f := s.fr
  if f.ticking then f.num + (gridAt f.alignMs f.count b - gridAt f.alignMs f.count f.tick) else gridAt c.alignMs c.count b

/-- When a committed configuration takes effect (R778): the code, and what happens now. -/
def State.schedule (s : State) (c : Cfg) : Nat × State :=
  let a := s.cfg.active.alignMs
  if c.option ≠ [] then (0x05, s.modCfg fun x => { x with next := some c, atRestart := true })
  else if s.acting = .maintenance ∨ !s.tmb.valid ∨ a = 0 then (0x04, s.takeConfig c s.rateTime)
  else
    let b := nextBoundary a s.tmb.now
    (0x03, s.modCfg fun x => { x with next := some c, atRestart := false, commitPending := true, boundary := b, pendingFrame := s.frameAt c b })

/-- The commit of a configuration of a GEN ends with a code, in CONFIGURED where MODE 0x00 asks for it (R41). -/
def State.commitEnds (s : State) (o : LongOp) (gen code : Nat) : State :=
  o.committed (if rd o.bytes 8 1 = 0 ∧ code = 4 ∧ s.acting = .maintenance then
      { s with glb := { s.glb with noConfig := false } }.actTo .configured else s) code 0 5 gen

/-- The change log, the commit record, the password record and the option block are written. -/
def State.writeCommit (s : State) (o : LongOp) (st : Staged) : State :=
  let t := s.recTenant o.fn
  let s1 := s.clogConfig t s.cfg.active (s.cfgOf st) st.clamps
  ((s1.writeRecord o st (s.cfgOf st).gen s1.nvm.clogSeq).newPassword t st.image).writeOption (s.cfgOf st).option

/-- A configuration is committed. -/
def State.commitConfig (s : State) (o : LongOp) (st : Staged) : State :=
  let c := s.cfgOf st
  let s1 := s.writeCommit o st
  let r := (if rd o.bytes 8 1 = 1 then s1.selectMaintenance else s1).schedule c
  r.2.commitEnds o c.gen r.1

/-- MODE of a commit of another kind: MAINTENANCE, or operation under the stored configuration (R41). -/
def State.commitModeOf (s : State) (o : LongOp) : State :=
  if rd o.bytes 8 1 = 1 then s.selectMaintenance
  else if s.acting = .maintenance then s.selectOperation else s

/-- A firmware image is committed: it takes effect at a later reset, safety firmware through the software request of
R780. -/
def State.commitFirmware (s : State) (o : LongOp) (st : Staged) : State :=
  let t := s.recTenant o.fn
  let k := st.kind
  let old := (s.nvm.ranked k).head?.elim [] fun b => (s.nvm.crec b k).digest
  let gen := (max (s.nvm.crec 0 k).gen (s.nvm.crec 1 k).gen) + 1
  let s1 := (s.clog t 6 0 0 (old.take 8) (st.digest.take 8) 0).clog t 2 0 0 [] [] 0
  let s2 := (s1.writeRecord o st gen s1.nvm.clogSeq).commitModeOf o
  o.committed (if k = 8 then s2.modCfg fun x => { x with fwCommitAt := some s.mc } else s2.modNvm fun v => { v with foxNew := true }) 0x05 0 k 0

/-- The image of kind 0x07 that carries a public key, up to its signature. -/
def keyImage (key : Bytes) : Bytes :=
  le 4 (kindMagic 7) ++ le 1 1 ++ le 1 7 ++ le 2 64 ++ le 8 (64 + key.length + 2420) ++ le 4 (64 + key.length) ++ zeros 44 ++ key

/-- A key record is committed; in DEPLOYED its hash goes into the next free IKEY_HASH slot (R760). -/
def State.commitKey (s : State) (o : LongOp) (st : Staged) : State :=
  let t := s.recTenant o.fn
  let key := slice st.image 64 1312
  let old := s.nvm.ikey.elim [] fun k => sha3 (keyImage k)
  let fuses := if s.life = 3 then s.nvm.fuses ||| (ofLe (sha3 key) * 2 ^ (1280 + 256 * ikeySlots s.nvm.fuses)) else s.nvm.fuses
  let s1 := s.modNvm fun v => { v with ikey := some key, fuses }
  o.committed ((s1.clog t 5 0 0 (old.take 8) (st.digest.take 8) 0).commitModeOf o) 0x04 0 7 0

/-- A lifecycle request or return token is executed (R748, R749, R754). -/
def State.commitLife (s : State) (o : LongOp) (st : Staged) : State :=
  let t := s.recTenant o.fn
  let to_ := rd st.image 21 1
  let blown := s.nvm.fuses ||| (3 * 2 ^ (2 * (to_ - 1)))
  let fuses := if to_ = 3 ∧ ikeySlots blown = 0 then blown ||| (ofLe (s.nvm.ikey.elim [] sha3) * 2 ^ 1280) else blown
  let s1 := s.clog t 4 0 0 (le 8 s.life) (le 8 to_) 0
  let s3 := (s1.modNvm fun v => { v with fuses }).freshNonce.evDev 0x0E04 0 (le 1 s.life ++ le 1 to_ ++ le 1 0)
  o.committed s3 0x05 0 st.kind 0

/-- The write of the commit record ends, or a bank has not powered up, or the write fails (R686, R688, R776). -/
def State.commitDone (s : State) (o : LongOp) (ok : Bool) : State :=
  match s.stagedBy (slice o.bytes 48 16) with
  | none => o.committed s 0x20 0 0 0
  | some st =>
    let drop (q : State) : State := q.modCfg fun c => { c with staged := tset c.staged st.kind default }
    match (if st.kind = 5 then s.banksMissing (s.cfgOf st) else []) with
    | b :: _ => o.committed s.trimBanks 0x29 (27 + b) 5 st.gen
    | [] =>
      if !ok then o.committed s.trimBanks 0x17 0 st.kind st.gen
      else if st.kind = 5 then drop (s.commitConfig o st)
      else if st.kind = 7 then drop (s.commitKey o st)
      else if st.kind = 8 ∨ st.kind = 9 then drop (s.commitFirmware o st)
      else drop (s.commitLife o st)

end Sys2Proof.Machine
end

