-- ==== Sys2Proof/Machine/Frame.lean ====
section
/-! DEFINITION. The frame: its tick, its slot edges and its close-out (R72 to R89), and the PULSE outputs that share the
compare units with them (R609 to R619). -/

namespace Sys2Proof.Machine

/-! ### Pulses (R613, R617) -/

def State.pulse (s : State) (p : Nat) : Pulse := tget s.tmb.pulses p
def State.modPulse (s : State) (p : Nat) (f : Pulse → Pulse) : State :=
  { s with tmb := { s.tmb with pulses := tmod s.tmb.pulses p f } }

/-- Offset of a MODE 3 pulse after the tick. -/
def Pulse.offset (x : Pulse) : Nat := x.start % 2 ^ 32 * 16

/-- Main clocks of the active width: ceil(WIDTH × 1.8). -/
def Pulse.clocks (x : Pulse) : Nat := ceilDiv (x.width * 9) 5

/-- Pulse p's compare unit has come. -/
def State.pulseDue (s : State) (p : Nat) : Bool :=
  let x := s.pulse p
  x.armed && decide (x.next ≤ s.tmb.now) &&
  (x.mode != 3 || (s.fr.ticking && x.firedFrame != some s.fr.num && decide (s.fr.tick + x.offset ≤ s.tmb.now)))

/-- Pulse p fires (R613, R617). -/
def State.firePulse (s : State) (p : Nat) : State :=
  let x := s.pulse p
  let y := { x with active := true, endAt := s.mc + x.clocks }
  if x.mode = 1 then s.modPulse p fun _ => { y with armed := false }
  else if x.mode = 2 then
    let n := (s.tmb.now - x.next) / max 1 x.period
    let s1 := s.modPulse p fun _ => { y with next := x.next + (n + 1) * x.period, skipped := sat 16 (x.skipped + n) }
    if n = 0 then s1 else s1.evDev 0x0A08 0 (le 1 p ++ le 1 0x10 ++ zeros 2 ++ le 4 n)
  else s.modPulse p fun _ => { y with firedFrame := some s.fr.num, next := s.fr.nextTick + x.offset }

/-- MODE 3 pulses take the tick of a new frame. -/
def State.pulsesTick (s : State) : State :=
  (List.range 8).foldl (fun q p =>
    if (q.pulse p).armed && (q.pulse p).mode == 3 then q.modPulse p fun x => { x with next := s.fr.tick + x.offset } else q) s

/-! ### The tick (R72 to R75, R195, R313, R323, R355, R383, R387) -/

/-- The frame tick's compare unit has come. -/
def State.tickDue (s : State) : Bool := s.tmb.valid && s.fr.nextTick != 0 && decide (s.fr.nextTick ≤ s.tmb.now)

/-- The frame registers at the tick (R73, R75, R78). -/
def State.newFrame (s : State) : State :=
  let f := s.fr
  let c := s.cfg.active
  let t := f.nextTick
  let new := !f.ticking || decide (f.rateAt ≤ t)
  let a := if new then c.alignMs else f.alignMs
  let k := if new then c.count else f.count
  let j := gridAt a k t
  let n := if f.ticking then f.num + 1 else j
  let follow := gridTime a k (j + 1)
  let next := if !new && c.hasRate && decide (f.rateAt ≤ follow) then gridTime c.alignMs c.count (gridAt c.alignMs c.count f.rateAt)
              else follow
  { s with fr := { f with
    ticking := true, numOffset := (n : Int) - j, num := n, tick := t, nextTick := next, fired := [], alignMs := a, count := k
    edges := if new then (List.range 9).map c.edge else f.edges, steppedNow := false } }

/-- A pending plan switch whose frame has come (R195). -/
def State.planSwitches (s : State) : State :=
  (List.range 16).foldl (fun q p => match (q.plan p).switchAt with
    | some n => if n ≤ q.fr.num then q.activatePlan p else q
    | none => q) s

/-- FRAME_TICK: the new frame starts (R72, R139, R195, R313, R323, R387). -/
def State.frameTick (s : State) : State :=
  let last := s.fr.num
  let s1 := s.newFrame
  let s2 := (List.range 128).foldl (fun q i => q.slotTick last i) s1
  let s3 := s2.modBdg fun b => { b with sources := tmap Source.tick b.sources }
  let s4 := (List.range 16).foldl (fun q p => q.itemsTick p)
    ((List.range 16).foldl (fun q p => q.auditTick p) s3).planSwitches.mailboxTick
  let s5 := s4.modelSwitches.rotate
  let s6 := ((List.range 4).foldl (fun q m => q.modelTick last m) s5).goldTick
  let s7 := s6.openCtxs.foldl (fun q c => (q.cmpTick c).modWatch c fun w => { w with
    invalid := w.invalid.filter fun n => decide (s1.fr.num ≤ n) }) s6
  (s7.modSlf fun f => { f with frames := f.frames + 1 }).pulsesTick

/-! ### The slot edges (R85 to R89, R198, R241, R266, R284, R304) -/

/-- D_c (R90, R138, R198, R240). -/
def State.atDc (s : State) : State :=
  let s1 := (List.range 128).foldl (fun q i => if q.slotJudged i then q.slotDeadline i else q) s
  let s2 := (List.range 16).foldl (fun q p => (q.auditStart p).challengeStart p) s1
  s2.drawAll

/-- D_v (R87, R89, R365 to R369); `lanes` is what the voter finds. -/
def State.atDv (s : State) (lanes : Nat) : State :=
  let s1 := (List.range 16).foldl (fun q p => q.auditEnd p) s
  let s2 := s1.challengeEnd.dropUnits
  (s2.openCtxs.foldl (fun q c => q.cmpEnd c) s2).issueAll lanes

/-- The close-out: what is still running is abandoned (R84, R89), and outvoted lanes are re-initialised (R369). -/
def State.closeOut (s : State) : State :=
  let s1 := (List.range 16).foldl (fun q p => if (q.plan p).running then q.auditEnd p else q) s
  let s2 := if s1.aud.mbox.state = 1 ∨ s1.aud.mbox.state = 2 then s1.challengeEnd.dropUnits else s1
  (if s2.fr.fired.contains 4 then s2 else s2.shdEnd).laneReinit

/-- Edge e of the current frame fires: 0 D_c, 1 D_v, 2 ING_END, 3 SHD_START, 4 SHD_END, 5 GLD_START, 6 GLD_END,
7 SLF_START, 8 SLF_END, 9 close-out. -/
def State.fireEdge (s : State) (e lanes : Nat) : State :=
  let s1 := { s with fr := { s.fr with fired := insNat e s.fr.fired } }
  match e with
  | 0 => s1.atDc
  | 1 => s1.atDv lanes
  | 2 => s1.ingEnd
  | 4 => s1.shdEnd
  | 5 => s1.gldStart
  | 6 => s1.gldEnd
  | 7 => s1.slfStart
  | 8 => s1.slfEnd
  | 9 => s1.closeOut
  | _ => s1

/-- Edge e has come and has not fired. -/
def State.edgeDue (s : State) (e : Nat) : Bool := s.fr.ticking && !s.fr.fired.contains e && decide (s.edgeAt e ≤ s.tmb.now)

/-- The earliest of a list of things with their times. -/
def earliest {α : Type} : List (Nat × α) → Option (Nat × α)
  | [] => none
  | x :: r => match earliest r with
    | none => some x
    | some y => some (if y.1 < x.1 then y else x)

/-- Edges that are due and lie before local time t fire first, in time order; `fuel` bounds their number (R77, R85). -/
def State.edgesBefore (s : State) (t : Nat) : Nat → State
  | 0 => s
  | n + 1 => match earliest (((List.range 10).filter s.edgeDue).map fun e => (s.edgeAt e, e)) with
    | some (a, e) => if a < t then (s.fireEdge e 0).edgesBefore t n else s
    | none => s

/-- An edge command: the edge fires once, when its time has come, after the edges before it (R77, R85). -/
def State.edgeCommand (s : State) (e lanes : Nat) : State :=
  if s.edgeDue e then (s.edgesBefore (s.edgeAt e) 10).fireEdge e lanes else s

/-! ### What a forward step passes (R76, R612) -/

/-- What a compare unit does: the tick, an edge, a pulse. -/
inductive Firing where
  | tick
  | edge (e : Nat)
  | pulse (p : Nat)
deriving DecidableEq, Repr, Inhabited

/-- The compare unit of a firing (R610). -/
def Firing.unit : Firing → Nat
  | .tick => 0
  | .edge e => e + 1
  | .pulse p => 11 + p

/-- The units that are due, with their times; the tick stands before edges of the same time. -/
def State.due (s : State) : List (Nat × Firing) :=
  (if s.tickDue then [(s.fr.nextTick, Firing.tick)] else []) ++
  ((List.range 10).filter s.edgeDue).map (fun e => (s.edgeAt e, Firing.edge e)) ++
  ((List.range 8).filter s.pulseDue).map fun p => ((s.pulse p).next, Firing.pulse p)

def State.fire (s : State) : Firing → State
  | .tick => let s1 := s.activateDue; if s1.tickDue then s1.frameTick else s1
  | .edge e => s.fireEdge e 0
  | .pulse p => s.firePulse p

/-- Everything that is due fires at once, in time order; `fuel` bounds the number of firings. -/
def State.fireDue : Nat → State → State
  | 0, s => s
  | n + 1, s => match earliest s.due with
    | none => s
    | some (_, x) =>
      let s1 := { s with tmb := { s.tmb with cmpStepped := tinc s.tmb.cmpStepped 16 x.unit } }
      State.fireDue n (s1.fire x)

/-- The current frame has been lengthened or shortened by a step (R78). -/
def State.markStepped (s : State) : State :=
  if s.fr.ticking && !s.fr.steppedNow then { s with fr := { s.fr with steppedNow := true, stepped := inc 16 s.fr.stepped } } else s

/-- The count is stepped by m units of 1/16 ns (R76, R77). -/
def State.stepTime (s : State) (m : Int) : State :=
  let s1 := ({ s with tmb := { s.tmb with now := ((s.tmb.now : Int) + m).toNat % 2 ^ 64 } }).markStepped
  if 0 < m then
    let s2 := State.fireDue 64 s1
    if s2.fr.num = s.fr.num then s2 else s2.markStepped
  else s1

/-! ### Commands -/

/-- FRAME_TICK (R72 to R75). -/
def execFrameTick (dt : Nat) (s : State) : Host.Outcome State Fault Refusal :=
  let s := s.advance dt
  let s := (if s.activateDue.tickDue then s.edgesBefore s.activateDue.fr.nextTick 10 else s).activateDue
  .next (if s.tickDue then s.frameTick else s)

def execDC (dt : Nat) (s : State) : Host.Outcome State Fault Refusal := .next ((s.advance dt).edgeCommand 0 0)
def execDV (dt lanes : Nat) (s : State) : Host.Outcome State Fault Refusal := .next ((s.advance dt).edgeCommand 1 lanes)
def execIngEnd (dt : Nat) (s : State) : Host.Outcome State Fault Refusal := .next ((s.advance dt).edgeCommand 2 0)
def execShdStart (dt : Nat) (s : State) : Host.Outcome State Fault Refusal := .next ((s.advance dt).edgeCommand 3 0)
def execShdEnd (dt : Nat) (s : State) : Host.Outcome State Fault Refusal := .next ((s.advance dt).edgeCommand 4 0)
def execGldStart (dt : Nat) (s : State) : Host.Outcome State Fault Refusal := .next ((s.advance dt).edgeCommand 5 0)
def execGldEnd (dt : Nat) (s : State) : Host.Outcome State Fault Refusal := .next ((s.advance dt).edgeCommand 6 0)
def execSlfStart (dt : Nat) (s : State) : Host.Outcome State Fault Refusal := .next ((s.advance dt).edgeCommand 7 0)
def execSlfEnd (dt : Nat) (s : State) : Host.Outcome State Fault Refusal := .next ((s.advance dt).edgeCommand 8 0)
def execCloseOut (dt : Nat) (s : State) : Host.Outcome State Fault Refusal := .next ((s.advance dt).edgeCommand 9 0)

/-- CONFIG_ACTIVATE: a committed configuration whose boundary has come takes effect (R75, R778). -/
def execConfigActivate (dt : Nat) (s : State) : Host.Outcome State Fault Refusal := .next (s.advance dt).activateDue

end Sys2Proof.Machine
end

