-- ==== Sys2Proof/Machine/TimeBase.lean ====
section
/-! DEFINITION. The time base: gPTP and PPS samples, the servo, steps and refusals, holdover, grandmaster changes and the
pulse commands (R591 to R621). Offsets are counted in 1/16 ns. -/

namespace Sys2Proof.Machine

def State.modTmb (s : State) (f : TimeBase → TimeBase) : State := { s with tmb := f s.tmb }

/-! ### Configuration fields (R606, R622) -/

def State.tmbDomain (s : State) : Nat := s.cf 0x180008 2 7
def State.portOn (s : State) (m : Nat) : Bool := m < 4 && bitAt (s.cf 0x180008 9 4) m
def State.logSync (s : State) : Nat := s.cf 0x180008 13 3
def State.jumpLimit (s : State) : Nat := s.cf 0x18000C 0 24
def State.stepNs (s : State) : Nat := s.cf 0x180010 0 24
def State.holdoverS (s : State) : Nat := s.cf 0x180014 0 12

/-- The sync interval: 2^-LOG_SYNC s in SLAVE, 1 s in GM_PPS, in 1/16 ns. -/
def State.syncInterval (s : State) : Nat := if s.tmb.role = 0 then s16 / 2 ^ s.logSync else s16

/-- TMB_PT_STAT.ROLE of a port (R597, R598, R623): disabled where PORT_EN is 0, master in the GM roles, and in SLAVE slave
where the samples come from. PRESUMED: every other port of an end station that is a slave is passive (IEEE 802.1AS). -/
def State.portRole (s : State) (m : Nat) : Nat :=
  if !s.tmb.running || !s.portOn m then 0 else if s.tmb.role ≠ 0 then 1
  else if s.tmb.lastSample.isSome && s.tmb.slavePort == m then 3 else 2

/-! ### The servo (R592, R601, R603, R605) -/

/-- Nominal INCR (R592). -/
def incrNom : Nat := 0x8E38E38E4

/-- Units of the servo's rates: 10^-9 × 2^-32. -/
def ppb : Int := 4294967296

/-- INCR for a rate deviation, rounded to the nearest and within 200 ppm of nominal (R592, R601). -/
def incrOf (d : Int) : Nat :=
  let den : Int := 1000000000 * ppb
  let x := (2 * (incrNom : Int) * d + den) / (2 * den)
  ((incrNom : Int) + clampI (-7635497) 7635497 x).toNat

/-- Rate deviation of an INCR from nominal. -/
def rateOf (incr : Nat) : Int := ((incr : Int) - incrNom) * (1000000000 * ppb) / incrNom

/-- A rate in parts per 10^9, rounded to the nearest. -/
def rateNs (d : Int) : Int := (2 * d + ppb) / (2 * ppb)

/-- INCR takes a value for a rate deviation, and joins the last 16 (R605). -/
def TimeBase.setRate (t : TimeBase) (d : Int) : TimeBase :=
  let i := incrOf d
  { t with incr := i, rate := rateNs d, incrs := (i :: t.incrs).take 16 }

/-- The proportional-integral law for a sample of offset e after τ (R601). -/
def TimeBase.law (t : TimeBase) (e : Int) (tau : Nat) : TimeBase :=
  if tau = 0 then t
  else
    let u := 1000000000 * ppb * e / tau
    let lim := 200000 * ppb
    let i := clampI (-lim) lim (t.integral + u / 16)
    ({ t with integral := i }).setRate (clampI (-lim) lim (i + u / 2))

/-- The rate of SLEW_ONLY: |e| / sync interval, at most 200 ppm, against the offset (R603). -/
def TimeBase.slew (t : TimeBase) (e : Int) (interval : Nat) : TimeBase :=
  let r := min (200000 * ppb) (1000000000 * ppb * (e.natAbs : Int) / max 1 interval)
  t.setRate (if e < 0 then -r else r)

/-- A value in whole ns, rounded towards zero and saturating to 32 bits signed. -/
def satNs (e : Int) : Int := clampI (-2147483648) 2147483647 (Int.tdiv e 16)
def le32 (v : Int) : Bytes := le 4 (toBits 32 v)

/-- The median of three. -/
def median3 (a b c : Int) : Int := max (min a b) (min (max a b) c)

/-- TIME_VALID and LOCKED: acquisition is complete (R599, R605). -/
def State.acquired (s : State) : State :=
  ((s.modTmb fun t => { t with valid := true, servo := .locked, integral := 0, big := [], good := 0 }).evDev 0x0A01 0
    (le 1 s.tmb.role)).armTick s.tmb.now

/-- A sample in LOCKED (R601, R602). -/
def State.lockedSample (s : State) (e : Int) (tau : Nat) : State :=
  if e.natAbs ≤ 16 * s.stepNs then s.modTmb fun t => ({ t with big := [] }).law e tau
  else
    let same := s.tmb.big.filter fun b => decide (0 < b) == decide (0 < e)
    match (if same.length = s.tmb.big.length then same else []) with
    | [b, a] =>
      let m := median3 a b e
      if m.natAbs ≤ 16 * s.jumpLimit then
        let s1 := s.modTmb fun t => { t with big := [], steps := inc 16 t.steps }
        (s1.evDev 0x0A02 0 (le32 (satNs m) ++ le 1 s.tmb.slavePort)).stepTime m
      else
        (s.modTmb fun t => ({ t with
          big := [], refused := inc 16 t.refused, lastRefused := satNs m, servo := .slewOnly, slewFrom := t.now }).slew e s.syncInterval).evDev
          0x0A03 1 (le32 (satNs m) ++ le 4 s.jumpLimit ++ le 1 s.tmb.slavePort)
    | l => s.modTmb fun t => { t with big := e :: l }

/-- The state becomes LOCKED from SLEW_ONLY or HOLDOVER: I is the rate deviation of the INCR in use (R601). -/
def TimeBase.relock (t : TimeBase) : TimeBase := { t with servo := .locked, integral := rateOf t.incr, big := [] }

/-- A sample in ACQUIRE in SLAVE (R599). -/
def State.acquireSample (s : State) (e : Int) : State :=
  let good := if e.natAbs ≤ 16000 then s.tmb.good + 1 else 0
  let s1 := s.modTmb fun t => { t with good := good }
  let s2 := if 16 * s.stepNs < e.natAbs then s1.stepTime e else s1
  if 16 ≤ good then s2.acquired else s2

/-- A sample of offset e (R599 to R605). -/
def State.takeSample (s : State) (e : Int) : State :=
  let tau := s.tmb.lastSample.elim 0 fun t => s.tmb.now - t
  let s1 := s.modTmb fun t => { t with offset := satNs e }
  let s2 := match s.tmb.servo with
    | .acquire => s1.acquireSample e
    | .locked => s1.lockedSample e tau
    | .slewOnly =>
      if e.natAbs ≤ 16 * s.stepNs then
        ((s1.modTmb (·.relock)).evDev 0x0A04 0 (le 4 (sat 32 ((s.tmb.now - s.tmb.slewFrom) / ms16)))).lockedSample e tau
      else s1.modTmb fun t => t.slew e s.syncInterval
    | .holdover =>
      ((s1.modTmb fun t => ({ t with syncLost := false }).relock).evDev 0x0A06 0
        (le 1 2 ++ zeros 3 ++ le 4 ((s.tmb.now - s.tmb.holdFrom) / s16))).lockedSample e tau
  s2.modTmb fun t => { t with lastSample := some t.now }

/-! ### Samples -/

/-- A Sync on port m with the grandmaster's domain time in ns (R594, R596, R599 to R605). Only SLAVE takes it. -/
def State.sync (s : State) (m domNs : Nat) : State :=
  if !s.tmb.running || !s.portOn m then s
  else
    let s1 := s.modTmb fun t => { t with ports := tmod t.ports m fun p => { p with rx := inc 16 p.rx, asCapable := true } }
    if s.tmb.role ≠ 0 then s1
    else
      let dev : Int := (domNs : Int) - s.tmb.epoch * 1000000000
      if dev < 0 ∨ (2 ^ 60 : Nat) ≤ dev then
        (s1.modTmb fun t => { t with epochCnt := inc 16 t.epochCnt }).evDev 0x0A07 1 (le 1 m ++ zeros 3 ++ le 8 domNs)
      else (s1.modTmb fun t => { t with slavePort := m }).takeSample (16 * dev - s.tmb.now)

/-- The time base moves in one command by what it would take the edge of PPS_IN to have been sampled 3 main clocks
earlier (R620). -/
def TimeBase.edgeTime (t : TimeBase) : Nat := t.now - (3 * t.incr) / 2 ^ 32

/-- Offset of a time from its nearest whole second (R621). -/
def fromSecond (t : Nat) : Int := if t % s16 < s16 / 2 then (t % s16 : Nat) else ((t % s16 : Nat) : Int) - s16

/-- An edge in ACQUIRE in GM_PPS (R599). -/
def State.ppsAcquire (s : State) (t : Nat) (first : Bool) : State :=
  if first then
    let m : Int := ((ceilDiv t s16 * s16 : Nat) : Int) - t
    let s1 := s.stepTime m
    s1.modTmb fun x => { x with ppsLast := some (t + m.toNat), lastSample := some x.now }
  else
    let good := if (fromSecond t).natAbs ≤ 16000 then s.tmb.good + 1 else 0
    let s1 := s.modTmb fun x => { x with good := good, lastSample := some x.now }
    if 16 ≤ good then s1.acquired else s1

/-- A rising edge of PPS_IN (R620, R621). -/
def State.ppsEdge (s : State) : State :=
  if !s.tmb.running then s
  else
    let t := s.tmb.edgeTime
    if s.tmb.ppsLast.elim false fun l => decide (t < l + 900 * ms16) then s.modTmb fun x => { x with ppsIgnored := inc 16 x.ppsIgnored }
    else
      let s1 := s.modTmb fun x => { x with
        ppsTime := t, ppsErr := satNs (fromSecond t), ppsEdges := inc 16 x.ppsEdges, ppsLast := some t }
      if s.tmb.role ≠ 2 then s1
      else if s.tmb.servo = .acquire then
        (s1.modTmb fun x => { x with offset := satNs (-(fromSecond t)) }).ppsAcquire t s.tmb.ppsLast.isNone
      else s1.takeSample (-(fromSecond t))

/-! ### Commands -/

def execSync (dt m domNs : Nat) (s : State) : Host.Outcome State Fault Refusal := .next ((s.advance dt).sync m domNs)
def execPpsInEdge (dt : Nat) (s : State) : Host.Outcome State Fault Refusal := .next (s.advance dt).ppsEdge

/-- SYNC_TIMEOUT: no sample for 3 sync intervals, or 3 s in GM_PPS (R605). -/
def execSyncTimeout (dt : Nat) (s : State) : Host.Outcome State Fault Refusal :=
  let s := s.advance dt
  let t := s.tmb
  .next (
    if (t.servo = .locked ∨ t.servo = .slewOnly) ∧ t.role ≠ 1 ∧ (t.lastSample.elim false fun l => decide (l + 3 * s.syncInterval ≤ t.now)) then
      let mean := if t.incrs = [] then t.incr else t.incrs.foldl (· + ·) 0 / t.incrs.length
      let s1 := s.modTmb fun t => { t with
        servo := .holdover, incr := mean, rate := rateNs (rateOf mean), holdFrom := t.now, holdovers := inc 16 t.holdovers, big := []
        ports := if t.role = 0 then tmod t.ports t.slavePort fun p => { p with timeouts := inc 16 p.timeouts } else t.ports }
      s1.evDev 0x0A06 0 (le 1 0 ++ zeros 3 ++ le 4 0)
    else s)

/-- HOLDOVER_EXPIRY: HOLDOVER_S pass in HOLDOVER (R605). -/
def execHoldoverExpiry (dt : Nat) (s : State) : Host.Outcome State Fault Refusal :=
  let s := s.advance dt
  let t := s.tmb
  .next (if t.servo = .holdover ∧ !t.syncLost ∧ t.holdFrom + s.holdoverS * s16 ≤ t.now then
      (s.modTmb fun t => { t with syncLost := true }).evDev 0x0A06 1 (le 1 1 ++ zeros 3 ++ le 4 ((t.now - t.holdFrom) / s16))
    else s)

/-- The device's own clockIdentity: E0's MAC address with FF FE in the middle (IEEE 802.1AS). -/
def State.ownClock (s : State) : Nat :=
  let mac := fld s.nvm.shadow 96 48
  let b := be 6 mac
  ofLe (b.take 3 ++ [0xFF, 0xFE] ++ b.drop 3).reverse

/-- GM_CHANGE: the grandmaster becomes `gm` on the enabled port m, or a foreign Announce arrives there in a GM role (R597,
R598, R605). -/
def execGmChange (dt m gm : Nat) (s : State) : Host.Outcome State Fault Refusal :=
  let s := s.advance dt
  let rec_ (q : State) (old : Nat) : State := q.evDev 0x0A05 1 (le 8 old ++ le 8 gm ++ le 1 m)
  .next (if !s.tmb.running || !s.portOn m then s
    else if s.tmb.role = 0 then
      if gm % 2 ^ 64 = s.tmb.gm then s
      else rec_ (s.modTmb fun t => { t with gm := gm % 2 ^ 64, gmChanges := inc 16 t.gmChanges }) s.tmb.gm
    else rec_ (s.modTmb fun t => { t with foreign := inc 16 t.foreign }) s.ownClock)

/-! ### Pulse commands -/

/-- The function may write pulse p's RW registers: it is that of the tenant named by OWNER (R614). -/
def State.ownsPulse (s : State) (fn p : Nat) : Bool := p < 8 && s.tenantOf fn == some (s.cfg.active.pulseOwner p)

/-- The first refusal of R615 that applies to an arm of pulse p, 0 if none. -/
def State.pulseErr (s : State) (x : Pulse) : Nat :=
  if !s.tmb.valid || (x.mode == 3 && !s.fr.ticking) then 1
  else if x.mode = 0 then 2
  else if (x.mode = 2 ∧ (x.period < 16000 ∨ 480000000000 < x.period)) ∨ x.width < 100 ∨ 1000000000 < x.width ∨
      (x.mode = 2 ∧ x.period ≤ x.width * 16) ∨
      (x.mode = 3 ∧ frameUs s.fr.alignMs s.fr.count * 1000 - 1000 ≤ x.start % 2 ^ 32) then 3
  else if x.mode ≠ 3 ∧ x.start < s.tmb.now + us16 then 4
  else if x.mode ≠ 3 ∧ s.tmb.now + 30 * s16 < x.start then 5
  else 0

/-- A pulse whose unit fires in this main clock fires before a write to its TMB_P_CTL takes effect (R618). -/
def State.fireFirst (s : State) (p : Nat) : State := if s.pulseDue p then s.firePulse p else s

/-- A write of TMB_P_CTL with ARM 1 (R615, R618). -/
def State.pulseArm (s : State) (p v : Nat) : State :=
  let s := s.fireFirst p
  let x := { s.pulse p with mode := fld v 0 2, pol := bitAt v 2 }
  let err := s.pulseErr x
  if err ≠ 0 then (s.modPulse p fun _ => { x with armed := false, err := err }).evDev 0x0A08 0 (le 1 p ++ le 1 err ++ zeros 2 ++ le 4 0)
  else
    let t := s.fr.tick + x.offset
    let late := decide (t ≤ s.tmb.now)
    let s := { s with rst := { s.rst with pinTaken := insNat p s.rst.pinTaken } }
    s.modPulse p fun _ => { x with
      armed := true, err := 0, firedFrame := if x.mode = 3 ∧ late then some s.fr.num else none
      next := if x.mode = 3 then (if late then s.fr.nextTick + x.offset else t) else x.start }

/-- PULSE_ARM: function fn writes TMB_P_CTL of pulse p with ARM 1. -/
def execPulseArm (dt fn p v : Nat) (s : State) : Host.Outcome State Fault Refusal :=
  let s := s.advance dt
  .next (if s.ownsPulse fn p then s.pulseArm p v else s)

/-- PULSE_DISARM: function fn writes TMB_P_CTL of pulse p with MODE 0 (R616, R618). -/
def execPulseDisarm (dt fn p v : Nat) (s : State) : Host.Outcome State Fault Refusal :=
  let s := s.advance dt
  .next (if s.ownsPulse fn p then (s.fireFirst p).modPulse p fun x => { x with mode := 0, pol := bitAt v 2, armed := false } else s)

/-- PULSE_FIRE: the compare unit of pulse p fires (R613, R617). -/
def execPulseFire (dt p : Nat) (s : State) : Host.Outcome State Fault Refusal :=
  let s := s.advance dt
  .next (if p < 8 && s.pulseDue p then s.firePulse p else s)

/-- PULSE_END: the width count ends (R613). -/
def execPulseEnd (dt p : Nat) (s : State) : Host.Outcome State Fault Refusal :=
  let s := s.advance dt
  .next (if (s.pulse p).active && decide ((s.pulse p).endAt ≤ s.mc) then s.modPulse p fun x => { x with active := false } else s)

end Sys2Proof.Machine
end

