-- ==== Sys2Proof/Machine/Boot.lean ====
section
/-! DEFINITION. Start-up: the release of the steps and what each starts, the choice of firmware, the wipe of RETURN, and
the end of the boot (R41, R674, R676 to R678, R698, R728, R750, R780, R784, R787). -/

namespace Sys2Proof.Machine

/-! ### What the release of a step starts -/

/-- The records that waited for the log are written (R698), and then the captures of the Owls (R720). -/
def State.flushPending (s : State) : State :=
  let s1 := s.nvm.rst.pending.foldl (fun q r => q.logRecord r.kind 0xFF r.severity 0xFFFFFFFF r.payload)
    { s with nvm := { s.nvm with rst := { s.nvm.rst with pending := [] } } }
  s1.nvm.capPending.foldl (fun q i =>
    let c := if i = 0 then q.nvm.capS else q.nvm.capF
    q.logRecord 0x0D01 0xFF 2 0xFFFFFFFF (le 1 i ++ le 1 c.event ++ zeros 2 ++
      le 4 (if c.event = 6 then c.double else c.inBits) ++ le 8 c.lastSvc ++ le 4 (c.pcs.getD 0 0) ++
      le 4 (c.pcs.getD 1 0) ++ le 4 (c.pcs.getD 2 0)))
    { s1 with nvm := { s1.nvm with capPending := [] } }

/-- A record that waits for the log where there is none yet. -/
def State.evLater (s : State) (kind sev : Nat) (payload : Bytes) : State :=
  if s.logReady then s.evDev kind sev payload
  else s.modNvm fun v => { v with rst := { v.rst with pending := v.rst.pending ++ [{ kind, severity := sev, payload }] } }

/-- FALLBACK is set and recorded where a firmware type runs from the other bank (R784). -/
def State.bootSelect (s : State) (k bank : Nat) (fallback : Bool) : State :=
  if fallback then
    (s.modCfg fun c => { c with fallback := true }).evLater 0x0E05 1 (le 1 k ++ le 1 bank ++ le 1 1 ++ zeros 1 ++ le 4 (s.nvm.crec bank k).gen)
  else s

/-- Fox starts from the chosen bank; an image that has not run before is recorded (R780, R784). -/
def State.startFox (s : State) : State :=
  let s1 := { s with fox := { s.fox with st := .booting } }
  match s1.firmwareBank 9 with
  | none => s1
  | some (bank, fb) =>
    let b := s1.nvm.slot bank 9
    let s2 := (s1.modCfg fun c => { c with foxSlot := bank, foxVer := rd b 40 4, foxDigest := imageDigest b }).bootSelect 9 bank fb
    if s2.nvm.foxNew then (s2.modNvm fun v => { v with foxNew := false }).evLater 0x0E08 0 (le 1 bank ++ zeros 3 ++ le 4 (rd b 40 4)) else s2

/-- The safety firmware is chosen; a firmware type whose images all fail leads to SAFE (R41, R784). -/
def State.startFirmware (s : State) : State :=
  let s1 := match s.firmwareBank 8 with
    | none => s
    | some (bank, fb) =>
      let b := s.nvm.slot bank 8
      (s.modCfg fun c => { c with fwSlot := bank, svn := rd b 44 1, fwVer := rd b 40 4, fwDigest := imageDigest b }).bootSelect 8 bank fb
  if [8, 9].any fun k => s.nvm.ranked k != [] && (s.firmwareBank k).isNone then s1.holdAll.enterSafe 0x19 else s1

/-- The CRC of the runtime slice table is compared with the fused one (R728). -/
def State.checkTable (s : State) : State :=
  let fused := fld s.nvm.shadow 64 32
  let s1 := { s with owl := { s.owl with slf := { s.owl.slf with tableOk := Config.sliceCrc % 2 ^ 32 == fused, startMc := s.mc } } }
  if s1.owl.slf.tableOk then s1
  else (s1.evDev 0x0D06 3 (le 4 (Config.sliceCrc % 2 ^ 32) ++ le 4 fused)).holdAll.enterSafe 0x19

/-- The time base starts at 0 with ROLE and EPOCH_S of the committed configuration; in GM_FREE its time is valid at once
(R599, R608). In the GM roles TMB_GM shows the device's own clockIdentity (R622). -/
def State.startTime (s : State) : State :=
  let c := s.storedConfig.getD {}
  let role := fld (c.word 0x180008) 0 2
  let s1 := { s with tmb := { s.tmb with running := true, role, epoch := c.word 0x180018 + 2 ^ 32 * c.word 0x18001C } }
  let s2 := if role = 0 then s1 else s1.modTmb fun t => { t with gm := s.ownClock }
  if role = 1 then s2.acquired else s2

/-- Step D4: the repair entries of the memories (R651), the Owls, the log, the DRBG with a fresh CFG_NONCE (R238, R754), the patrol scrub and the time base. -/
def State.startMain (s : State) : State :=
  let c := s.mc / 8
  let (v, s) := s.fresh
  let s1 := { s with
    owl := { s.owl with
      s := { s.owl.s with live := true, startCyc := c, shown := s.nvm.capS }
      f := { s.owl.f with
        live := true, startCyc := c, shown := s.nvm.capF
        st := if s.owl.flash.busyFrom.isSome then .suspended else .boot } }
    log := { s.log with nextSeq := s.nvm.nextSeq }
    aud := { s.aud with drbg := s.aud.drbg.instantiate (v % 2 ^ 384) s.deviceId }
    mem := { (s.mem.applyRepairs s.nvm.shadow) with scrubFrom := s.mc } }
  s1.freshNonce.startTime.flushPending

/-- What the release of step k starts (R676): D1 the option load, D2 Fox, D4 the time base, the Owls and the log, D5 the
firmware and the slice table. -/
def State.stepStarts (s : State) (k : Nat) : State :=
  match k with
  | 1 => s.loadOption
  | 2 => s.startFox
  | 4 => s.startMain
  | 5 => s.startCores.startFirmware.checkTable
  | 8 => { s with rst := { s.rst with resetOutN := true } }
  | _ => s

/-- The release of step k. -/
def State.releaseStep (s : State) (k : Nat) : State :=
  let r := s.rst
  let on := (stepDomains k).filter fun d => !r.masked d && !(d == 131 && s.life == 5)
  let wait := if 2 ≤ k then sat 16 ((s.mc - r.releasedAt - r.gap k * refMc) / usMc) else 0
  let s1 := { s with rst := { r with
    released := some k, releasedAt := s.mc, restarting := k != 10
    cgWait := tset r.cgWait k wait
    on := on.foldl (fun l d => insNat d l) r.on } }
  s1.stepStarts k

/-- Fox alone is released again. With the evidence log at work this is a start at which the records of its reset and of
Owl-F's capture are written and the capture is shown (R698, R720, R741; DEDUCED, log 68). -/
def State.foxAgain (s : State) : State :=
  let s1 := { s with rst := { s.rst with on := insNat 113 s.rst.on } }.startFox
  if s1.logReady then { s1 with owl := { s1.owl with f := { s1.owl.f with shown := s1.nvm.capF } } }.flushPending else s1

/-- DOMAIN_RELEASE: step k is released, or Fox alone is released again after its own reset. The command carries how the
board drives the reset inputs and which steps' conditions hold at this moment (R658, R676, R678). -/
def execDomainRelease (dt k : Nat) (pins : ResetPins) (good : List Nat) (s : State) : Host.Outcome State Fault Refusal :=
  let s := s.advance dt
  let s := { s with rst := (s.rst.seePins pins s.mc).seeGood good s.mc }
  .next (if s.mayRelease k then s.releaseStep k
         else if k = 2 ∧ s.fox.st = .reset ∧ s.atStep 2 then s.foxAgain
         else s)

/-! ### The end of the boot -/

/-- Every step is released, the self-checks of START_UP have passed, and a device in RETURN has been wiped (R41, R488,
R728, R750). -/
def State.mayBoot (s : State) : Bool :=
  s.acting == .startUp && s.rst.released == some 10 && !s.glb.booted && s.cor.injPass && s.owl.slf.tableOk &&
  (s.life != 4 || s.cfg.wiped)

/-- Change log entries that the newest commit record names and that are missing are written (R787). -/
def State.mendClog (s : State) (c : Cfg) : State :=
  match (s.nvm.ranked 5) with
  | [] => s
  | bank :: _ =>
    if s.nvm.clogSeq < (s.nvm.crec bank 5).clogSeq then
      let old := if (s.nvm.crec (1 - bank) 5).ok then (s.checkImage (s.nvm.slot (1 - bank) 5)).1 else {}
      s.clogConfig 0xFF old c (s.checkImage (s.nvm.slot bank 5)).2
    else s

/-- Boot completes: the valid committed configuration is activated, or the device flags "no configuration" (R41,
R749). -/
def State.boot (s : State) : State :=
  let s1 := { s with glb := { s.glb with booted := true } }
  match s1.storedConfig with
  | some c =>
    let s2 := s1.mendClog c
    if s2.lifePending then s2.actTo .maintenance else (s2.takeNow c).actTo .configured
  | none => { s1 with glb := { s1.glb with noConfig := true } }.actTo .maintenance

def execBootComplete (dt : Nat) (s : State) : Host.Outcome State Fault Refusal :=
  let s := s.advance dt
  .next (if s.mayBoot then s.boot else s)

/-- The wipe of RETURN (R750): configurations, keys of the integrator, password, change log, archive, mirror, and zeros in
every usable line of memory; the log starts again at SEQ 1 (R451). -/
def State.wipe (s : State) : State :=
  let keep := fun k => k != 5 && k != 261
  let v := s.nvm
  let s1 := { s with
    nvm := { v with
      records := v.records.filter fun x => keep x.1
      slots := v.slots.filter fun x => keep x.1
      ikey := none, password := none, clog := [], clogSeq := 0, clogHash := []
      archNewest := 0, archive := [], archTotal := 0, mirror := [], wipeDone := true }
    mem := { s.mem with cells := [], bad := [], raw := [] }
    log := { s.log with records := [], nextSeq := 1, oldest := 0 } }
  (s1.modCfg fun c => { c with wiped := true, clogBegun := false }).evDev 0x0E04 0 (le 1 4 ++ le 1 4 ++ le 1 1)

/-- RETURN_WIPE, before any descriptor is fetched and before Tack opens (R750). -/
def execReturnWipe (dt : Nat) (s : State) : Host.Outcome State Fault Refusal :=
  let s := s.advance dt
  .next (if s.life = 4 ∧ s.acting = .startUp ∧ s.atStep 4 ∧ !s.cfg.wiped then s.wipe else s)

/-- SAFETY_FW_ACTIVATE: 10 ms after the commit, Fox issues the software request (R667, R780). -/
def execSafetyFwActivate (dt : Nat) (s : State) : Host.Outcome State Fault Refusal :=
  let s := s.advance dt
  .next (if s.cfg.fwCommitAt.elim false (fun t => decide (t + 10 * msMc ≤ s.mc)) ∧ s.fox.st ≠ .reset then
      (s.modCfg fun c => { c with fwCommitAt := none }).foxRequest
    else s)

end Sys2Proof.Machine
end

