-- ==== Sys2Proof/Machine/Owl.lean ====
section
/-! DEFINITION. The two Owl watchdogs: token, service, check-in, periods, trap, hard timer and the flash side of Owl-F
(R699 to R726). Owl-S is 0, Owl-F is 1. -/

namespace Sys2Proof.Machine

/-! ### Timing (R699, R703, R704) -/

/-- The current Owl cycle: main clocks / 8. -/
def State.owlCyc (s : State) : Nat := s.mc / 8

def State.owlOf (s : State) (i : Nat) : Owl := if i = 0 then s.owl.s else s.owl.f
def State.modOwl (s : State) (i : Nat) (f : Owl → Owl) : State :=
  if i = 0 then { s with owl := { s.owl with s := f s.owl.s } } else { s with owl := { s.owl with f := f s.owl.f } }

/-- Local time at an Owl cycle. -/
def State.owlTime (s : State) (cyc : Nat) : Nat :=
  ((s.tmb.now : Int) + ((8 * cyc : Nat) - (s.mc : Int)) * (s.tmb.incr : Int) / 2 ^ 32).toNat

/-- Owl cycles of the period in effect. -/
def Owl.period (x : Owl) : Nat := x.periodUs * 225

/-- Fuse fields WINDOW and HARD of instance i (R703, R704, R755). -/
def State.owlWindow (s : State) (i : Nat) : Nat := fld s.nvm.shadow (23 + 3 * i) 3
def State.owlHard (s : State) (i : Nat) : Nat := fld s.nvm.shadow (29 + 2 * i) 2

/-- floor(W × P): the window opens this many cycles into the period. -/
def State.windowAt (s : State) (i : Nat) : Nat :=
  let c := s.owlWindow i
  (s.owlOf i).period * ((if c ≤ 4 then c else 2) + 2) / 8

/-- Owl cycles of the hard timer: 0.5, 1, 2 or 4 ms. -/
def State.hardCycles (s : State) (i : Nat) : Nat := 112500 * 2 ^ s.owlHard i

/-! ### Trap (R716 to R721) -/

/-- The instance enters TRAP with an event: capture into the black box, hard timer, and the trap raised on each core it
watches (R716). The program counters of the cores are free values. The ledger's interrupt entry comes with the
LEDGER_REQUEST of the core that takes the trap first (R473, R475). -/
def State.owlTrap (s : State) (i event : Nat) : State :=
  let (a, s1) := s.fresh
  let (b, s2) := s1.fresh
  let (c, s3) := s2.fresh
  let x := s.owlOf i
  let cap : Capture := {
    event := event, trapTime := s.tmb.now, lastSvc := x.lastSvc, token := x.token, inBits := x.inBits
    pcs := if i = 0 then [a % 2 ^ 32, b % 2 ^ 32, c % 2 ^ 32] else [a % 2 ^ 32, 0, 0], double := x.double }
  let s4 := s3.modOwl i fun y => { y with st := .trap, lastEvent := event, trapCyc := s.owlCyc, nmi := if i = 0 then [0, 1, 2] else [3] }
  { s4 with nvm := { s4.nvm with
    capS := if i = 0 then cap else s4.nvm.capS
    capF := if i = 0 then s4.nvm.capF else cap
    capPending := insNat i s4.nvm.capPending } }

/-! ### Periods (R703, R715) -/

/-- A new period of instance i begins P cycles after the last, at a local time. -/
def Owl.next (x : Owl) (at_ : Nat) : Owl :=
  { x with startCyc := x.startCyc + x.period, startTime := at_, served := false, windowOpen := false }

/-- The next period of instance i begins. -/
def State.owlNext (s : State) (i : Nat) : State :=
  let x := s.owlOf i
  s.modOwl i (·.next (s.owlTime (x.startCyc + x.period)))

/-- The instance is brought up to the present cycle: a period that had a good service is followed by the next, one
without expires (R703, R715); a boot period expires after 1 s. -/
def State.owlRoll (s : State) (i : Nat) : State :=
  let x := s.owlOf i
  if !x.live ∨ s.owlCyc < x.startCyc + x.period then s
  else match x.st with
  | .boot => s.owlTrap i 9
  | .run =>
    if !x.served then s.owlTrap i 8
    else if s.owlCyc < x.startCyc + 2 * x.period then s.owlNext i
    else (s.owlNext i).owlTrap i 8
  | _ => s

/-! ### Service (R705 to R707, R711 to R714) -/

/-- One step of the Galois LFSR of R707. -/
def lfsrNext (t : Nat) : Nat := if t % 2 = 1 then t / 2 ^^^ 0xB400 else t / 2

/-- A good service of instance i (R702, R707, R712); Fox that serves Owl-F is running (FOX_STAT.STATE). -/
def State.owlGood (s : State) (i : Nat) : State :=
  let x := s.owlOf i
  let y := { x with
    token := lfsrNext x.token, inBits := 0, lastSvc := s.tmb.now, services := inc 16 x.services, lastEvent := 1, armed := false }
  let z : Owl := if x.st = .boot then
      if x.locked then { y with
        st := .run, periodUs := x.setupUs, startCyc := s.owlCyc + 1, startTime := s.owlTime (s.owlCyc + 1), served := false, windowOpen := false }
      else y
    else { y with served := true, windowOpen := false }
  let s1 := s.modOwl i fun _ => z
  if i = 0 then s1 else { s1 with
    owl := { s1.owl with flash := { s1.owl.flash with mayStart := true } }
    fox := { s1.fox with st := if s1.fox.st = .booting then .running else s1.fox.st } }

/-- A refused service (R711). The program counters of the record are free values. -/
def State.owlRefused (s : State) (i : Nat) : State :=
  let (a, s1) := s.fresh
  let (b, s2) := s1.fresh
  let (c, s3) := s2.fresh
  let x := s.owlOf i
  let missing := x.reg &&& (x.inBits ^^^ 0xFFFF)
  (s3.modOwl i fun y => { y with refused := inc 16 y.refused, missing := missing, lastEvent := 2, armed := false }).evDev 0x0D01 1
    (le 1 i ++ le 1 2 ++ zeros 2 ++ le 4 missing ++ le 8 x.lastSvc ++ le 4 a ++ le 4 (if i = 0 then b else 0) ++
      le 4 (if i = 0 then c else 0))

/-- A completed service is judged (R714). -/
def State.owlJudge (s : State) (i : Nat) : State :=
  let x := s.owlOf i
  let el := s.owlCyc - x.startCyc
  if x.st = .run ∧ s.owlCyc = x.startCyc then s.modOwl i fun y => { y with armed := false }
  else if x.st = .run ∧ el ≤ s.windowAt i then s.owlTrap i 3
  else if x.st = .run ∧ x.served then s.owlTrap i 4
  else if x.inBits ≠ x.reg then s.owlRefused i
  else s.owlGood i

/-- A write of the service port (R705, R706, R742). -/
def State.owlService (s : State) (i v : Nat) : State :=
  let x := s.owlOf i
  if !x.live ∨ (x.st ≠ .boot ∧ x.st ≠ .run) then s
  else if 2 ^ 16 ≤ v then s.owlTrap i 5
  else if x.armed then (if v = x.token ^^^ 0xFFFF then s.owlJudge i else s.owlTrap i 5)
  else if v = x.token then s.modOwl i fun y => { y with armed := true }
  else s.owlTrap i 5

/-- A write of the check-in port (R708 to R710, R742). -/
def State.owlCheckIn (s : State) (i v : Nat) : State :=
  let x := s.owlOf i
  if !x.live ∨ (x.st ≠ .boot ∧ x.st ≠ .run) then s
  else if 16 ≤ v ∨ !bitAt x.reg v then s.owlTrap i 7
  else if bitAt x.inBits v then (s.modOwl i fun y => { y with double := y.double ||| 2 ^ v }).owlTrap i 6
  else s.modOwl i fun y => { y with inBits := y.inBits ||| 2 ^ v }

/-! ### Commands -/

/-- OWL_SETUP: the one write of OWL_x_SETUP (R702, R742). -/
def execOwlSetup (dt i v : Nat) (s : State) : Host.Outcome State Fault Refusal :=
  let s := (s.advance dt).owlRoll i
  let x := s.owlOf i
  .next (if x.live ∧ x.st ≠ .trap ∧ !x.locked then
      s.modOwl i fun y => { y with locked := true, setupUs := clampN 1000 1000000 (fld v 0 20), reg := fld v 32 16 }
    else s)

def execOwlServiceWrite (dt i v : Nat) (s : State) : Host.Outcome State Fault Refusal :=
  .next (((s.advance dt).owlRoll i).owlService i v)

def execOwlCheckIn (dt i v : Nat) (s : State) : Host.Outcome State Fault Refusal :=
  .next (((s.advance dt).owlRoll i).owlCheckIn i v)

/-- OWL_WINDOW_OPEN (R703, R712). -/
def execOwlWindowOpen (dt i : Nat) (s : State) : Host.Outcome State Fault Refusal :=
  let s := (s.advance dt).owlRoll i
  let x := s.owlOf i
  .next (if x.st = .run ∧ !x.served ∧ s.owlCyc ≥ x.startCyc + s.windowAt i then s.modOwl i fun y => { y with windowOpen := true }
         else s)

/-- OWL_PERIOD_START: a new period after one that had a good service (R703). -/
def execOwlPeriodStart (dt i : Nat) (s : State) : Host.Outcome State Fault Refusal :=
  let s := s.advance dt
  let x := s.owlOf i
  .next (if x.live ∧ x.st = .run ∧ x.served ∧ s.owlCyc ≥ x.startCyc + x.period then s.owlNext i else s)

/-- OWL_EXPIRY: a period or the boot period ends without a good service (R715). -/
def execOwlExpiry (dt i : Nat) (s : State) : Host.Outcome State Fault Refusal := .next ((s.advance dt).owlRoll i)

/-- OWL_HARD_TIMER: Owl-S asserts reset source 0x3, Owl-F source 0x4, which ends its own trap (R719, R726). -/
def execOwlHardTimer (dt i : Nat) (s : State) : Host.Outcome State Fault Refusal :=
  let s := s.advance dt
  let x := s.owlOf i
  .next (
    if x.live ∧ x.st = .trap ∧ s.owlCyc - x.trapCyc ≥ s.hardCycles i then
      if i = 0 then s.resetSource 3 3
      else if s.resettable then
        (s.resetFox 4).modOwl 1 fun y => { live := true, startCyc := s.owlCyc, startTime := s.tmb.now, shown := y.shown }
      else s
    else s)

/-- OWL_SUSPEND evidence (R745). -/
def State.suspendRecord (s : State) (event us : Nat) : State :=
  s.evDev 0x0D02 (if event = 2 then 1 else 0) (le 1 1 ++ le 1 event ++ zeros 2 ++ le 4 us)

/-- FLASH_BUSY is set: Owl-F freezes unless it is in TRAP (R722, R725). -/
def State.flashBusy (s : State) : State :=
  if s.owl.flash.busyFrom.isSome ∨ !s.owl.flash.mayStart then s
  else
    let s1 := { s with owl := { s.owl with flash := { s.owl.flash with busyFrom := some s.mc } } }
    let x := s1.owl.f
    if x.live ∧ (x.st = .boot ∨ x.st = .run) then
      (s1.modOwl 1 fun y => { y with st := .suspended, prior := x.st, suspends := inc 16 y.suspends }).suspendRecord 0 0
    else s1

/-- FLASH_BUSY clears: Owl-F starts a fresh period with IN kept (R724, R725). -/
def State.flashIdle (s : State) : State :=
  match s.owl.flash.busyFrom with
  | none => s
  | some t =>
    let s1 := { s with owl := { s.owl with flash := { busyFrom := none, mayStart := false } } }
    if s1.owl.f.st = .suspended then
      (s1.modOwl 1 fun y => { y with
        st := y.prior, prior := .boot, startCyc := s.owlCyc, startTime := s.tmb.now, served := false
        windowOpen := y.prior == .boot }).suspendRecord 1 ((s.mc - t) / usMc)
    else s1

def execOwlSuspend (dt : Nat) (s : State) : Host.Outcome State Fault Refusal := .next (((s.advance dt).owlRoll 1).flashBusy)

def execOwlResume (dt : Nat) (s : State) : Host.Outcome State Fault Refusal := .next (s.advance dt).flashIdle

/-- FLASH_OPERATION_TIMEOUT: Shroud ends an operation of 250 ms, which fails (R723). -/
def execFlashOperationTimeout (dt : Nat) (s : State) : Host.Outcome State Fault Refusal :=
  let s := s.advance dt
  .next (match s.owl.flash.busyFrom with
    | some t => if s.mc - t ≥ 250 * msMc then (s.suspendRecord 2 ((s.mc - t) / usMc)).flashIdle else s
    | none => s)

end Sys2Proof.Machine
end

