-- ==== Sys2Proof/Machine/Watch.lean ====
section
/-! DEFINITION. The short opcodes: NOP, the watch opcodes with the parameter block and the binding of outputs, corridors
and queries; the ACK frame that ends a WATCH_OPEN or the activation of Shroud's section (R346 to R349, R378, R393, R422,
R436 to R444, R528, R529, R538, R562). -/

namespace Sys2Proof.Machine

/-! ### NOP -/

/-- NOP: completes (R422, R434). -/
def execNop (dt : Nat) (s : State) : Host.Outcome State Fault Refusal :=
  .next ((s.advance dt).onOpcode (fun op _ => op == 0) noOwner fun q t => t.done q 0 [])

/-! ### WATCH_OPEN -/

/-- WATCH_OPEN is taken: the read of its parameter block begins (R404, R439, R443). -/
def execWatchOpen (dt : Nat) (s : State) : Host.Outcome State Fault Refusal :=
  .next ((s.advance dt).onOpcode (fun op _ => op == 1) ownsCtx fun q t =>
    if (q.watch t.ctx).isOpen || q.hst.openings.any (fun o => o.context == t.ctx) then t.refuse q 0x10
    else (q.modHst fun h => { h with openings := h.openings ++
      [{ fn := t.fn, ring := t.ring, index := t.index, context := t.ctx, clamps := t.clamps }] }).hostRead t.fn
        (rd t.bytes 16 8) 128)

/-- A WATCH_OPEN ends: its descriptor completes with STATUS, RESULT and PARAM_MAP (R441, R444). -/
def Opening.finish (o : Opening) (s : State) (status result : Nat) : State :=
  (s.modHst fun h => { h with openings := h.openings.erase o }).complete o.fn o.ring o.index
    { status, opcode := 1, result, detail := o.context, clampMap := o.clamps, data := le 16 o.paramMap }

/-- Fields of a parameter block (R439). -/
def pbMask (b : Bytes) : Nat := fld (rd b 1 1) 0 4
def pbPrv (b : Bytes) : Nat := fld (rd b 3 1) 0 4
def pbSout (b : Bytes) : Nat := rd b 14 2
def pbConns (b : Bytes) : List Nat := (List.range (rd b 29 1)).map fun i => rd b (32 + 4 * i) 4
def pbOutputs (b : Bytes) : Bool := pbSout b != 0 || pbPrv b != 0

/-- The VALID report slot of a STREAM_ID. -/
def Cfg.slotOfStream (c : Cfg) (id : Nat) : Option Nat := (List.range 128).find? fun i => c.slotValid i && c.slotStream i == id

/-- OWNER of a standard or privileged output that is assigned (R527), by the Shroud section of the configuration. -/
def Cfg.outOwner (c : Cfg) (prv : Bool) (o : Nat) : Option Nat :=
  let w := c.word ((if prv then 0x201700 else 0x201600) + 0x10 * o)
  if bitAt w 0 && bitAt w 1 then some (fld w 4 3) else none

/-- The outputs that a parameter block binds. -/
def pbOuts (b : Bytes) : List (Bool × Nat) := (bitList 16 (pbSout b)).map (false, ·) ++ (bitList 4 (pbPrv b)).map (true, ·)

/-- The VALID entry with a CONN_ID among transmit entries of TYPE 1, or any (R562). -/
def Cfg.connOf (c : Cfg) (id : Nat) : Option Nat := c.conns.find? fun i => c.connId i == id
def Cfg.verdictConn (c : Cfg) (id : Nat) : Option Nat :=
  c.conns.find? fun i => c.connId i == id && !c.connRx i && c.connType i == 1

/-- Nothing that the parameter block names belongs to another tenant (R404). -/
def State.pbOwned (s : State) (t : Nat) (b : Bytes) : Bool :=
  let c := s.cfg.active
  (c.slotOfStream (rd b 4 4)).elim true (fun i => c.slotTenant i == t) &&
  (bitList 4 (pbMask b)).all (fun m => !c.mValid m || s.modelTenant m == t) &&
  (pbConns b).all (fun id => (c.connOf id).elim true fun i => c.connOwner i == t) &&
  (pbOuts b).all fun (prv, o) => (c.outOwner prv o).elim true (· == t)

/-- The EMITS of the bound slots' images together contain each section exactly once (R320). -/
def State.emitsOk (s : State) (mask : Nat) : Bool :=
  (List.range 3).all fun e =>
    ((bitList 4 mask).filter fun m => (s.model m).active.elim false fun b => bitAt (bEmits b) e).length == 1

/-- Each named connection can be bound (R562). -/
def State.connsOk (s : State) (ids : List Nat) : Bool :=
  ids.Nodup && ids.all fun id =>
    (s.cfg.active.verdictConn id).elim false fun i => (s.conn i).bound.isNone

/-- Open contexts that satisfy p, those that await their ACK included. -/
def State.countCtxs (s : State) (p : Watch → Bool) (q : Opening → Bool) : Nat :=
  (s.openCtxs.filter fun c => p (s.watch c)).length + (s.hst.openings.filter fun o => o.slot.isSome && q o).length

/-- RESULT by which a WATCH_OPEN is refused; 0 where it is not (R393, R443). -/
def State.openRefusal (s : State) (o : Opening) (t : Nat) (b : Bytes) : Nat :=
  let c := s.cfg.active
  let mask := pbMask b
  let outs := pbOutputs b
  match c.slotOfStream (rd b 4 4) with
  | none => 0x12
  | some i =>
    if mask ≠ 0 ∧ ((bitList 4 mask).any (fun m => !c.mValid m || (s.model m).active.isNone) ∨ !s.emitsOk mask) then 0x14
    else if !s.tenAux t ∧ (pbConns b ≠ [] ∨ outs) ∧ mask = 0 then 0x15
    else if mask ≠ 0 ∧ s.countCtxs (·.modelMask != 0) (fun x => pbMask x.block != 0) ≥ 32 then 0x16
    else if outs ∧ s.countCtxs (fun w => w.sout != 0 || w.prv != 0) (fun x => pbOutputs x.block) ≥ 32 then 0x17
    else if rd b 23 1 ≠ 0 ∧ ((s.planOf i).elim true (fun p => c.goldPart p == 0) ∨ !c.goldSlot) then 0x18
    else if !s.connsOk (pbConns b) ∨ (pbOuts b).any (fun (prv, x) => (c.outOwner prv x).isNone) then 0x19
    else if !(s.hasRing o.fn (rd b 12 2) && (s.ring o.fn (rd b 12 2)).enable && (s.ring o.fn (rd b 12 2)).kind == 1) then 0x1A
    else 0

/-- The lowest free trust slot (R528). -/
def State.freeSlot (s : State) : Nat :=
  let used := ((s.openCtxs.filter fun c => (s.watch c).sout != 0 || (s.watch c).prv != 0).map fun c => tget s.pch.slotOf c) ++
    s.hst.openings.filterMap (·.slot)
  ((List.range 32).find? fun n => !used.contains n).getD 0

/-- The context that a parameter block describes (R353, R365, R439). -/
def State.newWatch (s : State) (t : Nat) (b : Bytes) : Watch :=
  { isOpen := true, tenant := t, aux := s.tenAux t
    slot := (s.cfg.active.slotOfStream (rd b 4 4)).getD 0, stream := rd b 4 4
    modelMask := pbMask b, corrFixed := bitAt (rd b 2 1) 0, corridor := if bitAt (rd b 2 1) 0 then slice b 64 48 else []
    prv := pbPrv b, sout := pbSout b, maxAge := rd b 8 4, cplRing := rd b 12 2
    budget := if rd b 16 1 = 0xFF then 2 else rd b 16 1, window := if rd b 17 1 = 0 then 64 else rd b 17 1
    thrCell := rd b 18 1, thrFree := rd b 19 1, thrObj := rd b 20 1, missCells := rd b 21 1, phantomCells := rd b 22 1
    matchDist := rd b 24 2, velTol := rd b 26 2, k := rd b 23 1, g := rd b 28 1
    plx := (pbConns b).filterMap s.cfg.active.verdictConn
    openedIn := if s.fr.ticking then some s.fr.num else none }

/-- The context opens with its bindings; CONFIGURED moves to RUNNING (R41, R393, R443). -/
def Opening.accept (o : Opening) (s : State) : State :=
  let t := s.recTenant o.fn
  let w := s.newWatch t o.block
  let s1 := s.setWatch o.context w
  let s2 := w.plx.foldl (fun q i => q.modConn i fun x => { x with bound := some o.context, rebound := true }) s1
  let s3 : State := match o.slot with
    | some n => { s2 with pch := { s2.pch with slotOf := tset s2.pch.slotOf o.context n } }
    | none => s2
  let s4 := if s3.acting = .configured then s3.actTo .running else s3
  o.finish s4 (b2n (o.clamps != 0 || o.paramMap != 0)) 0x01

/-- The parameter block has been read and its CHECK is right (R404, R439, R443). -/
def Opening.judge (o : Opening) (s : State) (bytes : Bytes) : State :=
  let t := s.recTenant o.fn
  let f := (bitList 4 (rd bytes 1 1)).foldl (fun a m => max a (((s.model m).active.map bFloor).getD 0)) 0
  let (map, b) := clampParam f bytes
  let o1 := { o with paramMap := map, block := b }
  let s1 := s.modHst fun h => { h with openings := h.openings.map fun x => if x = o then o1 else x }
  if t = 0xFF ∨ (s.tenAux t ∧ (pbConns b ≠ [] ∨ pbOutputs b)) then o1.finish s1 0x11 0
  else if !s.pbOwned t b then o1.finish s1 0x12 0
  else
    let r := s.openRefusal o t b
    if r ≠ 0 then o1.finish s1 0x13 r
    else if pbOutputs b then
      let n := s.freeSlot
      let o2 := { o1 with slot := some n }
      (s1.modHst fun h => { h with openings := h.openings.map fun x => if x = o1 then o2 else x }).toShroud 0x04
        (le 1 n ++ zeros 1 ++ le 2 o.context ++ le 2 (pbSout b) ++ le 1 (pbPrv b) ++ zeros 3)
    else o1.accept s1

/-- WATCH_PARAMETER_BLOCK_READ: the read for ring r of function fn ends with its 128 bytes, or fails (R440). -/
def execWatchParameterBlockRead (dt fn r : Nat) (bytes : Bytes) (ok : Bool) (s : State) : Host.Outcome State Fault Refusal :=
  let s := s.advance dt
  let b := padTo 128 bytes
  .next (match s.hst.openings.find? fun o => o.fn == fn && o.ring == r && o.slot.isNone with
    | none => s
    | some o =>
      if !ok then o.finish s 0x14 0
      else if crcK (b.take 124) ≠ rd b 124 4 then o.finish s 0x15 0
      else o.judge s b)

/-- ACK for a BIND: the WATCH_OPEN that waits for it completes (R528). -/
def State.ackBind (s : State) (p : Bytes) : State :=
  match s.hst.openings.find? fun o => o.slot == some (rd p 2 1) && o.context == rd p 4 2 with
  | none => s
  | some o =>
    if rd p 1 1 = 0 then o.accept s
    else o.finish (s.evidence 0x0805 (s.recTenant o.fn) 1 o.context (le 1 (rd p 2 1) ++ le 1 2 ++ le 2 o.context)) 0x13 0x19

/-- ACK for a CFG: the section is active and the processor channel's units go to STOP too (R517), or the CRCs did not
match and the device enters SAFE with a CHANNEL record, whose HCH and PCH are 0 (R538, R545; DESIGN CHOICE of the zeros,
log entry 51). -/
def State.ackCfg (s : State) (p : Bytes) : State :=
  if s.pch.awaits = 0 then s
  else
    let s1 := { s with pch := { s.pch with awaits := s.pch.awaits - 1 } }
    if rd p 1 1 = 0 then
      { s1 with pch := { s1.pch with
          discFrom := []
          sins := tmap (fun x => { x with xs := false }) s1.pch.sins
          fns := tmap (fun f => { f with st := .stop, faultCode := 0, fullOk := false, discFrom := none, handFrom := none,
                                         fullFrom := none, adopt := false }) s1.pch.fns } }
    else (s1.evDev 0x0804 3 (le 1 0xFF ++ le 1 0 ++ le 1 0)).enterSafe 0x18

/-- ACK: the L die accepts Shroud's acknowledgement (R528, R538). -/
def execAck (dt seq : Nat) (payload : Bytes) (s : State) : Host.Outcome State Fault Refusal :=
  .next ((s.advance dt).onLDie 0x84 seq payload fun q =>
    if rd payload 0 1 = 0x04 then q.ackBind payload
    else if rd payload 0 1 = 0x08 then q.ackCfg payload
    else q)

/-! ### WATCH_CLOSE, WATCH_CLEAR -/

/-- The context closes and its bindings are released; RUNNING moves to CONFIGURED after the last (R41, R438, R529,
R563). -/
def State.closeCtx (s : State) (c : Nat) : State :=
  let w := s.watch c
  let s1 := w.plx.foldl (fun q i => q.modConn i fun x => { x with bound := none, rebound := true }) (s.setWatch c default)
  let s2 := if w.sout ≠ 0 ∨ w.prv ≠ 0 then
      ({ s1 with pch := { s1.pch with slotOf := tset s1.pch.slotOf c 0 } }).toShroud 0x05
        (le 1 (tget s.pch.slotOf c) ++ zeros 1 ++ le 2 c ++ zeros 6)
    else s1
  if s2.openCtxs = [] ∧ s2.acting = .running then s2.actTo .configured else s2

/-- WATCH_CLOSE (R438). -/
def execWatchClose (dt : Nat) (s : State) : Host.Outcome State Fault Refusal :=
  .next ((s.advance dt).onOpcode (fun op _ => op == 2) ownsCtx fun q t =>
    if (q.watch t.ctx).isOpen then t.done (q.closeCtx t.ctx) 0x02 [] else t.refuse q 0x11)

/-- WATCH_CLEAR (R378). -/
def execWatchClear (dt : Nat) (s : State) : Host.Outcome State Fault Refusal :=
  .next ((s.advance dt).onOpcode (fun op _ => op == 3) ownsCtx fun q t =>
    if !(q.watch t.ctx).isOpen then t.refuse q 0x11
    else match (q.watch t.ctx).esc with
      | .normal => t.done q 0x04 []
      | .clearing => t.done q 0x05 []
      | .escalated => t.done (q.modWatch t.ctx fun w => { w with esc := .clearing, clean := 0 }) 0x03 [])

/-! ### FRAME_ANNOUNCE -/

/-- Frames from the current one to the frame whose number's low 48 bits are given, within 2^47 (R437); `none` where that
frame is earlier. -/
def State.framesAhead (s : State) (f48 : Nat) : Option Nat :=
  let d := (f48 + 2 ^ 48 - s.fr.num % 2 ^ 48) % 2 ^ 48
  if d < 2 ^ 47 then some d else none

/-- RESULT by which a FRAME_ANNOUNCE for an open context is refused; 0 where it is not (R347, R349, R437, R833). The spec
does not rank FIXED and FRAME where both apply, before the frame tick; FIXED comes first here (DESIGN CHOICE, log
entry 52). -/
def State.announceRefusal (s : State) (c f48 : Nat) : Nat :=
  let w := s.watch c
  if w.corrFixed then 0x1C
  else if !s.fr.ticking then 0x1E
  else match s.framesAhead f48 with
    | none => 0x1E
    | some d =>
      if 3 < d then 0x1E
      else if d = 0 ∧ s.past 0 then 0x1D
      else if w.corridors.any fun x => x.1 == s.fr.num + d then 0x1B
      else 0

/-- FRAME_ANNOUNCE (R346 to R348, R437). -/
def execFrameAnnounce (dt : Nat) (s : State) : Host.Outcome State Fault Refusal :=
  .next ((s.advance dt).onOpcode (fun op _ => op == 4) ownsCtx fun q t =>
    let r := q.announceRefusal t.ctx (rd t.bytes 10 6)
    if !(q.watch t.ctx).isOpen then t.refuse q 0x11
    else if r ≠ 0 then t.refuse q r
    else if t.clamps ≠ 0 then t.done q 0x07 []
    else
      let f := q.fr.num + (q.framesAhead (rd t.bytes 10 6)).getD 0
      t.done (q.modWatch t.ctx fun w => { w with corridors := w.corridors ++ [(f, slice t.bytes 16 48, q.mc)] }) 0x06 [])

/-! ### QUERY -/

/-- TDEG_LEFT in units of 10 ms (R47). -/
def State.tdegLeft (s : State) : Nat :=
  if s.glb.st = .degraded then (s.glb.tdegS * 1000 * msMc - (s.mc - s.glb.tdegFrom)) / (10 * msMc) else 0

/-- GLB_STATE (R47). -/
def State.glbState (s : State) : Nat :=
  s.glb.st.code + 16 * (if s.glb.st = .degraded then s.glb.prior.code else 0) + 256 * s.glb.cause +
    65536 * min 65535 s.tdegLeft

/-- GLB_FRAME_STATUS (R78). -/
def State.frameStatus (s : State) : Nat := b2n s.fr.ticking + 2 * b2n s.tmb.valid + 65536 * s.fr.stepped

/-- Newest and oldest SEQ in the log; 0 while it is empty (R451, R799). -/
def Log.newestSeq (l : Log) : Nat := if l.records.isEmpty then 0 else l.nextSeq - 1
def Log.oldestSeq (l : Log) : Nat := if l.records.isEmpty then 0 else l.oldest

/-- Age of a context in µs, all ones when untrusted or saturated (R373, R444). -/
def State.ageUs (s : State) (w : Watch) : Nat := if w.trusted then sat 32 (s.age w / us16) else 0xFFFFFFFF

/-- DATA of QUERY 0x01 (R444). -/
def State.queryCtx (s : State) (c : Nat) : Bytes :=
  let w := s.watch c
  le 1 w.lastVerdict ++ le 1 (b2n w.trusted + 2 * w.esc.code + 8 * b2n (s.glb.st == .degraded)) ++ le 1 w.inWindow ++
    le 1 w.clean ++ le 1 (s.goldState c) ++ zeros 3 ++ le 8 w.lastFrame ++ le 8 w.trustTime ++ le 4 (s.ageUs w)

/-- QUERY_CONTEXT: SELECT 0x01. -/
def execQueryContext (dt : Nat) (s : State) : Host.Outcome State Fault Refusal :=
  .next ((s.advance dt).onOpcode (fun op b => op == 0x31 && rd b 8 1 == 1)
    (fun q t => !(q.watch (rd t.bytes 10 2)).isOpen || (q.watch (rd t.bytes 10 2)).tenant == t.tenant)
    fun q t => t.done q 0 (q.queryCtx (rd t.bytes 10 2)))

/-- DATA of QUERY 0x02 (R444, R833). -/
def State.queryFrame (s : State) : Bytes :=
  if s.fr.ticking then le 8 s.fr.num ++ le 8 s.fr.tick ++ le 8 (s.edgeAt 0) ++ le 8 (s.edgeAt 1) else zeros 32

/-- QUERY_FRAME: SELECT 0x02. -/
def execQueryFrame (dt : Nat) (s : State) : Host.Outcome State Fault Refusal :=
  .next ((s.advance dt).onOpcode (fun op b => op == 0x31 && rd b 8 1 == 2) noOwner fun q t => t.done q 0 q.queryFrame)

/-- DATA of QUERY 0x03 (R444). -/
def State.queryDevice (s : State) : Bytes :=
  le 4 s.glbState ++ le 4 s.frameStatus ++ le 8 s.tmb.now ++ le 8 s.log.newestSeq ++ le 8 s.log.oldestSeq

/-- QUERY_DEVICE: SELECT 0x03. -/
def execQueryDevice (dt : Nat) (s : State) : Host.Outcome State Fault Refusal :=
  .next ((s.advance dt).onOpcode (fun op b => op == 0x31 && rd b 8 1 == 3) noOwner fun q t => t.done q 0 q.queryDevice)

end Sys2Proof.Machine
end

