-- ==== Sys2Proof/Machine/Fox.lean ====
section
/-! DEFINITION. Fox: the archive, telemetry and the management endpoint, quotes, and the reading of the temperature
sensors by the control cores (R764, R788 to R793, R811). -/

namespace Sys2Proof.Machine

def State.modFox (s : State) (f : Fox → Fox) : State := { s with fox := f s.fox }

/-- Fox has a clock and is not in reset. -/
def State.foxUp (s : State) : Bool := s.fox.st != .reset

/-- Fox runs: it is not in reset and Tack has not halted it (R823). -/
def State.foxRuns (s : State) : Bool := s.foxUp && !s.tck.haltFox

/-! ### Archive (R651, R792, R793) -/

/-- One record is programmed into the archive ring of 262,144; a sector of 32 is erased before its first record. -/
def Nvm.archiveOne (v : Nvm) (e : Evidence) : Nvm :=
  let kept := if v.archTotal % 32 = 0 ∧ 262144 ≤ v.archTotal then v.archive.drop 32 else v.archive
  { v with archive := kept ++ [e], archNewest := e.seq, archTotal := v.archTotal + 1 }

/-- An ARCHIVE record: 0 done, 1 operation ended by R723, 2 gap (R801). -/
def State.archiveRecord (s : State) (event first last : Nat) : State :=
  s.evDev 0x0E06 (b2n (event != 0)) (le 1 event ++ zeros 7 ++ le 8 first ++ le 8 last)

/-- The copy of one second: at most 4,096 records in operations of 32, of which `ops` succeed before one is ended by
R723. -/
def State.archive (s : State) (ops : Nat) : State :=
  let l := (s.log.records.filter fun e => decide (s.nvm.archNewest < e.seq)).take 4096
  let copied := l.take (32 * ops)
  let failed := (l.drop (32 * ops)).take 32
  let last := s.nvm.archNewest
  let s1 := (s.modNvm fun v => copied.foldl Nvm.archiveOne v).modFox fun f => { f with archTime := s.tmb.now, archAt := s.mc }
  let s2 := match l.head? with
    | some e => if last + 1 < e.seq then s1.archiveRecord 2 (last + 1) (e.seq - 1) else s1
    | none => s1
  let s3 := match copied.head?, copied.getLast? with
    | some a, some b => s2.archiveRecord 0 a.seq b.seq
    | _, _ => s2
  let s4 := match failed.head?, failed.getLast? with
    | some a, some b => s3.archiveRecord 1 a.seq b.seq
    | _, _ => s3
  { s4 with mem := { s4.mem with soft := (s4.mem.soft ++ s4.mem.softPending).take 1024, softPending := [] } }

/-- ARCHIVE, once a second while Fox runs. -/
def execArchive (dt ops : Nat) (s : State) : Host.Outcome State Fault Refusal :=
  let s := s.advance dt
  .next (if s.foxRuns && s.logReady && decide (s.fox.archAt + 1000 * msMc ≤ s.mc) then s.archive ops else s)

/-! ### Management endpoint (R790, R800) -/

/-- The sensor bytes at BAR0 0x0034_0040 to 0x0034_00BF (R799). -/
def State.foxTempWord (s : State) (n : Nat) : Nat :=
  if s.fox.tempOk.contains n then toBits 16 (tget s.fox.temps n) + 2 ^ 16 else 0
def State.foxRailWord (s : State) (r : Nat) : Nat :=
  let v := Config.railSense r s.mc % 2 ^ 32
  if r = 1 ∨ r = 2 ∨ r = 5 then v % 2 ^ 16 else v
def State.foxSensors (s : State) : Bytes :=
  ((List.range 22).flatMap fun n => le 4 (s.foxTempWord n)) ++ zeros 8 ++ (List.range 8).flatMap fun r => le 4 (s.foxRailWord r)

/-- FOX_MGMT fields. -/
def State.mgmtEn (s : State) : Bool := bitAt (s.cw 0x340100) 0
def State.mgmtMac (s : State) : Nat := s.cf 0x340100 1 2
def State.mgmtV6 (s : State) : Bool := bitAt (s.cw 0x340100) 3
def State.telemMs (s : State) : Nat := s.cf 0x340104 0 16
def State.mgmtIp (s : State) : Bytes := (List.range 4).flatMap fun i => le 4 (s.cw (0x340110 + 4 * i))

/-- TELEMETRY: one datagram every TELEM_MS. -/
def execTelemetry (dt : Nat) (s : State) : Host.Outcome State Fault Refusal :=
  let s := s.advance dt
  .next (if s.foxRuns && s.mgmtEn && s.telemMs != 0 && decide (s.fox.telemAt + s.telemMs * msMc ≤ s.mc) then
      (s.modFox fun f => { f with telemAt := s.mc }).emit
        (.ethernet s.mgmtMac (s.deviceId ++ le 8 s.tmb.now ++ le 4 s.glbState ++ zeros 4 ++ s.foxSensors))
    else s)

/-- Own MAC address of MAC m, byte 0 first on the wire (R755). -/
def State.macAddr (s : State) (m : Nat) : Bytes := be 6 (fld s.nvm.shadow (96 + 48 * m) 48)

/-- MGMT_REQUEST: a request reaches MAC m on a VLAN for an address: kind 0 ARP, 1 NDP, 2 ICMP echo with its data. The
answer to ARP and NDP is the own MAC address, that to an echo request its data; ARP belongs to IPv4 and NDP to IPv6. -/
def execMgmtRequest (dt m vlan kind : Nat) (ip data : Bytes) (s : State) : Host.Outcome State Fault Refusal :=
  let s := s.advance dt
  let mine := s.foxRuns && s.mgmtEn && s.mgmtMac == m && s.cf 0x340100 4 12 == vlan && ip == s.mgmtIp &&
    (kind == 2 || kind == b2n s.mgmtV6)
  .next (if mine then s.emit (.ethernet m (if kind = 2 then data else s.macAddr m ++ ip)) else s)

/-! ### Quotes (R763, R764) -/

def State.quote (s : State) (fn : Nat) : Quote := tget s.fox.quotes fn
def State.modQuote (s : State) (fn : Nat) (f : Quote → Quote) : State := s.modFox fun x => { x with quotes := tmod x.quotes fn f }

/-- Bytes 0 to 255 of a quote for a nonce. -/
def State.quoteHead (s : State) (nonce : Bytes) : Bytes :=
  le 4 0x54514C43 ++ le 1 1 ++ le 1 s.life ++ le 1 s.glb.st.code ++
  le 1 (b2n s.cfg.fallback + 2 * b2n s.nvm.password.isSome + 4 * b2n s.rst.optDefault) ++ s.deviceId ++ padTo 32 nonce ++ le 8 s.tmb.now ++
  padTo 32 s.cfg.fwDigest ++ padTo 32 s.cfg.foxDigest ++ padTo 32 s.cfg.active.digest ++ padTo 32 s.nvm.clogHash ++
  padTo 32 (s.ikeyHash.getD []) ++ le 4 s.rst.optCrc ++ le 4 s.cfg.active.gen ++ le 1 s.svnMin ++ zeros 23

/-- FOX_QUOTE_GO: function fn writes 1 to FOX_Q_CTL.GO; discarded while Fox is in reset (R764). -/
def execFoxQuoteGo (dt fn : Nat) (s : State) : Host.Outcome State Fault Refusal :=
  let s := s.advance dt
  .next (if s.hostOn fn && (s.tenantOf fn).isSome && s.foxUp && !(s.quote fn).busy then
      s.modQuote fn fun q => { q with busy := true, ready := false, asked := q.nonce }
    else s)

/-- QUOTE_READY: the quote of function fn is signed and stands in the window (R764). -/
def execQuoteReady (dt fn : Nat) (s : State) : Host.Outcome State Fault Refusal :=
  let s := s.advance dt
  .next (if (s.quote fn).busy && s.foxRuns then
      let head := s.quoteHead (s.quote fn).asked
      s.modQuote fn fun q => { q with busy := false, ready := true, window := head ++ Config.mldsaSign s.attSeed (sha3 head) }
    else s)

/-! ### Temperatures (R46, R48, R788, R789, R811) -/

/-- The die of a sensor: 0 L, 1 A, 2 Shroud, 3 S1, 4 S2; and the sensors of a die. -/
def dieOf (n : Nat) : Nat := if n < 12 then 0 else if n < 16 then 1 else if n < 18 then 2 else if n < 20 then 3 else 4

/-- The hottest converting sensor of a die with its reading. -/
def State.dieTemp (s : State) (d : Nat) : Option (Nat × Int) :=
  (s.fox.tempOk.filter fun n => dieOf n == d).foldl (fun a n =>
    let t := tget s.fox.temps n
    match a with
    | some (m, u) => if u < t then some (n, t) else some (m, u)
    | none => some (n, t)) none

/-- The junction temperature: the highest die temperature, with its sensor. -/
def State.junction (s : State) : Option (Nat × Int) :=
  (List.range 5).foldl (fun a d => match a, s.dieTemp d with
    | some (m, u), some (n, t) => if u < t then some (n, t) else some (m, u)
    | none, x => x
    | x, none => x) none

/-- Warning, degraded-mode and safe-state thresholds in 1/8 °C (R811). -/
def State.warnAt (s : State) : Int := if s.gradeM then 840 else 880
def State.degradeAt (s : State) : Int := if s.gradeM then 880 else 960
def State.safeAt (s : State) : Int := if s.gradeM then 920 else 1000

/-- A THERMAL record (R801). -/
def State.thermalRecord (s : State) (sensor level : Nat) (t : Int) : State :=
  s.evDev 0x0E07 (if level = 1 then 2 else if level = 2 then 3 else 1) (le 1 sensor ++ le 1 level ++ le 2 (toBits 16 t))

/-- A die crosses the warning threshold in either direction (R789). -/
def State.warnDie (s : State) (d : Nat) : State :=
  match s.dieTemp d with
  | none => s
  | some (n, t) =>
    let was := s.fox.warned.contains d
    if s.warnAt ≤ t ∧ !was then (s.modFox fun f => { f with warned := insNat d f.warned }).thermalRecord n 0 t
    else if t < s.warnAt ∧ was then (s.modFox fun f => { f with warned := f.warned.erase d }).thermalRecord n 3 t
    else s

/-- The cores read sensor n at temp, a signed 16-bit number of 1/8 °C: the crossings of R789 and R811. -/
def State.readTemp (s : State) (n temp : Nat) : State :=
  let s1 := s.modFox fun f => { f with temps := tset f.temps n (sgn 16 temp), tempOk := insNat n f.tempOk }
  let s2 := s1.warnDie (dieOf n)
  match s2.junction with
  | none => s2
  | some (m, t) =>
    if s2.safeAt ≤ t then (if s2.glb.st = .safe then s2 else (s2.thermalRecord m 2 t).enterSafe 0x14)
    else if s2.degradeAt ≤ t then
      (if s2.glb.st = .safe ∨ (s2.glb.st = .degraded ∧ s2.glb.cause = 6) then s2 else (s2.thermalRecord m 1 t).singleFault 6)
    else if t < s2.warnAt then s2.exitDegraded 6
    else s2

/-- THERMAL: the periodic reading of one sensor through the input ledger. -/
def execThermal (dt sensor temp : Nat) (s : State) : Host.Outcome State Fault Refusal :=
  let s := s.advance dt
  .next (if s.atStep 5 && decide (sensor < 22) then s.readTemp sensor temp else s)

end Sys2Proof.Machine
end

