-- ==== Sys2Proof/Machine/LongOps.lean ====
section
/-! DEFINITION. The commands of the long operations: staging of plans, images, golden sets and configurations, commits, and
EVIDENCE_READ (R425, R426, R445, R782). -/

namespace Sys2Proof.Machine

/-! ### Starting (R426, R782) -/

/-- A configuration operation. -/
def LongOp.isConfig (o : LongOp) : Bool := o.op == 0x20 || o.op == 0x21

/-- A long operation at the front of its function's queue may start: configuration operations of all tenants run one at
a time in the order of acceptance (R782). -/
def State.mayStart (s : State) (o : LongOp) : Bool :=
  !o.isConfig || (List.range 8).all fun fn =>
    (s.hfn fn).longRun.all (fun x => !x.isConfig) && (s.hfn fn).longQ.all fun x => !x.isConfig || decide (o.order ≤ x.order)

/-- The fetch of a long operation's image begins. -/
def State.fetchImage (s : State) (o : LongOp) : State := s.hostRead o.fn (rd o.bytes 16 8) (rd o.bytes 24 8)

/-- The work of a PLAN_STAGE starts: a switch accepted since it was taken stands in its way, and what another stage has
stored since is discarded (R191, R192, R425). -/
def State.planStart (s : State) (o : LongOp) : State :=
  let p := rd o.bytes 8 1
  if !s.cfg.active.plnValid p then o.refuse (s.planCode p 0x19 0) 0x19 0
  else if (s.plan p).switchAt.isSome then o.refuse (s.planCode p 0x1A 0) 0x1A 0
  else (s.modPlan p fun x => { x with staged := none }).fetchImage o

/-- The work of a MODEL_STAGE starts (R308, R309, R425). -/
def State.modelStart (s : State) (o : LongOp) : State :=
  let m := rd o.bytes 8 1
  if !s.cfg.active.mValid m then o.refuse (s.modelCode m 0x15 0) 0x15 0
  else if (s.model m).switchAt.isSome then o.refuse (s.modelCode m 0x16 0) 0x16 0
  else (s.modModel m fun x => { x with staged := none }).fetchImage o

/-- What the start of a long operation does. -/
def State.startWork (s : State) (o : LongOp) : State :=
  if o.op = 0x10 then s.modelStart o else if o.op = 0x12 then s.planStart o else if o.op = 0x14 then s.fetchImage o
  else if o.op = 0x20 then s.stageStart o else if o.op = 0x21 then s.commitStart o else s

/-- A function's next accepted long operation starts, if none runs (R426). -/
def State.startNext (s : State) (fn : Nat) : State :=
  let h := s.hfn fn
  match h.longRun, h.longQ with
  | none, o :: rest =>
    if s.mayStart o then (s.setHfn fn { h with longRun := some o, longQ := rest }).startWork o else s
  | _, _ => s

/-- LONG_OPERATION_START of function fn. -/
def execLongOperationStart (dt fn : Nat) (s : State) : Host.Outcome State Fault Refusal := .next ((s.advance dt).startNext fn)

/-- A descriptor is judged, and where it is accepted its work starts unless another operation of its tenant runs. -/
def State.beginLong (s : State) (mine : Nat → Bytes → Bool) (owner : State → Taken → Bool) (act : State → Taken → State) : State :=
  s.onOpcode mine owner fun q t => (act q t).startNext t.fn

/-- The running operation of function fn and opcode op ends. -/
def State.endLong (s : State) (fn op : Nat) (act : State → LongOp → State) : State :=
  match s.running fn op with
  | some o => act s o
  | none => s

/-- The fetch of the images of a long operation ends; a read that failed completes it with status FETCH (R442). What was
read has the length that the descriptor names. -/
def State.endFetch (s : State) (fn op : Nat) (ok : Bool) (image : Bytes) (act : State → LongOp → State) : State :=
  s.endLong fn op fun q o =>
    if !ok then o.finish q 0x14 0 0 []
    else if image.length = rd o.bytes 24 8 then act q o else q

/-! ### Badger images, plans, golden sets -/

def execModelStage (dt : Nat) (s : State) : Host.Outcome State Fault Refusal :=
  .next ((s.advance dt).beginLong (fun op _ => op == 0x10) ownsModel State.modelStage)

/-- MODEL_STAGE_DONE: the image has been fetched, or a read failed. -/
def execModelStageDone (dt fn : Nat) (ok : Bool) (image : Bytes) (s : State) : Host.Outcome State Fault Refusal :=
  .next ((s.advance dt).endFetch fn 0x10 ok image fun q o => q.modelStaged o image)

def execPlanStage (dt : Nat) (s : State) : Host.Outcome State Fault Refusal :=
  .next ((s.advance dt).beginLong (fun op _ => op == 0x12) ownsPlan State.planStage)

/-- PLAN_STAGE_DONE: the plan image and the weight image have been fetched, the latter not where WEIGHT_LEN is 0 or the
resident one is reused (R189). -/
def execPlanStageDone (dt fn : Nat) (ok : Bool) (image wimage : Bytes) (s : State) : Host.Outcome State Fault Refusal :=
  .next ((s.advance dt).endFetch fn 0x12 ok image fun q o =>
    if wimage.length = rd o.bytes 40 8 ∨ (q.reusedPlan (rd o.bytes 8 1) image).isSome then q.planStaged o image wimage else q)

def execGoldenScheduleSet (dt : Nat) (s : State) : Host.Outcome State Fault Refusal :=
  .next ((s.advance dt).beginLong (fun op b => op == 0x14 && goldSet b) ownsCtx State.goldSchedule)

def execGoldenScheduleDone (dt fn : Nat) (ok : Bool) (image : Bytes) (s : State) : Host.Outcome State Fault Refusal :=
  .next ((s.advance dt).endLong fn 0x14 fun q o =>
    if !ok then o.finish q 0x14 0 0 []
    else if image.length = rd o.bytes 24 8 then q.goldStaged o image else q)

/-! ### Configurations (R769 to R782) -/

def execConfigStage (dt : Nat) (s : State) : Host.Outcome State Fault Refusal :=
  .next ((s.advance dt).beginLong (fun op _ => op == 0x20) noOwner fun q t => t.enqueue q 0)

/-- CONFIG_STAGE_DONE: the image has been fetched; `flash` says that its flash write succeeds. -/
def execConfigStageDone (dt fn : Nat) (ok : Bool) (image : Bytes) (flash : Bool) (s : State) : Host.Outcome State Fault Refusal :=
  .next ((s.advance dt).endFetch fn 0x20 ok image fun q o => q.configStaged o image flash)

/-- STAGED_ID of a descriptor is 0. -/
def modeOnly (b : Bytes) : Bool := zeroAt b 48 16

def execConfigCommit (dt : Nat) (s : State) : Host.Outcome State Fault Refusal :=
  .next ((s.advance dt).beginLong (fun op b => op == 0x21 && !modeOnly b) noOwner fun q t => t.enqueue q 0)

def execConfigCommitModeOnly (dt : Nat) (s : State) : Host.Outcome State Fault Refusal :=
  .next ((s.advance dt).beginLong (fun op b => op == 0x21 && modeOnly b) noOwner fun q t => t.enqueue q 0)

/-- CONFIG_COMMIT_DONE: the write of the commit record ends; `ok` says that it succeeds. -/
def execConfigCommitDone (dt fn : Nat) (ok : Bool) (s : State) : Host.Outcome State Fault Refusal :=
  .next ((s.advance dt).endLong fn 0x21 fun q o => q.commitDone o ok)

/-! ### EVIDENCE_READ (R444, R445) -/

def execEvidenceRead (dt : Nat) (s : State) : Host.Outcome State Fault Refusal :=
  .next ((s.advance dt).beginLong (fun op _ => op == 0x30) noOwner fun q t => t.enqueue q 0)

/-- The records that an EVIDENCE_READ copies. -/
def State.readRecords (s : State) (o : LongOp) : List Evidence :=
  (s.log.records.filter fun e => e.visible (s.recTenant o.fn) && decide (rd o.bytes 8 8 ≤ e.seq)).take (rd o.bytes 24 4)

/-- The copy ends (R444, R445). -/
def State.evidenceRead (s : State) (o : LongOp) : State :=
  let l := s.readRecords o
  let s1 := l.zipIdx.foldl (fun q (e, i) => q.emit (.hostData o.fn (rd o.bytes 16 8 + 128 * i) e.bytes)) s
  o.done s1 0 0 (le 8 (l.head?.elim 0 (·.seq)) ++ le 4 l.length ++ zeros 4 ++ le 8 s.log.oldestSeq ++ le 8 s.log.newestSeq)

def execEvidenceReadDone (dt fn : Nat) (s : State) : Host.Outcome State Fault Refusal :=
  .next ((s.advance dt).endLong fn 0x30 State.evidenceRead)

end Sys2Proof.Machine
end

