-- ==== Sys2Proof/Machine/PortW.lean ====
section
/-! DEFINITION. Port W: the frame page, the challenge mailbox, and the commands of chapter 03 with OPENING_WRITE and
GOLDEN_INPUT_READ. -/

namespace Sys2Proof.Machine

/-! ### What the accelerator reads -/

/-- STREAM_ID of a slot, 0 when it is not valid (R117). -/
def State.pageStream (s : State) (i : Nat) : Nat := if s.cfg.active.slotValid i then s.cfg.active.slotStream i else 0

/-- Slot status i of the frame page (R117). -/
def State.slotStatus (s : State) (i : Nat) : Bytes :=
  let x := s.slot i
  le 4 (s.pageStream i) ++ le 1 x.rep.code ++ le 1 x.lastCode ++ zeros 2 ++ le 4 x.rep.bytes.length ++ le 4 x.lastFrame

/-- Pages of the golden input offered (R117, R388). -/
def State.goldInputPages (s : State) : Nat :=
  if s.goldPending then
    match s.vrd.offered with
    | some p => match (s.gold p).active with | some g => goldPages g s.vrd.offeredEntry | none => 0
    | none => 0
  else 0

/-- The frame page (R117); before the frame tick its frame fields read 0 (R833). DESIGN CHOICE (log 59): GOLD.SLOT reads 0
while no test is pending. -/
def State.framePage (s : State) : Bytes :=
  let t (v : Nat) : Nat := if s.fr.ticking then v else 0
  let head := le 4 0x9470 ++ le 1 1 ++ le 1 s.glb.st.code ++ le 1 (b2n s.fr.ticking) ++ zeros 1 ++ le 8 (t s.fr.num) ++
    le 8 (t s.fr.tick) ++ le 8 (t (s.edgeAt 0)) ++ le 8 (t (s.edgeAt 1)) ++ le 8 (t (s.edgeAt 5)) ++ le 8 (t (s.edgeAt 6)) ++
    le 8 s.tmb.now ++ le 4 (b2n s.goldPending + 2 * (if s.goldPending then s.pw.goldSlot else 0)) ++ le 4 s.goldInputPages
  padTo 65536 (padTo 0x1000 head ++ (List.range 128).flatMap s.slotStatus)

/-- Mailbox entry i (R243). -/
def chlEntry (c : Challenge) (i : Nat) : Bytes :=
  le 2 i ++ le 1 c.plan ++ le 1 c.slot ++ le 2 c.target ++ le 2 c.leafCount ++ le 4 c.row ++ le 4 c.col ++ le 4 c.openOff ++
    le 4 c.openLen ++ le 1 c.status ++ zeros 7

/-- FIRST, COUNT, REPORT_SLOT and ITEM of plan slot p in the mailbox (R243). -/
def State.mailboxPlan (s : State) (p : Nat) : Bytes :=
  let es := s.aud.mbox.shown
  let n := (es.filter fun c => c.plan == p).length
  le 2 (if n = 0 then 0 else (es.findIdx? fun c => c.plan == p).getD 0) ++ le 2 n ++
    le 1 (s.cfg.active.plnReport p) ++ le 1 (s.plan p).chCode ++ zeros 2

/-- The challenge mailbox (R243). -/
def State.mailboxPage (s : State) : Bytes :=
  let m := s.aud.mbox
  let t (v : Nat) : Nat := if s.fr.ticking then v else 0
  let head := le 8 (t s.fr.num) ++ le 1 m.state ++ le 1 (b2n m.noDrbg) ++ le 2 m.shown.length ++
    le 4 m.windowLen ++ le 8 m.postedAt ++ le 8 (t (s.edgeAt 1)) ++ zeros 32 ++ (List.range 16).flatMap s.mailboxPlan
  padTo 65536 (padTo 0x100 head ++ m.shown.zipIdx.flatMap fun (c, i) => chlEntry c i)

/-- A read completes on port W. -/
def State.wCpl (s : State) (st : CplStatus) (data : Bytes) (parts : List Nat) : State :=
  { s with pw := { s.pw with cpl := { status := st, data, parts } } }

/-- The completion TLPs of a read of n bytes at off: split at every 64-byte boundary (R107). -/
def readParts (off n : Nat) : List Nat :=
  (List.range ((off + n + 63) / 64 - off / 64)).map fun k =>
    min (off + n) (64 * (off / 64 + k + 1)) - max off (64 * (off / 64 + k))

/-- A read completes with Completer Abort and is counted (R115). -/
def State.wAbort (s : State) : State :=
  ({ s with pw := { s.pw with caReads := inc 16 s.pw.caReads } }).wCpl .completerAbort [] []

/-- A read of the golden input window at an offset in it (R116, R388). -/
def State.goldRead (s : State) (off n : Nat) : State :=
  if s.goldPending && s.inSlot 5 6 then
    match s.vrd.offered with
    | some p =>
      match (s.gold p).active with
      | some g =>
        let e := s.vrd.offeredEntry
        if off + n ≤ goldPages g e * 4096 then s.wCpl .success (slice g (gent g e 0 8 + off) n) (readParts off n) else s.wAbort
      | none => s.wAbort
    | none => s.wAbort
  else s.wAbort

/-- A memory read of BAR0 (R113): data from the two readable regions and from the golden input window, Completer Abort
elsewhere and across regions (R115). -/
def State.wRead (s : State) (off n : Nat) : State :=
  if off + n ≤ 0x10000 then s.wCpl .success (slice s.framePage off n) (readParts off n)
  else if 0x10000 ≤ off ∧ off + n ≤ 0x20000 then s.wCpl .success (slice s.mailboxPage (off - 0x10000) n) (readParts off n)
  else if 0x200000000 ≤ off ∧ off + n ≤ 0x300000000 then s.goldRead (off - 0x200000000) n
  else s.wAbort

/-- A memory write to BAR0 (R113): to the opening receive window, the golden report window or the window of a report
slot; elsewhere it is discarded and counted (R112, R114). DESIGN CHOICE (log 59): a poisoned one counts as poisoned
only. -/
def State.wWrite (s : State) (off : Nat) (data : Bytes) (poisoned : Bool) : State :=
  let e := off + data.length
  if 0x100000000 ≤ off ∧ e ≤ 0x200000000 then s.openingWrite (off - 0x100000000) data poisoned
  else if 0x300000000 ≤ off ∧ e ≤ 0x310000000 then s.goldWrite (off - 0x300000000) data poisoned
  else if 0x800000000 ≤ off ∧ e ≤ 0x1000000000 ∧ off % 2 ^ 28 + data.length ≤ 2 ^ 28 then
    s.slotWrite ((off - 0x800000000) / 2 ^ 28) (off % 2 ^ 28) data poisoned
  else { s with pw := if poisoned then { s.pw with poisoned := inc 16 s.pw.poisoned } else { s.pw with roWrites := inc 16 s.pw.roWrites } }

/-- A configuration read of the dword at `off` (R106 to R108): a Type 0 header with a 64 GiB, 64-bit, prefetchable BAR0 and
no other. What the PCIe standard puts into the other words is a free value. -/
def State.wConfigRead (s : State) (off : Nat) : State :=
  let (v, s1) := s.fresh
  let w := match off with
    | 0x04 => some s.pw.command
    | 0x0C => some 0
    | 0x10 => some 0xC
    | 0x14 => some s.pw.barHigh
    | 0x18 => some 0
    | 0x1C => some 0
    | 0x20 => some 0
    | 0x24 => some 0
    | _ => none
  (match w with | some _ => s | none => s1).wCpl .success (le 4 (w.getD (v % 2 ^ 32))) [4]

/-- A configuration write of a dword (R106, R108). -/
def State.wConfigWrite (s : State) (off v : Nat) : State :=
  if off = 4 then { s with pw := { s.pw with command := v % 65536 - v / 4 % 2 * 4 } }
  else if off = 0x14 then { s with pw := { s.pw with barHigh := v % 2 ^ 32 / 16 * 16 } }
  else s

/-! ### Commands -/

/-- REPORT_WINDOW_WRITE: a write TLP to the window of a slot. -/
def execReportWindowWrite (dt slot off : Nat) (data : Bytes) (poisoned : Bool) (s : State) : Host.Outcome State Fault Refusal :=
  let s := s.advance dt
  .next (if slot < 128 then s.slotWrite slot off data poisoned else s)

/-- REPORT_COMPLETE: the checker finishes the report of a slot, or the golden report. -/
def execReportComplete (dt : Nat) (golden : Bool) (slot : Nat) (s : State) : Host.Outcome State Fault Refusal :=
  let s := s.advance dt
  .next (if golden then s.goldComplete else s.slotComplete slot)

/-- GOLDEN_REPORT_WRITE. -/
def execGoldenReportWrite (dt off : Nat) (data : Bytes) (poisoned : Bool) (s : State) : Host.Outcome State Fault Refusal :=
  .next ((s.advance dt).goldWrite off data poisoned)

/-- OPENING_WRITE, with the offset in the opening receive window. -/
def execOpeningWrite (dt off : Nat) (data : Bytes) (poisoned : Bool) (s : State) : Host.Outcome State Fault Refusal :=
  .next ((s.advance dt).openingWrite off data poisoned)

/-- GOLDEN_INPUT_READ. -/
def execGoldenInputRead (dt off n : Nat) (s : State) : Host.Outcome State Fault Refusal := .next ((s.advance dt).goldRead off n)

/-- PORT_W_INVALID_WRITE: a write TLP by its BAR0 offset (`kind` 0), an AtomicOp, which completes with Unsupported Request
(1), or a configuration write (2) (R107, R108, R112 to R114). -/
def execPortWInvalidWrite (dt kind off : Nat) (data : Bytes) (poisoned : Bool) (s : State) : Host.Outcome State Fault Refusal :=
  let s := s.advance dt
  .next (if kind = 0 then s.wWrite off data poisoned
    else if kind = 1 then s.wCpl .unsupported [] []
    else s.wConfigWrite off (rd data 0 4))

/-- PORT_W_INVALID_READ: a memory read by its BAR0 offset (`kind` 0) or a configuration read (1). -/
def execPortWInvalidRead (dt kind off n : Nat) (s : State) : Host.Outcome State Fault Refusal :=
  let s := s.advance dt
  .next (if kind = 0 then s.wRead off n else s.wConfigRead off)

/-- A report in progress is abandoned for the frame (R109). -/
def Report.abandon (r : Report) : Report := if r.code = 1 then { r with abandoned := true } else r

/-- PORT_W_LINK_DOWN: link-down or hot reset (R109). Openings in progress take no more bytes. -/
def execPortWLinkDown (dt : Nat) (s : State) : Host.Outcome State Fault Refusal :=
  let s := s.advance dt
  .next { s with
    pw := { s.pw with
      linkDown := inc 16 s.pw.linkDown, up := false, speed := 0, width := 0, gold := s.pw.gold.abandon
      slots := tmap (fun x => { x with rep := x.rep.abandon }) s.pw.slots }
    aud := { s.aud with mbox := { s.aud.mbox with
      entries := s.aud.mbox.entries.map fun c => if c.status = 2 then { c with abandoned := true } else c } } }

/-- WPORT_LINK: the link enters L0 at a speed code and a width in lanes (R110). -/
def execWportLink (dt speed width : Nat) (s : State) : Host.Outcome State Fault Refusal :=
  let s := s.advance dt
  let s1 := { s with pw := { s.pw with speed := speed, width := width, up := true } }
  .next (if speed = 0 ∨ 5 < speed ∨ ([1, 2, 4, 8, 16].contains width) = false then s
    else if speed = 5 ∧ width = 16 then s1 else s1.evDev 0x0202 0 (le 1 speed ++ le 1 width))

end Sys2Proof.Machine
end

