-- ==== Sys2Proof/Machine/RegMapA.lean ====
section
/-! DEFINITION. What a read of BAR0 returns, first half: the registers of chapters 00 to 07, word by word. Reserved bits
and offsets without a register read 0 (R6). -/

namespace Sys2Proof.Machine

/-- Fields of a word, each as lowest bit, width and value. -/
def pk (l : List (Nat × Nat × Nat)) : Nat := l.foldl (fun a (lo, w, v) => a + v % 2 ^ w * 2 ^ lo) 0

/-- The 32-bit word at an aligned offset of a 64-bit register. -/
def half (o v : Nat) : Nat := if o % 8 = 0 then v % 2 ^ 32 else v / 2 ^ 32 % 2 ^ 32

/-- The word at offset r of a byte string that a register shows. -/
def wordOf (b : Bytes) (r : Nat) : Nat := rd b r 4

/-- A table of entries of n bytes from base b: the entry and the offset in it. -/
def ent (o b n : Nat) : Nat × Nat := ((o - b) / n, (o - b) % n)

/-- The configuration field bits of the word at o, as the active configuration holds them. -/
def State.cfgBits (s : State) (o : Nat) : Nat := s.cw o &&& cfgMask o

/-! ### Chapters 00 to 02 -/

/-- GLB_ID (R3). -/
def State.glbId (s : State) : Nat := pk [(16, 16, 0x9470), (12, 4, fld s.nvm.shadow 10 4), (8, 4, 0xB), (4, 4, 1)]

/-- GLB_ID, GLB_STATE and the frame registers (R3, R47, R78). -/
def State.regGlb (s : State) (o : Nat) : Nat :=
  if o = 0 then s.glbId
  else if o = 4 then s.glbState
  else if o = 0x104 then s.frameStatus
  else if o = 0x108 ∨ o = 0x10C then half o s.frameNum
  else if o = 0x110 ∨ o = 0x114 then half o (if s.fr.ticking then s.fr.tick else 0)
  else s.cfgBits o

/-- The partition and region tables (R101). -/
def State.regPrt (s : State) (o : Nat) : Nat :=
  if o < 0x2D0800 then
    let (p, r) := ent o 0x2D0000 0x20
    let c := s.cfg.active
    if r = 0 then c.prtCtl p
    else if r = 4 then c.prtMin p
    else if r = 8 then c.prtMax p
    else if r = 0xC then pk [(0, 16, tget s.prt.denied p), (16, 16, tget s.prt.short p)]
    else 0
  else s.cfgBits o

/-! ### Chapter 03 -/

/-- CVU registers (R156). -/
def State.regCvu (s : State) (o : Nat) : Nat :=
  let w := s.pw
  let t := (List.range 64).filter fun u => (tget w.units u).test
  match o % 0x100 with
  | 0x00 => pk [(0, 4, w.speed), (4, 5, w.width), (9, 1, b2n w.up), (10, 1, b2n (w.up && w.speed == 5 && w.width == 16))]
  | 0x04 => pk [(0, 16, w.roWrites), (16, 16, w.caReads)]
  | 0x08 => pk [(0, 16, w.linkDown), (16, 16, w.poisoned)]
  | 0x0C => pk [(0, 7, 64 - t.length), (8, 6, t.headD 0), (14, 1, b2n (t != []))]
  | 0x10 => w.swaps
  | 0x14 => pk [(0, 16, w.waitMax)]
  | 0x18 => pk [(0, 8, w.gold.code), (8, 7, w.goldSlot)]
  | 0x1C => w.gold.bytes.length
  | _ => 0

/-- CVU u (R157). -/
def State.regCvuUnit (s : State) (o : Nat) : Nat :=
  let (u, r) := ent o 0x3C0100 0x20
  let x := tget s.pw.units u
  match r with
  | 0x00 => pk [(0, 10, x.ctx), (10, 1, b2n x.loaded), (11, 2, x.cur.poly), (13, 1, b2n x.test)]
  | 0x04 => x.cur.stream
  | 0x08 => x.cur.seq
  | 0x0C => x.cur.offset % 2 ^ 32
  | 0x10 => half o x.cur.val
  | 0x14 => half o x.cur.val
  | 0x18 => x.loads
  | _ => 0

/-- Report slot i (R158). -/
def State.regSlot (s : State) (o : Nat) : Nat :=
  let (i, r) := ent o 0x3C1000 0x40
  let x := s.slot i
  match r with
  | 0x00 => s.cfgBits o + 2 ^ 19 * b2n (s.armed i)
  | 0x18 => pk [(0, 8, x.rep.code)]
  | 0x1C => x.rep.bytes.length % 2 ^ 32
  | 0x20 => half o x.lastFrame
  | 0x24 => half o x.lastFrame
  | 0x28 => pk [(0, 8, x.lastCode)]
  | 0x2C => x.lastOff
  | 0x30 => pk [(0, 16, x.stale), (16, 16, x.lateWrite)]
  | 0x34 => x.doneNs
  | _ => s.cfgBits o

/-! ### Chapter 04 -/

/-- The plan image of a slot, if there is one. -/
def planImg (x : Option Plan) (f : Bytes → Nat) : Nat := x.elim 0 fun p => f p.img

/-- AUD registers of plan slot p (R213). -/
def State.regPlan (s : State) (o : Nat) : Nat :=
  let (p, r) := ent o 0x80100 0x40
  let x := s.plan p
  let c := s.cfg.active
  match r with
  | 0x04 => pk [(0, 13, planImg x.active planLayers), (16, 13, planImg x.staged planLayers)]
  | 0x08 => pk [(0, 8, if x.active.isSome then x.period else 0), (8, 8, x.pos), (16, 8, planImg x.active planFloor)]
  | 0x0C => if c.plnValid p then c.auditCap2 (c.plnPart p) / 8192 else 0
  | 0x10 => planImg x.active fun b => ceilDiv (streamLen b) 4096
  | 0x14 => pk [(0, 8, x.code), (8, 8, x.lastCode)]
  | 0x18 => half o x.lastFrame
  | 0x1C => half o x.lastFrame
  | 0x20 => pk [(0, 8, x.span), (8, 16, x.age)]
  | 0x24 => pk [(0, 16, x.failed), (16, 16, x.incomplete)]
  | 0x28 => pk [(0, 12, x.firstLayer), (12, 2, x.firstVec), (16, 16, x.firstCol)]
  | 0x2C => x.doneNs
  | 0x30 => half o (planImg x.active planTag)
  | 0x34 => half o (planImg x.active planTag)
  | 0x38 => pk [(0, 8, x.stageCode), (8, 12, x.stageLayer)]
  | _ => s.cfgBits o

/-- AUD_LYR_SEL of a function (R214). -/
def State.lyrSel (s : State) (fn : Nat) : Nat := (tget s.aud.lyrSel fn).toNat

/-- The layer window (R214). -/
def State.regLayer (s : State) (fn o : Nat) : Nat :=
  let sel := s.lyrSel fn
  let x := s.plan (fld sel 0 4)
  let l := fld sel 16 12
  let y := tget x.layers l
  let shown := x.active.elim false fun p => l < planLayers p.img
  let f (g : Bytes → Nat) : Nat := if shown then planImg x.active g else 0
  match o % 0x100 with
  | 0x00 => sel
  | 0x04 => pk [(0, 8, f fun b => lyrProf b l), (8, 3, f fun b => lyrP b l), (11, 1, b2n shown),
                (16, 8, f fun b => shareHolding x.shares (((planBlocks b).findIdx? fun z => z.1 == l).getD 0))]
  | 0x08 => pk [(0, 20, f fun b => lyrTol b l)]
  | 0x0C => f fun _ => y.maxDev
  | 0x10 => f fun _ => y.pass
  | 0x14 => f fun _ => y.fail
  | 0x18 => half o (f fun _ => y.lastPass)
  | 0x1C => half o (f fun _ => y.lastPass)
  | _ => 0

/-- AUD registers (R212). -/
def State.regAud (s : State) (fn o : Nat) : Nat :=
  if o = 0x80000 then pk [(0, 8, 16), (8, 13, 4096)]
  else if o = 0x80004 then
    pk [(0, 16, ofBitList ((List.range 16).filter fun p => (s.plan p).active.isSome)),
        (16, 16, ofBitList ((List.range 16).filter fun p => (s.plan p).staged.isSome))]
  else if o = 0x80008 then s.aud.fails
  else if 0x80100 ≤ o ∧ o < 0x80500 then s.regPlan o
  else if 0x80800 ≤ o ∧ o < 0x80820 then s.regLayer fn o
  else 0

/-! ### Chapter 05 -/

/-- CHL registers of plan slot p (R273). -/
def State.regChlPlan (s : State) (o : Nat) : Nat :=
  let (p, r) := ent o 0x84100 0x40
  let x := s.plan p
  let c := s.cfg.active
  match r with
  | 0x04 => pk [(0, 10, planImg x.active planChlTotal), (16, 10, planImg x.staged planChlTotal)]
  | 0x08 => planImg x.active fun b => ceilDiv (planWorst b) 4096
  | 0x0C => if c.chValid p then c.auditUs * 24000 / 4096 else 0
  | 0x10 => pk [(0, 8, x.chCode), (8, 8, x.chLastCode)]
  | 0x14 => x.chDoneNs
  | 0x18 => half o x.chLastFrame
  | 0x1C => half o x.chLastFrame
  | 0x20 => pk [(0, 10, x.chFirst), (16, 8, x.chFirstCode)]
  | 0x24 => pk [(0, 16, x.chFailed), (16, 16, x.chIncomplete)]
  | 0x28 => pk [(0, 8, x.refuse), (8, 16, x.refuseIdx)]
  | _ => s.cfgBits o

/-- CHL registers (R272, R274). -/
def State.regChl (s : State) (o : Nat) : Nat :=
  let m := s.aud.mbox
  if o = 0x84000 then pk [(0, 10, 895), (16, 4, 8)]
  else if o = 0x84004 then pk [(0, 2, m.state), (16, 10, m.shown.length)]
  else if o = 0x84008 then m.postedNs
  else if o = 0x8400C then m.windowLen
  else if o = 0x84010 then pk [(0, 1, b2n s.aud.drbg.instantiated), (1, 1, b2n s.aud.drbg.healthFail), (16, 16, s.aud.drbg.reseedAge)]
  else if o = 0x84014 then pk [(0, 16, s.aud.wOutside), (16, 16, s.aud.wStale)]
  else if o = 0x84018 then pk [(0, 16, s.aud.wLate)]
  else if 0x84100 ≤ o ∧ o < 0x84500 then s.regChlPlan o
  else if 0x84800 ≤ o ∧ o < 0x84A00 then let (p, r) := ent o 0x84800 0x20; wordOf (s.plan p).short r
  else if 0x88000 ≤ o ∧ o < 0x88000 + 0x20 * 895 then
    let (i, r) := ent o 0x88000 0x20
    m.shown[i]?.elim 0 fun c => wordOf (chlEntry c i) r
  else 0

/-- Encodings of engine and tile states (R276, R330). -/
def EngState.code : EngState → Nat | .spare => 0 | .service => 1 | .test => 2 | .retest => 3 | .failed => 4
def TileState.code : TileState → Nat | .active => 0 | .cal => 1 | .ready => 2 | .recal => 3 | .failed => 4

/-- Engines in a state, as a mask. -/
def State.engMask (s : State) (st : EngState) : Nat := ofBitList ((List.range 17).filter fun e => (s.eng e).st == st)

/-- STT registers (R275, R276). -/
def State.regStt (s : State) (o : Nat) : Nat :=
  let t := s.aud.stt
  if 0xC0100 ≤ o ∧ o < 0xC0100 + 0x20 * 17 then
    let (e, r) := ent o 0xC0100 0x20
    let x := s.eng e
    match r with
    | 0x00 => pk [(0, 3, x.st.code), (8, 1, b2n x.busy.isSome)]
    | 0x04 => pk [(0, 3, x.kind), (8, 5, x.column)]
    | 0x08 => x.units
    | 0x0C => pk [(0, 16, x.faults)]
    | 0x10 => half o x.faultTime
    | 0x14 => half o x.faultTime
    | _ => 0
  else match o - 0xC0000 with
  | 0x00 => pk [(0, 5, 17), (8, 6, 32), (16, 12, 2048)]
  | 0x04 => s.engMask .service
  | 0x08 => pk [(0, 5, s.spareEng.getD 31), (5, 1, b2n t.swap), (6, 5, t.swapFrom), (16, 16, t.swaps)]
  | 0x0C => s.engMask .failed
  | 0x10 => pk [(0, 16, t.faults), (16, 16, t.repeats)]
  | 0x14 => pk [(0, 8, ofBitList ((List.range 8).filter fun k => !t.sha3Retest.contains k && !t.sha3Failed.contains k)),
                (8, 8, ofBitList t.sha3Retest), (16, 8, ofBitList t.sha3Failed), (24, 8, t.sha3Faults)]
  | _ => 0

/-! ### Chapter 06 -/

/-- BDG registers of tile t (R330). -/
def State.regTile (s : State) (o : Nat) : Nat :=
  let (t, r) := ent o 0x100100 0x20
  let x := s.tile t
  match r with
  | 0x00 => pk [(0, 3, x.st.code), (4, 3, x.role), (7, 1, b2n x.stale), (8, 5, x.faultMacro), (13, 3, x.faultKind)]
  | 0x04 => pk [(0, 8, x.resid), (8, 8, s.tileDrift t), (16, 16, x.cals)]
  | 0x08 => half o x.calFrame
  | 0x0C => half o x.calFrame
  | 0x10 => half o x.faultTime
  | 0x14 => half o x.faultTime
  | _ => 0

/-- BDG registers of model slot m (R331). -/
def State.regModel (s : State) (o : Nat) : Nat :=
  let (m, r) := ent o 0x100400 0x40
  let x := s.model m
  let f (g : Bytes → Nat) : Nat := x.active.elim 0 g
  match r with
  | 0x00 => s.cfgBits o + 2 * f fun b => b2n (bSeq b)
  | 0x08 => half o (f bTag)
  | 0x0C => half o (f bTag)
  | 0x10 => pk [(0, 8, x.code), (8, 8, x.lastCode)]
  | 0x14 => x.doneNs
  | 0x18 => half o x.lastFrame
  | 0x1C => half o x.lastFrame
  | 0x20 => pk [(0, 8, x.stageCode), (8, 12, x.stageLayer)]
  | 0x24 => pk [(0, 16, x.incomplete), (16, 16, x.restarts)]
  | 0x28 => pk [(0, 13, f bHist), (16, 13, (x.hist.filter (·.isSome)).length)]
  | 0x2C => pk [(0, 18, f bRunUs)]
  | _ => s.cfgBits o

/-- BDG registers of device source k (R333). -/
def State.regSource (s : State) (o : Nat) : Nat :=
  let (k, r) := ent o 0x100C00 0x20
  let x := s.source k
  match r with
  | 0x0C => pk [(0, 8, x.code), (8, 8, x.lastCode)]
  | 0x10 => x.doneNs
  | 0x14 => pk [(0, 8, x.errCrc), (8, 8, x.restart), (16, 8, x.extra)]
  | 0x18 => x.count
  | _ => s.cfgBits o

/-- BDG registers of CSI-2 receiver r (R334). -/
def State.regCsi (s : State) (o : Nat) : Nat :=
  let (i, r) := ent o 0x101000 0x10
  let x := tget s.bdg.csi i
  match r with
  | 0x00 => pk [(0, 3, x.lanes), (3, 1, b2n x.up), (4, 1, b2n x.deskew), (8, 12, x.rate)]
  | 0x04 => pk [(0, 8, x.sot), (8, 8, x.ecc1), (16, 8, x.ecc2), (24, 8, x.crc)]
  | 0x08 => x.packets
  | _ => 0

/-- BDG registers (R329 to R334). A rotation takes place within its frame tick in this model, so ROTATING reads 0. -/
def State.regBdg (s : State) (o : Nat) : Nat :=
  let b := s.bdg
  if o = 0x100000 then pk [(0, 4, 9), (4, 6, 32), (10, 10, 256), (20, 3, 4), (23, 5, 16)]
  else if o = 0x100004 then
    pk [(0, 1, b2n b.available), (2, 1, b2n b.swap), (3, 1, b2n b.noSpare), (4, 4, s.spareTile.getD 15), (8, 4, b.swapFrom),
        (16, 16, b.rotations)]
  else if o = 0x10000C then pk [(0, 16, b.drift), (16, 16, b.calFail)]
  else if o = 0x100010 ∨ o = 0x100014 then half o b.rotFrame
  else if 0x100100 ≤ o ∧ o < 0x100220 then s.regTile o
  else if 0x100400 ≤ o ∧ o < 0x100500 then s.regModel o
  else if 0x100800 ≤ o ∧ o < 0x100900 then let (m, r) := ent o 0x100800 0x40; if r < 48 then wordOf (s.model m).short r else 0
  else if 0x100C00 ≤ o ∧ o < 0x100E00 then s.regSource o
  else if 0x101000 ≤ o ∧ o < 0x101040 then s.regCsi o
  else s.cfgBits o

/-! ### Chapter 07 -/

/-- Lanes in a state, as a mask. -/
def State.laneMask (s : State) (st : LaneState) : Nat := ofBitList ((List.range 3).filter fun l => s.lane l == st)

/-- Golden registers of plan slot p (R395). -/
def State.regGold (s : State) (o : Nat) : Nat :=
  let (p, r) := ent o 0x140200 0x20
  let g := s.gold p
  match r with
  | 0x00 => s.cfgBits o + pk [(6, 1, b2n g.active.isSome), (8, 8, g.active.elim 0 goldEntries), (16, 8, g.next)]
  | 0x04 => pk [(0, 8, g.outcome), (8, 8, g.last), (16, 1, b2n g.latchFailed)]
  | 0x08 => pk [(0, 16, g.age), (16, 16, g.passes)]
  | 0x0C => pk [(0, 8, g.stageCode)]
  | 0x10 => half o g.passFrame
  | 0x14 => half o g.passFrame
  | 0x18 => pk [(0, 16, g.fails), (16, 16, g.deferrals)]
  | _ => 0

/-- Open contexts that a condition holds for. -/
def State.openWith (s : State) (f : Watch → Bool) : Nat := (s.openCtxs.filter fun c => f (s.watch c)).length

/-- VRD registers (R394). -/
def State.regVrd (s : State) (o : Nat) : Nat :=
  let v := s.vrd
  if 0x140200 ≤ o then s.regGold o
  else if 0x140020 ≤ o ∧ o < 0x140040 then tget v.counts ((o - 0x140020) / 4)
  else match o - 0x140000 with
  | 0x00 => pk [(0, 17, 65536), (17, 3, 3), (20, 6, 32), (26, 6, 32)]
  | 0x04 => pk [(0, 3, s.laneMask .service), (3, 3, s.laneMask .repair), (6, 3, s.laneMask .failed), (16, 16, v.outvoted)]
  | 0x08 => half o v.lastFrame
  | 0x0C => half o v.lastFrame
  | 0x10 => v.lastIssue
  | 0x14 => v.issueMax
  | 0x40 => pk [(0, 16, v.cmpSchema), (16, 16, v.noCorridor)]
  | 0x44 => pk [(0, 6, s.openWith fun w => w.modelMask != 0), (8, 6, s.openWith fun w => w.sout != 0 || w.prv != 0)]
  | _ => 0

/-- WCH_SEL of a function (R396). -/
def State.wchSel (s : State) (fn : Nat) : Nat := (tget s.vrd.sel fn).toNat

/-- The context window (R396), of a context that is open and the reading function's tenant's. -/
def State.regCtx (s : State) (c o : Nat) : Nat :=
  let w := s.watch c
  match o % 0x100 with
  | 0x04 => pk [(0, 1, 1), (1, 1, b2n w.aux), (2, 3, w.tenant), (8, 7, w.slot), (16, 4, w.modelMask), (20, 1, b2n w.corrFixed)]
  | 0x08 => pk [(0, 30, w.stream)]
  | 0x0C => pk [(0, 24, w.maxAge)]
  | 0x10 => pk [(0, 4, w.budget), (8, 8, w.window), (16, 8, w.inWindow)]
  | 0x14 => pk [(0, 6, w.thrCell), (8, 6, w.thrFree), (16, 6, w.thrObj), (24, 8, w.missCells)]
  | 0x18 => pk [(0, 8, w.phantomCells), (8, 11, w.matchDist), (20, 12, w.velTol)]
  | 0x1C => pk [(0, 8, w.k), (8, 4, w.g), (12, 2, s.goldState c), (16, 4, w.defer)]
  | 0x20 => pk [(0, 4, w.lastVerdict), (4, 1, b2n w.trusted), (5, 2, w.esc.code), (8, 4, w.escCode), (12, 5, w.clean),
                (24, 8, w.lastCmp)]
  | 0x24 => pk [(0, 16, w.sout), (16, 4, w.prv)]
  | 0x28 => half o w.lastFrame
  | 0x2C => half o w.lastFrame
  | 0x30 => half o w.trustTime
  | 0x34 => half o w.trustTime
  | 0x38 => pk [(0, 16, w.phantomFrames), (16, 16, sat 16 w.lastCounts.phantomCells)]
  | 0x3C => pk [(0, 16, sat 16 w.lastCounts.missCells), (16, 8, sat 8 w.lastCounts.missObj), (24, 8, sat 8 w.lastCounts.tempMiss)]
  | 0x70 => pk [(0, 16, w.distrusts), (16, 16, w.lates)]
  | r => if 0x40 ≤ r ∧ r < 0x70 ∧ w.corrFixed then wordOf w.corridor (r - 0x40) else 0

/-- WCH registers (R396). -/
def State.regWch (s : State) (fn o : Nat) : Nat :=
  if o = 0x40000 then 65536
  else if o = 0x40004 then s.openCtxs.length
  else if o = 0x40008 then s.openWith fun w => w.esc != .normal
  else if o = 0x4000C then s.openWith fun w => !w.trusted
  else if o = 0x40100 then s.wchSel fn
  else if 0x40100 < o ∧ o < 0x40174 then
    let c := fld (s.wchSel fn) 0 16
    if (s.watch c).isOpen ∧ s.tenantOf fn = some (s.watch c).tenant then s.regCtx c o else 0
  else 0

end Sys2Proof.Machine
end

