-- ==== Sys2Proof/Machine/RegMapB.lean ====
section
/-! DEFINITION. What a read of BAR0 returns, second half: the registers of chapters 08 to 16, and the whole map. -/

namespace Sys2Proof.Machine

/-! ### Chapter 08 -/

/-- TEN_SELF of the reading function (R465). -/
def State.tenSelf (s : State) (fn : Nat) : Nat :=
  pk [(0, 3, (s.tenantOf fn).getD 0), (3, 1, b2n (s.tenantOf fn).isSome), (4, 1, (s.tenantOf fn).elim 0 fun t => b2n (s.tenAux t)),
      (5, 2, fn / 2), (7, 1, fn % 2)]

/-- TEN_R_CTL of a ring (R467). -/
def Ring.ctlWord (g : Ring) : Nat :=
  pk [(0, 1, b2n g.enable), (1, 2, g.kind), (3, 5, g.sizeLog2), (8, 1, g.poly), (9, 1, b2n g.urgent), (10, 14, g.cplRing)]

/-- TEN_R_IRQ of a ring (R467). -/
def Ring.irqWord (g : Ring) : Nat :=
  pk [(0, 11, g.irq.vector), (11, 1, b2n g.irq.irqEn), (12, 8, g.irq.modCount), (20, 10, g.irq.modTime)]

/-- The ring window of a function (R467), for a ring that its tenant has. -/
def Ring.window (g : Ring) (o : Nat) : Nat :=
  match o % 0x100 with
  | 0x08 => half o g.base.toNat
  | 0x0C => half o g.base.toNat
  | 0x10 => half o g.wb.toNat
  | 0x14 => half o g.wb.toNat
  | 0x18 => g.ctlWord
  | 0x1C => g.irqWord
  | 0x20 => g.pi
  | 0x24 => g.ci
  | 0x28 => g.dbSeq
  | 0x2C => pk [(0, 4, g.setupErr), (4, 4, g.lastDbErr), (16, 16, g.dbErrs)]
  | 0x30 => g.lost
  | 0x34 => pk [(0, 17, g.owed)]
  | _ => 0

/-- TEN registers (R465 to R467). -/
def State.regTen (s : State) (fn o : Nat) : Nat :=
  let h := s.hfn fn
  if o = 0x10000 then pk [(0, 17, 32768), (17, 4, 8)]
  else if o = 0x10004 then s.tenSelf fn
  else if o = 0x10008 then
    pk [(0, 4, h.speed), (4, 5, h.width), (9, 1, b2n h.up), (10, 1, b2n (bitAt s.rst.hCfg (if fn < 4 then 0 else 1)))]
  else if o = 0x1000C then pk [(0, 11, h.evtVector), (11, 1, b2n h.evtEnable)]
  else if 0x10100 ≤ o ∧ o < 0x10200 then
    let (t, r) := ent o 0x10100 0x20
    let x := tget s.hst.tenants t
    if r = 8 then pk [(0, 16, x.dbErr), (16, 16, x.checkFail)]
    else if r = 0xC then x.desc else if r = 0x10 then x.lost else s.cfgBits o
  else if o = 0x11000 then if s.hasRing fn (s.selRing fn) then s.selRing fn else 0
  else if 0x11008 ≤ o ∧ o < 0x11038 then if s.hasRing fn (s.selRing fn) then (s.ring fn (s.selRing fn)).window o else 0
  else 0

/-! ### Chapter 09 -/

/-- GLB registers of core c (R499). -/
def State.regCore (s : State) (o : Nat) : Nat :=
  let (c, r) := ent o 0x1100 0x40
  let x := s.core c
  match r with
  | 0x00 => pk [(0, 3, x.st.code), (3, 2, x.pos), (8, 8, x.disagree), (16, 4, x.kind)]
  | 0x04 => sat 32 ((s.core (s.coreAt 0)).instr - x.instr)
  | 0x08 => half o x.instr
  | 0x0C => half o x.instr
  | 0x10 => half o x.ckpt
  | 0x14 => half o x.ckpt
  | 0x18 => half o x.faultTime
  | 0x1C => half o x.faultTime
  | 0x20 => half o x.faultCkpt
  | 0x24 => half o x.faultCkpt
  | 0x28 => x.faultPc
  | 0x2C => pk [(0, 16, x.tcmCorr), (16, 16, x.tcmUncorr)]
  | 0x30 => x.ldgSeq
  | _ => 0

/-- Control-core registers (R498). -/
def State.regCores (s : State) (o : Nat) : Nat :=
  let x := s.cor
  if 0x1100 ≤ o ∧ o < 0x11C0 then s.regCore o
  else match o - 0x1000 with
  | 0x00 => pk [(0, 9, s.cw 0x1000), (16, 9, s.tdegCeil)]
  | 0x04 => pk [(0, 1, b2n (s.voters.length == 2)), (1, 2, s.coreAt 0), (3, 2, s.coreAt 1), (5, 2, s.coreAt 2),
                (7, 1, b2n ((List.range 3).any fun c => [.held, .test, .resync].contains (s.core c).st))]
  | 0x08 => pk [(0, 12, x.ledger.length), (16, 12, x.ldgHigh)]
  | 0x0C => x.ldgSeq
  | 0x10 => half o x.accepted
  | 0x14 => half o x.accepted
  | 0x18 => pk [(0, 4, x.last), (16, 16, x.order)]
  | 0x1C => pk [(0, 1, b2n x.injPass), (1, 4, x.injPassed), (5, 4, x.injFirst), (16, 16, x.injTime)]
  | 0x20 => pk [(0, 16, x.degEntries), (16, 16, x.degExits)]
  | 0x28 => half o x.degTime
  | 0x2C => half o x.degTime
  | _ => 0

/-! ### Chapter 10 -/

/-- Encoding of the unit states (R543). -/
def FnState.code : FnState → Nat | .stop => 0 | .armed => 1 | .run => 2 | .blocked => 3 | .fault => 4

/-- Time since the last switch-off in ms (R543); 0 before the first. -/
def State.offMs (s : State) (t : Option Nat) : Nat := t.elim 0 fun x => sat 32 ((s.cyc - x) / 40000)

/-- Age of the last heartbeat of a trust slot in µs (R543). -/
def State.slotAge (s : State) (t : TrustSlot) : Nat := t.hbAt.elim 0xFFFFFFFF fun x => sat 32 ((s.cyc - x) / 40)

/-- A bound slot younger than the least HB_LIMIT_MS of its outputs (R541). -/
def State.slotFresh (s : State) (n : Nat) : Bool :=
  let t := tget s.shr.slots n
  match t.bound, t.hbAt, s.shr.slotLimit t with
  | true, some x, some lim => decide (s.cyc - x < cycMs lim)
  | _, _, _ => false

/-- SIO status registers (R541). -/
def State.regSio (s : State) (o : Nat) : Nat :=
  let h := s.shr
  let p := s.pch
  match o % 0x100 with
  | 0x00 => pk [(0, 8, 32), (8, 4, 8), (12, 5, 16), (17, 3, 4), (20, 7, 64)]
  | 0x04 => pk [(0, 1, b2n (p.link.live && !p.link.lost)), (1, 1, b2n h.cfgActive), (2, 1, b2n h.compat), (3, 1, b2n p.safeN),
                (4, 1, b2n p.latch), (8, 8, p.lastFault)]
  | 0x08 => p.inRaw
  | 0x0C => p.inFilt
  | 0x10 => sinMask (·.xs) p.sins
  | 0x14 => pk [(0, 16, p.soutDrv), (16, 16, p.edm)]
  | 0x18 => pk [(0, 4, p.lsDrv), (4, 4, p.hsPin), (8, 4, p.lsSense), (12, 4, p.hsSense), (16, 8, p.tpo)]
  | 0x1C => h.cfgGen
  | 0x20 => half o p.hchRun
  | 0x24 => half o p.hchRun
  | 0x28 => half o (runBits p.fns)
  | 0x2C => half o (runBits p.fns)
  | 0x30 => ofBitList ((List.range 32).filter fun n => (tget h.slots n).bound)
  | 0x34 => ofBitList ((List.range 32).filter s.slotFresh)
  | 0x38 => pk [(0, 16, p.link.rejected), (16, 16, h.link.rejected)]
  | 0x3C => pk [(0, 16, sat 16 (p.refused + h.refused)), (16, 16, h.locks)]
  | _ => 0

/-- SIO state registers (R543). A refusal counts once: in the hard-wired channel, and in compatibility mode, where it
evaluates nothing, in the processor channel (DEDUCED, log entry 66). -/
def State.regSioStat (s : State) (o : Nat) : Nat :=
  let h := s.shr
  if o < 0x202200 then
    let (n, r) := ent o 0x202000 8
    let a := tget h.fns n
    let b := tget s.pch.fns n
    if r = 0 then pk [(0, 3, a.st.code), (4, 3, b.st.code), (8, 8, if a.faultCode ≠ 0 then a.faultCode else b.faultCode),
                      (16, 16, if h.compat then b.refused else a.refused)]
    else 0
  else if o < 0x202280 then
    let (i, r) := ent o 0x202200 8
    let x := tget h.souts i
    if r = 0 then pk [(0, 3, x.st.code), (8, 8, x.faultCode), (16, 16, x.locks)] else s.offMs x.offAt
  else if o < 0x2022A0 then
    let (i, r) := ent o 0x202280 8
    let x := tget h.prvs i
    if r = 0 then pk [(0, 3, x.st.code), (8, 8, x.faultCode), (16, 16, x.locks)] else s.offMs x.offAt
  else if 0x202300 ≤ o ∧ o < 0x202500 then
    let (n, r) := ent o 0x202300 0x10
    let t := tget h.slots n
    if r = 0 then pk [(0, 16, t.context), (16, 1, b2n t.bound)]
    else if r = 4 then pk [(0, 16, t.sout), (16, 4, t.prv)]
    else if r = 8 then s.slotAge t
    else 0
  else 0

/-! ### Chapter 11 -/

/-- Registers of MAC m (R586). -/
def State.regMac (s : State) (o : Nat) : Nat :=
  let (m, r) := ent o 0x1C0100 0x40
  let x := s.mac m
  match r with
  | 0x00 => pk [(0, 1, b2n x.up), (1, 1, s.macMode m), (2, 3, x.speed), (5, 1, b2n x.preempt)]
  | 0x04 => x.rx
  | 0x08 => x.tx
  | 0x0C => pk [(0, 16, x.fcs), (16, 16, x.ip)]
  | 0x20 => ofLe (s.macAddr m).reverse % 2 ^ 32
  | 0x24 => ofLe (s.macAddr m).reverse / 2 ^ 32
  | 0x28 => let q := s.cfg.active.macLoad s.cfg.active.connCount m; q.1 / q.2
  | _ => if 0x10 ≤ r ∧ r < 0x20 then rd s.cfg.active.plibex (16 + 16 * m + (r - 0x10)) 4 else 0

/-- The connection window (R587), of a connection that is the reading function's tenant's. -/
def State.regConn (s : State) (i o : Nat) : Nat :=
  let c := s.conn i
  let rx := s.cfg.active.connRx i
  match o % 0x100 with
  | 0x10 => pk [(0, 2, if rx then (match c.st with | .wait => 0 | .live => 1 | .timeout => 2) else 0), (2, 1, b2n (rx && s.gateOpen i)),
                (3, 1, b2n c.armed), (4, 1, b2n c.bound.isSome), (8, 8, c.lastFault), (16, 16, c.bound.getD 0xFFFF)]
  | 0x14 => if rx then c.last else c.txSeq
  | 0x18 => c.count
  | 0x1C => pk [(0, 16, c.rejected), (16, 16, c.timeouts)]
  | 0x20 => half o c.lastAt
  | 0x24 => half o c.lastAt
  | 0x28 => c.maxAgeUs
  | 0x2C => c.run
  | 0x30 => c.rfault
  | r => if 0x40 ≤ r ∧ r < 0x80 then s.cfg.active.conn i (r - 0x40) 4 else 0

/-- PLX_SEL of a function (R587). -/
def State.plxSel (s : State) (fn : Nat) : Nat := fld (tget s.plx.sel fn).toNat 0 12

/-- A gate control list runs: enabled, and its base time, in gPTP ns, has come (R548, R588). PRESUMED: that a list with a
base time still ahead does not run yet is IEEE 802.1Qbv's. -/
def State.qbvActive (s : State) (m : Nat) : Bool :=
  bitAt (s.cw (0x1C4000 + 0x1000 * m)) 0 && s.timeValid && s.cw64 (0x1C4008 + 0x1000 * m) ≤ s.tmb.now / 16

/-- TSN registers (R588, R589). -/
def State.regTsn (s : State) (o : Nat) : Nat :=
  if o < 0x1C8000 then
    let (m, r) := ent o 0x1C4000 0x1000
    let x := s.mac m
    if r = 0x14 then pk [(0, 1, b2n (s.qbvActive m)), (16, 16, x.overrun)]
    else if r = 0x1C then pk [(0, 3, x.verify), (16, 16, x.fragments)]
    else s.cfgBits o
  else if o < 0x1CA000 then if o % 0x20 = 0x10 then tget s.plx.sfDropped ((o - 0x1C8000) / 0x20) else s.cfgBits o
  else if o % 0x10 = 8 then (tget s.plx.meters ((o - 0x1CA000) / 0x10)).red
  else s.cfgBits o

/-- Plibex registers (R585 to R589). -/
def State.regPlx (s : State) (fn o : Nat) : Nat :=
  let x := s.plx
  let c := s.cfg.active
  if 0x1C0100 ≤ o ∧ o < 0x1C0200 then s.regMac o
  else if o = 0x1C1000 then s.plxSel fn
  else if 0x1C1010 ≤ o ∧ o < 0x1C1080 then
    let i := s.plxSel fn
    if c.connValid i ∧ s.tenantOf fn = some (c.connOwner i) then s.regConn i o else 0
  else if 0x1C4000 ≤ o then s.regTsn o
  else match o - 0x1C0000 with
  | 0x00 => pk [(0, 13, 4096), (16, 4, 4), (20, 8, 64)]
  | 0x04 => c.devId
  | 0x08 => pk [(0, 16, rd c.plibex 4 2), (16, 4, rd c.plibex 8 1)]
  | 0x0C => pk [(0, 13, c.conns.length), (16, 13, (c.conns.filter fun i => c.connRx i && (s.conn i).st == .live).length)]
  | 0x10 => half o x.txTotal
  | 0x14 => half o x.txTotal
  | 0x18 => half o x.rxTotal
  | 0x1C => half o x.rxTotal
  | 0x20 => x.rxFault
  | 0x24 => x.txLate
  | 0x2C => pk [(0, 16, x.frerDiscarded), (16, 16, x.frerRogue)]
  | _ => s.cfgBits o

/-! ### Chapter 12 -/

def Servo.code : Servo → Nat | .acquire => 0 | .locked => 1 | .slewOnly => 2 | .holdover => 3

/-- Target and arming of compare unit u (R610, R624). The firmware timers 19 to 31 stand unused. -/
def State.cmpUnit (s : State) (u : Nat) : Nat × Bool :=
  if u = 0 then (s.fr.nextTick, s.tmb.valid && s.fr.nextTick != 0)
  else if u < 11 then (s.edgeAt (u - 1), s.fr.ticking && !s.fr.fired.contains (u - 1))
  else if u < 19 then ((s.pulse (u - 11)).next, (s.pulse (u - 11)).armed)
  else (0, false)

/-- Registers of pulse p (R625). -/
def State.regPulse (s : State) (o : Nat) : Nat :=
  let (p, r) := ent o 0x180400 0x20
  let x := s.pulse p
  match r with
  | 0x00 => pk [(0, 2, x.mode), (2, 1, b2n x.pol), (4, 3, s.cfg.active.pulseOwner p)]
  | 0x08 => half o x.start
  | 0x0C => half o x.start
  | 0x10 => half o x.period
  | 0x14 => half o x.period
  | 0x18 => pk [(0, 30, x.width)]
  | 0x1C => pk [(0, 1, b2n x.armed), (1, 1, b2n x.active), (8, 4, x.err), (16, 16, x.skipped)]
  | _ => 0

/-- Time base registers (R622 to R625); ROLE and EPOCH_S as in effect (R608). -/
def State.regTmb (s : State) (o : Nat) : Nat :=
  let t := s.tmb
  if 0x180100 ≤ o ∧ o < 0x180180 then
    let (m, r) := ent o 0x180100 0x20
    let x := tget t.ports m
    if r = 0 then pk [(0, 2, s.portRole m), (2, 1, b2n x.asCapable)]
    else if r = 4 then x.delay
    else if r = 8 then pk [(0, 16, x.rx), (16, 16, x.timeouts)]
    else if r = 0xC then pk [(0, 16, x.fails)]
    else 0
  else if 0x180200 ≤ o ∧ o < 0x180300 then
    let u := (o - 0x180200) / 8
    let (g, on) := s.cmpUnit u
    half o (pk [(0, 40, if on then g else 0), (40, 1, b2n on), (48, 16, tget t.cmpStepped u)])
  else if 0x180400 ≤ o then s.regPulse o
  else match o - 0x180000 with
  | 0x00 => pk [(0, 6, 32), (6, 4, 8), (10, 4, 4)]
  | 0x04 => pk [(0, 1, b2n t.valid), (1, 2, t.servo.code), (3, 1, b2n t.syncLost), (4, 2, t.slavePort)]
  | 0x08 => s.cfgBits o / 4 * 4 + t.role % 4
  | 0x18 => half o t.epoch
  | 0x1C => half o t.epoch
  | 0x20 => half o t.now
  | 0x24 => half o t.now
  | 0x28 => half o t.incr
  | 0x2C => half o t.incr
  | 0x30 => toBits 32 t.offset
  | 0x34 => toBits 32 t.rate
  | 0x38 => half o t.gm
  | 0x3C => half o t.gm
  | 0x40 => pk [(0, 16, t.steps), (16, 16, t.refused)]
  | 0x44 => pk [(0, 16, t.gmChanges), (16, 16, t.foreign)]
  | 0x48 => toBits 32 t.lastRefused
  | 0x4C => pk [(0, 16, t.holdovers), (16, 16, t.epochCnt)]
  | 0x50 => half o t.ppsTime
  | 0x54 => half o t.ppsTime
  | 0x58 => toBits 32 t.ppsErr
  | 0x5C => pk [(0, 16, t.ppsEdges), (16, 16, t.ppsIgnored)]
  | _ => s.cfgBits o

/-! ### Chapter 13 -/

/-- Four 16-bit counts by target. -/
def fourCounts (t : Tbl Nat) : Nat := pk [(0, 16, tget t 0), (16, 16, tget t 1), (32, 16, tget t 2), (48, 16, tget t 3)]

/-- Memory registers (R653 to R655). -/
def State.regMem (s : State) (o : Nat) : Nat :=
  let m := s.mem
  if 0x2C0100 ≤ o ∧ o < 0x2C0580 then
    let (b, r) := ent o 0x2C0100 0x10
    let x := s.bank b
    if r = 0 then pk [(0, 5, 16 - x.rows.length), (5, 3, 4 - x.cols.length), (8, 1, b2n (s.bankOn b))]
    else if r = 4 then x.ce
    else if r = 8 then pk [(0, 16, x.ue), (16, 16, x.repairs)]
    else 0
  else if 0x2C0600 ≤ o ∧ o < 0x2C0640 then
    let (c, r) := ent o 0x2C0600 0x10
    let x := tget m.gddr c
    if r = 0 then pk [(0, 1, b2n (s.atStep 4 && s.rst.on.contains (106 + c))), (1, 5, if s.atStep 1 then s.rst.gddrRate else 0), (16, 16, x.edcRetry)]
    else if r = 4 then pk [(0, 16, x.edcFailed), (16, 16, x.retrain)]
    else if r = 8 then x.ce
    else x.ue
  else match o - 0x2C0000 with
  | 0x00 => pk [(0, 7, 72), (7, 5, 16), (12, 4, 4), (16, 4, 4)]
  | 0x04 => pk [(0, 12, 2000), (12, 8, 60)]
  | 0x08 => if s.atStep 4 then pk [(0, 16, sat 16 (s.scrubPass 1)), (16, 8, sat 8 (s.scrubPass 0)), (24, 8, m.late)] else 0
  | 0x10 => half o (fourCounts m.ce)
  | 0x14 => half o (fourCounts m.ce)
  | 0x18 => half o (fourCounts m.ue)
  | 0x1C => half o (fourCounts m.ue)
  | 0x20 => pk [(0, 16, m.otherCe), (16, 16, m.otherUe)]
  | 0x24 => m.addrErr
  | 0x28 => pk [(0, 8, m.lastArray), (8, 8, m.lastUnit), (16, 6, m.lastPart), (22, 1, b2n m.lastScrub), (23, 1, b2n m.lastAddress)]
  | 0x30 => half o (m.lastLine % 2 ^ 48)
  | 0x34 => half o (m.lastLine % 2 ^ 48)
  | 0x38 => half o m.lastTime
  | 0x3C => half o m.lastTime
  | 0x40 => pk [(0, 11, m.soft.length), (16, 12, m.inService)]
  | _ => 0

/-! ### Chapter 14 -/

/-- Reset and power registers (R697); what the option block gives reads 0 before it is loaded (R673). -/
def State.regRst (s : State) (o : Nat) : Nat :=
  let r := s.rst
  let n := s.nvm.rst
  let two (a b : Nat) : Nat := pk [(0, 16, tget n.counts a), (16, 16, tget n.counts b)]
  let use (v : Nat) : Nat := if s.atStep 1 then v else 0
  if 0x280030 ≤ o ∧ o < 0x280054 then
    let k := (o - 0x280030) / 4 + 2
    pk [(0, 16, use (r.gap k)), (16, 16, tget r.cgWait k)]
  else if 0x280060 ≤ o ∧ o < 0x280074 then
    let w := (o - 0x280060) / 4
    ofBitList ((r.on.filter fun d => d / 32 == w).map (· % 32))
  else if 0x2800A0 ≤ o ∧ o < 0x2801AC then fld s.nvm.shadow (1024 + 3 * ((o - 0x2800A0) / 4)) 3
  else match o - 0x280000 with
  | 0x00 => pk [(0, 4, n.source), (4, 1, b2n n.brownout), (5, 1, b2n n.powerFail), (8, 4, n.lastHold)]
  | 0x04 => two 1 2
  | 0x08 => two 3 4
  | 0x0C => two 5 6
  | 0x10 => two 7 8
  | 0x14 => two 9 0
  | 0x18 => pk [(0, 2, r.used), (2, 1, b2n r.aValid), (3, 1, b2n r.bValid), (4, 1, b2n r.mismatch), (5, 1, b2n r.optDefault)]
  | 0x1C => rd r.opt 8 4
  | 0x20 => pk [(0, 8, r.hCfg), (8, 8, r.ethCfg), (16, 8, use r.gddrRate)]
  | 0x24 => r.offMask
  | 0x28 => use r.cgTimeout
  | 0x80 => pk [(0, 8, r.pdLast), (8, 16, r.pdCount)]
  | 0x90 => pk [(0, 16, n.warnings), (16, 8, n.bbUs), (24, 2, n.lastSrc)]
  | _ => 0

/-! ### Chapter 15 -/

def OwlState.code : OwlState → Nat | .boot => 0 | .run => 1 | .suspended => 2 | .trap => 3

/-- Registers of the Owls (R741); the write ports read 0 (R742). -/
def State.regOwl (s : State) (o : Nat) : Nat :=
  let i := (o - 0x240000) / 0x100
  let x := s.owlOf i
  if 2 ≤ i then 0 else
  match o % 0x100 with
  | 0x00 => pk [(0, 20, x.periodUs), (20, 1, b2n x.locked), (21, 3, s.owlWindow i), (24, 2, s.owlHard i)]
  | 0x04 => pk [(0, 16, x.reg), (16, 16, x.inBits)]
  | 0x08 => pk [(0, 2, x.st.code), (2, 1, b2n x.windowOpen), (3, 1, b2n x.armed), (4, 4, x.lastEvent), (16, 16, x.token)]
  | 0x0C => pk [(0, 16, x.double), (16, 16, x.missing)]
  | 0x10 => pk [(0, 16, x.services), (16, 16, x.refused)]
  | 0x14 => pk [(0, 16, x.suspends)]
  | 0x18 => half o x.startTime
  | 0x1C => half o x.startTime
  | 0x20 => half o x.lastSvc
  | 0x24 => half o x.lastSvc
  | 0x28 => half o x.shown.trapTime
  | 0x2C => half o x.shown.trapTime
  | 0x30 => x.shown.pcs.getD 0 0
  | 0x34 => x.shown.pcs.getD 1 0
  | 0x38 => x.shown.pcs.getD 2 0
  | 0x3C => pk [(0, 4, x.shown.event), (4, 16, x.shown.inBits)]
  | _ => 0

/-- SLF_MODE.MODE (R740, R744). -/
def State.slfMode (s : State) : Nat := match s.life with | 1 => 2 | 2 => 1 | 3 => 1 | 4 => 2 | _ => 0

/-- Self-test registers (R744). -/
def State.regSlf (s : State) (o : Nat) : Nat :=
  let f := s.owl.slf
  let run (x : Option (Nat × Nat)) : Nat := x.elim 0xFF fun e => e.1
  if 0x301000 ≤ o ∧ o < 0x302640 then let (e, r) := ent o 0x301000 0x20; wordOf (sliceBytes e) r
  else if 0x303000 ≤ o ∧ o < 0x3032C8 then
    let x := tget f.entries ((o - 0x303000) / 4)
    pk [(0, 2, x.last), (16, 16, x.runs)]
  else match o - 0x300000 with
  | 0x00 => pk [(0, 8, 178), (8, 8, 28), (16, 8, 8)]
  | 0x04 => pk [(0, 2, s.slfMode), (2, 1, b2n f.tableOk)]
  | 0x08 => pk [(0, 8, f.pointer), (16, 16, f.lastFrames)]
  | 0x0C => sat 32 ((s.mc - f.startMc) / msMc)
  | 0x10 => half o f.doneTime
  | 0x14 => half o f.doneTime
  | 0x18 => pk [(0, 8, run f.lRun), (8, 8, run f.aRun), (16, 8, run f.cRun), (24, 8, f.retests.length)]
  | 0x1C => pk [(0, 16, f.passed), (16, 16, f.failed)]
  | 0x20 => if f.failed = 0 then 0 else pk [(0, 8, f.failEntry), (8, 4, (sliceEntry f.failEntry).1), (16, 8, (sliceEntry f.failEntry).2)]
  | 0x24 => pk [(0, 16, f.rotLate), (16, 16, f.postponed)]
  | 0x28 => half o f.failTime
  | 0x2C => half o f.failTime
  | _ => 0

/-! ### Chapter 16 -/

/-- CFG_LIFE (R798). -/
def State.cfgLife (s : State) : Nat :=
  pk [(0, 3, s.life), (3, 3, lifeOf s.nvm.fuses), (6, 1, b2n s.nvm.wipeDone), (7, 1, b2n s.nvm.password.isSome),
      (8, 2, ikeySlots s.nvm.fuses), (10, 1, b2n s.nvm.ikey.isSome), (11, 2, fld s.nvm.shadow 832 2)]

/-- CFG registers (R798). -/
def State.regCfg (s : State) (o : Nat) : Nat :=
  let c := s.cfg
  match o - 0x380000 with
  | 0x00 => s.cfgLife
  | 0x04 => if c.hasActive then c.active.gen else 0
  | 0x08 => pk [(0, 8, c.stagedCode), (8, 8, c.stagedKind), (16, 8, sat 8 c.safetyClamps), (24, 8, sat 8 c.otherClamps)]
  | 0x0C => pk [(0, 8, c.commitCode), (8, 1, b2n c.commitPending), (16, 8, c.detail)]
  | 0x10 => half o c.pendingFrame
  | 0x14 => half o c.pendingFrame
  | 0x18 => pk [(0, 8, sat 8 s.nvm.pwFails), (16, 16, s.lockS)]
  | 0x70 => pk [(0, 1, c.fwSlot), (1, 1, b2n c.fallback), (2, 6, c.svn), (8, 6, s.svnMin), (14, 1, c.foxSlot)]
  | 0x74 => c.fwVer
  | 0x78 => c.foxVer
  | 0x80 => half o s.nvm.clogSeq
  | 0x84 => half o s.nvm.clogSeq
  | 0x88 => pk [(0, 13, s.nvm.clog.length)]
  | r =>
    if 0x20 ≤ r ∧ r < 0x30 then wordOf (if c.hasActive then c.active.digest.take 16 else []) (r - 0x20)
    else if 0x30 ≤ r ∧ r < 0x40 then wordOf (c.stagedId.take 16) (r - 0x30)
    else if 0x40 ≤ r ∧ r < 0x60 then wordOf c.nonce (r - 0x40)
    else if 0x60 ≤ r ∧ r < 0x70 then wordOf s.deviceId (r - 0x60)
    else if 0xA0 ≤ r ∧ r < 0xC0 then wordOf s.nvm.clogHash (r - 0xA0)
    else 0

def FoxState.code : FoxState → Nat | .reset => 0 | .booting => 1 | .running => 2

/-- The quote window of a function: the quote, the attestation public key and Nolind's certificate (R764). -/
def State.quoteWindow (s : State) (fn o : Nat) : Nat :=
  if o < 0x1000 then wordOf (s.quote fn).window o
  else if o < 0x1600 then wordOf (s.attKey.take 1312) (o - 0x1000)
  else wordOf (s.nvm.cert.take 2420) (o - 0x1600)

/-- Fox registers (R799). -/
def State.regFox (s : State) (fn o : Nat) : Nat :=
  let f := s.fox
  let q := s.quote fn
  if 0x342000 ≤ o then s.quoteWindow fn (o - 0x342000)
  else if 0x340100 ≤ o ∧ o < 0x340140 then s.cfgBits o
  else match o - 0x340000 with
  | 0x00 => pk [(0, 2, f.st.code), (2, 1, b2n f.archiving)]
  | 0x08 => half o s.log.newestSeq
  | 0x0C => half o s.log.newestSeq
  | 0x10 => half o s.log.oldestSeq
  | 0x14 => half o s.log.oldestSeq
  | 0x18 => half o s.nvm.archNewest
  | 0x1C => half o s.nvm.archNewest
  | 0x20 => half o (s.nvm.archive.head?.elim 0 fun e => e.seq)
  | 0x24 => half o (s.nvm.archive.head?.elim 0 fun e => e.seq)
  | 0x28 => half o f.archTime
  | 0x2C => half o f.archTime
  | 0x30 => f.lost
  | 0x34 => pk [(0, 8, sat 8 s.log.lag), (8, 8, sat 8 s.log.lagMax)]
  | 0x200 => pk [(1, 1, b2n q.ready), (2, 1, b2n (q.busy || !s.foxUp))]
  | r =>
    if 0x40 ≤ r ∧ r < 0x98 then s.foxTempWord ((r - 0x40) / 4)
    else if 0xA0 ≤ r ∧ r < 0xC0 then s.foxRailWord ((r - 0xA0) / 4)
    else if 0x220 ≤ r ∧ r < 0x240 then wordOf q.nonce (r - 0x220)
    else 0

/-! ### The map -/

/-- The 32-bit word that function fn reads at an aligned BAR0 offset (R2, R14). -/
def State.bar0Word (s : State) (fn o : Nat) : Nat :=
  (if o < 0x1000 then s.regGlb o
   else if o < 0x2000 then s.regCores o
   else if 0x10000 ≤ o ∧ o < 0x12000 then s.regTen fn o
   else if 0x40000 ≤ o ∧ o < 0x41000 then s.regWch fn o
   else if 0x80000 ≤ o ∧ o < 0x84000 then s.regAud fn o
   else if 0x84000 ≤ o ∧ o < 0x90000 then s.regChl o
   else if 0xC0000 ≤ o ∧ o < 0xC1000 then s.regStt o
   else if 0x100000 ≤ o ∧ o < 0x102000 then s.regBdg o
   else if 0x140000 ≤ o ∧ o < 0x140400 then s.regVrd o
   else if 0x180000 ≤ o ∧ o < 0x180500 then s.regTmb o
   else if 0x1C0000 ≤ o ∧ o < 0x1CB000 then s.regPlx fn o
   else if 0x200000 ≤ o ∧ o < 0x200100 then s.regSio o
   else if 0x201000 ≤ o ∧ o < 0x201800 then (if s.shr.cfgActive then s.shr.w o else 0)
   else if 0x202000 ≤ o ∧ o < 0x203000 then s.regSioStat o
   else if 0x240000 ≤ o ∧ o < 0x240200 then s.regOwl o
   else if 0x280000 ≤ o ∧ o < 0x281000 then s.regRst o
   else if 0x2C0000 ≤ o ∧ o < 0x2C1000 then s.regMem o
   else if 0x2D0000 ≤ o ∧ o < 0x2D2000 then s.regPrt o
   else if 0x300000 ≤ o ∧ o < 0x304000 then s.regSlf o
   else if 0x340000 ≤ o ∧ o < 0x344000 then s.regFox fn o
   else if 0x380000 ≤ o ∧ o < 0x381000 then s.regCfg o
   else if 0x3C0000 ≤ o ∧ o < 0x3C0020 then s.regCvu o
   else if 0x3C0100 ≤ o ∧ o < 0x3C0900 then s.regCvuUnit o
   else if 0x3C1000 ≤ o ∧ o < 0x3C3000 then s.regSlot o
   else 0) % 2 ^ 32

/-- The offsets, aligned to 4, of the lower words of 64-bit registers outside the tables. -/
def wide64 : List Nat :=
  [0x108, 0x110, 0x1010, 0x1028, 0x11008, 0x11010, 0x40128, 0x40130, 0x80818, 0x100010, 0x140008, 0x180018, 0x180020, 0x180028,
   0x180038, 0x180050, 0x1C0010, 0x1C0018, 0x1C1020, 0x200020, 0x200028, 0x200030, 0x2C0010, 0x2C0018, 0x2C0030, 0x2C0038,
   0x300010, 0x300028, 0x380010, 0x380080, 0x340008, 0x340010, 0x340018, 0x340020, 0x340028, 0x340130]

/-- In a table of n-byte entries from a up to b, o is at one of the listed offsets. -/
def inTable (o a b n : Nat) (l : List Nat) : Bool := decide (a ≤ o) && decide (o < b) && l.contains ((o - a) % n)

/-- A register of 64 bits or more has a lower word at o, whose next word is its upper word (R16). -/
def isLower (o : Nat) : Bool :=
  wide64.contains o || inTable o 0x1100 0x11C0 0x40 [0x08, 0x10, 0x18, 0x20] || inTable o 0x80100 0x80500 0x40 [0x18, 0x30] ||
  inTable o 0x84100 0x84500 0x40 [0x18] || inTable o 0xC0100 0xC0320 0x20 [0x10] || inTable o 0x100100 0x100220 0x20 [0x08, 0x10] ||
  inTable o 0x100400 0x100500 0x40 [0x08, 0x18] || inTable o 0x140200 0x140400 0x20 [0x10] || inTable o 0x180200 0x180300 8 [0] ||
  inTable o 0x180400 0x180500 0x20 [0x08, 0x10] || inTable o 0x1C0100 0x1C0200 0x40 [0x20] ||
  inTable o 0x1C4000 0x1C8000 0x1000 (0x008 :: (List.range 256).map (0x100 + 8 * ·)) || inTable o 0x1C8000 0x1CA000 0x20 [0x08] ||
  inTable o 0x202000 0x2022A0 8 [0] || inTable o 0x240000 0x240200 0x100 [0x18, 0x20, 0x28] ||
  inTable o 0x3C0100 0x3C0900 0x20 [0x10] || inTable o 0x3C1000 0x3C3000 0x40 [0x10, 0x20]

end Sys2Proof.Machine
end

