-- ==== Sys2Proof/Machine/HostRegs.lean ====
section
/-! DEFINITION. Host writes to registers without a family of their own, and the read of the lower word of a 64-bit
register (R5, R7, R14, R16, R403, R405, R458, R467, R587, R614, R799). -/

namespace Sys2Proof.Machine

/-- v with the 32-bit word at an aligned offset of a 64-bit register replaced. -/
def putHalf (o v w : Nat) : Nat := if o % 8 = 0 then setFld v 0 32 w else setFld v 32 32 w

/-! ### BAR0 -/

/-- A ring's base, write-back address and interrupt register, written (R411, R467). -/
def Ring.writeReg (g : Ring) (o v : Nat) : Ring :=
  if (o = 0x11008 ∨ o = 0x1100C) ∧ !g.enable then { g with base := BitVec.ofNat 64 (putHalf o g.base.toNat v) }
  else if (o = 0x11010 ∨ o = 0x11014) ∧ !g.enable then { g with wb := BitVec.ofNat 64 (putHalf o g.wb.toNat v) }
  else if o = 0x1101C then
    { g with irq := { vector := fld v 0 11, irqEn := bitAt v 11, modCount := fld v 12 8, modTime := min 1000 (fld v 20 10) } }
  else g

/-- The RW fields of pulse p at offset r, written by its owner (R614, R616). -/
def Pulse.writeReg (x : Pulse) (r v : Nat) : Pulse :=
  if r = 0 then { x with mode := fld v 0 2, pol := bitAt v 2, armed := x.armed && fld v 0 2 != 0 }
  else if x.armed then x
  else if r = 8 ∨ r = 0xC then { x with start := putHalf r x.start v }
  else if r = 0x10 then { x with period := putHalf r x.period v }
  else if r = 0x14 then { x with period := putHalf r x.period (v % 256) }
  else if r = 0x18 then { x with width := fld v 0 30 }
  else x

/-- A 32-bit word written at an aligned BAR0 offset by a function with a tenant: RW fields take it, everything else is
discarded. TEN_R_CTL, TMB_P_CTL.ARM and FOX_Q_CTL.GO act as in their own commands. -/
def State.writeBar0 (s : State) (fn o v : Nat) : State :=
  if o = 0x1000C then s.modHfn fn fun h => { h with evtVector := fld v 0 11, evtEnable := bitAt v 11 }
  else if o = 0x11000 then s.modHfn fn fun h => { h with ringSel := BitVec.ofNat 32 (fld v 0 14) }
  else if o = 0x11018 then s.writeRingCtl fn v
  else if 0x11008 ≤ o ∧ o ≤ 0x1101C then
    if s.hasRing fn (s.selRing fn) then s.modRing fn (s.selRing fn) fun g => g.writeReg o v else s
  else if o = 0x40100 then { s with vrd := { s.vrd with sel := tset s.vrd.sel fn (BitVec.ofNat 32 (fld v 0 16)) } }
  else if o = 0x80800 then { s with aud := { s.aud with lyrSel := tset s.aud.lyrSel fn (BitVec.ofNat 32 (v &&& 0x0FFF000F)) } }
  else if 0x180400 ≤ o ∧ o < 0x180500 then
    let (p, r) := ent o 0x180400 0x20
    if !s.ownsPulse fn p then s
    else if r = 0 ∧ bitAt v 3 then s.pulseArm p v
    else (if r = 0 then s.fireFirst p else s).modPulse p fun x => x.writeReg r v
  else if o = 0x1C1000 then { s with plx := { s.plx with sel := tset s.plx.sel fn (BitVec.ofNat 32 (fld v 0 12)) } }
  else if o = 0x340200 then
    if bitAt v 0 && s.foxUp && !(s.quote fn).busy then
      s.modQuote fn fun q => { q with busy := true, ready := false, asked := q.nonce }
    else s
  else if 0x340220 ≤ o ∧ o < 0x340240 then
    s.modQuote fn fun q => { q with nonce := patch (padTo 32 q.nonce) (o - 0x340220) (le 4 v) }
  else s

/-! ### The MSI-X table (R405, R458) -/

/-- Bits of word w of the MSI-X table that are writable: an aligned address, the data, the mask bit. -/
def msixMask (w : Nat) : Nat := if w % 4 = 0 then 0xFFFFFFFC else if w % 4 = 3 then 1 else 0xFFFFFFFF

/-- Word w of the MSI-X table is written; a message that was pending behind the mask bit is sent when it clears. -/
def State.writeMsix (s : State) (fn w v : Nat) : State :=
  (s.modHfn fn fun h =>
    { h with msix := tset h.msix w (BitVec.ofNat 32 (v &&& msixMask w) ^^^ (if w % 4 = 3 then 1 else 0)) }).sendPending fn

/-! ### Writes and reads -/

/-- Consecutive words written from offset o on. -/
def State.writeWords (s : State) (fn bar : Nat) : Nat → List Bytes → State
  | _, [] => s
  | o, b :: rest =>
    let v := ofLe b
    (if bar = 0 then s.writeBar0 fn o v
     else if 0x20000 ≤ o ∧ o < 0x28000 then s.writeMsix fn ((o - 0x20000) / 4) v
     else s).writeWords fn bar (o + 4) rest

/-- A BAR0 access has a size and an alignment that R14 allows. -/
def accessOk (off size : Nat) : Bool := (size == 4 || size == 8) && off % size == 0

/-- The BAR0_ACCESS record (R455): LINK, FUNCTION, SIZE, WRITE, OFFSET. -/
def State.accessRecord (s : State) (fn : Nat) (write : Bool) (off size : Nat) : State :=
  s.evidence 0x0101 (s.recTenant fn) 1 0xFFFFFFFF
    (le 1 (fn / 2) ++ le 1 (fn % 2) ++ le 1 size ++ le 1 (b2n write) ++ le 4 off)

/-- A completion goes back to the host. -/
def State.hostCpl (s : State) (fn : Nat) (st : CplStatus) (data : Bytes) : State :=
  s.modHfn fn fun h => { h with cpl := st, readData := data }

/-- REGISTER_WRITE: function fn writes `data` at offset off of its BAR0 or BAR2. A BAR0 access that R14 does not allow is
discarded and recorded (R15); the writes of a function of no VALID tenant are discarded (R403). The doorbell region takes
doorbells (R415). -/
def execRegisterWrite (dt fn bar off : Nat) (data : Bytes) (s : State) : Host.Outcome State Fault Refusal :=
  let s := s.advance dt
  .next (
    if !s.hostOn fn then s
    else if bar = 0 ∧ !accessOk off data.length then s.accessRecord fn true off data.length
    else if bar = 2 ∧ off < 0x20000 then s.doorbellWrite fn off data
    else if (s.tenantOf fn).isSome && accessOk off data.length then s.writeWords fn bar off (chunks 4 data)
    else s)

/-- A 4-byte read at an aligned BAR0 offset: a lower word latches its upper word, and an upper word is read from the latch
(R16). One latch for each register and function is the model's choice, and so is 0 before the first read of a lower word
(DESIGN CHOICE, log entry 52). -/
def State.readWord (s : State) (fn off : Nat) : State :=
  let h := s.hfn fn
  if isLower off then
    (s.modHfn fn fun h => { h with latched := tset h.latched (off + 4) (s.bar0Word fn (off + 4)) }).hostCpl fn .success
      (le 4 (s.bar0Word fn off))
  else if 4 ≤ off ∧ isLower (off - 4) then s.hostCpl fn .success (le 4 (tget h.latched off))
  else s.hostCpl fn .success (le 4 (s.bar0Word fn off))

/-- LOWER_WORD_READ: a 4-byte read of the lower word of a 64-bit BAR0 register at offset off latches its upper word
(R16). -/
def execLowerWordRead (dt fn off : Nat) (s : State) : Host.Outcome State Fault Refusal :=
  let s := s.advance dt
  .next (if s.hostOn fn && off % 4 == 0 && isLower off then s.readWord fn off else s)

/-- Byte at an offset of a function's BAR2 as it reads (R405, R406): the doorbell region and the reserved areas read 0. -/
def HostFn.bar2Byte (h : HostFn) (o : Nat) : Nat :=
  if 0x20000 ≤ o ∧ o < 0x28000 then fld (h.msixWord ((o - 0x20000) / 4)).toNat (8 * (o % 4)) 8
  else if 0x28000 ≤ o ∧ o < 0x28100 then ofBitList ((List.range 8).filter fun b => h.pba.contains (8 * (o - 0x28000) + b))
  else 0

/-- BAR0_ACCESS: a host request at offset off of BAR0 or BAR2, `kind` 0 a read, 1 a write, 2 an AtomicOp. A read of an
allowed size and alignment returns the register; any other BAR0 access is recorded, a write of it discarded, and a read of
it returns 0xFFFF_FFFF (R14, R15; DESIGN CHOICE, log entry 52: where the size is not 4 bytes, those 32 bits cut off or
followed by zeros). An AtomicOp completes as unsupported (R398). -/
def execBar0Access (dt fn kind bar off size : Nat) (s : State) : Host.Outcome State Fault Refusal :=
  let s := s.advance dt
  .next (
    if !s.hostOn fn then s
    else if kind = 2 then s.hostCpl fn .unsupported []
    else if bar = 2 then
      if kind = 0 then s.hostCpl fn .success ((List.range size).map fun i => BitVec.ofNat 8 ((s.hfn fn).bar2Byte (off + i))) else s
    else if !accessOk off size then
      (if kind = 0 then s.hostCpl fn .success (le size 0xFFFFFFFF) else s).accessRecord fn (kind == 1) off size
    else if kind = 1 then s
    else if size = 4 then s.readWord fn off
    else s.hostCpl fn .success (le 4 (s.bar0Word fn off) ++ le 4 (s.bar0Word fn (off + 4))))

end Sys2Proof.Machine
end

