-- ==== Sys2Proof/Machine/Tack.lean ====
section
/-! DEFINITION. The Tack debug port (R816 to R829): one command per request, answered with the bits the device sends. -/

namespace Sys2Proof.Machine

/-! ### Responses (R816 to R818) -/

/-- How a request is answered: with RDATA or without, with a cause, or not yet. -/
inductive TackAns where
  | accept
  | data (v : Nat)
  | error (cause : Nat)
  | retry
deriving DecidableEq, Repr, Inhabited

/-- The response bits before SCRC. -/
def TackAns.bits (a : TackAns) (tag : Nat) : List Bool :=
  match a with
  | .accept => bitsLsb 4 0x6 ++ bitsLsb 4 tag
  | .data v => bitsLsb 4 0x6 ++ bitsLsb 4 tag ++ bitsLsb 64 v
  | .error c => bitsLsb 4 0xC ++ bitsLsb 4 tag ++ bitsLsb 4 c
  | .retry => bitsLsb 4 0x9 ++ bitsLsb 4 tag

/-- The whole response. -/
def TackAns.resp (a : TackAns) (tag : Nat) : List Bool := a.bits tag ++ bitsLsb 8 (crc8 (a.bits tag))

def State.modTck (s : State) (f : Tack → Tack) : State := { s with tck := f s.tck }

/-- The response is sent; an ACCEPT or ERROR is kept for a repeated TAG, and an ERROR leaves its cause (R818, R827). -/
def State.tackSend (s : State) (tag : Nat) (a : TackAns) : State :=
  let r := a.resp tag
  (match a with
   | .retry => s
   | .error c => s.modTck fun t => { t with lastTag := some tag, lastResp := r, cause := c, retry := none }
   | _ => s.modTck fun t => { t with lastTag := some tag, lastResp := r, retry := none }).emit (.tack r)

/-- Tack is served: its domain is released, and the device is not in END (R684, R819). -/
def State.tackOn (s : State) : Bool := s.atStep 2 && s.rst.on.contains 131 && s.life != 5

/-- A request is served: the last answered TAG gets its response again, and while another access is in progress the answer
is RETRY (R818). -/
def State.tack (s : State) (tag : Nat) (run : State → State × TackAns) : State :=
  let tag := tag % 16
  if !s.tackOn then s
  else if s.tck.lastTag = some tag then s.emit (.tack s.tck.lastResp)
  else if s.tck.retry.elim false (fun x => x.1 != tag) then s.tackSend tag .retry
  else let (s1, a) := run s; s1.tackSend tag a

/-! ### Access (R819) -/

/-- Access of a command in one lifecycle state. -/
inductive Access where
  | no | yes | auth
deriving DecidableEq, Repr, Inhabited

/-- The row of R819 for a command: access in BLANK, MANUFACTURE, INTEGRATION, DEPLOYED, RETURN. -/
structure AccessRow where
  blank : Access
  manuf : Access
  integ : Access
  deployed : Access
  ret : Access
deriving DecidableEq, Repr, Inhabited

def rowId : AccessRow := { blank := .yes, manuf := .yes, integ := .yes, deployed := .yes, ret := .yes }
def rowAuth : AccessRow := { blank := .no, manuf := .no, integ := .no, deployed := .yes, ret := .yes }
def rowRead : AccessRow := { blank := .no, manuf := .yes, integ := .yes, deployed := .auth, ret := .auth }
def rowWrite : AccessRow := { blank := .no, manuf := .yes, integ := .yes, deployed := .no, ret := .auth }
def rowReset : AccessRow := { blank := .no, manuf := .no, integ := .yes, deployed := .no, ret := .no }
def rowFuse : AccessRow := { blank := .yes, manuf := .yes, integ := .no, deployed := .no, ret := .auth }
def rowTest : AccessRow := { blank := .no, manuf := .yes, integ := .no, deployed := .no, ret := .auth }

def AccessRow.at (r : AccessRow) (life : Nat) : Access :=
  match life with | 0 => r.blank | 1 => r.manuf | 2 => r.integ | 3 => r.deployed | 4 => r.ret | _ => .no

/-- Cause for which a command is turned away: 0x1 lifecycle, 0x2 authentication, 0 none; `open_` marks ID and AUTH, which
need no WIPE_DONE. -/
def State.accessCause (s : State) (r : AccessRow) (open_ : Bool) : Nat :=
  let a := r.at s.life
  if a = .no ∨ (s.life = 4 ∧ !open_ ∧ !s.nvm.wipeDone) then 1
  else if a = .auth ∧ !s.tck.session then 2
  else 0

/-- A command under its row of R819. -/
def State.tackCmd (s : State) (tag : Nat) (r : AccessRow) (open_ : Bool) (run : State → State × TackAns) : State :=
  s.tack tag fun q => let c := q.accessCause r open_; if c ≠ 0 then (q, .error c) else run q

/-! ### ID and authentication (R819, R820) -/

def execTackId (dt tag : Nat) (s : State) : Host.Outcome State Fault Refusal :=
  .next ((s.advance dt).tackCmd tag rowId true fun q => (q, .data (q.glbId + 2 ^ 32 * q.cfgLife)))

/-- AUTH_READ: word 0 to 5 of DEVICE_ID followed by CFG_NONCE. -/
def execAuthRead (dt tag addr : Nat) (s : State) : Host.Outcome State Fault Refusal :=
  .next ((s.advance dt).tackCmd tag rowAuth true fun q =>
    if addr < 6 then (q, .data (rd (q.deviceId ++ padTo 32 q.cfg.nonce) (8 * addr) 8)) else (q, .error 4))

/-- AUTH_WRITE: word 0 to 302 of the signature. -/
def execAuthWrite (dt tag addr data : Nat) (s : State) : Host.Outcome State Fault Refusal :=
  .next ((s.advance dt).tackCmd tag rowAuth true fun q =>
    if addr < 303 then (q.modTck fun t => { t with sig := tset t.sig addr (BitVec.ofNat 64 data) }, .accept) else (q, .error 4))

/-- The signature as written, its padding dropped. -/
def Tack.signature (t : Tack) : Bytes := ((List.range 303).flatMap fun i => le 8 (tget t.sig i).toNat).take 2420

/-- The signature is valid with the key that the lifecycle state asks for (R753, R756). -/
def State.authOk (s : State) : Bool :=
  let m := sha3 (s.deviceId ++ padTo 32 s.cfg.nonce)
  let keys := if s.life = 3 then [s.integKey] else [s.nolindKey 0, s.nolindKey 1]
  keys.any fun k => k.elim false fun key => Config.mldsaVerify key m s.tck.signature

/-- AUTH_DONE (R820). -/
def execAuthDone (dt tag : Nat) (s : State) : Host.Outcome State Fault Refusal :=
  .next ((s.advance dt).tackCmd tag rowAuth true fun q =>
    if q.authOk then (q.modTck fun t => { t with session := true }, .accept) else (q.freshNonce, .error 2))

/-! ### Memory and registers (R821, R822) -/

/-- Target code of a memory space. -/
def spaceTarget (space : Nat) : Nat := if space = 4 then 0 else space

/-- A memory space reaches the address. -/
def spaceHas (space addr : Nat) : Bool :=
  match space with
  | 0 => decide (addr < 0x400000)
  | 5 => decide (addr / 2 ^ 32 < 3) && decide (addr % 2 ^ 31 < (if bitAt addr 31 then 0x40000 else 0x20000))
  | 6 => decide (addr < 512)
  | 7 => decide (addr ≤ 16)
  | _ => decide (1 ≤ space) && decide (space ≤ 4) && decide (addr < targetPages (spaceTarget space) * 4096)

/-- The report slot in whose buffer a byte lies, and its place there (R113, R158). -/
def State.inReport (s : State) (t addr : Nat) : Option (Nat × Nat) :=
  ((List.range 128).find? fun i =>
    let w := s.cfg.active.slotWord i 8
    s.cfg.active.slotValid i && fld w 24 2 == t && decide (fld w 0 24 * 4096 ≤ addr) &&
      decide (addr < fld w 0 24 * 4096 + (s.slot i).rep.bytes.length)).map fun i =>
    (i, addr - fld (s.cfg.active.slotWord i 8) 0 24 * 4096)

/-- The device itself may have stored at an address, at a place that the spec does not give: pages of a region entry, and
GDDR6 once the log is written. -/
def State.deviceStores (s : State) (t addr : Nat) : Bool :=
  (t == 0 && s.logReady) || s.cfg.active.regions.any fun r =>
    r.target == t && decide (r.base * 4096 ≤ addr) && decide (addr < (r.base + r.size) * 4096)

/-- A read of 8 bytes of memory by partition 0: a report as received, the listed bytes, or, where the device itself stores
at places the spec does not give, a free value. -/
def State.memWord (s : State) (t addr : Nat) : State × Nat :=
  match s.inReport t addr with
  | some (i, o) => (s, rd (s.slot i).rep.bytes o 8)
  | none =>
    let known := (List.range 8).all fun i => s.mem.cells.any fun c => c.1 == cellKey t addr + i
    if s.deviceStores t addr && !known then let (v, s1) := s.fresh; (s1, v % 2 ^ 64)
    else (s, ofLe (s.mem.readN (cellKey t addr) 8))

/-- An access to an uncorrectable line, by partition 0 (R631, R634, R642). -/
def State.tackUe (s : State) (t line : Nat) : State := s.uncorrectable t 0 line (line % 4) false { use := 3 } false

/-- Key of a TCM word. -/
def tcmKey (addr : Nat) : Nat := addr / 2 ^ 32 * 2 ^ 20 + b2n (bitAt addr 31) * 2 ^ 19 + addr % 2 ^ 19

/-- READ of an address that its space has. -/
def State.tackRead (s : State) (space addr : Nat) : State × TackAns :=
  match space with
  | 0 => (s, .data (s.bar0Word 8 addr + 2 ^ 32 * s.bar0Word 8 (addr + 4)))
  | 5 => match tget s.tck.tcm (tcmKey addr) with
    | some w => (s, .data w.toNat)
    | none => let (v, s1) := s.fresh; (s1, .data (v % 2 ^ 64))
  | 6 => (s, .data (if 256 ≤ addr ∧ addr < 288 then 0 else fld s.nvm.shadow (8 * addr) 64))
  | 7 => (s, .data (if addr = 0 then s.tck.expected.toNat else if addr = 8 then s.tck.misr.toNat else s.tck.outcome))
  | _ =>
    let t := spaceTarget space
    if !s.lineOn t (addr / 64) then (s, .error 5)
    else if s.lineBad t (addr / 64) then (s.tackUe t (addr / 64), .error 5)
    else let (s1, v) := s.memWord t addr; (s1, .data v)

/-- WRITE to an address that its space has. Registers discard it (R403), and so do the fuse shadow and the read-only words
of the test space. What firmware keeps in a DTCM of running cores is not known to stay. -/
def State.tackWrite (s : State) (space addr data : Nat) : State × TackAns :=
  match space with
  | 0 => (s, .accept)
  | 5 =>
    if bitAt addr 31 && !s.tck.haltCores then (s, .accept)
    else (s.modTck fun t => { t with tcm := tset t.tcm (tcmKey addr) (some (BitVec.ofNat 64 data)) }, .accept)
  | 6 => (s, .accept)
  | 7 => (if addr = 0 then s.modTck fun t => { t with expected := BitVec.ofNat 64 data } else s, .accept)
  | _ =>
    let t := spaceTarget space
    if !s.lineOn t (addr / 64) then (s, .error 5)
    else if s.lineBad t (addr / 64) then (s.tackUe t (addr / 64), .error 5)
    else ({ s with mem := (s.mem.copyLine t (addr / 64)).writeN (cellKey t addr) (le 8 data) }, .accept)

/-- An access that takes its time: `done` says that it has completed; otherwise RETRY, and after 100 µs a timeout (R818). -/
def State.tackAccess (s : State) (tag space addr : Nat) (done : Bool) (run : State → State × TackAns) : State × TackAns :=
  if 8 ≤ space ∨ addr % 8 ≠ 0 ∨ !spaceHas space addr then (s, .error 4)
  else
    let first := s.tck.retry.elim s.mc (·.2)
    if first + 100 * usMc ≤ s.mc then (s, .error 6)
    else if done then run s
    else (s.modTck fun t => { t with retry := some (tag % 16, first) }, .retry)

def execTackRead (dt target tag addr : Nat) (done : Bool) (s : State) : Host.Outcome State Fault Refusal :=
  .next ((s.advance dt).tackCmd tag rowRead false fun q => q.tackAccess tag target addr done fun x => x.tackRead target addr)

def execTackWrite (dt target tag addr data : Nat) (done : Bool) (s : State) : Host.Outcome State Fault Refusal :=
  .next ((s.advance dt).tackCmd tag rowWrite false fun q => q.tackAccess tag target addr done fun x => x.tackWrite target addr data)

/-! ### Halt, step and breakpoints (R823 to R826) -/

/-- Cause for which a target of HALT, RESUME, STEP, BP_SET or BP_CLEAR is turned away (R823). -/
def State.targetCause (s : State) (target : Nat) : Nat :=
  if 2 ≤ target then 4
  else if target = 0 ∧ s.glb.st ≠ .startUp ∧ s.glb.st ≠ .maintenance then 3
  else 0

/-- A command on the control cores (TARGET 0) or Fox (TARGET 1). -/
def State.tackTarget (s : State) (tag target : Nat) (run : State → State) : State :=
  s.tackCmd tag rowWrite false fun q =>
    let c := q.targetCause target
    if c ≠ 0 then (q, .error c) else (run q, .accept)

/-- The program counters of a target's cores take free values: where a core stops is the firmware's. -/
def State.freshPcs (s : State) (target : Nat) : State :=
  if target = 0 then
    let (a, s1) := s.fresh
    let (b, s2) := s1.fresh
    let (c, s3) := s2.fresh
    s3.modTck fun t => { t with pcs := tset (tset (tset t.pcs 0 (a % 2 ^ 32)) 1 (b % 2 ^ 32)) 2 (c % 2 ^ 32) }
  else
    let (a, s1) := s.fresh
    s1.modTck fun t => { t with pcs := tset t.pcs 3 (a % 2 ^ 32) }

/-- A target is halted. -/
def Tack.halted (t : Tack) (target : Nat) : Bool := if target = 0 then t.haltCores else t.haltFox
def State.setHalt (s : State) (target : Nat) (on : Bool) : State :=
  s.modTck fun t => if target = 0 then { t with haltCores := on } else { t with haltFox := on }

/-- Main and Mizzen stop where Fore has stopped, or, where they are past it already, at once (R824). -/
def State.meetFore (s : State) (target : Nat) : State :=
  if target = 0 then
    [1, 2].foldl (fun q c => q.modCore c fun x =>
      if x.st = .service then { x with instr := max x.instr (s.core 0).instr } else x) s
  else s

/-- HALT stops the cores at an instruction boundary (R824); a halt of a halted target changes nothing. -/
def execHalt (dt target tag : Nat) (s : State) : Host.Outcome State Fault Refusal :=
  .next ((s.advance dt).tackTarget tag target fun q =>
    if q.tck.halted target then q else ((q.meetFore target).setHalt target true).freshPcs target)

/-- The cores run again; their DTCM changes from here on. -/
def State.resume (s : State) (target : Nat) : State :=
  (s.setHalt target false).modTck fun t =>
    if target = 0 then { t with tcm := t.tcm.filter fun x => !bitAt x.1 19 } else t

/-- RESUME restarts the cores in the positions they held (R824). -/
def execResume (dt target tag : Nat) (s : State) : Host.Outcome State Fault Refusal :=
  .next ((s.advance dt).tackTarget tag target fun q => q.resume target)

/-- STEP retires one instruction in each core of a halted target (R824). -/
def State.tackStep (s : State) (target : Nat) : State :=
  if !s.tck.halted target then s
  else
    let s1 := if target = 0 then
        (List.range 3).foldl (fun q c => q.modCore c fun x => { x with instr := (x.instr + 1) % 2 ^ 64 }) (s.resume 0)
      else s
    (s1.setHalt target true).freshPcs target

def execTackStep (dt target tag : Nat) (s : State) : Host.Outcome State Fault Refusal :=
  .next ((s.advance dt).tackTarget tag target fun q => q.tackStep target)

/-- Key of breakpoint number n of a target. -/
def bpKey (target addr : Nat) : Nat := target * 4 + fld addr 38 2

/-- BP_SET writes breakpoint address[39:38] with the instruction address in address[16:0] (R825). -/
def execBpSet (dt target tag addr : Nat) (s : State) : Host.Outcome State Fault Refusal :=
  .next ((s.advance dt).tackTarget tag target fun q =>
    q.modTck fun t => { t with bps := tset t.bps (bpKey target addr) (fld addr 0 17 + 1) })

def execBpClear (dt target tag addr : Nat) (s : State) : Host.Outcome State Fault Refusal :=
  .next ((s.advance dt).tackTarget tag target fun q => q.modTck fun t => { t with bps := tset t.bps (bpKey target addr) 0 })

/-- The cores of a target are released from reset. -/
def State.targetUp (s : State) (target : Nat) : Bool := if target = 0 then s.atStep 5 else s.foxUp

/-- Breakpoint n of a target is hit: it halts before the instruction retires (R825). -/
def State.breakHit (s : State) (target n : Nat) : State :=
  let bp := tget s.tck.bps (target * 4 + n)
  if 2 ≤ target ∨ 4 ≤ n ∨ bp = 0 ∨ s.tck.halted target ∨ !s.targetUp target then s
  else ((s.meetFore target).setHalt target true).modTck fun t =>
    if target = 0 then { t with hitCores := some n, pcs := tset (tset (tset t.pcs 0 (bp - 1)) 1 (bp - 1)) 2 (bp - 1) }
    else { t with hitFox := some n, pcs := tset t.pcs 3 (bp - 1) }

def execBreakpointHit (dt target n : Nat) (s : State) : Host.Outcome State Fault Refusal := .next ((s.advance dt).breakHit target n)

/-! ### STATUS and RESET (R827, R829) -/

/-- The program counter that STATUS shows for a target; that of a running core is a free value. -/
def State.statusPc (s : State) (target : Nat) : State × Nat :=
  let fox := target == 1 || target == 4
  if (if fox then s.tck.haltFox else s.tck.haltCores) then
    (s, tget s.tck.pcs (if fox then 3 else if target = 0 then 0 else target - 1))
  else let (v, s1) := s.fresh; (s1, v % 2 ^ 32)

/-- Bits [31:0] of the STATUS word (R827). -/
def Tack.statusBits (t : Tack) (target : Nat) : Nat :=
  let hit := if target = 1 ∨ target = 4 then t.hitFox else t.hitCores
  pk [(0, 1, b2n t.haltCores), (1, 1, b2n t.haltFox), (2, 1, b2n t.session), (3, 4, t.cause), (7, 2, hit.getD 0), (9, 1, b2n hit.isSome)]

def execTackStatus (dt target tag : Nat) (s : State) : Host.Outcome State Fault Refusal :=
  .next ((s.advance dt).tackCmd tag rowRead false fun q =>
    if 5 ≤ target then (q, .error 4)
    else let (q1, pc) := q.statusPc target; (q1, .data (q1.tck.statusBits target + 2 ^ 32 * pc)))

/-- RESET, answered first: reset source 0x9, which restarts from D2 (R661, R668, R829). -/
def execTackReset (dt tag : Nat) (s : State) : Host.Outcome State Fault Refusal :=
  let s := s.advance dt
  let s1 := s.tackCmd tag rowReset false fun q => (q, .accept)
  .next (if s.tackOn && s.tck.lastTag != some (tag % 16) && s.tck.retry.isNone && s.accessCause rowReset false == 0 then
      s1.resetSource 2 9
    else s1)

/-! ### FUSE and TEST (R828) -/

/-- What INTEGRATION asks to be fused and stored (R747). -/
def State.mayIntegrate (s : State) : Bool :=
  let f := s.nvm.fuses
  fld f 2048 256 != 0 && fld f 10 4 != 0 && ((List.range 4).all fun m => fld f (96 + 48 * m) 48 != 0) && fld f 320 256 != 0 &&
    fld f 64 32 != 0 && s.nvm.cert != []

/-- The fuse map with more bits blown may be reached from Tack: a change of state is one of R747, and RETURN blows REPAIR
bits only (R651, R819). -/
def State.fuseAllowed (s : State) (addr data : Nat) : Bool :=
  let f := s.nvm.fuses ||| ((data % 2 ^ 64) * 2 ^ addr)
  let repair := decide (addr + 64 ≤ 2368) || fld data 0 64 == 0
  if s.life = 4 then (List.range 64).all fun i => !bitAt data i || decide (2368 ≤ addr + i)
  else if s.life = 0 then (repair || (List.range 64).all fun i => !bitAt data i || decide (addr + i < 2368)) && decide (lifeOf f ≤ 1)
  else decide (lifeOf f ≤ 1) || (decide (lifeOf f = 2) && decide (lifeOf s.nvm.fuses = 2 ∨ s.mayIntegrate))

/-- FUSE blows the bits set in the data word (R828). A bit that its state may not blow ends with cause 0x1. -/
def execFuse (dt tag addr data : Nat) (s : State) : Host.Outcome State Fault Refusal :=
  .next ((s.advance dt).tackCmd tag rowFuse false fun q =>
    if addr % 64 ≠ 0 ∨ 4096 ≤ addr then (q, .error 4)
    else if !q.fuseAllowed addr data then (q, .error 1)
    else (q.modNvm fun v => { v with fuses := v.fuses ||| ((data % 2 ^ 64) * 2 ^ addr) }, .accept))

/-- Units of an element KIND of R727. -/
def kindUnits (k : Nat) : Nat :=
  match k with | 1 => 17 | 2 => 72 | 3 => 3 | 4 => 2 | 5 => 64 | 6 => 8 | 7 => 9 | 8 => 3 | _ => 0

/-- TEST runs one free-form slice: its MISR is a free value, which is compared with the expected signature (R740, R828). -/
def execTest (dt tag addr _data : Nat) (s : State) : Host.Outcome State Fault Refusal :=
  .next ((s.advance dt).tackCmd tag rowTest false fun q =>
    if kindUnits (fld addr 32 8) ≤ fld addr 24 8 then (q, .error 4)
    else
      let (v, q1) := q.fresh
      (q1.modTck fun t => { t with misr := BitVec.ofNat 64 v, outcome := if BitVec.ofNat 64 v = t.expected then 1 else 2 }, .accept))

/-- TACK_BAD_REQUEST: SYNC (kind 0) or RCRC (kind 1) is wrong, which STATUS shows as cause 0x7; or CMD is the reserved one
(kind 2). No response (R817). -/
def execTackBadRequest (dt kind : Nat) (s : State) : Host.Outcome State Fault Refusal :=
  let s := s.advance dt
  .next (if s.tackOn && decide (kind < 2) then s.modTck fun t => { t with cause := 7 } else s)

end Sys2Proof.Machine
end

