-- ==== Sys2Proof/Machine/Scan.lean ====
section
/-! DEFINITION. The test access port and the boundary-scan register (R803 to R806, R830 to R832). -/

namespace Sys2Proof.Machine

/-! ### Pins and cells -/

/-- The signal pins with boundary cells: GDDR6, Shroud and the LVCMOS pins other than the TAP's (R804, R832). -/
inductive Pin where
  | gddr (c k : Nat)
  | sin (n : Nat)
  | edm (n : Nat)
  | sout (n : Nat)
  | tpo (n : Nat)
  | prvHs (n : Nat)
  | prvLs (n : Nat)
  | hsSense (n : Nat)
  | lsSense (n : Nat)
  | safeStateN
  | sysResetN
  | pwrFailN
  | resetOutN
  | refclk
  | ppsIn
  | pulse (p : Nat)
  | tackClk
  | tackDio
deriving DecidableEq, Repr, Inhabited

/-- First row of a GDDR6 channel's placement: AJ, AW, AA, AK (R803, R805). -/
def gddrRow (c : Nat) : Nat := match c with | 0 => 28 | 1 => 37 | 2 => 20 | _ => 29

/-- Row and column of a pin's ball, rows numbered from 1 (R803 to R806). -/
def Pin.ball : Pin → Nat × Nat
  | .gddr c k => (gddrRow c + k / 9, (if c < 2 then 36 else 2) + 2 * (k % 9))
  | .sin n => if n < 16 then (53, 3 + 2 * n) else (52, 3 + 2 * (n - 16))
  | .edm n => (51, 3 + 2 * n)
  | .sout n => (50, 3 + 2 * n)
  | .tpo n => (49, 3 + 2 * n)
  | .prvHs n => (48, 3 + 2 * n)
  | .prvLs n => (48, 11 + 2 * n)
  | .hsSense n => (48, 19 + 2 * n)
  | .lsSense n => (48, 27 + 2 * n)
  | .safeStateN => (47, 3)
  | .sysResetN => (47, 5)
  | .pwrFailN => (47, 7)
  | .resetOutN => (47, 9)
  | .refclk => (1, 3)
  | .ppsIn => (1, 5)
  | .pulse p => (1, 7 + 2 * p)
  | .tackClk => (1, 23)
  | .tackDio => (1, 25)

/-- A ball's place in the order of R832: row by row, then column by column. -/
def Pin.key (p : Pin) : Nat := p.ball.1 * 64 + p.ball.2

/-- The 412 pins. -/
def allPins : List Pin :=
  [.refclk, .ppsIn] ++ (List.range 8).map .pulse ++ [.tackClk, .tackDio] ++
  ((List.range 4).flatMap fun c => (List.range 77).map (.gddr c)) ++
  [.safeStateN, .sysResetN, .pwrFailN, .resetOutN] ++ (List.range 4).map .prvHs ++ (List.range 4).map .prvLs ++
  (List.range 4).map .hsSense ++ (List.range 4).map .lsSense ++ (List.range 8).map .tpo ++ (List.range 16).map .sout ++
  (List.range 16).map .edm ++ (List.range 32).map .sin

/-- Input cell of a pin; its output-or-control cell is the next (R832). -/
def Pin.cell (p : Pin) : Nat := 2 * (allPins.filter fun q => q.key < p.key).length

/-- EXTEST, CLAMP and HIGHZ never drive this pin (R832). -/
def Pin.guarded : Pin → Bool
  | .sout _ | .prvHs _ | .prvLs _ | .tpo _ | .safeStateN | .resetOutN => true
  | _ => false

/-- The level that the device drives on a guarded pin (R540, R681, R683). -/
def State.guardedLevel (s : State) : Pin → Bool
  | .sout n => (s.so n).st == .on
  | .prvHs n => (s.pv n).hsPin
  | .prvLs n => (s.pv n).lsDrv
  | .tpo n => bitAt s.shr.tpoLevels n
  | .safeStateN => s.shr.safeStateN
  | .resetOutN => s.rst.resetOutN
  | _ => false

/-- The output cells of the guarded pins that capture 1. -/
def State.guardedOnes (s : State) : List Nat := (allPins.filter fun p => p.guarded && s.guardedLevel p).map fun p => p.cell + 1
def guardedCells : List Nat := (allPins.filter (·.guarded)).map fun p => p.cell + 1

/-! ### Instructions (R830) -/

/-- The cells of a list, ascending, of the 824. -/
def scanCells (l : List Nat) : List Nat := (List.range 824).filter l.contains

/-- The TAP acts: its domain is released, and the device is not in END (R684, R830). -/
def State.scanOn (s : State) : Bool := s.tackOn

/-- EXTEST, CLAMP and HIGHZ are allowed (R830). -/
def State.scanDrives (s : State) : Bool := s.life == 1 || s.life == 2 || s.life == 4

def State.modScn (s : State) (f : Scan → Scan) : State := { s with scn := f s.scn }

/-- The bypass register is in the scan path: it captures 0 and takes the bit shifted in. -/
def State.scanBypass (s : State) (ir : Nat) (din driving highz : Bool) : State :=
  (s.modScn fun x => { x with ir := ir, bypass := din, driving := driving, highz := highz }).emit (.scan [false])

/-- The boundary register is in the scan path: it captures `cap` and the levels driven on the guarded pins, and takes
what is shifted in. -/
def State.scanBoundary (s : State) (ir : Nat) (cap din : List Nat) (driving : Bool) : State :=
  let got := (cap.filter fun i => !guardedCells.contains i) ++ s.guardedOnes
  (s.modScn fun x => { x with ir := ir, cells := scanCells din, driving := driving, highz := false }).emit
    (.scan ((List.range 824).map got.contains))

/-- BYPASS, selected also by other codes and by an instruction that the lifecycle state does not allow (R830). -/
def execBypass (dt : Nat) (din : Bool) (s : State) : Host.Outcome State Fault Refusal :=
  let s := s.advance dt
  .next (if s.scanOn then s.scanBypass 0xF din false false else s)

/-- IDCODE: 0x1947_0B4F, least significant bit first (R831). -/
def execIdcode (dt : Nat) (s : State) : Host.Outcome State Fault Refusal :=
  let s := s.advance dt
  .next (if s.scanOn then
      (s.modScn fun x => { x with ir := 0x1, driving := false, highz := false }).emit (.scan (bitsLsb 32 0x19470B4F))
    else s)

/-- SAMPLE/PRELOAD. -/
def execSamplePreload (dt : Nat) (cap din : List Nat) (s : State) : Host.Outcome State Fault Refusal :=
  let s := s.advance dt
  .next (if s.scanOn then s.scanBoundary 0x2 cap din false else s)

/-- EXTEST: the cells drive the pins, but for the guarded ones (R832). -/
def execExtest (dt : Nat) (cap din : List Nat) (s : State) : Host.Outcome State Fault Refusal :=
  let s := s.advance dt
  .next (if !s.scanOn then s
    else if s.scanDrives then s.scanBoundary 0x3 cap din true
    else s.scanBypass 0xF false false false)

/-- CLAMP: the cells as preloaded drive the pins, with the bypass register in the scan path. -/
def execClamp (dt : Nat) (din : Bool) (s : State) : Host.Outcome State Fault Refusal :=
  let s := s.advance dt
  .next (if !s.scanOn then s
    else if s.scanDrives then s.scanBypass 0x4 din true false
    else s.scanBypass 0xF din false false)

/-- HIGHZ: the pins, but for the guarded ones, are in high impedance, with the bypass register in the scan path. -/
def execHighz (dt : Nat) (din : Bool) (s : State) : Host.Outcome State Fault Refusal :=
  let s := s.advance dt
  .next (if !s.scanOn then s
    else if s.scanDrives then s.scanBypass 0x5 din false true
    else s.scanBypass 0xF din false false)

/-! ### Pin states in reset (R682) -/

/-- The code in force of pin i: 5 to 7 act as Hi-Z, and so do the driving codes on an input-only pin. -/
def pinCode (fuses i : Nat) : Nat :=
  let c := fld fuses (1024 + 3 * i) 3
  if 4 < c ∨ (3 ≤ c ∧ (i = 8 ∨ 11 ≤ i)) then 0 else c

/-- The block that owns pin i has driven or configured it: a pulse has been armed, Tack has answered, the test access port
has shifted, Shroud's section is active (R682, R683). PPS_IN is never configured. -/
def State.pinOwned (s : State) (i : Nat) : Bool :=
  if i < 8 then s.rst.pinTaken.contains i else if i = 8 then false else if i = 9 then s.tck.lastTag.isSome
  else if i = 10 then s.scn != {} else s.shr.cfgActive

/-- The reset state that pin i still shows, as a code of R682; none from its block's first use on. -/
def State.pinReset (s : State) (i : Nat) : Option Nat := if s.pinOwned i then none else some (pinCode s.nvm.shadow i)

/-- What the scan puts on a pin: the level of its output cell, high impedance, or nothing (R830, R832). -/
inductive ScanDrive where
  | own
  | cell (high : Bool)
  | highz
deriving DecidableEq, Repr, Inhabited

def State.pinDrive (s : State) (p : Pin) : ScanDrive :=
  if p.guarded then .own
  else if s.scn.driving then .cell (s.scn.cells.contains (p.cell + 1))
  else if s.scn.highz then .highz
  else .own

end Sys2Proof.Machine
end

