-- ==== Sys2Proof/Machine/Stoat.lean ====
section
/-! DEFINITION. The commands of chapters 04 and 05 on units, engines, leaves and the DRBG. -/

namespace Sys2Proof.Machine

/-- MAILBOX_POSTED: the drawing completes (R241). -/
def execMailboxPosted (dt : Nat) (s : State) : Host.Outcome State Fault Refusal :=
  let s := s.advance dt
  .next (if s.aud.mbox.state = 1 ∧ s.past 1 = false then s.mailboxPosted else s)

/-- LEAF_VERIFY: record k of challenge i. -/
def execLeafVerify (dt i k : Nat) (s : State) : Host.Outcome State Fault Refusal := .next ((s.advance dt).leafVerify i k)

/-- SHA3_MISMATCH of engine k. -/
def execSha3Mismatch (dt k : Nat) (s : State) : Host.Outcome State Fault Refusal :=
  let s := s.advance dt
  .next (if k < 8 then s.sha3Mismatch k else s)

/-- CHALLENGE_WEIGHTS_IN_PLACE for challenge i, fetched from the posting of the mailbox on in ascending index, challenges
that have failed passed over (R254). -/
def execChallengeWeightsInPlace (dt i : Nat) (s : State) : Host.Outcome State Fault Refusal :=
  let s := s.advance dt
  .next (match s.chl i with
    | some c =>
      if s.aud.mbox.state = 2 ∧ ((s.aud.mbox.entries.take i).all fun b => b.weights || decide (0x10 ≤ b.status)) then
        s.setChl i { c with weights := true }
      else s
    | none => s)

/-- UNIT_DISPATCH to engine e. -/
def execUnitDispatch (dt e : Nat) (s : State) : Host.Outcome State Fault Refusal := .next ((s.advance dt).dispatch e)

/-- A unit of engine e has ended: the engine is free. -/
def State.unitEnds (s : State) (e : Nat) : State := s.modEng e fun x => { x with busy := none, units := inc 32 x.units }

/-- AUDIT_BLOCK_DONE on engine e. -/
def execAuditBlockDone (dt e : Nat) (s : State) : Host.Outcome State Fault Refusal :=
  let s := s.advance dt
  .next (match (s.eng e).busy with
    | some (.block p idx) => (s.unitEnds e).auditBlock p idx
    | _ => s)

/-- CHALLENGE_TILE_DONE on engine e. -/
def execChallengeTileDone (dt e : Nat) (s : State) : Host.Outcome State Fault Refusal :=
  let s := s.advance dt
  .next (match (s.eng e).busy with
    | some (.tile i) => (s.unitEnds e).tileDone i
    | _ => s)

/-- The residue that a column's residue unit accumulates over the integer products that enter it, and the column's
accumulators as it must equal them: both modulo 63, in 0 to 62 (R216). -/
def residueOf (products : List (Int × Int)) : Int := (products.foldl (fun r (a, b) => r + a % 63 * (b % 63)) 0) % 63
def columnResidue (accumulators : List Int) : Int := (accumulators.foldl (· + ·) 0) % 63

/-- ENGINE_FAULT: what a checker of engine e sees. Kind 1, a residue mismatch: the residue accumulated and the sum of the
column's accumulators (R216), or of a cell's significand product (R217); kind 2, the outputs of an adder and of its
duplicate (R217); kind 3, those of the two halves of the vector unit (R218). Kinds 1 to 3 are faults where the two
differ; kind 4 is an uncorrectable error in local SRAM, kind 5 a failed slice (R219). -/
def execEngineFault (dt e kind col : Nat) (got want : Int) (s : State) : Host.Outcome State Fault Refusal :=
  let s := s.advance dt
  let differ := if kind = 1 then got % 63 != want % 63 else if kind ≤ 3 then got != want else true
  .next (if e < 17 ∧ 1 ≤ kind ∧ kind ≤ 5 ∧ differ then s.engineFault e kind (col % 32) else s)

/-- DRBG_RESEED with 256 bits of entropy (R238, R239). -/
def execDrbgReseed (dt : Nat) (s : State) : Host.Outcome State Fault Refusal :=
  let s := s.advance dt
  .next (if s.aud.drbg.instantiated && !s.aud.drbg.testsFail then
      let (v, s1) := s.fresh
      { s1 with aud := { s1.aud with drbg := s1.aud.drbg.reseed (v % 2 ^ 256) } }
    else s)

/-- ENTROPY_HEALTH_FAILURE: the health tests begin or cease to report a failure (R239). -/
def execEntropyHealthFailure (dt : Nat) (failing : Bool) (s : State) : Host.Outcome State Fault Refusal :=
  let s := s.advance dt
  .next { s with aud := { s.aud with drbg := { s.aud.drbg with testsFail := failing } } }

end Sys2Proof.Machine
end

