-- ==== Sys2Proof/Machine/Dispatch.lean ====
section
/-! DEFINITION. One arm per command: each is a direct call of that command's meaning. -/

namespace Sys2Proof.Machine

/-- The effect of a command on everything but the queue. -/
def exec (i : Instr) (s : State) : Host.Outcome State Fault Refusal :=
  match i with
  | .powerOn dt pins => Sys2Proof.Machine.execPowerOn dt pins s
  | .sysReset dt sys => Sys2Proof.Machine.execSysReset dt sys s
  | .domainRelease dt k pins good => Sys2Proof.Machine.execDomainRelease dt k pins good s
  | .hold dt k cond => Sys2Proof.Machine.execHold dt k cond s
  | .clockFault dt which step => Sys2Proof.Machine.execClockFault dt which step s
  | .powerGoodFailure dt step => Sys2Proof.Machine.execPowerGoodFailure dt step s
  | .domainPowerGoodTimeout dt d => Sys2Proof.Machine.execDomainPowerGoodTimeout dt d s
  | .thermalTrip dt => Sys2Proof.Machine.execThermalTrip dt s
  | .thermalTripHoldEnd dt => Sys2Proof.Machine.execThermalTripHoldEnd dt s
  | .foxSoftwareRequest dt => Sys2Proof.Machine.execFoxSoftwareRequest dt s
  | .powerFailWarning dt src => Sys2Proof.Machine.execPowerFailWarning dt src s
  | .brownout dt => Sys2Proof.Machine.execBrownout dt s
  | .returnWipe dt => Sys2Proof.Machine.execReturnWipe dt s
  | .injectionTest dt passed first us => Sys2Proof.Machine.execInjectionTest dt passed first us s
  | .bootComplete dt => Sys2Proof.Machine.execBootComplete dt s
  | .startupCalibrationDone dt mask resids coefs => Sys2Proof.Machine.execStartupCalibrationDone dt mask resids coefs s
  | .frameTick dt => Sys2Proof.Machine.execFrameTick dt s
  | .dC dt => Sys2Proof.Machine.execDC dt s
  | .mailboxPosted dt => Sys2Proof.Machine.execMailboxPosted dt s
  | .dV dt lanes => Sys2Proof.Machine.execDV dt lanes s
  | .ingEnd dt => Sys2Proof.Machine.execIngEnd dt s
  | .shdStart dt => Sys2Proof.Machine.execShdStart dt s
  | .shdEnd dt => Sys2Proof.Machine.execShdEnd dt s
  | .gldStart dt => Sys2Proof.Machine.execGldStart dt s
  | .gldEnd dt => Sys2Proof.Machine.execGldEnd dt s
  | .slfStart dt => Sys2Proof.Machine.execSlfStart dt s
  | .slfEnd dt => Sys2Proof.Machine.execSlfEnd dt s
  | .closeOut dt => Sys2Proof.Machine.execCloseOut dt s
  | .configActivate dt => Sys2Proof.Machine.execConfigActivate dt s
  | .safetyFwActivate dt => Sys2Proof.Machine.execSafetyFwActivate dt s
  | .sync dt m domNs => Sys2Proof.Machine.execSync dt m domNs s
  | .ppsInEdge dt => Sys2Proof.Machine.execPpsInEdge dt s
  | .syncTimeout dt => Sys2Proof.Machine.execSyncTimeout dt s
  | .holdoverExpiry dt => Sys2Proof.Machine.execHoldoverExpiry dt s
  | .gmChange dt m gm => Sys2Proof.Machine.execGmChange dt m gm s
  | .pulseArm dt fn p v => Sys2Proof.Machine.execPulseArm dt fn p v s
  | .pulseDisarm dt fn p v => Sys2Proof.Machine.execPulseDisarm dt fn p v s
  | .pulseFire dt p => Sys2Proof.Machine.execPulseFire dt p s
  | .pulseEnd dt p => Sys2Proof.Machine.execPulseEnd dt p s
  | .reportWindowWrite dt slot off data poisoned => Sys2Proof.Machine.execReportWindowWrite dt slot off data poisoned s
  | .reportComplete dt golden slot => Sys2Proof.Machine.execReportComplete dt golden slot s
  | .goldenReportWrite dt off data poisoned => Sys2Proof.Machine.execGoldenReportWrite dt off data poisoned s
  | .openingWrite dt off data poisoned => Sys2Proof.Machine.execOpeningWrite dt off data poisoned s
  | .goldenInputRead dt off n => Sys2Proof.Machine.execGoldenInputRead dt off n s
  | .portWInvalidWrite dt kind off data poisoned => Sys2Proof.Machine.execPortWInvalidWrite dt kind off data poisoned s
  | .portWInvalidRead dt kind off n => Sys2Proof.Machine.execPortWInvalidRead dt kind off n s
  | .portWLinkDown dt => Sys2Proof.Machine.execPortWLinkDown dt s
  | .wportLink dt speed width => Sys2Proof.Machine.execWportLink dt speed width s
  | .leafVerify dt idx k => Sys2Proof.Machine.execLeafVerify dt idx k s
  | .sha3Mismatch dt k => Sys2Proof.Machine.execSha3Mismatch dt k s
  | .challengeWeightsInPlace dt idx => Sys2Proof.Machine.execChallengeWeightsInPlace dt idx s
  | .unitDispatch dt e => Sys2Proof.Machine.execUnitDispatch dt e s
  | .auditBlockDone dt e => Sys2Proof.Machine.execAuditBlockDone dt e s
  | .challengeTileDone dt e => Sys2Proof.Machine.execChallengeTileDone dt e s
  | .engineFault dt e kind col got want => Sys2Proof.Machine.execEngineFault dt e kind col got want s
  | .drbgReseed dt => Sys2Proof.Machine.execDrbgReseed dt s
  | .entropyHealthFailure dt failing => Sys2Proof.Machine.execEntropyHealthFailure dt failing s
  | .csiFrameStart dt r vc ecc line lk => Sys2Proof.Machine.execCsiFrameStart dt r vc ecc line lk s
  | .csiLongPacket dt r vc ecc ty payload crc lk => Sys2Proof.Machine.execCsiLongPacket dt r vc ecc ty payload crc lk s
  | .csiFrameEnd dt r vc ecc line lk => Sys2Proof.Machine.execCsiFrameEnd dt r vc ecc line lk s
  | .lidarDatagram dt d ago => Sys2Proof.Machine.execLidarDatagram dt d ago s
  | .shadowPassStart dt m => Sys2Proof.Machine.execShadowPassStart dt m s
  | .shadowPassDone dt m => Sys2Proof.Machine.execShadowPassDone dt m s
  | .modelProgrammed dt m => Sys2Proof.Machine.execModelProgrammed dt m s
  | .driftFailure dt t mac ops => Sys2Proof.Machine.execDriftFailure dt t mac ops s
  | .referenceOperations dt t mac ops => Sys2Proof.Machine.execReferenceOperations dt t mac ops s
  | .calibrationMeasured dt t mac resid gain off coefs => Sys2Proof.Machine.execCalibrationMeasured dt t mac resid gain off coefs s
  | .tileReady dt t ok mac => Sys2Proof.Machine.execTileReady dt t ok mac s
  | .dieLinkRetrain dt => Sys2Proof.Machine.execDieLinkRetrain dt s
  | .dieLinkRetrainTimeout dt => Sys2Proof.Machine.execDieLinkRetrainTimeout dt s
  | .comparisonStart dt c => Sys2Proof.Machine.execComparisonStart dt c s
  | .comparisonDone dt => Sys2Proof.Machine.execComparisonDone dt s
  | .ageMonitor dt => Sys2Proof.Machine.execAgeMonitor dt s
  | .trustHeartbeat dt => Sys2Proof.Machine.execTrustHeartbeat dt s
  | .tdegExpiry dt => Sys2Proof.Machine.execTdegExpiry dt s
  | .ledgerRequest dt c counts kind len source addr value bad => Sys2Proof.Machine.execLedgerRequest dt c counts kind len source addr value bad s
  | .checkpoint dt c counts actions barrier given a b banks => Sys2Proof.Machine.execCheckpoint dt c counts actions barrier given a b banks s
  | .voteTimeout dt a b banks => Sys2Proof.Machine.execVoteTimeout dt a b banks s
  | .resyncCopyDone dt => Sys2Proof.Machine.execResyncCopyDone dt s
  | .owlSetup dt idx v => Sys2Proof.Machine.execOwlSetup dt idx v s
  | .owlServiceWrite dt idx v => Sys2Proof.Machine.execOwlServiceWrite dt idx v s
  | .owlCheckIn dt idx v => Sys2Proof.Machine.execOwlCheckIn dt idx v s
  | .owlWindowOpen dt idx => Sys2Proof.Machine.execOwlWindowOpen dt idx s
  | .owlExpiry dt idx => Sys2Proof.Machine.execOwlExpiry dt idx s
  | .owlHardTimer dt idx => Sys2Proof.Machine.execOwlHardTimer dt idx s
  | .owlSuspend dt => Sys2Proof.Machine.execOwlSuspend dt s
  | .owlResume dt => Sys2Proof.Machine.execOwlResume dt s
  | .flashOperationTimeout dt => Sys2Proof.Machine.execFlashOperationTimeout dt s
  | .sliceDone dt q sig rows => Sys2Proof.Machine.execSliceDone dt q sig rows s
  | .sliceTimeout dt q => Sys2Proof.Machine.execSliceTimeout dt q s
  | .rotation dt => Sys2Proof.Machine.execRotation dt s
  | .corrected dt array unit line channel stored scrub => Sys2Proof.Machine.execCorrected dt array unit line channel stored scrub s
  | .uncorrectable dt array unit line channel stored use a b clean => Sys2Proof.Machine.execUncorrectable dt array unit line channel stored use a b clean s
  | .edc dt ch line lines n write clean => Sys2Proof.Machine.execEdc dt ch line lines n write clean s
  | .scrubLate dt array ms => Sys2Proof.Machine.execScrubLate dt array ms s
  | .nocDenied dt p target initiator write address len => Sys2Proof.Machine.execNocDenied dt p target initiator write address len s
  | .bwShort dt p target => Sys2Proof.Machine.execBwShort dt p target s
  | .thermal dt sensor temp => Sys2Proof.Machine.execThermal dt sensor temp s
  | .pchFunc dt seq => Sys2Proof.Machine.execPchFunc dt seq s
  | .pchOut dt seq => Sys2Proof.Machine.execPchOut dt seq s
  | .heartbeat dt seq payload => Sys2Proof.Machine.execHeartbeat dt seq payload s
  | .bind dt seq payload => Sys2Proof.Machine.execBind dt seq payload s
  | .unbind dt seq payload => Sys2Proof.Machine.execUnbind dt seq payload s
  | .stayState dt seq payload => Sys2Proof.Machine.execStayState dt seq payload s
  | .staySafe dt seq payload => Sys2Proof.Machine.execStaySafe dt seq payload s
  | .cfg dt seq payload => Sys2Proof.Machine.execCfg dt seq payload s
  | .nak dt atShroud seq payload => Sys2Proof.Machine.execNak dt atShroud seq payload s
  | .inputs dt seq raw => Sys2Proof.Machine.execInputs dt seq raw s
  | .hch dt seq => Sys2Proof.Machine.execHch dt seq s
  | .outputs dt seq => Sys2Proof.Machine.execOutputs dt seq s
  | .ack dt seq payload => Sys2Proof.Machine.execAck dt seq payload s
  | .stayFault dt seq payload => Sys2Proof.Machine.execStayFault dt seq payload s
  | .stayFrameReject dt atShroud typ payload lane0 lane1 => Sys2Proof.Machine.execStayFrameReject dt atShroud typ payload lane0 lane1 s
  | .stayLinkLossShroud dt => Sys2Proof.Machine.execStayLinkLossShroud dt s
  | .stayLinkLossLDie dt => Sys2Proof.Machine.execStayLinkLossLDie dt s
  | .filteredInputChange dt idx => Sys2Proof.Machine.execFilteredInputChange dt idx s
  | .testPulseStart dt k => Sys2Proof.Machine.execTestPulseStart dt k s
  | .testPulseEnd dt k before late => Sys2Proof.Machine.execTestPulseEnd dt k before late s
  | .discrepancyTimeout dt pch n => Sys2Proof.Machine.execDiscrepancyTimeout dt pch n s
  | .twohandTimeout dt pch n => Sys2Proof.Machine.execTwohandTimeout dt pch n s
  | .channelDiscrepancy dt shroud n => Sys2Proof.Machine.execChannelDiscrepancy dt shroud n s
  | .edmChange dt o => Sys2Proof.Machine.execEdmChange dt o s
  | .edmMsExpiry dt o => Sys2Proof.Machine.execEdmMsExpiry dt o s
  | .minOffExpiry dt prv idx => Sys2Proof.Machine.execMinOffExpiry dt prv idx s
  | .senseChange dt p high => Sys2Proof.Machine.execSenseChange dt p high s
  | .senseUsExpiry dt p => Sys2Proof.Machine.execSenseUsExpiry dt p s
  | .hsCommandTimeout dt p => Sys2Proof.Machine.execHsCommandTimeout dt p s
  | .heartbeatLapse dt n => Sys2Proof.Machine.execHeartbeatLapse dt n s
  | .plibexRx dt d ago => Sys2Proof.Machine.execPlibexRx dt d ago s
  | .rxWatchdogExpiry dt idx => Sys2Proof.Machine.execRxWatchdogExpiry dt idx s
  | .txPeriod dt idx => Sys2Proof.Machine.execTxPeriod dt idx s
  | .funcStateSend dt idx => Sys2Proof.Machine.execFuncStateSend dt idx s
  | .safeStateRepeat dt idx => Sys2Proof.Machine.execSafeStateRepeat dt idx s
  | .link dt m up speed => Sys2Proof.Machine.execLink dt m up speed s
  | .preempt dt m status => Sys2Proof.Machine.execPreempt dt m status s
  | .mgmtRequest dt m vlan kind ip data => Sys2Proof.Machine.execMgmtRequest dt m vlan kind ip data s
  | .telemetry dt => Sys2Proof.Machine.execTelemetry dt s
  | .archive dt ops => Sys2Proof.Machine.execArchive dt ops s
  | .foxQuoteGo dt fn => Sys2Proof.Machine.execFoxQuoteGo dt fn s
  | .quoteReady dt fn => Sys2Proof.Machine.execQuoteReady dt fn s
  | .doorbell dt fn off data => Sys2Proof.Machine.execDoorbell dt fn off data s
  | .descriptorFetch dt fn r bytes ok => Sys2Proof.Machine.execDescriptorFetch dt fn r bytes ok s
  | .ringEnable dt fn v => Sys2Proof.Machine.execRingEnable dt fn v s
  | .ringDisable dt fn v => Sys2Proof.Machine.execRingDisable dt fn v s
  | .registerWrite dt fn bar off data => Sys2Proof.Machine.execRegisterWrite dt fn bar off data s
  | .bar0Access dt fn kind bar off size => Sys2Proof.Machine.execBar0Access dt fn kind bar off size s
  | .functionReset dt fn kind speed width => Sys2Proof.Machine.execFunctionReset dt fn kind speed width s
  | .irqModerationTimeout dt fn r => Sys2Proof.Machine.execIrqModerationTimeout dt fn r s
  | .heldRecordWrite dt fn r => Sys2Proof.Machine.execHeldRecordWrite dt fn r s
  | .lostNotice dt fn r => Sys2Proof.Machine.execLostNotice dt fn r s
  | .ringGap dt fn r => Sys2Proof.Machine.execRingGap dt fn r s
  | .nop dt => Sys2Proof.Machine.execNop dt s
  | .watchOpen dt => Sys2Proof.Machine.execWatchOpen dt s
  | .watchParameterBlockRead dt fn r bytes ok => Sys2Proof.Machine.execWatchParameterBlockRead dt fn r bytes ok s
  | .watchClose dt => Sys2Proof.Machine.execWatchClose dt s
  | .watchClear dt => Sys2Proof.Machine.execWatchClear dt s
  | .frameAnnounce dt => Sys2Proof.Machine.execFrameAnnounce dt s
  | .modelStage dt => Sys2Proof.Machine.execModelStage dt s
  | .modelStageDone dt fn ok image => Sys2Proof.Machine.execModelStageDone dt fn ok image s
  | .modelSwitch dt => Sys2Proof.Machine.execModelSwitch dt s
  | .planStage dt => Sys2Proof.Machine.execPlanStage dt s
  | .planStageDone dt fn ok image wimage => Sys2Proof.Machine.execPlanStageDone dt fn ok image wimage s
  | .planSwitch dt => Sys2Proof.Machine.execPlanSwitch dt s
  | .goldenSchedule dt => Sys2Proof.Machine.execGoldenSchedule dt s
  | .goldenScheduleSet dt => Sys2Proof.Machine.execGoldenScheduleSet dt s
  | .goldenScheduleDone dt fn ok image => Sys2Proof.Machine.execGoldenScheduleDone dt fn ok image s
  | .configStage dt => Sys2Proof.Machine.execConfigStage dt s
  | .configStageDone dt fn ok image flash => Sys2Proof.Machine.execConfigStageDone dt fn ok image flash s
  | .configCommit dt => Sys2Proof.Machine.execConfigCommit dt s
  | .configCommitModeOnly dt => Sys2Proof.Machine.execConfigCommitModeOnly dt s
  | .configCommitDone dt fn ok => Sys2Proof.Machine.execConfigCommitDone dt fn ok s
  | .evidenceRead dt => Sys2Proof.Machine.execEvidenceRead dt s
  | .evidenceReadDone dt fn => Sys2Proof.Machine.execEvidenceReadDone dt fn s
  | .longOperationStart dt fn => Sys2Proof.Machine.execLongOperationStart dt fn s
  | .queryContext dt => Sys2Proof.Machine.execQueryContext dt s
  | .queryFrame dt => Sys2Proof.Machine.execQueryFrame dt s
  | .queryDevice dt => Sys2Proof.Machine.execQueryDevice dt s
  | .tackId dt tag => Sys2Proof.Machine.execTackId dt tag s
  | .authRead dt tag addr => Sys2Proof.Machine.execAuthRead dt tag addr s
  | .authWrite dt tag addr data => Sys2Proof.Machine.execAuthWrite dt tag addr data s
  | .authDone dt tag => Sys2Proof.Machine.execAuthDone dt tag s
  | .tackRead dt target tag addr done => Sys2Proof.Machine.execTackRead dt target tag addr done s
  | .tackWrite dt target tag addr data done => Sys2Proof.Machine.execTackWrite dt target tag addr data done s
  | .halt dt target tag => Sys2Proof.Machine.execHalt dt target tag s
  | .resume dt target tag => Sys2Proof.Machine.execResume dt target tag s
  | .tackStep dt target tag => Sys2Proof.Machine.execTackStep dt target tag s
  | .bpSet dt target tag addr => Sys2Proof.Machine.execBpSet dt target tag addr s
  | .bpClear dt target tag addr => Sys2Proof.Machine.execBpClear dt target tag addr s
  | .breakpointHit dt target n => Sys2Proof.Machine.execBreakpointHit dt target n s
  | .tackStatus dt target tag => Sys2Proof.Machine.execTackStatus dt target tag s
  | .tackReset dt tag => Sys2Proof.Machine.execTackReset dt tag s
  | .fuse dt tag addr data => Sys2Proof.Machine.execFuse dt tag addr data s
  | .test dt tag addr data => Sys2Proof.Machine.execTest dt tag addr data s
  | .tackBadRequest dt kind => Sys2Proof.Machine.execTackBadRequest dt kind s
  | .bypass dt din => Sys2Proof.Machine.execBypass dt din s
  | .idcode dt => Sys2Proof.Machine.execIdcode dt s
  | .samplePreload dt cap din => Sys2Proof.Machine.execSamplePreload dt cap din s
  | .extest dt cap din => Sys2Proof.Machine.execExtest dt cap din s
  | .clamp dt din => Sys2Proof.Machine.execClamp dt din s
  | .highz dt din => Sys2Proof.Machine.execHighz dt din s
  | .idle dt atShroud seq payload => Sys2Proof.Machine.execIdle dt atShroud seq payload s
  | .dieLinkNeedsRetraining dt => Sys2Proof.Machine.execDieLinkNeedsRetraining dt s
  | .owlPeriodStart dt idx => Sys2Proof.Machine.execOwlPeriodStart dt idx s
  | .busMasterEnable dt fn on msixOn msixMask mps mrrs => Sys2Proof.Machine.execBusMasterEnable dt fn on msixOn msixMask mps mrrs s
  | .lowerWordRead dt fn off => Sys2Proof.Machine.execLowerWordRead dt fn off s

end Sys2Proof.Machine
end

