-- ==== Sys2Proof/Safety.lean ====
section
/-! DEFINITION. The terms in which claims speak of states: outputs that are off, a restart, what the writing of records
leaves alone, and the invariants of the block. -/

namespace Sys2Proof.Machine

/-- No safety output of Shroud drives its load: no standard output is on, and no privileged output is on or on its way
there (R522, R523). -/
def State.outputsOff (s : State) : Prop :=
  (∀ o, (s.so o).st ≠ .on) ∧ (∀ p, (s.pv p).st ≠ .on ∧ (s.pv p).st ≠ .lsOn)

/-- t is s restarted from step k with a source: the sequencer stands before Dk, the blocks of Dk to D10 are at reset, and
Shroud has cleared its slots, its configuration and its outputs; fuses, flash and the queue stay (R661 to R664). -/
def State.restartedFrom (s t : State) (k source : Nat) : Prop :=
  t.rst.released = some (k - 1) ∧ t.rst.restarting = true ∧ t.rst.resetOutN = false ∧ t.rst.held = none ∧
  t.rst.source = source ∧ t.nvm.rst.source = source ∧ t.nvm.fuses = s.nvm.fuses ∧ t.nvm.slots = s.nvm.slots ∧
  t.glb = {} ∧ t.fr = {} ∧ t.pw = {} ∧ t.aud = {} ∧ t.bdg = {} ∧ t.vrd = {} ∧ t.hst = {} ∧ t.cor = {} ∧ t.plx = {} ∧
  t.tmb = {} ∧ t.owl = { flash := if k ≤ 2 then {} else s.owl.flash } ∧ t.log = {} ∧ t.mem.cells = [] ∧
  t.shr.cfgActive = false ∧ t.shr.slots = [] ∧ t.shr.safeLatch = false ∧ t.outputsOff ∧ t.pending = s.pending

/-- The state without what the writing of evidence and completion records changes: the log and its mirror, the hosts'
rings, the count of lost records, and what the device sends. Two states with equal `quiet` differ at most in these. -/
def State.quiet (s : State) : State :=
  { s with log := {}, hst := {}, out := [], nvm := { s.nvm with mirror := [] }, fox := { s.fox with lost := 0 } }

/-- d is the descriptor that the device takes next; its opcode is op, tenant n owns its function, and the operating state
accepts every opcode (R427, R429). -/
def State.taking (s : State) (d : Desc) (op n : Nat) : Prop :=
  s.nextTake = some d ∧ opcodeOf d.bytes = op ∧ s.tenantOf d.fn = some n ∧ s.glb.st ≠ .safe ∧
  (s.acting = .configured ∨ s.acting = .running)

/-- Bytes of a descriptor after its range checks, and its CLAMP_MAP (R431, R433). -/
def Desc.fields (d : Desc) : Bytes := (clampDesc d.bytes).2
def Desc.clamps (d : Desc) : Nat := (clampDesc d.bytes).1

/-- Index i of ring r of function fn has completed with the record c between s and t: where the completion ring is enabled
and the function masters the bus, the record is among what the device sends (R425, R441). -/
def State.wrote (s t : State) (fn r i : Nat) (c : Cpl) : Prop :=
  (s.ring fn ((s.ring fn r).cplOf i)).enable = true → (s.hfn fn).busMaster = true →
    ∃ n a, .record fn ((s.ring fn r).cplOf i) n a (c.bytes r i t.tmb.now) ∈ t.out

/-- In a halt of the control cores, Main and Mizzen in SERVICE stop where Fore has stopped, or, where they are past it, at
once; nothing else of a core changes, and in a halt of halted cores nothing at all (R824). -/
def State.metFore (s t : State) : Prop :=
  ∀ c, (s.tck.haltCores = true ∨ c = 0 ∨ 3 ≤ c ∨ (s.core c).st ≠ .service → t.core c = s.core c) ∧
    (s.tck.haltCores = false → c = 1 ∨ c = 2 → (s.core c).st = .service →
      t.core c = { s.core c with instr := max (s.core c).instr (s.core 0).instr })

/-- Descriptor d has been taken and completed with the record c. -/
def State.answered (s t : State) (d : Desc) (c : Cpl) : Prop :=
  t.hst.fetched = s.hst.fetched.erase d ∧ s.wrote t d.fn d.ring d.index c

/-- Long operation o of the running ones has ended with the record c. -/
def State.ended (s t : State) (o : LongOp) (c : Cpl) : Prop :=
  (t.hfn o.fn).longRun = none ∧ s.wrote t o.fn o.ring o.index c

/-- Between s and t the next evidence record has been written: device-wide, of a kind with a severity and a payload. Before
the log works (R698, R791) nothing is written. -/
def State.recorded (s t : State) (kind sev : Nat) (payload : Bytes) : Prop :=
  s.logReady = true → ∃ e ∈ t.log.records, e.kind = kind ∧ e.tenant = 0xFF ∧ e.severity = sev ∧ e.seq = s.log.nextSeq ∧
    e.payload = payload

/-- From s to t one telegram of a type with a payload has left on connection i, on its MAC: the next sequence number, the
REPEAT flag where the payload is the previous one's, the SAFE flag on a SAFE_STATE telegram, and the time where it is
valid; t's clock is its sending time, and no other connection has changed (R550, R551, R564). -/
def State.sent (s t : State) (i typ : Nat) (payload : Bytes) : Prop :=
  (∃ m, .telegram i m (telegramBytes typ (b2n (typ == 2) + 2 * b2n ((s.conn i).lastPayload == some (typ, payload)))
    (s.cfg.active.connId i) (((s.conn i).txSeq + 1) % 2 ^ 32) (if t.timeValid then t.tmb.now / 16 else 0) payload
    s.cfg.active.devId (s.cfg.active.connPeer i)) ∈ t.out) ∧
  (t.conn i).txSeq = ((s.conn i).txSeq + 1) % 2 ^ 32 ∧ (t.conn i).sentAt = some t.mc ∧
  (∀ j, j ≠ i → t.conn j = s.conn j)

/-- The commands whose effect may reach Shroud's state: a reset or a loss of power, a frame or a lost frame of the Stay
link, and what Shroud's own inputs, outputs and timers do (R25, R500, R661). Every other command belongs to die L. -/
def reachesShroud : Instr → Bool
  | .powerOn .. | .sysReset .. | .clockFault .. | .powerGoodFailure .. | .thermalTrip .. | .foxSoftwareRequest ..
  | .powerFailWarning .. | .brownout .. | .safetyFwActivate .. | .owlHardTimer .. | .pchFunc .. | .pchOut ..
  | .heartbeat .. | .bind .. | .unbind .. | .stayState .. | .staySafe .. | .cfg .. | .nak .. | .inputs .. | .hch ..
  | .outputs .. | .ack .. | .stayFault .. | .stayFrameReject .. | .stayLinkLossShroud .. | .filteredInputChange ..
  | .testPulseStart .. | .testPulseEnd .. | .discrepancyTimeout .. | .twohandTimeout .. | .channelDiscrepancy ..
  | .edmChange .. | .edmMsExpiry .. | .minOffExpiry .. | .senseChange .. | .senseUsExpiry .. | .hsCommandTimeout ..
  | .heartbeatLapse .. | .tackReset .. | .idle .. => true
  | .domainRelease .. | .hold .. | .domainPowerGoodTimeout .. | .thermalTripHoldEnd .. | .returnWipe ..
  | .injectionTest .. | .bootComplete .. | .startupCalibrationDone .. | .frameTick .. | .dC .. | .mailboxPosted ..
  | .dV .. | .ingEnd .. | .shdStart .. | .shdEnd .. | .gldStart .. | .gldEnd .. | .slfStart .. | .slfEnd ..
  | .closeOut .. | .configActivate .. | .sync .. | .ppsInEdge .. | .syncTimeout .. | .holdoverExpiry ..
  | .gmChange .. | .pulseArm .. | .pulseDisarm .. | .pulseFire .. | .pulseEnd .. | .reportWindowWrite ..
  | .reportComplete .. | .goldenReportWrite .. | .openingWrite .. | .goldenInputRead .. | .portWInvalidWrite ..
  | .portWInvalidRead .. | .portWLinkDown .. | .wportLink .. | .leafVerify .. | .sha3Mismatch ..
  | .challengeWeightsInPlace .. | .unitDispatch .. | .auditBlockDone .. | .challengeTileDone .. | .engineFault ..
  | .drbgReseed .. | .entropyHealthFailure .. | .csiFrameStart .. | .csiLongPacket .. | .csiFrameEnd ..
  | .lidarDatagram .. | .shadowPassStart .. | .shadowPassDone .. | .modelProgrammed .. | .driftFailure ..
  | .referenceOperations .. | .calibrationMeasured .. | .tileReady .. | .dieLinkRetrain ..
  | .dieLinkRetrainTimeout .. | .comparisonStart .. | .comparisonDone .. | .ageMonitor .. | .trustHeartbeat ..
  | .tdegExpiry .. | .ledgerRequest .. | .checkpoint .. | .voteTimeout .. | .resyncCopyDone .. | .owlSetup ..
  | .owlServiceWrite .. | .owlCheckIn .. | .owlWindowOpen .. | .owlExpiry .. | .owlSuspend .. | .owlResume ..
  | .flashOperationTimeout .. | .sliceDone .. | .sliceTimeout .. | .rotation .. | .corrected .. | .uncorrectable ..
  | .edc .. | .scrubLate .. | .nocDenied .. | .bwShort .. | .thermal .. | .stayLinkLossLDie .. | .plibexRx ..
  | .rxWatchdogExpiry .. | .txPeriod .. | .funcStateSend .. | .safeStateRepeat .. | .link .. | .preempt ..
  | .mgmtRequest .. | .telemetry .. | .archive .. | .foxQuoteGo .. | .quoteReady .. | .doorbell ..
  | .descriptorFetch .. | .ringEnable .. | .ringDisable .. | .registerWrite .. | .bar0Access .. | .functionReset ..
  | .irqModerationTimeout .. | .heldRecordWrite .. | .lostNotice .. | .ringGap .. | .nop .. | .watchOpen ..
  | .watchParameterBlockRead .. | .watchClose .. | .watchClear .. | .frameAnnounce .. | .modelStage ..
  | .modelStageDone .. | .modelSwitch .. | .planStage .. | .planStageDone .. | .planSwitch .. | .goldenSchedule ..
  | .goldenScheduleSet .. | .goldenScheduleDone .. | .configStage .. | .configStageDone .. | .configCommit ..
  | .configCommitModeOnly .. | .configCommitDone .. | .evidenceRead .. | .evidenceReadDone ..
  | .longOperationStart .. | .queryContext .. | .queryFrame .. | .queryDevice .. | .tackId .. | .authRead ..
  | .authWrite .. | .authDone .. | .tackRead .. | .tackWrite .. | .halt .. | .resume .. | .tackStep .. | .bpSet ..
  | .bpClear .. | .breakpointHit .. | .tackStatus .. | .fuse .. | .test .. | .tackBadRequest .. | .bypass ..
  | .idcode .. | .samplePreload .. | .extest .. | .clamp .. | .highz .. | .dieLinkNeedsRetraining ..
  | .owlPeriodStart .. | .busMasterEnable .. | .lowerWordRead .. => false

/-- The memories are in canonical form. -/
def State.memWf (s : State) : Prop := s.mem.wf = true

end Sys2Proof.Machine
end

