-- ==== Sys2Proof/Certificates/Slice0/Obligations.lean ====
section
/-! DEFINITION. The statements about the CLN9470 that the provers prove, in the order of OBLIGATIONS.json. -/

open Sys2Proof Sys2Proof.Machine

/-! ### The queue and the whole block -/

/-- The model's own rule of the queue, in place of a fetch: the front command runs with the rest behind it, and an empty
queue idles (assumption 1). -/
def Obligations.StepRunsFrontCommand : Prop :=
  (∀ (c : Instr) (s : State), step { s with pending := c :: s.pending } = exec c s) ∧
  (∀ s : State, s.pending = [] → step s = .next s)

/-- R41, R43, R81, R522, R523: after power-on the device is in START_UP, no step has been released, nothing drives an
output, no frame runs, and nothing waits. The registers and memories without a stated reset value read 0 (the model's
choice, assumptions 2 and 4). -/
def Obligations.ResetIsStartUpWithNothingOn : Prop :=
  State.reset.memWf ∧ State.reset.outputsOff ∧ State.reset.pending = [] ∧ State.reset.glb.st = .startUp ∧
  State.reset.rst.released = none ∧ State.reset.rst.resetOutN = false ∧ State.reset.fr.ticking = false ∧
  State.reset.openCtxs = [] ∧ State.reset.tmb.valid = false ∧ State.reset.shr.cfgActive = false ∧
  (∀ fn r, (State.reset.ring fn r).enable = false) ∧ step State.reset = .next State.reset

/-- In every state, the command at the front runs to a next state: none is refused and none faults. The queue loses exactly
its front (the model's own rule, assumption 1), the clock does not run back, no blown fuse is lost (R742), and the memories
keep their canonical form. -/
def Obligations.EveryStepKeepsQueueClockFusesAndMemory : Prop :=
  ∀ s : State, ∃ t, step s = .next t ∧ t.pending = s.pending.tail ∧ s.mc ≤ t.mc ∧
    s.nvm.fuses ||| t.nvm.fuses = t.nvm.fuses ∧ (s.memWf → t.memWf)

/-- R18, R20: no command of die L, of a host, of the accelerator, of Fox or of Tack (its RESET apart) changes anything of
the die Shroud: only a reset, a loss of power, a frame of the Stay link, and Shroud's own inputs, outputs and timers do. -/
def Obligations.OnlyShroudsOwnEventsReachShroud : Prop :=
  ∀ (c : Instr) (s : State), reachesShroud c = false → ∃ t, exec c s = .next t ∧ t.shr = s.shr

/-- R44: whatever command runs in SAFE, the device stays in SAFE with the same cause, or a reset has brought the operating
state back to START_UP with RESET_OUT_N low. -/
def Obligations.SafeIsLeftOnlyThroughAReset : Prop :=
  ∀ (c : Instr) (s t : State), s.glb.st = .safe → exec c s = .next t →
    (t.glb.st = .safe ∧ t.glb.cause = s.glb.cause) ∨ (t.glb = {} ∧ t.rst.resetOutN = false)

/-- R534: an accepted SAFE frame sets the safe latch and leaves every output off; and from then on, whatever command runs,
every output stays off, and only a reset clears the latch. -/
def Obligations.SafeLatchHoldsTheOutputsOff : Prop :=
  (∀ (dt seq : Nat) (p : Bytes) (s : State), s.atStep 3 = true → seq = s.shr.link.expect → reservedOk 0x07 p = true →
    ∃ t, exec (.staySafe dt seq p) s = .next t ∧ t.shr.safeLatch = true ∧ t.outputsOff ∧ t.shr.link.lastSeq = seq ∧
      t.shr.slots = s.shr.slots ∧ t.glb = s.glb ∧ t.mem = s.mem) ∧
  (∀ (c : Instr) (s t : State), s.shr.safeLatch = true → s.outputsOff → exec c s = .next t →
    t.outputsOff ∧ (t.shr.safeLatch = true ∨ (t.glb = {} ∧ t.rst.resetOutN = false)))

/-! ### Reset, power and start (chapters 14 and 16) -/

/-- R661, R662, R664: after POWER_ON everything but flash, fuses, MRAM and the queue stands at its reset value.
R688, R690, R692: a domain without power-good stays off; a power-fail warning drives every output off, latches Shroud
safe, and puts D2 to D10 at reset. -/
def Obligations.PowerComesAndGoes : Prop :=
  (∀ (dt : Nat) (pins : ResetPins) (s : State), ∃ t, exec (.powerOn dt pins) s = .next t ∧
     t.rst.pins = pins ∧ t.rst.released = none ∧ t.rst.on = [] ∧ t.rst.resetOutN = false ∧ t.rst.held = none ∧
     t.glb = {} ∧ t.shr = {} ∧ t.pch = {} ∧ t.hst = {} ∧ t.vrd = {} ∧ t.cor = {} ∧ t.owl = {} ∧ t.tck = {} ∧ t.fox = {} ∧
     t.mem.cells = [] ∧ t.nvm.shadow = s.nvm.fuses ∧ t.nvm.fuses = s.nvm.fuses ∧ t.nvm.slots = s.nvm.slots ∧
     t.nvm.rst.source = 1 ∧ t.pending = s.pending) ∧
  (∀ (dt : Nat) (s : State),
     (∀ src, src ≤ 2 → s.rst.pf.since = none → ∃ t, exec (.powerFailWarning dt src) s = .next t ∧ t.outputsOff ∧
       t.shr.safeLatch = true ∧ t.shr.slots = [] ∧ t.rst.pf.since = some (s.mc + dt) ∧ t.rst.resetOutN = false ∧
       (∀ k, t.rst.released = some k → k ≤ 1) ∧ t.glb = {} ∧ t.hst = {} ∧
       t.nvm.rst.warned = true ∧ t.nvm.rst.lastSrc = src ∧ t.nvm.rst.bbUs ≤ 40 ∧ t.nvm.fuses = s.nvm.fuses) ∧
     (∀ d, d < 132 → s.rst.on.Nodup → ∃ t, exec (.domainPowerGoodTimeout dt d) s = .next t ∧ d ∉ t.rst.on ∧
       t.rst.pdLast = d ∧ t.rst.pdCount = inc 16 s.rst.pdCount ∧
       t.quiet = { (s.advance dt).quiet with rst := { s.rst with on := s.rst.on.erase d, pdLast := d, pdCount := inc 16 s.rst.pdCount } }))

/-- R659, R661 to R665, R680, R693: SYS_RESET_N driven low or not driven, a brown-out, and a clock fault or a power-good
failure of a released step restart the sequencer from their steps. The source code of a power-good failure is the model's
free value (assumption 7).
R665, R666, R678: the hold after a thermal trip ends with source 0x6; a fault of Fox's clock restarts Fox alone; a
fault before a step's release only interrupts its condition. -/
def Obligations.SupplyAndClockSourcesRestart : Prop :=
  (∀ (dt : Nat) (s : State), s.rst.restarting = false →
     exec (.sysReset dt .high) s = .next (s.advance dt) ∧
     (∀ sys, sys ≠ .high → s.rst.pf.since = none →
       ∃ t, exec (.sysReset dt sys) s = .next t ∧ s.restartedFrom t 1 2 ∧ t.nvm.shadow = s.nvm.fuses) ∧
     (∀ w, s.rst.pf.since = some w → s.mc + dt - w ≥ 10 * msMc →
       ∃ t, exec (.brownout dt) s = .next t ∧ s.restartedFrom t 1 1 ∧ t.nvm.rst.brownout = true) ∧
     (s.resettable = true → s.atStep 3 = true →
       (∀ k, ∃ t, exec (.clockFault dt 0 k) s = .next t ∧ s.restartedFrom t 2 5 ∧ t.rst.waitRefclk = true) ∧
       (∀ w k, 2 ≤ w → s.atStep k = true → ∃ t, exec (.clockFault dt w k) s = .next t ∧ s.restartedFrom t 3 5) ∧
       (∃ t v, exec (.powerGoodFailure dt 2) s = .next t ∧ s.restartedFrom t 2 v ∧ v < 16) ∧
       (∀ k, k ≠ 2 → s.atStep k = true →
         ∃ t v, exec (.powerGoodFailure dt k) s = .next t ∧ s.restartedFrom t 3 v ∧ v < 16))) ∧
  (∀ (dt : Nat) (s : State),
     (s.rst.tripHold = true → s.rst.tripAt + 1000 * msMc ≤ s.mc + dt → ∃ t, exec (.thermalTripHoldEnd dt) s = .next t ∧ t.rst.tripHold = false ∧ t.rst.source = 6 ∧
       t.nvm.rst.source = 6 ∧ t.rst.releasedAt = s.mc + dt ∧ t.rst.released = s.rst.released ∧ t.glb = s.glb ∧
       t.shr = s.shr ∧ t.hst = s.hst ∧ t.mem = s.mem) ∧
     (s.resettable = true → s.atStep 3 = true →
       ∃ t, (∀ k, exec (.clockFault dt 1 k) s = .next t) ∧ t.fox.st = .reset ∧ t.nvm.rst.source = 5 ∧
         t.rst.on = s.rst.on.erase 113 ∧ t.rst.released = s.rst.released ∧ t.glb = s.glb ∧ t.shr = s.shr ∧ t.hst = s.hst ∧
         t.vrd = s.vrd ∧ t.mem = s.mem) ∧
     (∀ w k, 2 ≤ w → s.atStep k = false → ∃ t, exec (.clockFault dt w k) s = .next t ∧
       exec (.powerGoodFailure dt k) s = .next t ∧ t.rst.condFrom.lookup k = none ∧
       { t with rst := s.rst } = s.advance dt))

/-- R27, R661, R666, R667, R719, R780, R829: a thermal trip, Fox's software request with every output off, the one that
follows a firmware commit, Owl-S's hard timer, the loss of the Stay link and Tack's RESET restart the sequencer. -/
def Obligations.InternalSourcesRestart : Prop :=
  ∀ (dt : Nat) (s : State), s.rst.restarting = false → s.resettable = true →
    (∃ t, exec (.thermalTrip dt) s = .next t ∧ s.restartedFrom t 3 6 ∧ t.rst.tripHold = true) ∧
    (s.allOff = true → (∀ x ∈ s.shr.slots, x.2.bound = false) →
      (∃ t, exec (.foxSoftwareRequest dt) s = .next t ∧ s.restartedFrom t 3 8) ∧
      (∀ c, s.cfg.fwCommitAt = some c → c + 10 * msMc ≤ s.mc + dt → s.fox.st ≠ .reset →
        ∃ t, exec (.safetyFwActivate dt) s = .next t ∧ s.restartedFrom t 3 8)) ∧
    (s.owl.s.live = true → s.owl.s.st = .trap → (s.advance dt).owlCyc - s.owl.s.trapCyc ≥ s.hardCycles 0 →
      ∃ t, exec (.owlHardTimer dt 0) s = .next t ∧ s.restartedFrom t 3 3) ∧
    (s.shr.link.isLost (s.advance dt).cyc = true → ∃ t, exec (.stayLinkLossShroud dt) s = .next t ∧ s.restartedFrom t 2 7) ∧
    (∀ tag, s.tackOn = true → s.tck.lastTag = none → s.tck.retry = none → (s.advance dt).accessCause rowReset false = 0 →
      ∃ t, exec (.tackReset dt tag) s = .next t ∧ s.restartedFrom t 2 9)

/-- R659, R676 to R678, R681: a step after D1 is released once the step before has been, its gap has ended, both reset
inputs are driven high and its condition has held for 256 cycles of REFCLK, with nothing that holds it.
R679: a step that is not released CG_TIMEOUT after its gap holds every later step, and RESET_OUT_N stays low. -/
def Obligations.StepsAreReleasedInOrder : Prop :=
  (∀ (dt k c : Nat) (pins : ResetPins) (good : List Nat) (s : State), 2 ≤ k → k ≤ 10 → s.rst.released = some (k - 1) →
     s.rst.held = none → s.rst.pf.holding = false → s.rst.tripHold = false → s.life ≠ 5 →
     s.rst.gap k * refMc ≤ s.mc + dt - s.rst.releasedAt → pins.sys = .high → pins.pwr = .high →
     (s.rst.waitRefclk = true → 1 ∈ good) → k ∈ good → s.rst.condFrom.lookup k = some c → c + 256 * refMc ≤ s.mc + dt →
     (k = 8 → msMc ≤ s.mc + dt - s.rst.resetOutAt) →
     ∃ t, exec (.domainRelease dt k pins good) s = .next t ∧ t.rst.released = some k ∧ t.rst.releasedAt = s.mc + dt ∧
       t.rst.restarting = (k != 10) ∧ t.shr = s.shr ∧ t.pending = s.pending) ∧
  (∀ (dt k cond : Nat) (s : State), 2 ≤ k → k ≤ 10 → s.rst.held = none → s.rst.released = some (k - 1) →
     s.rst.tripHold = false → s.rst.pf.holding = false → (s.advance dt).mayRelease k = false →
     s.mc + dt - s.rst.releasedAt ≥ (s.rst.gap k + s.rst.cgTimeout) * refMc →
     ∃ t, exec (.hold dt k cond) s = .next t ∧ t.rst.held = some k ∧ t.rst.resetOutN = false ∧ t.nvm.rst.lastHold = k ∧
       t.rst.released = s.rst.released ∧ t.glb = s.glb ∧ t.shr = s.shr ∧ t.mem = s.mem ∧ t.hst = s.hst ∧
       (∀ d j pins good, j ≠ 2 → ∃ u, exec (.domainRelease d j pins good) t = .next u ∧ u.rst.held = some k ∧
         u.rst.released = t.rst.released ∧ { u with rst := t.rst } = t.advance d))

/-- R41, R749, R766: without a valid configuration the boot ends in MAINTENANCE with the flag "no configuration"; with one
it ends in CONFIGURED under it.
R750: at a start in RETURN the configuration, keys, password, change log, archive and memories are wiped, and the log
starts again at SEQ 1.
R41, R488, R489: the start-up test of voter and ledger passes, or brings the device into SAFE with cause 0x19. -/
def Obligations.StartUpWipesTestsAndBoots : Prop :=
  (∀ (dt : Nat) (s : State), s.mayBoot = true → s.glb.st = .startUp →
     (s.storedConfig = none → ∃ t, exec (.bootComplete dt) s = .next t ∧ t.glb.st = .maintenance ∧ t.glb.noConfig = true ∧
       t.glb.booted = true ∧ t.shr = s.shr ∧ t.cfg = s.cfg ∧ t.mem = s.mem) ∧
     (∀ c, s.storedConfig = some c → s.lifePending = false → (∀ b ∈ (s.nvm.ranked 5).head?, (s.nvm.crec b 5).clogSeq ≤ s.nvm.clogSeq) →
       ∃ t, exec (.bootComplete dt) s = .next t ∧ t.glb.st = .configured ∧ t.glb.booted = true ∧ t.cfg.active = c)) ∧
  (∀ (dt : Nat) (s : State), s.life = 4 → s.glb.st = .startUp → s.atStep 4 = true → s.cfg.wiped = false →
     ∃ t, exec (.returnWipe dt) s = .next t ∧ t.mem.cells = [] ∧ t.nvm.ikey = none ∧ t.nvm.password = none ∧
       t.nvm.clog = [] ∧ t.nvm.archive = [] ∧ t.nvm.wipeDone = true ∧ t.cfg.wiped = true ∧ t.nvm.fuses = s.nvm.fuses ∧
       (t.log.records.map (·.seq)) = [1] ∧ t.rst = s.rst ∧ t.glb = s.glb ∧ t.shr = s.shr) ∧
  (∀ (dt passed first us : Nat) (s : State), s.atStep 5 = true → s.glb.booted = false → s.glb.st = .startUp →
     ∃ t, exec (.injectionTest dt passed first us) s = .next t ∧ t.cor.injPassed = passed % 16 ∧ t.cor.injFirst = first % 16 ∧
       (first = 0 → passed = 10 → t.glb.st = .startUp ∧ t.cor.injPass = true ∧ t.cor.ledger = [] ∧ t.cor.records = []) ∧
       (first ≠ 0 ∨ passed ≠ 10 → t.glb.st = .safe ∧ t.glb.cause = 0x19 ∧ t.cor.injPass = false ∧
         ∀ c, c < 3 → (t.core c).st = .held))

/-! ### Frames, partitions and the time base (chapters 01, 02, 12) -/

/-- R72, R73, R75: the frame tick starts the next frame at the time it was due, with every slot edge to come.
R75, R778: a committed configuration takes effect at its boundary, and not before. -/
def Obligations.FramesAndConfigurationsBegin : Prop :=
  (∀ (dt : Nat) (s : State), s.cfg.next = none → (s.advance dt).tickDue = true →
     ∃ t, exec (.frameTick dt) s = .next t ∧ t.fr.ticking = true ∧ t.fr.tick = s.fr.nextTick ∧ t.fr.fired = [] ∧
       (s.fr.ticking = true → t.fr.num = s.fr.num + 1) ∧ t.mc = s.mc + dt ∧ t.shr = s.shr ∧ t.tck = s.tck ∧
       t.pending = s.pending) ∧
  (∀ (dt : Nat) (s : State) (c : Cfg), s.cfg.next = some c → s.cfg.atRestart = false →
     (s.cfg.boundary ≤ (s.advance dt).tmb.now → ∃ t, exec (.configActivate dt) s = .next t ∧ t.cfg.active = c ∧
       t.cfg.next = none ∧ t.cfg.hasActive = true ∧ t.mc = s.mc + dt ∧ t.glb = s.glb) ∧
     ((s.advance dt).tmb.now < s.cfg.boundary → exec (.configActivate dt) s = .next (s.advance dt)))

/-- R77, R85: a slot edge fires at its command once its time has come, and once in a frame; before its time the command
changes only the clock.
R137, R144, R264: at D_c a report that is neither complete nor failed, in an armed slot or begun, is INCOMPLETE, and at
D_v the mailbox closes. -/
def Obligations.SlotEdgesFireOnce : Prop :=
  (∀ (dt lanes : Nat) (s : State), ∀ x ∈ ([(0, .dC dt), (1, .dV dt lanes), (2, .ingEnd dt), (3, .shdStart dt), (4, .shdEnd dt),
       (5, .gldStart dt), (6, .gldEnd dt), (7, .slfStart dt), (8, .slfEnd dt), (9, .closeOut dt)] : List (Nat × Instr)),
     ((s.advance dt).edgeDue x.1 = true → ∃ t, exec x.2 s = .next t ∧ x.1 ∈ t.fr.fired ∧ t.fr.num = s.fr.num ∧
       t.fr.tick = s.fr.tick ∧ t.mc = s.mc + dt ∧ t.shr = s.shr ∧ t.rst.released = s.rst.released ∧ t.pending = s.pending) ∧
     ((s.advance dt).edgeDue x.1 = false → exec x.2 s = .next (s.advance dt))) ∧
  (∀ (dt lanes : Nat) (s : State),
     ((s.advance dt).edgeDue 0 = true → ∃ t, exec (.dC dt) s = .next t ∧
       ∀ i, i < 128 → (s.armed i = true ∧ (s.slot i).rep.code = 0) ∨ (s.slot i).rep.code = 1 → (t.slot i).rep.code = 3) ∧
     ((s.advance dt).edgeDue 1 = true → ∃ t, exec (.dV dt lanes) s = .next t ∧ t.aud.mbox.state = 3 ∧
       (∀ c ∈ t.aud.mbox.entries, 4 ≤ c.status)))

/-- R40, R96 to R98, R100: a transaction that its partition does not permit is counted against it, recorded, and completed
with error status; a permitted one goes through. A minimum that a SAFETY partition did not receive is counted and
recorded. Nothing else changes.
R22, R23: retraining of the die link starts once; it ends within 1 ms, and later, or more than four times in a second,
the device is in SAFE with cause 0x16. -/
def Obligations.PartitionViolationsAndDieLink : Prop :=
  (∀ (dt p target init addr len : Nat) (write : Bool) (s : State),
     ((s.advance dt).nocAllowed p target write addr len = true →
       exec (.nocDenied dt p target init write addr len) s = .next (s.advance dt)) ∧
     ((s.advance dt).nocAllowed p target write addr len = false →
       ∃ t, exec (.nocDenied dt p target init write addr len) s = .next t ∧ .nocError init addr ∈ t.out ∧
       s.recorded t 0x0102 1 (le 1 p ++ le 1 target ++ le 2 init ++ zeros 4 ++ le 8 addr) ∧ t.quiet = { (s.advance dt).quiet with
       prt := { s.prt with denied := tinc s.prt.denied 16 (p % 64) } }) ∧
     (s.cfg.active.prtSafety p = true → ∃ t, exec (.bwShort dt p target) s = .next t ∧
       s.recorded t 0x0103 1 (le 1 p ++ le 1 target) ∧ t.quiet = { (s.advance dt).quiet with
         prt := { s.prt with short := tinc s.prt.short 16 p } })) ∧
  (∀ (dt : Nat) (s : State),
     (s.atStep 7 = true → s.die.retraining = none → ∃ t, exec (.dieLinkNeedsRetraining dt) s = .next t ∧
       t = { s.advance dt with die := { s.die with retraining := some (s.mc + dt) } }) ∧
     (∀ t0, s.die.retraining = some t0 → s.mc + dt ≤ t0 + msMc →
       ∃ t, exec (.dieLinkRetrain dt) s = .next t ∧ t.die.retraining = none ∧
         ((s.die.count (s.mc + dt)).length ≤ 4 → t.glb = s.glb) ∧
         (4 < (s.die.count (s.mc + dt)).length → t.glb.st = .safe ∧ (s.glb.st ≠ .safe → t.glb.cause = 0x16))) ∧
     (∀ t0, s.die.retraining = some t0 → t0 + msMc ≤ s.mc + dt →
       ∃ t, exec (.dieLinkRetrainTimeout dt) s = .next t ∧ t.glb.st = .safe ∧ (s.glb.st ≠ .safe → t.glb.cause = 0x16)))

/-- R594, R601, R605: in SLAVE and LOCKED a Sync within STEP_NS of the local time becomes the last sample, with its offset
in ns, and the count is not stepped.
R598, R605: samples that stay away bring the servo into HOLDOVER, which sets SYNC_LOST after HOLDOVER_S; another
grandmaster is counted. -/
def Obligations.SyncsAreTakenOrMissed : Prop :=
  (∀ (dt m domNs : Nat) (s : State), s.tmb.running = true → s.portOn m = true → s.tmb.role = 0 → s.tmb.servo = .locked →
     let now := (s.advance dt).tmb.now
     let dev : Int := (domNs : Int) - s.tmb.epoch * 1000000000
     0 ≤ dev → dev < (2 ^ 60 : Nat) → (16 * dev - now).natAbs ≤ 16 * s.stepNs →
     ∃ t, exec (.sync dt m domNs) s = .next t ∧ t.tmb.offset = satNs (16 * dev - now) ∧ t.tmb.lastSample = some now ∧
       t.tmb.now = now ∧ t.tmb.servo = .locked ∧ t.tmb.slavePort = m ∧ t.tmb.steps = s.tmb.steps ∧
       { t.quiet with tmb := {} } = { (s.advance dt).quiet with tmb := {} }) ∧
  (∀ (dt : Nat) (s : State),
     (∀ l, s.tmb.servo = .locked → s.tmb.role ≠ 1 → s.tmb.lastSample = some l →
       l + 3 * s.syncInterval ≤ (s.advance dt).tmb.now →
       ∃ t, exec (.syncTimeout dt) s = .next t ∧ t.tmb.servo = .holdover ∧ t.tmb.holdFrom = (s.advance dt).tmb.now ∧
         t.tmb.holdovers = inc 16 s.tmb.holdovers ∧ { t.quiet with tmb := {} } = { (s.advance dt).quiet with tmb := {} }) ∧
     (s.tmb.servo = .holdover → s.tmb.syncLost = false → s.tmb.holdFrom + s.holdoverS * s16 ≤ (s.advance dt).tmb.now →
       ∃ t, exec (.holdoverExpiry dt) s = .next t ∧
         t.quiet = { (s.advance dt).quiet with tmb := { (s.advance dt).tmb with syncLost := true } }) ∧
     (∀ m gm, s.tmb.running = true → s.portOn m = true → s.tmb.role = 0 → gm < 2 ^ 64 → gm ≠ s.tmb.gm →
       ∃ t, exec (.gmChange dt m gm) s = .next t ∧ t.quiet = { (s.advance dt).quiet with
         tmb := { (s.advance dt).tmb with gm := gm, gmChanges := inc 16 s.tmb.gmChanges } }))

/-- R620, R621: the first edge of PPS_IN, and one 900 ms or more after the last accepted one, is accepted: its time and its
offset from the nearest second are kept; an earlier one is only counted. (In GM_PPS an accepted edge is a sample as well.)
R613, R615, R616, R618: a pulse of its owner arms, fires when its compare unit comes, ends with its width, and MODE 0
disarms it; a unit that fires in the main clock of such a write fires before the write takes effect. -/
def Obligations.PpsEdgesAndPulses : Prop :=
  (∀ (dt : Nat) (s : State), s.tmb.running = true → let e := (s.advance dt).tmb.edgeTime
     ((∀ l, s.tmb.ppsLast = some l → l + 900 * ms16 ≤ e) → ∃ t, exec (.ppsInEdge dt) s = .next t ∧ t.tmb.ppsTime = e ∧
       t.tmb.ppsErr = satNs (fromSecond e) ∧ t.tmb.ppsEdges = inc 16 s.tmb.ppsEdges ∧ t.tmb.ppsIgnored = s.tmb.ppsIgnored ∧
       t.shr = s.shr ∧ t.mem = s.mem ∧
       (s.tmb.role ≠ 2 → t = { s.advance dt with tmb := { (s.advance dt).tmb with
         ppsTime := e, ppsErr := satNs (fromSecond e), ppsEdges := inc 16 s.tmb.ppsEdges, ppsLast := some e } })) ∧
     (∀ l, s.tmb.ppsLast = some l → e < l + 900 * ms16 →
       exec (.ppsInEdge dt) s = .next { s.advance dt with tmb := { (s.advance dt).tmb with ppsIgnored := inc 16 s.tmb.ppsIgnored } })) ∧
  (∀ (dt fn p v : Nat) (s : State), p < 8 →
     (s.ownsPulse fn p = true → 
       let x := { s.pulse p with mode := fld v 0 2, pol := bitAt v 2 }
       ((s.advance dt).pulseDue p = true →
         (∃ t, exec (.pulseArm dt fn p v) s = .next t ∧ (t.pulse p).active = true ∧ (∀ q, q ≠ p → t.pulse q = s.pulse q)) ∧
         (∃ t, exec (.pulseDisarm dt fn p v) s = .next t ∧ (t.pulse p).active = true ∧ (t.pulse p).armed = false ∧
           (t.pulse p).mode = 0 ∧ (∀ q, q ≠ p → t.pulse q = s.pulse q))) ∧
       ((s.advance dt).pulseDue p = false → x.mode = 1 → (s.advance dt).pulseErr x = 0 → ∃ t, exec (.pulseArm dt fn p v) s = .next t ∧ (t.pulse p).armed = true ∧
         (t.pulse p).err = 0 ∧ (t.pulse p).next = x.start ∧ (∀ q, q ≠ p → t.pulse q = s.pulse q) ∧
         p ∈ t.rst.pinTaken ∧ { t with tmb := {}, rst := s.rst } = { s.advance dt with tmb := {} }) ∧
       ((s.advance dt).pulseDue p = false → (s.advance dt).pulseErr x ≠ 0 → ∃ t, exec (.pulseArm dt fn p v) s = .next t ∧ (t.pulse p).armed = false ∧
         (t.pulse p).err = (s.advance dt).pulseErr x) ∧
       ((s.advance dt).pulseDue p = false → ∃ t, exec (.pulseDisarm dt fn p v) s = .next t ∧ (t.pulse p).armed = false ∧
         (t.pulse p).mode = 0 ∧ (∀ q, q ≠ p → t.pulse q = s.pulse q) ∧ { t with tmb := {} } = { s.advance dt with tmb := {} })) ∧
     ((s.advance dt).pulseDue p = true → (s.pulse p).mode = 1 →
       ∃ t, exec (.pulseFire dt p) s = .next t ∧ (t.pulse p).active = true ∧ (t.pulse p).armed = false ∧
         (t.pulse p).endAt = s.mc + dt + ceilDiv ((s.pulse p).width * 9) 5 ∧ (∀ q, q ≠ p → t.pulse q = s.pulse q) ∧
         { t with tmb := {} } = { s.advance dt with tmb := {} }) ∧
     ((s.pulse p).active = true → (s.pulse p).endAt ≤ s.mc + dt →
       ∃ t, exec (.pulseEnd dt p) s = .next t ∧ (t.pulse p).active = false ∧ (∀ q, q ≠ p → t.pulse q = s.pulse q) ∧
         { t with tmb := {} } = { s.advance dt with tmb := {} }))

/-! ### Port W, reports, plans and challenges (chapters 03, 04, 05) -/

/-- R129 to R132, R136: a write that the rules accept appends exactly its bytes, in order, to the report of its slot; no
other slot's report, and no other part of the device, is touched.
R133, R135: when its last byte has been accepted before D_c, a report whose CHECK agrees becomes COMPLETE, and one
whose CHECK does not agree fails with 0x1D. -/
def Obligations.ReportsGrowAndComplete : Prop :=
  (∀ (dt i off : Nat) (data : Bytes) (s : State) (r : Report), i < 128 → s.fr.ticking = true → s.armed i = true →
     (s.slot i).rep.write ((s.advance dt).slotCtx i) off data false ((s.advance dt).past 0) (s.advance dt).tmb.now (s.mc + dt) =
       .accept r →
     off = (s.slot i).rep.bytes.length ∧ r.bytes = (s.slot i).rep.bytes ++ data ∧ r.code = 1 ∧
     ∃ t, exec (.reportWindowWrite dt i off data false) s = .next t ∧ (t.slot i).rep = r ∧
       (∀ j, j ≠ i → t.slot j = s.slot j) ∧ t.aud = s.aud ∧ t.vrd = s.vrd ∧ t.log = s.log ∧ t.hst = s.hst ∧ t.shr = s.shr ∧
       t.mem = s.mem ∧ t.pending = s.pending) ∧
  (∀ (dt i : Nat) (s : State), (s.slot i).rep.code = 1 → (s.slot i).rep.full = true → (s.slot i).rep.abandoned = false →
     (s.advance dt).past 0 = false →
     let b := (s.slot i).rep.bytes
     (checkOk ((s.advance dt).slotCtx i) b (b.length - 48) = true →
       ∃ t, exec (.reportComplete dt false i) s = .next t ∧ (t.slot i).rep.code = 2 ∧ (t.slot i).rep.bytes = (s.slot i).rep.bytes ∧
         (∀ j, j ≠ i → t.slot j = s.slot j) ∧ t.shr = s.shr ∧ t.mem = s.mem) ∧
     (checkOk ((s.advance dt).slotCtx i) b (b.length - 48) = false →
       ∃ t, exec (.reportComplete dt false i) s = .next t ∧ (t.slot i).rep.code = 0x1D ∧
         (∀ j, j ≠ i → t.slot j = s.slot j) ∧ { t.quiet with pw := {} } = { (s.advance dt).quiet with pw := {} }))

/-- R121, R138: a write to the window of a slot that is not armed, and one before the frame tick has started, is counted
STALE and discarded whatever else holds; one to an armed slot at or after D_c is counted LATE_WRITE and discarded. The
report and its code stay as they are. -/
def Obligations.StaleAndLateWritesAreDiscarded : Prop :=
  ∀ (dt i off : Nat) (data : Bytes) (poisoned : Bool) (s : State), i < 128 →
    (s.armed i = false ∨ s.fr.ticking = false → ∃ t, exec (.reportWindowWrite dt i off data poisoned) s = .next t ∧
      (t.slot i).stale = inc 16 (s.slot i).stale ∧ (t.slot i).lateWrite = (s.slot i).lateWrite ∧
      (t.slot i).rep = (s.slot i).rep ∧ (∀ j, j ≠ i → t.slot j = s.slot j) ∧
      { t with pw := {} } = { s.advance dt with pw := {} }) ∧
    (s.armed i = true → s.fr.ticking = true → (s.advance dt).past 0 = true →
      ∃ t, exec (.reportWindowWrite dt i off data poisoned) s = .next t ∧
      (t.slot i).lateWrite = inc 16 (s.slot i).lateWrite ∧ (t.slot i).stale = (s.slot i).stale ∧
      (t.slot i).rep = (s.slot i).rep ∧ (∀ j, j ≠ i → t.slot j = s.slot j) ∧
      { t with pw := {} } = { s.advance dt with pw := {} })

/-- R107 to R110, R114, R115: writes to read-only regions and reads of write-only ones are counted, the latter with Completer
Abort; an AtomicOp completes as unsupported, and Bus Master Enable reads as 0; a link-down abandons the report in
progress; a link below Gen 5 x16 is recorded, and no other codes are taken (R9).
R116, R140, R388: a write of the golden report is appended while the test is pending in the golden slot; the golden
input is read there, and gets Completer Abort elsewhere. -/
def Obligations.PortWAndGoldenWindows : Prop :=
  (∀ (dt : Nat) (s : State),
     (∀ off (data : Bytes), data ≠ [] → off + data.length ≤ 0x100000000 ∨
         (0x200000000 ≤ off ∧ off + data.length ≤ 0x300000000) →
       ∃ t, exec (.portWInvalidWrite dt 0 off data false) s = .next t ∧
       t = { s.advance dt with pw := { s.pw with roWrites := inc 16 s.pw.roWrites } }) ∧
     (∀ off n, 0x10000 < off + n → ¬ (0x10000 ≤ off ∧ off + n ≤ 0x20000) → ¬ (0x200000000 ≤ off ∧ off + n ≤ 0x300000000) →
       ∃ t, exec (.portWInvalidRead dt 0 off n) s = .next t ∧ t = { s.advance dt with
         pw := { s.pw with caReads := inc 16 s.pw.caReads, cpl := { status := .completerAbort, data := [], parts := [] } } }) ∧
     (∀ off (data : Bytes) poisoned, ∃ t, exec (.portWInvalidWrite dt 1 off data poisoned) s = .next t ∧ t = { s.advance dt with
         pw := { s.pw with cpl := { status := .unsupported, data := [], parts := [] } } }) ∧
     (∀ (data : Bytes) poisoned, ∃ t, exec (.portWInvalidWrite dt 2 4 data poisoned) s = .next t ∧
       bitAt t.pw.command 2 = false ∧ { t with pw := s.pw } = s.advance dt) ∧
     (∀ off n, ∃ t, exec (.portWInvalidRead dt 1 off n) s = .next t ∧ t.pw.cpl.status = .success ∧
       t.pw.cpl.data.length = 4 ∧ { t with pw := s.pw, free := s.free } = s.advance dt) ∧
     (∃ t, exec (.portWLinkDown dt) s = .next t ∧ t.pw.up = false ∧ t.pw.linkDown = inc 16 s.pw.linkDown ∧
       (∀ i, (s.slot i).rep.code = 1 → (t.slot i).rep.abandoned = true) ∧ t.log = s.log ∧ t.hst = s.hst ∧ t.shr = s.shr) ∧
     (∀ speed width, 1 ≤ speed → speed ≤ 5 → width ∈ [1, 2, 4, 8, 16] → ∃ t, exec (.wportLink dt speed width) s = .next t ∧
       t.quiet = { (s.advance dt).quiet with pw := { s.pw with speed := speed, width := width, up := true } } ∧
       (speed = 5 → width = 16 → t.log = s.log) ∧
       (speed ≠ 5 ∨ width ≠ 16 → s.recorded t 0x0202 0 (le 1 speed ++ le 1 width))) ∧
     (∀ speed width, speed = 0 ∨ 5 < speed ∨ width ∉ [1, 2, 4, 8, 16] →
       exec (.wportLink dt speed width) s = .next (s.advance dt))) ∧
  (∀ (dt off n : Nat) (s : State),
     (∀ (data : Bytes) (r : Report), (s.advance dt).goldPending = true → (s.advance dt).past 5 = true →
       s.pw.gold.write (s.advance dt).goldCtx off data false ((s.advance dt).past 6) (s.advance dt).tmb.now (s.mc + dt) = .accept r →
       (s.advance dt).goldUnequal r.bytes = false →
       ∃ t, exec (.goldenReportWrite dt off data false) s = .next t ∧ t.pw.gold = r ∧ (∀ j, t.slot j = s.slot j) ∧
         t.vrd = s.vrd ∧ t.log = s.log ∧ t.shr = s.shr) ∧
     (∀ p g, s.vrd.offered = some p → (s.gold p).active = some g → (s.advance dt).goldPending = true →
       (s.advance dt).inSlot 5 6 = true → off + n ≤ goldPages g s.vrd.offeredEntry * 4096 →
       ∃ t, exec (.goldenInputRead dt off n) s = .next t ∧ t = { s.advance dt with
         pw := { s.pw with cpl := ⟨.success, slice g (gent g s.vrd.offeredEntry 0 8 + off) n, readParts off n⟩ } }) ∧
     ((s.advance dt).goldPending = false → ∃ t, exec (.goldenInputRead dt off n) s = .next t ∧ t = { s.advance dt with
         pw := { s.pw with caReads := inc 16 s.pw.caReads, cpl := { status := .completerAbort, data := [], parts := [] } } }))

/-- R241, R243: the mailbox is POSTED once the drawing completes before D_v.
R248, R250: an opening write before the mailbox is posted, and one outside every posted region, is counted and
discarded; one in order in its region is taken. -/
def Obligations.OpeningsAreTakenWhilePosted : Prop :=
  (∀ (dt : Nat) (s : State), s.aud.mbox.state = 1 → (s.advance dt).past 1 = false →
     ∃ t, exec (.mailboxPosted dt) s = .next t ∧ t.aud.mbox.state = 2 ∧ t.aud.mbox.postedAt = (s.advance dt).tmb.now ∧
       t.aud.mbox.entries = s.aud.mbox.entries ∧ (∀ j, t.slot j = s.slot j) ∧ t.log = s.log ∧ t.shr = s.shr) ∧
  (∀ (dt off : Nat) (data : Bytes) (s : State), (s.advance dt).past 1 = false →
     (s.aud.mbox.state ≠ 2 → ∃ t, exec (.openingWrite dt off data false) s = .next t ∧
       t = { s.advance dt with aud := { s.aud with wStale := inc 16 s.aud.wStale } }) ∧
     (s.aud.mbox.state = 2 → (∀ c ∈ s.aud.mbox.entries, ¬ (c.openOff ≤ off ∧ off < c.openOff + c.openLen)) →
       ∃ t, exec (.openingWrite dt off data false) s = .next t ∧
       t = { s.advance dt with aud := { s.aud with wOutside := inc 16 s.aud.wOutside } }) ∧
     (∀ c, s.aud.mbox.state = 2 → s.aud.mbox.entries = [c] → c.status = 1 → c.abandoned = false → c.bytes = [] →
       off = c.openOff → data.length < c.openLen → data ≠ [] → openingFail (s.advance dt) 0 { c with bytes := data, status := 2 } data = none →
       ∃ t, exec (.openingWrite dt off data false) s = .next t ∧ (t.aud.mbox.entries.map (·.bytes)) = [data] ∧
         (t.aud.mbox.entries.map (·.status)) = [2] ∧ t.log = s.log ∧ (∀ j, t.slot j = s.slot j)))

/-- R238, R239: a reseed while the health tests pass sets the age of the seed to 0, and the tests' result is kept.
R251 to R254: a leaf record that reaches the committed root counts as verified, one that does not fails its challenge
with 0x15; the weights of a challenge arrive after the posting. -/
def Obligations.EntropyAndLeaves : Prop :=
  (∀ (dt : Nat) (failing : Bool) (s : State),
     (s.aud.drbg.instantiated = true → s.aud.drbg.testsFail = false → ∃ t, exec (.drbgReseed dt) s = .next t ∧
       (∃ e, e < 2 ^ 256 ∧ t.aud.drbg = s.aud.drbg.reseed e) ∧ t.aud.drbg.reseedAge = 0 ∧ t.aud.drbg.requests = 1 ∧
       { t with aud := { t.aud with drbg := s.aud.drbg }, free := s.free } = s.advance dt) ∧
     (s.aud.drbg.testsFail = true → exec (.drbgReseed dt) s = .next (s.advance dt)) ∧
     (∃ t, exec (.entropyHealthFailure dt failing) s = .next t ∧
       t = { s.advance dt with aud := { s.aud with drbg := { s.aud.drbg with testsFail := failing } } })) ∧
  (∀ (dt i k : Nat) (s : State) (c : Challenge) (pl : Plan) (x : LeafAt), s.chl i = some c → (s.plan c.plan).active = some pl →
     (leafTable pl.img 64 (opened pl.img c.target c.row c.col))[k]? = some x → (s.advance dt).chlOpen c = true →
     c.abandoned = false → x.off + 4096 + 32 * tnsDepth pl.img x.tensor ≤ c.bytes.length → c.leaves.contains k = false →
     (leafReaches pl.img (s.slot c.slot).rep.bytes c.bytes x = true →
       ∃ t c', exec (.leafVerify dt i k) s = .next t ∧ t.chl i = some c' ∧ k ∈ c'.leaves ∧ c'.status ≤ max 3 c.status ∧
         (∀ j, j ≠ i → t.chl j = s.chl j) ∧ { t with aud := {} } = { s.advance dt with aud := {} }) ∧
     (leafReaches pl.img (s.slot c.slot).rep.bytes c.bytes x = false →
       ∃ t c', exec (.leafVerify dt i k) s = .next t ∧ t.chl i = some c' ∧ c'.status = 0x15 ∧
         (∀ j, j ≠ i → t.chl j = s.chl j)) ∧
     (s.aud.mbox.state = 2 → (∀ b ∈ s.aud.mbox.entries.take i, b.weights = true ∨ 0x10 ≤ b.status) → ∃ t c', exec (.challengeWeightsInPlace dt i) s = .next t ∧ t.chl i = some c' ∧
       c' = { c with weights := true } ∧ (∀ j, j ≠ i → t.chl j = s.chl j) ∧ { t with aud := {} } = { s.advance dt with aud := {} }))

/-- R255 to R258: a free engine takes the ready unit; a tile whose recomputed elements all agree passes its challenge, and
one with a deviation fails it; the engine is free again.
R199, R220: a column block that ends while the audit runs frees its engine and is counted as done. -/
def Obligations.EnginesComputeUnits : Prop :=
  (∀ (dt e : Nat) (s : State),
     (∀ u, e < 17 → (s.eng e).st = .service → (s.eng e).busy = none → (s.advance dt).nextUnit = some u →
       ∃ t, exec (.unitDispatch dt e) s = .next t ∧ (t.eng e).busy = some u ∧ (∀ j, j ≠ e → t.eng j = s.eng j) ∧
         t.aud.mbox = s.aud.mbox ∧ { t with aud := {} } = { s.advance dt with aud := {} }) ∧
     (∀ i c pl, (s.eng e).busy = some (.tile i) → s.chl i = some c → (s.plan c.plan).active = some pl → c.status = 3 →
       (s.advance dt).past 1 = false →
       let r := tileFails pl.img pl.wimg c.bytes (leafTable pl.img 64 (opened pl.img c.target c.row c.col)) c.target c.row c.col
       (r = none → ∃ t c', exec (.challengeTileDone dt e) s = .next t ∧ t.chl i = some c' ∧ c'.status = 4 ∧ (t.eng e).busy = none ∧
         (∀ j, j ≠ i → t.chl j = s.chl j) ∧ { t with aud := {} } = { s.advance dt with aud := {} }) ∧
       (r ≠ none → ∃ t c', exec (.challengeTileDone dt e) s = .next t ∧ t.chl i = some c' ∧ (c'.status = 0x16 ∨ c'.status = 0x17) ∧
         (t.eng e).busy = none ∧ (∀ j, j ≠ i → t.chl j = s.chl j)))) ∧
  (∀ (dt e p idx : Nat) (s : State) (pl : Plan) (b : Nat × Nat × Nat), (s.eng e).busy = some (.block p idx) →
     (s.plan p).active = some pl → (planBlocks pl.img)[idx]? = some b → (s.plan p).running = true → (s.advance dt).past 1 = false →
     ∃ t, exec (.auditBlockDone dt e) s = .next t ∧ (t.eng e).busy = none ∧ (t.eng e).units = inc 32 (s.eng e).units ∧
       (t.plan p).doneBlks = (s.plan p).doneBlks + 1 ∧ t.aud.mbox = s.aud.mbox ∧ t.shr = s.shr ∧ t.mem = s.mem)

/-- R216 to R220, R266, R270: a residue, an adder or a vector half that agrees is no fault; an engine in service with a fault
is replaced by the spare and retested, and its unit is repeated; a SHA3 engine that disagrees with its shadow is
isolated. -/
def Obligations.FaultyEnginesAreIsolated : Prop :=
  ∀ (dt e kind col : Nat) (s : State), s.glb.st ≠ .degraded → s.glb.repairs = [] →
    (∀ sp got want, e < 17 → 1 ≤ kind → kind ≤ 5 → (kind = 1 → got % 63 ≠ want % 63) → (kind = 2 ∨ kind = 3 → got ≠ want) →
      (s.eng e).st = .service → s.spareEng = some sp →
      ∃ t, exec (.engineFault dt e kind col got want) s = .next t ∧ (t.eng e).st = .retest ∧ (t.eng e).busy = none ∧
        (t.eng e).kind = kind ∧ (t.eng sp).st = .service ∧ t.aud.stt.swap = true ∧ t.glb.st = s.glb.st ∧
        (∀ u, (s.eng e).busy = some u → u ∈ t.aud.stt.again)) ∧
    (∀ v, exec (.engineFault dt e 1 col v (v + 63)) s = .next (s.advance dt) ∧
      exec (.engineFault dt e 2 col v v) s = .next (s.advance dt) ∧
      exec (.engineFault dt e 3 col v v) s = .next (s.advance dt)) ∧
    (∀ ps, exec (.engineFault dt e 1 col (residueOf ps) (columnResidue (ps.map fun p => p.1 * p.2))) s = .next (s.advance dt)) ∧
    (∀ k, k < 8 → s.aud.stt.sha3Retest.contains k = false → s.aud.stt.sha3Failed.contains k = false →
      ∃ t, exec (.sha3Mismatch dt k) s = .next t ∧ k ∈ t.aud.stt.sha3Retest ∧ t.glb.st = s.glb.st ∧
        t.aud.mbox = s.aud.mbox ∧ t.shr = s.shr)

/-! ### Badger (chapter 06) -/

/-- R282, R284, R287: on a receiver in service, the first Frame Start of a source's channel begins its frame, a good packet
of its data type adds a line, and a Frame End with every line in place completes it; a Line Start and a Line End are
ignored.
R288 to R290: a datagram that passes its MAC and meets a source, with a time stamp from the tick on and before ING_END,
adds that source's records.
R313, R316, R318: a pass starts when it can, its end stages its outputs with code DONE, and programming that completes
lets a switched slot run. -/
def Obligations.SensorsAndPasses : Prop :=
  (∀ (dt r vc k : Nat) (lk : CsiLink) (payload : Bytes) (s : State), s.csiOn r = true → csiLanes lk = true →
     s.csiSource r vc = some k → (s.advance dt).ingesting = true →
     ((s.source k).code = 0 → (s.source k).started = false →
       ∃ t, exec (.csiFrameStart dt r vc 0 false lk) s = .next t ∧ (t.source k).code = 1 ∧
         (t.source k).started = true ∧ (∀ j, j ≠ k → t.source j = s.source j) ∧
         { t with bdg := {} } = { s.advance dt with bdg := {} }) ∧
     ((s.source k).code = 1 → (s.source k).started = true → (s.source k).ignoring = false →
       payload.length = lineBytes (s.cfg.active.srcDt k) (s.cfg.active.srcWidth k) →
       (s.source k).lines.length < s.cfg.active.srcLines k →
       ∃ t, exec (.csiLongPacket dt r vc 0 (s.cfg.active.srcDt k) payload (csiCrc payload) lk) s = .next t ∧
         (t.source k).lines = (s.source k).lines ++ [payload] ∧ (∀ j, j ≠ k → t.source j = s.source j) ∧
         { t with bdg := {} } = { s.advance dt with bdg := {} }) ∧
     ((s.source k).code = 1 → (s.source k).started = true → (s.source k).lines.length = s.cfg.active.srcLines k →
       ∃ t, exec (.csiFrameEnd dt r vc 0 false lk) s = .next t ∧ (t.source k).code = 2 ∧ (t.source k).lines = (s.source k).lines ∧
         (∀ j, j ≠ k → t.source j = s.source j) ∧ { t with bdg := {} } = { s.advance dt with bdg := {} }) ∧
     (∃ t, exec (.csiFrameStart dt r vc 0 true lk) s = .next t ∧ exec (.csiFrameEnd dt r vc 0 true lk) s = .next t ∧
       t.bdg.sources = s.bdg.sources ∧ { t with bdg := {} } = { s.advance dt with bdg := {} })) ∧
  (∀ (dt ago k : Nat) (d : Datagram) (s s1 : State), d.mac < 4 → s.atStep 9 = true → (s.advance dt).macIn d = (s1, true) →
     s1.lidarSource d = some k → s1.stampIn ago = true →
     ∃ t, exec (.lidarDatagram dt d ago) s = .next t ∧
       (t.source k).points = ((s1.source k).points ++ parseRecords s1.cfg.active k d.payload).take 262144 ∧
       (t.source k).code ≠ 0 ∧ (∀ j, j ≠ k → t.source j = s1.source j) ∧ { t with bdg := {} } = { s1 with bdg := {} }) ∧
  (∀ (dt m : Nat) (s : State),
     ((s.advance dt).settleInputs.canStart m = true →
       ∃ t, exec (.shadowPassStart dt m) s = .next t ∧ (t.model m).code = 2 ∧ t.pw = s.pw ∧ t.vrd = s.vrd ∧ t.log = s.log ∧
         t.shr = s.shr) ∧
     ((s.model m).code = 2 → (s.advance dt).past 4 = false → s.die.retraining = none →
       ∃ t, exec (.shadowPassDone dt m) s = .next t ∧ (t.model m).code = 3 ∧ (t.model m).tileFault = false ∧
         (∀ j, j ≠ m → t.model j = s.model j) ∧ { t with bdg := {}, free := 0 } = { s.advance dt with bdg := {}, free := 0 }) ∧
     ((s.model m).programming = true → ∃ t, exec (.modelProgrammed dt m) s = .next t ∧ (t.model m).programming = false ∧
       (∀ j, j ≠ m → t.model j = s.model j) ∧ { t with bdg := {} } = { s.advance dt with bdg := {} }))

/-- R322, R327, R328: calibration steps of a tile lead on to its slice when every check holds; a tile whose programming
verifies is READY; the start-up calibration of all nine makes Badger available.
R278 to R281, R327: a block of 1,024 reference operations of a programmed macro that performed fewer keeps the largest
mean residual; a serving tile with a residual, or a block mean, beyond its limit gives its role to the READY tile and goes
to recalibration. -/
def Obligations.TilesAreCalibratedAndDrift : Prop :=
  (∀ (dt t mac resid gain off : Nat) (coefs : Coefs) (s : State), t < 9 →
     ((s.tile t).calStep = .measuring → s.bdg.calibrated = true → resid ≤ s.calLimit → gain ≤ 100 → off ≤ 16 →
       ∃ u, exec (.calibrationMeasured dt t mac resid gain off coefs) s = .next u ∧ (u.tile t).calStep = .slice ∧
         (u.tile t).resid = sat 8 resid ∧ (u.tile t).coefs = coefs ∧ (∀ j, j ≠ t → u.tile j = s.tile j) ∧ { u with bdg := {} } = { s.advance dt with bdg := {} }) ∧
     ((s.tile t).calStep = .programming → (s.tile t).st = .cal →
       ∃ u, exec (.tileReady dt t true mac) s = .next u ∧ (u.tile t).st = .ready ∧ (u.tile t).cals = inc 16 (s.tile t).cals ∧
         (u.tile t).calStep = .idle ∧ (u.tile t).lastCoefs = (s.tile t).coefs ∧ (∀ j, j ≠ t → u.tile j = s.tile j) ∧ { u with bdg := {} } = { s.advance dt with bdg := {} }) ∧
     (∀ (resids : List Nat) (cs : List Coefs), s.atStep 7 = true → s.bdg.calibrated = false → 
       ∃ u, exec (.startupCalibrationDone dt 511 resids cs) s = .next u ∧ (u.tile t).resid = sat 8 (resids.getD t 0) ∧
         (u.tile t).coefs = cs.getD t [] ∧ u.bdg.calibrated = true ∧ u.bdg.available = true ∧
         (u.tile 8).st = .ready ∧ { u with bdg := {} } = { s.advance dt with bdg := {} })) ∧
  (∀ (dt t mac : Nat) (ops : List RefOp) (s : State), t < 9 → s.bdg.calibrated = true →
     (ops.length = 1024 → s.programmed t mac = true → (s.advance dt).macroOps t mac < 1024 →
       refLargest ops ≤ s.grossLimit * 2 ^ 10 → refSum ops ≤ s.driftLimit * 2 ^ 20 →
       ∃ u, exec (.referenceOperations dt t mac ops) s = .next u ∧
         (u.tile t).drift = max ((s.advance dt).tileDrift t) (sat 8 (refSum ops / 2 ^ 20)) ∧ (∀ j, j ≠ t → u.tile j = s.tile j) ∧
         { u with bdg := {} } = { s.advance dt with bdg := {} }) ∧
     (∀ n, (s.tile t).st = .active →
       s.grossLimit * 2 ^ 10 < refLargest ops ∨ (ops.length = 1024 ∧ s.driftLimit * 2 ^ 20 < refSum ops) → s.glb.st ≠ .degraded → s.glb.repairs = [] →
       s.tileIn .ready = some n →
       ∃ u, exec (.driftFailure dt t mac ops) s = .next u ∧ (u.tile t).st = .recal ∧ (u.tile n).st = .active ∧
         (u.tile n).role = (s.tile t).role ∧ u.bdg.swap = true ∧ u.bdg.swapFrom = t ∧ u.glb.st = s.glb.st ∧ u.shr = s.shr))

/-! ### Verdicts (chapter 07) -/

/-- R360: the comparator takes the next context in order when it is free, and is free again when its comparison ends.
R374, R375: the age monitor withdraws trust from every open context that is too old, and from no other; heartbeats go out
every 100 µs, and change the Stay link alone. -/
def Obligations.ComparisonAndTrust : Prop :=
  (∀ (dt c : Nat) (s : State),
     (s.vrd.comparing = none → (s.advance dt).cmpNext = some c →
       ∃ t, exec (.comparisonStart dt c) s = .next t ∧ t.vrd.comparing = some c ∧ (t.watch c).cmpStart = some (s.mc + dt) ∧
         (∀ d, d ≠ c → t.watch d = s.watch d) ∧ { t with vrd := {} } = { s.advance dt with vrd := {} }) ∧
     (s.vrd.comparing = some c → ∃ t, exec (.comparisonDone dt) s = .next t ∧ t.vrd.comparing = none ∧
       (∀ d, d ≠ c → t.watch d = s.watch d) ∧ { t with vrd := {} } = { s.advance dt with vrd := {} })) ∧
  (∀ (dt c : Nat) (s : State),
     (∃ t, exec (.ageMonitor dt) s = .next t ∧ t.vrd.ageAt = (s.advance dt).tmb.now ∧
       (c ∈ s.openCtxs → (t.watch c).trusted = ((s.watch c).trusted && !(s.advance dt).tooOld (s.watch c)) ∧
         ((s.watch c).trusted = true → (s.advance dt).tooOld (s.watch c) = true → (t.watch c).aged = true)) ∧
       (c ∉ s.openCtxs → t.watch c = s.watch c) ∧ t.shr = s.shr ∧ t.pw = s.pw ∧ t.glb = s.glb) ∧
     (100 * usMc ≤ s.mc + dt - s.vrd.hbAt → ∃ t, exec (.trustHeartbeat dt) s = .next t ∧
       t.vrd = { s.vrd with hbAt := s.mc + dt } ∧ { t with vrd := s.vrd, pch := s.pch } = s.advance dt) ∧
     (s.mc + dt - s.vrd.hbAt < 100 * usMc → exec (.trustHeartbeat dt) s = .next (s.advance dt)))

/-- R344, R357, R358, R362: a comparison that ends before D_v has code 6 where a shadow section is damaged, and otherwise the
code of its counts.
R363: the verdict of a frame follows the decision table: SAFE_STATE in SAFE, DISTRUST_AUDIT when the report,
audit or challenges failed, TRUST only when every required item passed, with no golden latch and not in DEGRADED. -/
def Obligations.VerdictsFollowTheDecisionTable : Prop :=
  (∀ (dt c : Nat) (s : State), s.vrd.comparing = some c → (s.watch c).cmpCode = 1 → (s.watch c).cmpStart ≠ none →
     (s.advance dt).past 1 = false →
     ((s.sections (s.watch c).modelMask).damaged = true → ∃ t, exec (.comparisonDone dt) s = .next t ∧
       (t.watch c).cmpCode = 6 ∧ t.vrd.cmpSchema = inc 16 s.vrd.cmpSchema ∧
       { t with vrd := {} } = { s.advance dt with vrd := {} }) ∧
     (∀ corr b, (s.sections (s.watch c).modelMask).damaged = false → s.corridor (s.watch c) = some (corr, b) →
       ∃ t, exec (.comparisonDone dt) s = .next t ∧ (t.watch c).cmpCode = (s.watch c).cmpResult (t.watch c).cmp ∧
         (t.watch c).cmp = countAll (s.watch c) corr (slice (s.slot (s.watch c).slot).rep.bytes 320 65536)
           (slice (s.slot (s.watch c).slot).rep.bytes 65856 8192) (s.sections (s.watch c).modelMask) ∧
         { t with vrd := {} } = { s.advance dt with vrd := {} })) ∧
  (∀ (s : State) (c : Nat),
     (s.glb.st = .safe → s.underlying c = 7) ∧
     (s.glb.st ≠ .safe → Item.failed ∈ s.auditItems (s.watch c) → s.underlying c = 3) ∧
     (s.underlying c = 1 ↔ s.glb.st ≠ .safe ∧ s.glb.st ≠ .degraded ∧ (s.watch c).latch = .clear ∧
       (∀ i ∈ s.auditItems (s.watch c), i = .passed ∨ i = .notRequired) ∧
       (s.cmpItem (s.watch c) = .passed ∨ s.cmpItem (s.watch c) = .notRequired)))

/-! ### Control cores (chapter 09) -/

/-- R473 to R475, R477: the first core to reach a request samples the input into a new ledger entry, and every later core
gets the entry's value; a core whose entry fails CHECK or is not of its request stalls with CRC_FAIL or ORDER. -/
def Obligations.LedgerSamplesOnce : Prop :=
  ∀ (dt c kind len source addr : Nat) (counts : List Nat) (value : Bytes) (s : State), c < 3 →
    (s.advance dt).reaches counts c = true → 1 ≤ kind → kind ≤ 5 → 1 ≤ len → len ≤ 32 → value.length = len →
    (s.cor.entry (s.core c).ldgSeq = none → s.cor.ledger.length < 2048 →
      ∃ t, exec (.ledgerRequest dt c counts kind len source addr value false) s = .next t ∧ t.cor.ldgSeq = (s.cor.ldgSeq + 1) % 2 ^ 32 ∧
        t.cor.ldgValue = value ∧ { t with cor := {} } = { s.advance dt with cor := {} }) ∧
    (∀ e, s.cor.entry (s.core c).ldgSeq = some e → rd e.bytes 60 4 = crcK (e.bytes.take 60) → rd e.bytes 4 1 = kind →
      rd e.bytes 5 1 = len → rd e.bytes 6 2 = source →
      rd e.bytes 16 8 = ((s.advance dt).retire counts).requestAddr c kind addr →
      ∃ t, exec (.ledgerRequest dt c counts kind len source addr value false) s = .next t ∧ t.cor.ldgSeq = s.cor.ldgSeq ∧
        t.cor.ldgValue = slice e.bytes 24 len ∧ { t with cor := {} } = { s.advance dt with cor := {} }) ∧
    (∀ e, s.cor.entry (s.core c).ldgSeq = some e →
      (rd e.bytes 60 4 ≠ crcK (e.bytes.take 60) →
        ∃ t, exec (.ledgerRequest dt c counts kind len source addr value false) s = .next t ∧ (t.core c).flag = 1 ∧
          t.cor.ledger = s.cor.ledger ∧ t.cor.ldgValue = s.cor.ldgValue ∧
          { t with cor := {} } = { s.advance dt with cor := {} }) ∧
      (rd e.bytes 60 4 = crcK (e.bytes.take 60) → rd e.bytes 4 1 ≠ kind ∨ rd e.bytes 5 1 ≠ len ∨ rd e.bytes 6 2 ≠ source →
        ∃ t, exec (.ledgerRequest dt c counts kind len source addr value false) s = .next t ∧ (t.core c).flag = 2 ∧
          t.cor.ledger = s.cor.ledger ∧ t.cor.ldgValue = s.cor.ldgValue ∧
          { t with cor := {} } = { s.advance dt with cor := {} }))

/-- R479 to R484: a core that closes its bank sends a record, a sound core one with its count, its instructions, its
transactions and its flags, which joins those of its checkpoint; when every core in the
vote has sent the same one, it is accepted and the first majority core's bank leaves the device, and after 100 µs the vote
is taken without the missing ones. -/
def Obligations.CheckpointsAreVoted : Prop :=
  ∀ (dt c : Nat) (counts : List Nat) (acts : List Action) (barrier : Bool) (given : Bytes) (s : State), c < 3 → given.length = 64 →
    rd given 60 4 = 0 → (s.advance dt).reaches counts c = true →
    ((s.advance dt).retire counts).closes c acts barrier = true →
    let r := ((s.advance dt).retire counts).ckptBytes c acts barrier given
    (s.ckptOf (rd r 0 8) c = none → (∃ d, d < 3 ∧ d ≠ c ∧ (s.core d).votes = true ∧ s.ckptOf (rd r 0 8) d = none) →
      ∃ t, exec (.checkpoint dt c counts acts barrier given none none false) s = .next t ∧
        (t.core c).ckpt = (s.core c).ckpt + 1 ∧ (t.core c).banks = (s.core c).banks ++ [((s.core c).ckpt + 1, acts)] ∧
        t.cor.records = s.cor.records ++ [{ core := c, bytes := r, at_ := s.mc + dt }] ∧ t.cor.accepted = s.cor.accepted ∧
        (given = zeros 64 → rd r 0 8 = ((s.core c).ckpt + 1) % 2 ^ 64 ∧ rd r 8 8 = (t.core c).instr % 2 ^ 64 ∧
          rd r 44 2 = acts.length ∧ rd r 47 1 = (s.core c).flag % 256) ∧
        { t with cor := {} } = { s.advance dt with cor := {} }) ∧
    (s.voters = [0, 1, 2] → s.ckptOf (rd r 0 8) 0 = some r → s.ckptOf (rd r 0 8) 1 = some r → s.ckptOf (rd r 0 8) 2 = none →
      rd r 47 1 = 0 → c = 2 → ∃ t, exec (.checkpoint dt c counts acts barrier given none none false) s = .next t ∧
        t.cor.accepted = (s.cor.accepted + 1) % 2 ^ 64 ∧ t.cor.last = 0 ∧
        (∀ l, (s.core 0).banks.find? (fun x => x.1 == rd r 0 8) = some (rd r 0 8, l) →
          ∀ x ∈ l, .action 0 x.1 x.2.1 x.2.2 ∈ t.out)) ∧
    (∀ x rest, s.voters = [0, 1] → s.cor.records = x :: rest → s.mc + dt - x.at_ ≥ 100 * usMc → s.glb.st ≠ .safe →
      s.ckptOf (rd x.bytes 0 8) 0 = some x.bytes → s.ckptOf (rd x.bytes 0 8) 1 = none →
      ∃ t, exec (.voteTimeout dt none none false) s = .next t ∧ t.cor.last = 4 ∧ t.glb.st = .safe ∧ t.glb.cause = 0x10)

/-- R492, R497: T_deg that expires in DEGRADED brings SAFE with cause 0x11; a repaired core starts in TRAIL from its
source's position. -/
def Obligations.DegradedEndsAndCoresResume : Prop :=
  ∀ (dt : Nat) (s : State),
    (s.glb.st = .degraded → s.mc + dt - s.glb.tdegFrom ≥ s.glb.tdegS * 1000 * msMc →
      ∃ t, exec (.tdegExpiry dt) s = .next t ∧ t.glb.st = .safe ∧ t.glb.cause = 0x11) ∧
    (s.glb.st ≠ .degraded → exec (.tdegExpiry dt) s = .next (s.advance dt)) ∧
    (∀ m, (s.core 0).copying = true → s.cor.source = some m → m ≠ 0 →
      ∃ t, exec (.resyncCopyDone dt) s = .next t ∧ (t.core 0).copying = false ∧ (t.core 0).pos = 2 ∧
        (t.core 0).ldgSeq = (s.core m).ldgSeq ∧ (t.core 0).ckpt = (s.core m).ckpt ∧ t.cor.source = none ∧
        (∀ j, j ≠ 0 → t.core j = s.core j) ∧ { t with cor := {} } = { s.advance dt with cor := {} })

/-! ### Memory protection (chapter 13) -/

/-- R631, R637, R640, R641, R649: a read without an error changes nothing; one that the decoder corrects is counted and
recorded, and leaves the data as they are, while the scrub writes the corrected line back; a mismatching GDDR6 burst and a
late scrub are counted and recorded.
R642, R647: an uncorrectable line of the device's own partition is kept as bad, shown in MEM_LAST_UE, and brings the
device into SAFE with cause 0x17. -/
def Obligations.MemoryErrorsAreKeptAndSafe : Prop :=
  (∀ (dt array unit line channel : Nat) (stored : Bytes) (s : State),
     (∀ scrub, decodeStored array unit channel line stored = .clean →
       exec (.corrected dt array unit line channel stored scrub) s = .next (s.advance dt)) ∧
     (∀ w n, array < 7 → decodeStored array unit channel line stored = .corrected w n → isSram array = false ∨ n = 1 →
       ∃ t, exec (.corrected dt array unit line channel stored false) s = .next t ∧ t.mem.cells = s.mem.cells ∧
         t.mem.bad = s.mem.bad ∧ tget t.mem.raw (lineKey array unit line) = stored ∧ (array < 4 → tget t.mem.ce array = inc 16 (tget s.mem.ce array)) ∧
         { t.quiet with mem := {}, cor := {} } = { (s.advance dt).quiet with mem := {}, cor := {} }) ∧
     (∀ w n, decodeStored 0 unit channel line stored = .corrected w n →
       ∃ t, exec (.corrected dt 0 unit line channel stored true) s = .next t ∧
         t.mem.cells = (s.mem.writeN (cellKey 0 (line * 64)) (ofSymbols (w.take 64))).cells ∧
         (t.mem.raw.lookup (lineKey 0 unit line)) = none) ∧
     (∀ ch n lines w clean, ch < 4 → 1 ≤ n → n ≤ 3 → ∃ t, exec (.edc dt ch line lines n w clean) s = .next t ∧
       (tget t.mem.gddr ch).edcRetry = sat 16 ((tget s.mem.gddr ch).edcRetry + n) ∧ t.mem.cells = s.mem.cells ∧
       t.mem.bad = s.mem.bad ∧ { t.quiet with mem := {} } = { (s.advance dt).quiet with mem := {} }) ∧
     (∀ ms, ∃ t, exec (.scrubLate dt array ms) s = .next t ∧ s.recorded t 0x0B06 1 (le 1 array ++ zeros 3 ++ le 4 ms) ∧
       t.quiet = { (s.advance dt).quiet with mem := { s.mem with late := inc 8 s.mem.late } })) ∧
  (∀ (dt array unit line channel : Nat) (stored : Bytes) (s : State), array < 4 →
     decodeStored array unit channel line stored = .uncorrectable ∨ decodeStored array unit channel line stored = .address →
     (s.advance dt).detected.contains (lineKey array unit line) = false → s.cfg.active.owner array line = 0 → s.glb.st ≠ .safe →
     ∃ t, exec (.uncorrectable dt array unit line channel stored 1 0 0 false) s = .next t ∧ t.glb.st = .safe ∧
       t.glb.cause = 0x17 ∧ lineKey array unit line ∈ t.mem.bad ∧ t.mem.lastLine = line ∧ t.mem.lastArray = array ∧
       (array = 0 → t.mem.cells = s.mem.cells) ∧ tget t.mem.ue array = inc 16 (tget s.mem.ue array))

/-! ### The Owls and the self-test engine (chapter 15), temperatures (chapter 17) -/

/-- R702, R705, R706, R708, R715: SETUP locks the period and the tasks; the token arms a service and its complement within
the rules completes it; a task checks in once; a period without a service is a trap. -/
def Obligations.OwlPortsFollowTheToken : Prop :=
  ∀ (dt i v : Nat) (s : State), i < 2 → (s.owlOf i).live = true → 
    (s.owlOf i).st = .boot → (s.mc + dt) / 8 < (s.owlOf i).startCyc + (s.owlOf i).period →
    ((s.owlOf i).locked = false → ∃ t, exec (.owlSetup dt i v) s = .next t ∧ (t.owlOf i).locked = true ∧
      (t.owlOf i).setupUs = clampN 1000 1000000 (v % 2 ^ 20) ∧ (t.owlOf i).reg = v / 2 ^ 32 % 2 ^ 16 ∧
      { t with owl := {} } = { s.advance dt with owl := {} }) ∧
    ((s.owlOf i).armed = false → v < 2 ^ 16 → v = (s.owlOf i).token →
      ∃ t, exec (.owlServiceWrite dt i v) s = .next t ∧ (t.owlOf i).armed = true ∧ (t.owlOf i).st = .boot ∧
      { t with owl := {} } = { s.advance dt with owl := {} }) ∧
    ((s.owlOf i).armed = true → v < 2 ^ 16 → v = (s.owlOf i).token ^^^ 0xFFFF → (s.owlOf i).inBits = (s.owlOf i).reg →
      ∃ t, exec (.owlServiceWrite dt i v) s = .next t ∧ (t.owlOf i).armed = false ∧ (t.owlOf i).lastEvent = 1 ∧
      (t.owlOf i).inBits = 0 ∧ ((s.owlOf i).locked = true → (t.owlOf i).st = .run) ∧ t.log = s.log ∧ t.shr = s.shr) ∧
    (v < 16 → bitAt (s.owlOf i).reg v = true → bitAt (s.owlOf i).inBits v = false →
      ∃ t, exec (.owlCheckIn dt i v) s = .next t ∧ (t.owlOf i).inBits = (s.owlOf i).inBits ||| 2 ^ v ∧ (t.owlOf i).st = .boot ∧
      { t with owl := {} } = { s.advance dt with owl := {} })

/-- R703, R704, R715, R716: the window opens W × P into the period, the next period follows one with a good service, and one
without is a trap that captures the black box.
R722 to R725: a flash operation suspends Owl-F, its end starts a fresh period, and one of 250 ms is ended. -/
def Obligations.OwlPeriodsAndFlash : Prop :=
  (∀ (dt i : Nat) (s : State), i < 2 → (s.owlOf i).live = true → (s.owlOf i).st = .run →
     ((s.owlOf i).served = false → (s.mc + dt) / 8 < (s.owlOf i).startCyc + (s.owlOf i).period →
       (s.owlOf i).startCyc + s.windowAt i ≤ (s.mc + dt) / 8 →
       ∃ t, exec (.owlWindowOpen dt i) s = .next t ∧ (t.owlOf i).windowOpen = true ∧ { t with owl := {} } = { s.advance dt with owl := {} }) ∧
     ((s.owlOf i).served = true → (s.owlOf i).startCyc + (s.owlOf i).period ≤ (s.mc + dt) / 8 →
       ∃ t, exec (.owlPeriodStart dt i) s = .next t ∧ (t.owlOf i).startCyc = (s.owlOf i).startCyc + (s.owlOf i).period ∧
         (t.owlOf i).served = false ∧ (t.owlOf i).windowOpen = false ∧ { t with owl := {} } = { s.advance dt with owl := {} }) ∧
     ((s.owlOf i).served = false → (s.owlOf i).startCyc + (s.owlOf i).period ≤ (s.mc + dt) / 8 →
       ∃ t, exec (.owlExpiry dt i) s = .next t ∧ (t.owlOf i).st = .trap ∧ (t.owlOf i).lastEvent = 8 ∧
         (t.owlOf i).trapCyc = (s.mc + dt) / 8 ∧ i ∈ t.nvm.capPending ∧ t.glb = s.glb ∧ t.shr = s.shr)) ∧
  (∀ (dt : Nat) (s : State),
     (s.owl.flash.busyFrom = none → s.owl.flash.mayStart = true → s.owl.f.live = true → s.owl.f.st = .run →
       (s.mc + dt) / 8 < s.owl.f.startCyc + s.owl.f.period →
       ∃ t, exec (.owlSuspend dt) s = .next t ∧ t.owl.f.st = .suspended ∧ t.owl.flash.busyFrom = some (s.mc + dt) ∧
         t.owl.s = s.owl.s ∧ { t.quiet with owl := {} } = { (s.advance dt).quiet with owl := {} }) ∧
     (∀ b, s.owl.flash.busyFrom = some b → s.owl.f.st = .suspended →
       (∃ t, exec (.owlResume dt) s = .next t ∧ t.owl.f.st = s.owl.f.prior ∧ t.owl.flash.busyFrom = none ∧
         t.owl.f.startCyc = (s.mc + dt) / 8 ∧ t.owl.f.served = false ∧
         t.owl.f.windowOpen = (s.owl.f.prior == .boot) ∧ t.owl.f.inBits = s.owl.f.inBits ∧ t.owl.s = s.owl.s ∧
         { t.quiet with owl := {} } = { (s.advance dt).quiet with owl := {} }) ∧
       (s.mc + dt - b ≥ 250 * msMc → ∃ t, exec (.flashOperationTimeout dt) s = .next t ∧ t.owl.flash.busyFrom = none ∧
         t.owl.f.st = s.owl.f.prior ∧ { t.quiet with owl := {} } = { (s.advance dt).quiet with owl := {} })))

/-- R735, R737, R739: a slice that ends is counted with the outcome of its signature and frees its sequencer, one beyond its
budget fails,
and a rotation is recorded.
R789: a reading of a temperature sensor is kept, and a junction at or above the SAFE threshold brings the device into
SAFE with cause 0x14. -/
def Obligations.SlicesAndTemperatures : Prop :=
  (∀ (dt q rows e st : Nat) (s : State), s.owl.slf.run q = some (e, st) → (s.advance dt).inSelfTest = false →
     s.owl.slf.running = false → sliceEntry e = (1, 0) →
     (∃ t, exec (.sliceDone dt q (sliceSig e) rows) s = .next t ∧ t.owl.slf.run q = none ∧ (tget t.owl.slf.entries e).last = 1 ∧
       (tget t.owl.slf.entries e).runs = inc 16 (tget s.owl.slf.entries e).runs ∧ t.owl.slf.passed = inc 16 s.owl.slf.passed ∧
       t.mem = s.mem ∧ t.shr = s.shr) ∧
     (∀ sig, sig ≠ sliceSig e → ∃ t, exec (.sliceDone dt q sig rows) s = .next t ∧ t.owl.slf.run q = none ∧
       (tget t.owl.slf.entries e).last = 2 ∧ t.owl.slf.failed = inc 16 s.owl.slf.failed ∧ t.owl.slf.failEntry = e ∧
       t.mem = s.mem ∧ t.shr = s.shr) ∧
     (s.mc + dt - st > kindBudget 1 * usMc → ∃ t, exec (.sliceTimeout dt q) s = .next t ∧ t.owl.slf.run q = none ∧
       (tget t.owl.slf.entries e).last = 2 ∧ t.owl.slf.failed = inc 16 s.owl.slf.failed ∧ t.owl.slf.failEntry = e ∧
       t.mem = s.mem ∧ t.shr = s.shr) ∧
     (∀ d, s.owl.slf.wrapped = some d → ∃ t, exec (.rotation dt) s = .next t ∧ t.owl.slf.wrapped = none ∧
       t.owl.slf.entries = s.owl.slf.entries ∧ { t.quiet with owl := {} } = { (s.advance dt).quiet with owl := {} })) ∧
  (∀ (dt sensor temp : Nat) (s : State), s.atStep 5 = true → sensor < 22 →
     let s1 := (s.advance dt).modFox fun f => { f with temps := tset f.temps sensor (sgn 16 temp), tempOk := insNat sensor f.tempOk }
     ∃ t, exec (.thermal dt sensor temp) s = .next t ∧ tget t.fox.temps sensor = sgn 16 temp ∧ sensor ∈ t.fox.tempOk ∧
       t.mem = s.mem ∧ t.cfg = s.cfg ∧
       (∀ m j, s1.junction = some (m, j) → s.safeAt ≤ j → s.glb.st ≠ .safe → t.glb.st = .safe ∧ t.glb.cause = 0x14))

/-! ### The Stay link, safety inputs and safety outputs (chapter 10) -/

/-- R25, R26, R504: Shroud accepts a frame whose SEQ follows on; the accepted frame restarts the link-loss count, and what
each type carries is taken; a SAFE frame latches Shroud safe with every output off (R534). -/
def Obligations.ShroudTakesFramesInOrder : Prop :=
  ∀ (dt seq : Nat) (p : Bytes) (s : State), s.atStep 3 = true → seq = s.shr.link.expect → 
    let cyc := (s.advance dt).cyc
    (∃ t, exec (.pchFunc dt seq) s = .next t ∧ t.shr.pchRun = runBits s.pch.fns ∧ t.shr.link.lastSeq = seq ∧
      t.shr.link.lastAt = cyc ∧ t.glb = s.glb ∧ t.hst = s.hst) ∧
    (∃ t, exec (.pchOut dt seq) s = .next t ∧ (t.shr.soutReq, t.shr.prvReq, t.shr.hsCmd) = (s.advance dt).pchOut ∧
      t.shr.link.lastSeq = seq ∧ t.glb = s.glb) ∧
    (reservedOk 0x06 p = true → ∃ t, exec (.stayState dt seq p) s = .next t ∧ t.shr.mirror = rd p 0 1 % 16 ∧
      t.shr.mirrorCause = rd p 1 1 ∧ t.shr.link.lastSeq = seq ∧ t.glb = s.glb ∧ t.hst = s.hst) ∧
    (reservedOk 0x00 p = true → ∃ t, exec (.idle dt true seq p) s = .next t ∧ t.shr.link.lastSeq = seq ∧
      t.shr.link.lastAt = cyc ∧ t.shr.slots = s.shr.slots ∧ t.glb = s.glb ∧ t.hst = s.hst) ∧
    (reservedOk 0x7F p = true → ∃ t, exec (.nak dt true seq p) s = .next t ∧ t.shr.link.lastSeq = seq ∧
      (∀ f ∈ s.shr.link.resend (rd p 0 1), Out.fromShroud f.typ f.seq f.payload ∈ t.out) ∧ t.glb = s.glb) ∧
    (reservedOk 0x07 p = true → ∃ t, exec (.staySafe dt seq p) s = .next t ∧ t.shr.safeLatch = true ∧ t.outputsOff ∧
      t.shr.link.lastSeq = seq ∧ t.shr.link.lastAt = cyc ∧ t.shr.slots = s.shr.slots ∧ t.shr.cfg = s.shr.cfg ∧
      t.glb = s.glb ∧ t.hst = s.hst)

/-- R528 to R530, R538: BIND binds a free slot to outputs of the active section, UNBIND frees the slot of its context, a
heartbeat restarts the age of its own binding only, and a CFG frame whose CRC agrees activates the section. -/
def Obligations.TrustSlotsAndSectionFollowTheFrames : Prop :=
  ∀ (dt seq : Nat) (p : Bytes) (s : State), s.atStep 3 = true → seq = s.shr.link.expect → fSlot p < 32 →
    (reservedOk 0x04 p = true → (tget s.shr.slots (fSlot p)).bound = false → s.shr.bindable (fSout p) (fPrv p) = true →
      ∃ t, exec (.bind dt seq p) s = .next t ∧ (tget t.shr.slots (fSlot p)).bound = true ∧
        (tget t.shr.slots (fSlot p)).context = fCtx p ∧ (tget t.shr.slots (fSlot p)).sout = fSout p ∧
        (tget t.shr.slots (fSlot p)).prv = fPrv p ∧ (∀ n, n ≠ fSlot p → tget t.shr.slots n = tget s.shr.slots n) ∧
        t.shr.cfg = s.shr.cfg ∧ t.glb = s.glb) ∧
    (reservedOk 0x05 p = true → (tget s.shr.slots (fSlot p)).bound = true → (tget s.shr.slots (fSlot p)).context = fCtx p →
      ∃ t, exec (.unbind dt seq p) s = .next t ∧ (tget t.shr.slots (fSlot p)).bound = false ∧
        (∀ n, n ≠ fSlot p → tget t.shr.slots n = tget s.shr.slots n) ∧ t.shr.cfg = s.shr.cfg ∧ t.glb = s.glb) ∧
    (reservedOk 0x03 p = true → (tget s.shr.slots (fSlot p)).bound = true → (tget s.shr.slots (fSlot p)).context = fCtx p →
      (tget s.shr.slots (fSlot p)).sout = fSout p → (tget s.shr.slots (fSlot p)).prv = fPrv p →
      ∃ t, exec (.heartbeat dt seq p) s = .next t ∧ (tget t.shr.slots (fSlot p)).hbAt = some (s.advance dt).cyc ∧
        (tget t.shr.slots (fSlot p)).lapsed = false ∧ (∀ n, n ≠ fSlot p → tget t.shr.slots n = tget s.shr.slots n) ∧
        t.shr.hbDiscarded = s.shr.hbDiscarded ∧ t.glb = s.glb) ∧
    (reservedOk 0x08 p = true → s.cfg.active.sioRaw.length = 2048 → crcK (s.cfg.active.sioRaw.take 2044) = rd p 4 4 →
      rd s.cfg.active.sioRaw 2044 4 = rd p 4 4 →
      ∃ t, exec (.cfg dt seq p) s = .next t ∧ t.shr.cfgActive = true ∧ t.shr.cfgGen = rd p 0 4 ∧
        t.shr.cfg = s.cfg.active.sioWords ∧ t.shr.slots = s.shr.slots ∧ t.glb = s.glb)

/-- R512, R520, R523, R528: the L die accepts Shroud's frames in order: inputs are sampled, RUN bits and outputs are kept, an
ACK is taken and a FAULT frame's code is recorded. -/
def Obligations.LDieTakesFramesInOrder : Prop :=
  ∀ (dt seq raw : Nat) (p : Bytes) (s : State), s.atStep 3 = true → seq = s.pch.link.expect →
    (∃ t, exec (.inputs dt seq raw) s = .next t ∧ t.pch.link.lastSeq = seq ∧ t.pch.link.lastAt = (s.advance dt).cyc ∧
      (∀ i, i < 32 → (tget t.pch.sins i).raw = bitAt raw i) ∧ t.pch.inRaw = raw % 2 ^ 32 ∧ t.glb = s.glb ∧ t.shr.souts = s.shr.souts) ∧
    (∃ t, exec (.hch dt seq) s = .next t ∧ t.pch.link.lastSeq = seq ∧
      t.pch.hchRun = (if s.shr.compat then 0 else runBits s.shr.fns) ∧ t.shr.souts = s.shr.souts) ∧
    (∃ t, exec (.outputs dt seq) s = .next t ∧ t.pch.link.lastSeq = seq ∧ t.pch.latch = s.shr.safeLatch ∧
      t.pch.mirror = s.shr.mirror ∧ t.glb = s.glb ∧ t.shr.souts = s.shr.souts) ∧
    (reservedOk 0x84 p = true → rd p 0 1 = 0x08 → rd p 1 1 = 0 → ∃ t, exec (.ack dt seq p) s = .next t ∧
      t.pch.link.lastSeq = seq ∧ t.pch.awaits = s.pch.awaits - 1 ∧ t.shr.souts = s.shr.souts) ∧
    (reservedOk 0x85 p = true → ∃ t, exec (.stayFault dt seq p) s = .next t ∧ t.pch.link.lastSeq = seq ∧
      t.pch.lastFault = rd p 0 1 ∧ t.shr.souts = s.shr.souts)

/-- R25, R28, R507: a frame whose lane copies disagree is rejected and counted, with a NAK for the first; the L die that
accepts no frame for 160 cycles enters SAFE with cause 0x15. -/
def Obligations.BadFramesAreRejectedAndLossIsSafe : Prop :=
  ∀ (dt typ : Nat) (p a b : Bytes) (s : State),
    (s.atStep 3 = true → lanesOk a b = false → ∃ t, exec (.stayFrameReject dt true typ p a b) s = .next t ∧
      t.shr.link.rejected = inc 16 s.shr.link.rejected ∧ t.shr.link.lastSeq = s.shr.link.lastSeq ∧
      (s.shr.link.nakSent = false → Out.fromShroud 0x7F s.shr.link.nextSeq (padTo 10 (le 1 s.shr.link.expect)) ∈ t.out) ∧
      t.shr.souts = s.shr.souts ∧ t.shr.slots = s.shr.slots ∧ t.glb = s.glb) ∧
    (s.pch.link.isLost (s.advance dt).cyc = true → s.glb.st ≠ .safe →
      ∃ t, exec (.stayLinkLossLDie dt) s = .next t ∧ t.glb.st = .safe ∧ t.glb.cause = 0x15 ∧ t.pch.link.lost = true)

/-- R509 to R511: a filter that has seen its time flips its level; a test pulse freezes the filters it feeds, and its end
marks every tested input that stayed high as cross-shorted. -/
def Obligations.InputsAreFilteredAndTested : Prop :=
  ∀ (dt i k before late : Nat) (s : State),
    (i < 32 → (s.advance dt).frozen i = false → ∃ t, exec (.filteredInputChange dt i) s = .next t ∧
      (tget t.shr.sins i).filt = !(tget s.shr.sins i).filt ∧ (tget t.shr.sins i).raw = !(tget s.shr.sins i).filt ∧
      (∀ j, j ≠ i → (tget t.shr.sins j).filt = (tget s.shr.sins j).filt ∧ (tget t.shr.sins j).raw = (tget s.shr.sins j).raw) ∧
      t.shr.slots = s.shr.slots ∧ t.glb = s.glb ∧ t.mem = s.mem) ∧
    (s.shr.pulseOwed (s.advance dt).cyc k = true →
      ∃ t, exec (.testPulseStart dt k) s = .next t ∧ k ∈ t.shr.pulsing ∧ t.shr.pulseAt.lookup k = some (s.advance dt).cyc ∧ t.shr.sins = s.shr.sins ∧ t.hst = s.hst) ∧
    (s.shr.pulsing.contains k = true → (s.advance dt).cyc - (s.shr.pulseAt.lookup k).getD 0 ≥ s.shr.tpWidth →
      s.shr.tested k = [i] → bitAt before i = true → bitAt late i = true →
      ∃ t, exec (.testPulseEnd dt k before late) s = .next t ∧ (tget t.shr.sins i).xs = true ∧ (tget t.pch.sins i).xs = true ∧
        t.shr.pulsing = s.shr.pulsing.erase k)

/-- R515, R516: a pair discrepancy beyond DISC_MS is a FAULT of the unit, and one hand alone for 500 ms BLOCKS it.
R520: RUN bits that differ for longer than CH_DISC_MS switch every output off and bring SAFE with cause 0x18.
R531, R375: a slot whose heartbeat age reaches its limit lapses, and stays bound; a round of heartbeats is sent when 100 µs
have passed, and notes its time. -/
def Obligations.DiscrepanciesAndLapsesAreSafe : Prop :=
  (∀ (dt n x : Nat) (s : State), s.shr.units.contains n = true → s.shr.compat = false →
     ((tget s.shr.fns n).discFrom = some x → (s.advance dt).cyc - x > (s.shr.fnCfg n).discMs * 40000 →
       (tget s.shr.fns n).st ≠ .fault →
       ∃ t, exec (.discrepancyTimeout dt false n) s = .next t ∧ (tget t.shr.fns n).st = .fault ∧
         (tget t.shr.fns n).faultCode = discCode (s.shr.fnCfg n) ∧ (∀ m, m ≠ n → tget t.shr.fns m = tget s.shr.fns m)) ∧
     ((s.shr.fnCfg n).typ = 3 → (tget s.shr.fns n).st = .stop → (tget s.shr.fns n).handFrom = some x →
       (s.advance dt).cyc - x ≥ 500 * 40000 →
       ∃ t, exec (.twohandTimeout dt false n) s = .next t ∧ (tget t.shr.fns n).st = .blocked ∧
         (∀ m, m ≠ n → tget t.shr.fns m = tget s.shr.fns m))) ∧
  (∀ (dt n x : Nat) (s : State), s.shr.compat = false → s.shr.cfgActive = true → s.shr.discFrom.lookup n = some x →
     (s.advance dt).cyc - x > s.shr.chDiscMs * 40000 → s.glb.st ≠ .safe →
     ∃ t, exec (.channelDiscrepancy dt true n) s = .next t ∧ t.glb.st = .safe ∧ t.glb.cause = 0x18 ∧ t.outputsOff ∧
       t.shr.discOff = true) ∧
  (∀ (dt n lim x : Nat) (s : State),
     ((tget s.shr.slots n).bound = true → s.shr.slotLimit (tget s.shr.slots n) = some lim →
       (tget s.shr.slots n).hbAt = some x → (tget s.shr.slots n).lapsed = false → (s.advance dt).cyc - x ≥ cycMs lim →
       ∃ t, exec (.heartbeatLapse dt n) s = .next t ∧ (tget t.shr.slots n).lapsed = true ∧ (tget t.shr.slots n).bound = true ∧
         (∀ m, m ≠ n → tget t.shr.slots m = tget s.shr.slots m) ∧ t.glb = s.glb) ∧
     (s.mc + dt - s.vrd.hbAt ≥ 100 * usMc → ∃ t, exec (.trustHeartbeat dt) s = .next t ∧ t.vrd.hbAt = s.mc + dt ∧
       t.shr = s.shr ∧ t.glb = s.glb ∧ t.hst = s.hst ∧
       (∀ c, (s.watch c).isOpen = true → ((s.watch c).sout ≠ 0 ∨ (s.watch c).prv ≠ 0) → (s.watch c).trusted = true →
         (s.advance dt).tooOld (s.watch c) = false → ∃ f ∈ t.pch.link.waiting, f.typ = 0x03 ∧ rd f.payload 2 2 = c % 2 ^ 16)))

/-- R522, R523: what a standard output does when its contactor moves or its timers end, and what a privileged output does on
its sense lines and timers. -/
def Obligations.OutputsFollowLinesAndTimers : Prop :=
  ∀ (dt i x : Nat) (s : State), let cyc := (s.advance dt).cyc
    (i < 16 → (∃ t, exec (.edmChange dt i) s = .next t ∧ (t.so i).edm = !(s.so i).edm ∧
        (∀ j, j ≠ i → (t.so j).edm = (s.so j).edm) ∧ t.shr.slots = s.shr.slots ∧ t.shr.fns = s.shr.fns ∧ t.glb = s.glb ∧ t.mem = s.mem) ∧
      ((s.so i).st = .on → (s.so i).edm = false → (s.so i).edmSeen0 = true → s.shr.soEdmEn i = true → 0 < s.shr.soMinOff i →
        ∃ t, exec (.edmChange dt i) s = .next t ∧ (t.so i).st = .locked ∧ (t.so i).faultCode = 0x12)) ∧
    (i < 16 → (s.so i).edmTimer = true → s.shr.soEdmEn i = true → 0 < s.shr.soMinOff i →
      ((s.so i).st = .on → (s.so i).edm = true → cyc - (s.so i).onAt ≥ cycMs (s.shr.soEdmMs i) →
        ∃ t, exec (.edmMsExpiry dt i) s = .next t ∧ (t.so i).st = .locked ∧ (t.so i).faultCode = 0x11) ∧
      ((s.so i).st = .shutdown → (s.so i).edm = false → (s.so i).offAt = some x → cyc - x ≥ cycMs (s.shr.soEdmMs i) →
        ∃ t, exec (.edmMsExpiry dt i) s = .next t ∧ (t.so i).st = .locked ∧ (t.so i).faultCode = 0x13)) ∧
    (i < 16 → (s.so i).st = .shutdown → (s.so i).offAt = some x → (s.so i).minOff = true →
      cyc - x ≥ cycMs (s.shr.soMinOff i) → s.shr.edmOpen i = true → bitAt s.shr.soutReq i = false →
      ∃ t, exec (.minOffExpiry dt false i) s = .next t ∧ (t.so i).st = .off) ∧
    (i < 4 → (s.pv i).st = .lsOn → (s.pv i).hsPin = true → (s.pv i).hsSense = false → (s.pv i).hsOnAt = some x →
      cyc - x ≤ cycUs (s.shr.pvSenseUs i) → s.shr.stateAllows = true → bitAt s.shr.hsCmd i = true → s.shr.pvPermit cyc i = true →
      ∃ t, exec (.senseChange dt i true) s = .next t ∧ (t.pv i).st = .on ∧ (t.pv i).hsSense = true) ∧
    (i < 4 → (s.pv i).st = .on → (s.pv i).senseFrom = some x → cyc - x > cycUs (s.shr.pvSenseUs i) → 0 < s.shr.pvMinOff i →
      ∃ t, exec (.senseUsExpiry dt i) s = .next t ∧ (t.pv i).st = .locked ∧ (t.pv i).faultCode = 0x14) ∧
    (i < 4 → (s.pv i).st = .lsOn → (s.pv i).hsPin = false → cyc - (s.pv i).lsOnAt ≥ cycMs 10 →
      ∃ t, exec (.hsCommandTimeout dt i) s = .next t ∧ (t.pv i).st = .shutdown ∧ (t.pv i).faultCode = 0x15)

/-! ### Plibex and Ethernet (chapter 11) -/

/-- R573, R574, R576: a telegram that meets a receive entry and passes every check in order makes its connection LIVE with
its sequence number; one that fails a check is counted against it and changes neither. -/
def Obligations.TelegramsAreCheckedInOrder : Prop :=
  ∀ (dt ago i : Nat) (d : Datagram) (s s1 : State), d.mac < 4 → s.atStep 9 = true → (s.advance dt).macIn d = (s1, true) →
    24 ≤ d.payload.length → fld (net d.payload 0 1) 4 4 = 1 → net d.payload 2 2 ≤ 64 →
    d.payload.length = 24 + net d.payload 2 2 → s1.rxEntry (net d.payload 4 4) = some i → s1.cfg.active.connFrer i = false →
    (s1.rxCode i d ((s.advance dt).tmb.now - ago) = 0 →
      ∃ t, exec (.plibexRx dt d ago) s = .next t ∧ (t.conn i).st = .live ∧ (t.conn i).last = net d.payload 8 4 ∧
        (t.conn i).count = inc 32 (s1.conn i).count ∧ (∀ j, j ≠ i → t.conn j = s1.conn j) ∧
        { t.quiet with plx := {} } = { s1.quiet with plx := {} }) ∧
    (∀ code, code ≠ 0 → s1.rxCode i d ((s.advance dt).tmb.now - ago) = code →
      ∃ t, exec (.plibexRx dt d ago) s = .next t ∧ (t.conn i).lastFault = code ∧ (t.conn i).st = (s1.conn i).st ∧
        (t.conn i).last = (s1.conn i).last ∧ (t.conn i).rejected = inc 16 (s1.conn i).rejected ∧
        { t.quiet with plx := {} } = { s1.quiet with plx := {} })

/-- R565 to R567, R569, R577: a watchdog that expires puts its connection into TIMEOUT. A transmit connection sends when its
period is over, a FUNC_STATE connection when its payload has changed and 1 ms has passed, and in SAFE what is sent is
SAFE_STATE with the cause; a receive connection sends it every 100 ms there. Nothing is sent before its time.
R586, R588, R590: the state of a link and of its preemption is kept and recorded; a rate that the MAC does not support and a
reserved VERIFY_STATUS (R9) change nothing. -/
def Obligations.ConnectionsAndLinks : Prop :=
  (∀ (dt i x : Nat) (p : Bytes) (s : State), s.cfg.active.connValid i = true →
     (s.cfg.active.connRx i = true → (s.conn i).st = .live → s.mc + dt - (s.conn i).wdFrom ≥ s.cfg.active.connWdMs i * msMc →
       ∃ t, exec (.rxWatchdogExpiry dt i) s = .next t ∧ (t.conn i).st = .timeout ∧ (t.conn i).timeouts = inc 16 (s.conn i).timeouts ∧
         (∀ j, j ≠ i → t.conn j = s.conn j) ∧ { t.quiet with plx := {} } = { (s.advance dt).quiet with plx := {} }) ∧
     (s.cfg.active.connRx i = false → s.atStep 9 = true → (s.conn i).sentAt = some x → s.timeValid = true →
       (s.mc + dt - x < s.cfg.active.connTxMs i * msMc → exec (.txPeriod dt i) s = .next (s.advance dt)) ∧
       (s.mc + dt - x ≥ s.cfg.active.connTxMs i * msMc → s.glb.st ≠ .safe → s.cfg.active.connType i = 1 →
         (s.conn i).lastPayload = some (1, p) → (s.conn i).rebound = false →
         ∃ t, exec (.txPeriod dt i) s = .next t ∧ s.sent t i 1 p ∧ t.glb = s.glb) ∧
       (s.mc + dt - x ≥ s.cfg.active.connTxMs i * msMc → s.glb.st = .safe →
         ∃ t, exec (.txPeriod dt i) s = .next t ∧ s.sent t i 2 (s.safePayload s.glb.cause) ∧ t.glb = s.glb)) ∧
     (s.cfg.active.connRx i = false → s.cfg.active.connType i = 3 → s.glb.st ≠ .safe → (s.conn i).sentAt = some x →
       s.timeValid = true →
       (s.mc + dt - x ≥ msMc → (s.conn i).lastPayload ≠ some (3, s.funcPayload) →
         ∃ t, exec (.funcStateSend dt i) s = .next t ∧ s.sent t i 3 s.funcPayload ∧ t.glb = s.glb) ∧
       (s.mc + dt - x < msMc ∨ (s.conn i).lastPayload = some (3, s.funcPayload) →
         exec (.funcStateSend dt i) s = .next (s.advance dt))) ∧
     (s.cfg.active.connRx i = true → (s.conn i).sentAt = some x →
       (s.glb.st = .safe → s.mc + dt - x ≥ 100 * msMc →
         ∃ t, exec (.safeStateRepeat dt i) s = .next t ∧ s.sent t i 2 (s.safePayload s.glb.cause) ∧ t.glb = s.glb) ∧
       (s.glb.st ≠ .safe ∨ s.mc + dt - x < 100 * msMc → exec (.safeStateRepeat dt i) s = .next (s.advance dt)))) ∧
  (∀ (dt m speed status : Nat) (up : Bool) (s : State), s.atStep 9 = true →
     (s.speedOk m speed = false → exec (.link dt m up speed) s = .next (s.advance dt)) ∧
     (5 < status → exec (.preempt dt m status) s = .next (s.advance dt)) ∧
     (m < 4 → s.speedOk m speed = true → ∃ t, exec (.link dt m up speed) s = .next t ∧ (t.mac m).up = up ∧ (t.mac m).speed = speed ∧
       (∀ j, j ≠ m → t.mac j = s.mac j) ∧ { t.quiet with plx := {} } = { (s.advance dt).quiet with plx := {} }) ∧
     (m < 2 → status ≤ 5 → ∃ t, exec (.preempt dt m status) s = .next t ∧ (t.mac m).verify = status ∧ (t.mac m).up = (s.mac m).up ∧
       (∀ j, j ≠ m → t.mac j = s.mac j) ∧ { t.quiet with plx := {} } = { (s.advance dt).quiet with plx := {} }))

/-! ### Host links, rings and descriptors (chapter 08) -/

/-- R410 to R412, R463: a ring that passes its setup checks starts afresh, one that does not stays disabled with its
SETUP_ERR; ENABLE 0 ends a ring, but a completion ring that is bound stays; a function reset ends every ring of the function
and leaves the watch contexts as they are. -/
def Obligations.RingsAreEnabledDisabledAndReset : Prop :=
  ∀ (dt fn v : Nat) (s : State), s.hostOn fn = true →
    (s.hasRing fn (s.selRing fn) = true → bitAt v 0 = true → (s.ring fn (s.selRing fn)).enable = false →
      (s.setupErr fn ((s.ring fn (s.selRing fn)).writeCtl v) = 0 → (s.ring fn (s.selRing fn)).gapCount = 0 →
        ∃ t, exec (.ringEnable dt fn v) s = .next t ∧ (t.ring fn (s.selRing fn)).enable = true ∧
          (t.ring fn (s.selRing fn)).setupErr = 0 ∧ (t.ring fn (s.selRing fn)).pi = 0 ∧ (t.ring fn (s.selRing fn)).ci = 0 ∧
          (t.ring fn (s.selRing fn)).dbSeq = 0 ∧ (t.ring fn (s.selRing fn)).kind = v / 2 % 4 ∧
          (t.ring fn (s.selRing fn)).sizeLog2 = v / 8 % 32 ∧ (t.ring fn (s.selRing fn)).cplRing = v / 1024 % 2 ^ 14 ∧
          (∀ k, k ≠ ringKey fn (s.selRing fn) → tget t.hst.rings k = tget s.hst.rings k) ∧
          { t with hst := {} } = { s.advance dt with hst := {} }) ∧
      (s.setupErr fn ((s.ring fn (s.selRing fn)).writeCtl v) ≠ 0 →
        ∃ t, exec (.ringEnable dt fn v) s = .next t ∧ (t.ring fn (s.selRing fn)).enable = false ∧
          (t.ring fn (s.selRing fn)).setupErr = s.setupErr fn ((s.ring fn (s.selRing fn)).writeCtl v) ∧
          (∀ k, k ≠ ringKey fn (s.selRing fn) → tget t.hst.rings k = tget s.hst.rings k) ∧
          { t with hst := {} } = { s.advance dt with hst := {} })) ∧
    (s.hasRing fn (s.selRing fn) = true → bitAt v 0 = false → (s.ring fn (s.selRing fn)).enable = true →
      ((s.ring fn (s.selRing fn)).kind = 1 → s.ringBound fn (s.selRing fn) = true →
        ∃ t, exec (.ringDisable dt fn v) s = .next t ∧
          t.ring fn (s.selRing fn) = { s.ring fn (s.selRing fn) with setupErr := 5 } ∧
          (∀ k, k ≠ ringKey fn (s.selRing fn) → tget t.hst.rings k = tget s.hst.rings k) ∧
          { t with hst := {} } = { s.advance dt with hst := {} }) ∧
      (((s.ring fn (s.selRing fn)).kind = 1 → s.ringBound fn (s.selRing fn) = false) →
        ∃ t, exec (.ringDisable dt fn v) s = .next t ∧ (t.ring fn (s.selRing fn)).enable = false ∧
          (t.ring fn (s.selRing fn)).setupErr = 0 ∧ (t.ring fn (s.selRing fn)).held = [])) ∧
    (∃ t, exec (.functionReset dt fn 0 0 0) s = .next t ∧ (∀ r, r < 16384 → (t.ring fn r).enable = false) ∧
      (t.hfn fn).busMaster = false ∧ (t.hfn fn).evtEnable = false ∧ t.vrd = s.vrd ∧ t.plx = s.plx ∧ t.shr = s.shr ∧
      t.glb = s.glb ∧ t.pending = s.pending)

/-- R416 to R418: the doorbell with the next SEQ and a valid INDEX moves the producer index of a submission ring, or the
consumer index of another; any other one is counted with its cause and moves no consumer index and no SEQ of any ring. -/
def Obligations.DoorbellsMoveTheIndex : Prop :=
  ∀ (dt fn r index seq : Nat) (s : State), s.hostOn fn = true → r < 16384 → index < 2 ^ 32 → seq < 2 ^ 32 →
    (s.hasRing fn r = true → (s.ring fn r).enable = true → seq = ((s.ring fn r).dbSeq + 1) % 2 ^ 32 →
      (s.ring fn r).indexOk index = true →
      ∃ t, exec (.doorbell dt fn (8 * r) (le 4 index ++ le 4 seq)) s = .next t ∧
        t.ring fn r = (if (s.ring fn r).kind = 0 then { s.ring fn r with dbSeq := seq, pi := index }
          else { s.ring fn r with dbSeq := seq, ci := index }) ∧
        (∀ k, k ≠ ringKey fn r → tget t.hst.rings k = tget s.hst.rings k) ∧
        { t with hst := {} } = { s.advance dt with hst := {} }) ∧
    (s.dbCause fn r index seq ≠ 0 →
      ∃ t, exec (.doorbell dt fn (8 * r) (le 4 index ++ le 4 seq)) s = .next t ∧
        (∀ k, (tget t.hst.rings k).ci = (tget s.hst.rings k).ci ∧ (tget t.hst.rings k).dbSeq = (tget s.hst.rings k).dbSeq) ∧
        (s.hasRing fn r = true → (t.ring fn r).lastDbErr = s.dbCause fn r index seq ∧
          (t.ring fn r).dbErrs = inc 16 (s.ring fn r).dbErrs) ∧
        t.quiet = (s.advance dt).quiet)

/-- R409, R413, R414, R421, R442, R446: a descriptor at CI that can be fetched is read at its entry's address, moves CI on
with a write-back, holds an entry of its completion ring, and
waits to be taken; one whose CHECK fails completes with CHECK, and one whose read fails with FETCH. -/
def Obligations.DescriptorsAreFetchedAndChecked : Prop :=
  ∀ (dt fn r : Nat) (bytes : Bytes) (s : State), s.hostOn fn = true → s.canFetch fn r = true → bytes.length = 64 →
    (∀ x ∈ (s.ring fn r).outstanding, x.1 ≠ (s.ring fn r).ci) →
    (s.descCheckOk fn r (s.ring fn r).ci bytes = true →
      ∃ t, exec (.descriptorFetch dt fn r bytes true) s = .next t ∧
        (t.ring fn r).ci = ((s.ring fn r).ci + 1) % 2 ^ 32 ∧
        .hostRead fn ((s.ring fn r).entryAt (s.ring fn r).ci) 64 (128 * 2 ^ (s.hfn fn).maxRead) ∈ t.out ∧
        .writeBack fn r (((s.ring fn r).ci + 1) % 2 ^ 32) (s.ring fn r).wb.toNat
          (le 4 (((s.ring fn r).ci + 1) % 2 ^ 32) ++ zeros 4) ∈ t.out ∧
        t.hst.fetched = s.hst.fetched ++ [{ fn := fn, ring := r, index := (s.ring fn r).ci, bytes := bytes }] ∧
        (t.ring fn (s.ring fn r).cplRing).owed = (s.ring fn (s.ring fn r).cplRing).owed + 1 ∧
        t.quiet = (s.advance dt).quiet) ∧
    (s.descCheckOk fn r (s.ring fn r).ci bytes = false →
      ∃ t i, exec (.descriptorFetch dt fn r bytes true) s = .next t ∧ t.hst.fetched = s.hst.fetched ∧
        .record fn (s.ring fn r).cplRing i ((s.ring fn (s.ring fn r).cplRing).entryAt i)
          (Cpl.bytes { status := 0x10, opcode := opcodeOf bytes } r (s.ring fn r).ci (s.advance dt).tmb.now) ∈ t.out ∧
        (t.ring fn r).ci = ((s.ring fn r).ci + 1) % 2 ^ 32 ∧ t.quiet = (s.advance dt).quiet) ∧
    (∃ t i, exec (.descriptorFetch dt fn r bytes false) s = .next t ∧ t.hst.fetched = s.hst.fetched ∧
      .record fn (s.ring fn r).cplRing i ((s.ring fn (s.ring fn r).cplRing).entryAt i)
        (Cpl.bytes { status := 0x14 } r (s.ring fn r).ci (s.advance dt).tmb.now) ∈ t.out ∧
      (t.ring fn r).ci = ((s.ring fn r).ci + 1) % 2 ^ 32 ∧ t.quiet = (s.advance dt).quiet)

/-- R399, R447, R449, R454, R459: the oldest held record, an owed notice and a gap record go into the next entry of their
ring as soon as one is free; the message of a ring is due MOD_TIME_US after its first unannounced record. -/
def Obligations.RecordsReachTheirRing : Prop :=
  ∀ (dt fn r : Nat) (s : State),
    (s.canWrite fn r = true → ∀ h rest, (s.ring fn r).held = h :: rest →
      ∃ t, exec (.heldRecordWrite dt fn r) s = .next t ∧ (t.ring fn r).held = rest ∧
        (t.ring fn r).pi = ((s.ring fn r).pi + 1) % 2 ^ 32 ∧
        .record fn r (s.ring fn r).pi ((s.ring fn r).entryAt (s.ring fn r).pi) h.bytes ∈ t.out ∧
        .writeBack fn r (((s.ring fn r).pi + 1) % 2 ^ 32) (s.ring fn r).wb.toNat
          (le 4 (((s.ring fn r).pi + 1) % 2 ^ 32) ++ zeros 4) ∈ t.out ∧
        t.quiet = (s.advance dt).quiet) ∧
    (s.canWrite fn r = false → exec (.heldRecordWrite dt fn r) s = .next (s.advance dt) ∧
      exec (.lostNotice dt fn r) s = .next (s.advance dt) ∧ exec (.ringGap dt fn r) s = .next (s.advance dt)) ∧
    (s.canWrite fn r = true → (s.ring fn r).kind = 1 → (s.ring fn r).gapCount ≠ 0 → (s.ring fn r).held = [] →
      ∃ t, exec (.lostNotice dt fn r) s = .next t ∧ (t.ring fn r).gapCount = 0 ∧
        (t.ring fn r).pi = ((s.ring fn r).pi + 1) % 2 ^ 32 ∧
        .record fn r (s.ring fn r).pi ((s.ring fn r).entryAt (s.ring fn r).pi) (lostNotice r (s.ring fn r).gapCount (s.ring fn r).gapFirst (s.ring fn r).gapLast) ∈ t.out ∧
        t.quiet = (s.advance dt).quiet) ∧
    (∀ n, s.canWrite fn r = true → (s.ring fn r).kind = 2 → (s.ring fn r).skipFirst ≠ 0 → s.tenantOf fn = some n →
      ∃ t, exec (.ringGap dt fn r) s = .next t ∧ (t.ring fn r).skipFirst = 0 ∧ (t.ring fn r).skipLast = 0 ∧
        (t.ring fn r).pi = ((s.ring fn r).pi + 1) % 2 ^ 32 ∧ t.quiet = (s.advance dt).quiet) ∧
    (∀ q, (s.ring fn r).irqNow = q → (s.ring fn r).enable = true → (s.ring fn r).kind ≠ 0 → q.irqEn = true →
      q.modTime ≠ 0 → (s.ring fn r).unannounced ≠ 0 → s.mc + dt - (s.ring fn r).firstAt ≥ q.modTime * usMc →
      ∃ t, exec (.irqModerationTimeout dt fn r) s = .next t ∧ (t.ring fn r).unannounced = 0 ∧
        ((s.hfn fn).msixOn = true → (s.hfn fn).canSend q.vector = true → .msix fn q.vector ∈ t.out) ∧
        ((s.hfn fn).msixOn = true → (s.hfn fn).canSend q.vector = false → q.vector ∈ (t.hfn fn).pba) ∧
        ((s.hfn fn).msixOn = false → t.out = [] ∧ (t.hfn fn).pba = (s.hfn fn).pba) ∧ t.quiet = (s.advance dt).quiet) ∧
    (∀ (on mask : Bool) (mps mrrs : Nat), s.hostOn fn = true → r < 16384 →
      (∃ t, exec (.busMasterEnable dt fn false on mask mps mrrs) s = .next t ∧ (t.hfn fn).busMaster = false ∧
        (t.hfn fn).msixOn = on ∧ (t.hfn fn).msixMask = mask ∧ t.hst.rings = s.hst.rings ∧
        { t with hst := {} } = { s.advance dt with hst := {} }) ∧
      (∃ t, exec (.busMasterEnable dt fn true on mask mps mrrs) s = .next t ∧ (t.hfn fn).busMaster = true ∧
        (t.hfn fn).msixOn = on ∧ (t.hfn fn).msixMask = mask ∧ (t.ring fn r).waiting = [] ∧
        t.quiet = (s.advance dt).quiet))

/-- R14 to R16, R398, R403, R406, R467: a write by a function of no VALID tenant is discarded, and one to TEN_RING_SEL selects
the ring; a BAR0 access of another size or alignment is recorded, and a read of it returns all ones; the read of a lower word
latches the upper one, which is then read from the latch; the doorbell region reads 0, and an AtomicOp is unsupported. -/
def Obligations.RegisterAccessesFollowTheirRules : Prop :=
  ∀ (dt fn off : Nat) (s : State), s.hostOn fn = true →
    (∀ data, s.tenantOf fn = none → accessOk off data.length = true →
      exec (.registerWrite dt fn 0 off data) s = .next (s.advance dt)) ∧
    (∀ n v, s.tenantOf fn = some n → ∃ t, exec (.registerWrite dt fn 0 0x11000 (le 4 v)) s = .next t ∧
      t.selRing fn = v % 2 ^ 14 ∧ (∀ f, f ≠ fn → t.hfn f = s.hfn f) ∧ t.hst.rings = s.hst.rings ∧
      { t with hst := {} } = { s.advance dt with hst := {} }) ∧
    (∀ data, accessOk off data.length = false → ∃ t, exec (.registerWrite dt fn 0 off data) s = .next t ∧
      t.selRing fn = s.selRing fn ∧ t.quiet = (s.advance dt).quiet ∧
      (s.logReady = true → ∃ e ∈ t.log.records, e.kind = 0x0101 ∧ e.payload = le 1 (fn / 2) ++ le 1 (fn % 2) ++
        le 1 data.length ++ le 1 1 ++ le 4 off)) ∧
    (∀ size, accessOk off size = false → ∃ t, exec (.bar0Access dt fn 0 0 off size) s = .next t ∧
      (t.hfn fn).cpl = .success ∧ (t.hfn fn).readData = le size 0xFFFFFFFF ∧ t.quiet = (s.advance dt).quiet ∧
      (s.logReady = true → ∃ e ∈ t.log.records, e.kind = 0x0101 ∧ e.payload = le 1 (fn / 2) ++ le 1 (fn % 2) ++
        le 1 size ++ le 1 0 ++ le 4 off)) ∧
    (off % 4 = 0 → isLower off = true → ∃ t, exec (.lowerWordRead dt fn off) s = .next t ∧
      tget (t.hfn fn).latched (off + 4) = (s.advance dt).bar0Word fn (off + 4) ∧
      (∀ o, o ≠ off + 4 → tget (t.hfn fn).latched o = tget (s.hfn fn).latched o) ∧
      (t.hfn fn).readData = le 4 ((s.advance dt).bar0Word fn off) ∧ (∀ f, f ≠ fn → t.hfn f = s.hfn f) ∧
      t.hst.rings = s.hst.rings ∧ { t with hst := {} } = { s.advance dt with hst := {} }) ∧
    (off % 4 = 0 → isLower off = true → isLower (off + 4) = false →
      ∃ t, exec (.bar0Access dt fn 0 0 (off + 4) 4) s = .next t ∧
        (t.hfn fn).readData = le 4 (tget (s.hfn fn).latched (off + 4)) ∧ t.hst.rings = s.hst.rings ∧
        { t with hst := {} } = { s.advance dt with hst := {} }) ∧
    (∀ size, off + size ≤ 0x20000 → ∃ t, exec (.bar0Access dt fn 0 2 off size) s = .next t ∧
      (t.hfn fn).cpl = .success ∧ (t.hfn fn).readData = zeros size ∧ { t with hst := {} } = { s.advance dt with hst := {} }) ∧
    (∀ bar size, ∃ t, exec (.bar0Access dt fn 2 bar off size) s = .next t ∧ (t.hfn fn).cpl = .unsupported ∧
      t.hst.rings = s.hst.rings ∧ { t with hst := {} } = { s.advance dt with hst := {} })

/-- R422, R429, R442, R444: NOP and the queries complete with the data they ask for; a context of another tenant is refused
with OWNER. -/
def Obligations.ShortOpcodesAnswer : Prop :=
  ∀ (dt n : Nat) (d : Desc) (s : State),
    (s.taking d 0 n → ∃ t, exec (.nop dt) s = .next t ∧ t.quiet = (s.advance dt).quiet ∧
      s.answered t d { status := b2n (d.clamps != 0), opcode := 0, clampMap := d.clamps }) ∧
    (s.taking d 0x31 n → rd d.fields 8 1 = 3 → ∃ t, exec (.queryDevice dt) s = .next t ∧ t.quiet = (s.advance dt).quiet ∧
      s.answered t d { status := b2n (d.clamps != 0), opcode := 0x31, clampMap := d.clamps, data := (s.advance dt).queryDevice }) ∧
    (s.taking d 0x31 n → rd d.fields 8 1 = 2 → ∃ t, exec (.queryFrame dt) s = .next t ∧ t.quiet = (s.advance dt).quiet ∧
      s.answered t d { status := b2n (d.clamps != 0), opcode := 0x31, clampMap := d.clamps, data := (s.advance dt).queryFrame }) ∧
    (s.taking d 0x31 n → rd d.fields 8 1 = 1 →
      ((s.watch (rd d.fields 10 2)).isOpen = false ∨ (s.watch (rd d.fields 10 2)).tenant = n →
        ∃ t, exec (.queryContext dt) s = .next t ∧ t.quiet = (s.advance dt).quiet ∧
          s.answered t d { status := b2n (d.clamps != 0), opcode := 0x31, clampMap := d.clamps,
                           data := (s.advance dt).queryCtx (rd d.fields 10 2) }) ∧
      ((s.watch (rd d.fields 10 2)).isOpen = true → (s.watch (rd d.fields 10 2)).tenant ≠ n →
        ∃ t, exec (.queryContext dt) s = .next t ∧ t.quiet = (s.advance dt).quiet ∧
          s.answered t d { status := 0x12, opcode := 0x31, clampMap := d.clamps }))

/-- R438 to R440, R443: a WATCH_OPEN of a closed context reads its parameter block at PARAM_ADDR and waits for it, one of an open context is refused with
OPEN; a block that cannot be read or does not match its CHECK leaves the context closed, and one that every rule accepts
opens it; WATCH_CLOSE closes a context and no other. -/
def Obligations.WatchesOpenAndClose : Prop :=
  ∀ (dt n : Nat) (s : State),
    (∀ d, s.taking d 1 n → (s.watch (rd d.fields 8 2)).isOpen = false →
      (∀ o ∈ s.hst.openings, o.context ≠ rd d.fields 8 2) →
      ∃ t, exec (.watchOpen dt) s = .next t ∧ t.quiet = (s.advance dt).quiet ∧ t.hst.fetched = s.hst.fetched.erase d ∧
        .hostRead d.fn (rd d.fields 16 8) 128 (128 * 2 ^ (s.hfn d.fn).maxRead) ∈ t.out ∧
        t.hst.openings = s.hst.openings ++
          [{ fn := d.fn, ring := d.ring, index := d.index, context := rd d.fields 8 2, clamps := d.clamps }]) ∧
    (∀ d, s.taking d 1 n → (s.watch (rd d.fields 8 2)).isOpen = true → (s.watch (rd d.fields 8 2)).tenant = n →
      ∃ t, exec (.watchOpen dt) s = .next t ∧ t.quiet = (s.advance dt).quiet ∧
        s.answered t d { status := 0x13, opcode := 1, result := 0x10, detail := rd d.fields 8 2, clampMap := d.clamps }) ∧
    (∀ fn r o bytes, s.hst.openings.find? (fun o => o.fn == fn && o.ring == r && o.slot.isNone) = some o →
      bytes.length = 128 →
      (∃ t, exec (.watchParameterBlockRead dt fn r bytes false) s = .next t ∧ t.quiet = (s.advance dt).quiet ∧
        t.hst.openings = s.hst.openings.erase o) ∧
      (crcK (bytes.take 124) ≠ rd bytes 124 4 →
        ∃ t, exec (.watchParameterBlockRead dt fn r bytes true) s = .next t ∧ t.quiet = (s.advance dt).quiet ∧
          t.hst.openings = s.hst.openings.erase o) ∧
      (∀ map b, crcK (bytes.take 124) = rd bytes 124 4 →
        clampParam ((bitList 4 (rd bytes 1 1)).foldl (fun a m => max a (((s.model m).active.map bFloor).getD 0)) 0) bytes = (map, b) →
        s.tenantOf o.fn = some n → s.tenAux n = false → s.pbOwned n b = true → s.openRefusal o n b = 0 → pbOutputs b = false →
        ∃ t, exec (.watchParameterBlockRead dt fn r bytes true) s = .next t ∧ (t.watch o.context).isOpen = true ∧
          (t.watch o.context).tenant = n ∧ (t.watch o.context).stream = rd b 4 4 ∧ (t.watch o.context).maxAge = rd b 8 4 ∧
          (t.watch o.context).cplRing = rd b 12 2 ∧ (t.watch o.context).modelMask = pbMask b ∧
          (t.watch o.context).trusted = false ∧ (∀ c, c ≠ o.context → t.watch c = s.watch c) ∧ t.shr = s.shr)) ∧
    (∀ d, s.taking d 2 n → (s.watch (rd d.fields 8 2)).isOpen = true → (s.watch (rd d.fields 8 2)).tenant = n →
      ∃ t, exec (.watchClose dt) s = .next t ∧ (t.watch (rd d.fields 8 2)).isOpen = false ∧
        (t.watch (rd d.fields 8 2)).trusted = false ∧ (∀ c, c ≠ rd d.fields 8 2 → t.watch c = s.watch c) ∧
        s.answered t d { status := b2n (d.clamps != 0), opcode := 2, result := 2, detail := rd d.fields 8 2, clampMap := d.clamps }) ∧
    (∀ d, s.taking d 2 n → (s.watch (rd d.fields 8 2)).isOpen = false →
      ∃ t, exec (.watchClose dt) s = .next t ∧ t.quiet = (s.advance dt).quiet ∧
        s.answered t d { status := 0x13, opcode := 2, result := 0x11, detail := rd d.fields 8 2, clampMap := d.clamps })

/-- R347, R348, R378, R437: WATCH_CLEAR moves an escalated context to CLEARING; an accepted FRAME_ANNOUNCE keeps the
corridor of its frame, a refused one and one with a clamped field keep none. -/
def Obligations.EscalationsClearAndCorridorsWait : Prop :=
  ∀ (dt n : Nat) (d : Desc) (s : State), (s.watch (rd d.fields 8 2)).isOpen = true →
    (s.watch (rd d.fields 8 2)).tenant = n →
    (s.taking d 3 n →
      ((s.watch (rd d.fields 8 2)).esc = .escalated → ∃ t, exec (.watchClear dt) s = .next t ∧
        t.watch (rd d.fields 8 2) = { s.watch (rd d.fields 8 2) with esc := .clearing, clean := 0 } ∧
        (∀ c, c ≠ rd d.fields 8 2 → t.watch c = s.watch c) ∧
        { t.quiet with vrd := {} } = { (s.advance dt).quiet with vrd := {} } ∧
        s.answered t d { status := b2n (d.clamps != 0), opcode := 3, result := 3, detail := rd d.fields 8 2, clampMap := d.clamps }) ∧
      ((s.watch (rd d.fields 8 2)).esc = .normal → ∃ t, exec (.watchClear dt) s = .next t ∧ t.quiet = (s.advance dt).quiet ∧
        s.answered t d { status := b2n (d.clamps != 0), opcode := 3, result := 4, detail := rd d.fields 8 2, clampMap := d.clamps }) ∧
      ((s.watch (rd d.fields 8 2)).esc = .clearing → ∃ t, exec (.watchClear dt) s = .next t ∧ t.quiet = (s.advance dt).quiet ∧
        s.answered t d { status := b2n (d.clamps != 0), opcode := 3, result := 5, detail := rd d.fields 8 2, clampMap := d.clamps })) ∧
    (s.taking d 4 n →
      ((s.advance dt).announceRefusal (rd d.fields 8 2) (rd d.fields 10 6) ≠ 0 →
        ∃ t, exec (.frameAnnounce dt) s = .next t ∧ t.quiet = (s.advance dt).quiet ∧
          s.answered t d { status := 0x13, opcode := 4, detail := rd d.fields 8 2, clampMap := d.clamps,
                           result := (s.advance dt).announceRefusal (rd d.fields 8 2) (rd d.fields 10 6) }) ∧
      ((s.advance dt).announceRefusal (rd d.fields 8 2) (rd d.fields 10 6) = 0 → d.clamps ≠ 0 →
        ∃ t, exec (.frameAnnounce dt) s = .next t ∧ t.quiet = (s.advance dt).quiet ∧
          s.answered t d { status := 1, opcode := 4, result := 7, detail := rd d.fields 8 2, clampMap := d.clamps }) ∧
      (∀ k, (s.advance dt).announceRefusal (rd d.fields 8 2) (rd d.fields 10 6) = 0 → d.clamps = 0 →
        s.framesAhead (rd d.fields 10 6) = some k →
        ∃ t, exec (.frameAnnounce dt) s = .next t ∧
          (t.watch (rd d.fields 8 2)).corridors = (s.watch (rd d.fields 8 2)).corridors ++
            [(s.fr.num + k, slice d.fields 16 48, s.mc + dt)] ∧
          (∀ c, c ≠ rd d.fields 8 2 → t.watch c = s.watch c) ∧
          { t.quiet with vrd := {} } = { (s.advance dt).quiet with vrd := {} } ∧
          s.answered t d { status := 0, opcode := 4, result := 6, detail := rd d.fields 8 2 }))

/-- R422, R425, R426, R429: an accepted long descriptor joins the queue of its function while another of the tenant's runs;
the oldest one starts when none runs: it discards what its slot has staged and reads its image, or is refused where a switch
has been accepted since. An AUX tenant's MODEL_STAGE gets CLASS, and SAFE refuses a CONFIG_STAGE with STATE. -/
def Obligations.LongOperationsRunInOrder : Prop :=
  ∀ (dt n : Nat) (s : State),
    (∀ d op c x, s.taking d op n → s.tenAux n = false → (s.hfn d.fn).longRun = some x →
      (op = 0x10 ∧ c = .modelStage dt ∧ rd d.fields 8 1 < 4 ∧ s.cfg.active.mValid (rd d.fields 8 1) = true ∧
          s.modelTenant (rd d.fields 8 1) = n ∧ (s.model (rd d.fields 8 1)).switchAt = none ∨
        op = 0x12 ∧ c = .planStage dt ∧ rd d.fields 8 1 < 16 ∧ s.cfg.active.plnValid (rd d.fields 8 1) = true ∧
          s.cfg.active.plnTenant (rd d.fields 8 1) = n ∧ (s.plan (rd d.fields 8 1)).switchAt = none ∨
        op = 0x20 ∧ c = .configStage dt ∨
        op = 0x21 ∧ c = .configCommit dt ∧ modeOnly d.fields = false ∨
        op = 0x21 ∧ c = .configCommitModeOnly dt ∧ modeOnly d.fields = true ∨
        op = 0x30 ∧ c = .evidenceRead dt) →
      ∃ t o, exec c s = .next t ∧ (t.hfn d.fn).longRun = some x ∧ (t.hfn d.fn).longQ = (s.hfn d.fn).longQ ++ [o] ∧
        o.op = op ∧ o.fn = d.fn ∧ o.ring = d.ring ∧ o.index = d.index ∧ o.bytes = d.fields ∧
        (op = 0x10 → (t.model (rd d.fields 8 1)).staged = none) ∧ (op = 0x12 → (t.plan (rd d.fields 8 1)).staged = none) ∧
        (∀ f, f ≠ d.fn → t.hfn f = s.hfn f) ∧ t.hst.rings = s.hst.rings ∧ t.shr = s.shr ∧ t.glb = s.glb ∧ t.cfg = s.cfg) ∧
    (∀ d x, s.taking d 0x14 n → s.tenAux n = false → (s.hfn d.fn).longRun = some x → goldSet d.fields = true →
      (s.watch (rd d.fields 8 2)).tenant = n →
      s.scheduleRefusal { fn := d.fn, ring := d.ring, index := d.index, op := 0x14, clamps := d.clamps, bytes := d.fields, tenant := n } = 0 →
      ∃ t o, exec (.goldenScheduleSet dt) s = .next t ∧ (t.hfn d.fn).longQ = (s.hfn d.fn).longQ ++ [o] ∧ o.op = 0x14 ∧
        (t.watch (rd d.fields 8 2)).k = rd d.fields 10 1 ∧ (t.watch (rd d.fields 8 2)).g = rd d.fields 11 1 ∧ t.shr = s.shr) ∧
    (∀ fn o rest, (s.hfn fn).longRun = none → (s.hfn fn).longQ = o :: rest → o.fn = fn →
      let m := rd o.bytes 8 1
      (o.op = 0x30 → ∃ t, exec (.longOperationStart dt fn) s = .next t ∧ (t.hfn fn).longRun = some o ∧
        (t.hfn fn).longQ = rest ∧ (∀ f, f ≠ fn → t.hfn f = s.hfn f) ∧ { t with hst := {} } = { s.advance dt with hst := {} }) ∧
      (o.op = 0x10 ∧ s.cfg.active.mValid m = true ∧ (s.model m).switchAt = none ∨
          o.op = 0x12 ∧ s.cfg.active.plnValid m = true ∧ (s.plan m).switchAt = none ∨ o.op = 0x14 →
        ∃ t, exec (.longOperationStart dt fn) s = .next t ∧ (t.hfn fn).longRun = some o ∧ (t.hfn fn).longQ = rest ∧
          .hostRead fn (rd o.bytes 16 8) (rd o.bytes 24 8) (128 * 2 ^ (s.hfn fn).maxRead) ∈ t.out ∧
          (o.op = 0x10 → (t.model m).staged = none) ∧ (o.op = 0x12 → (t.plan m).staged = none) ∧
          (∀ f, f ≠ fn → t.hfn f = s.hfn f) ∧ t.hst.rings = s.hst.rings ∧ t.shr = s.shr ∧ t.glb = s.glb ∧ t.cfg = s.cfg) ∧
      (o.op = 0x10 → s.cfg.active.mValid m = true → (s.model m).switchAt ≠ none →
        ∃ t, exec (.longOperationStart dt fn) s = .next t ∧ (t.model m).switchAt = (s.model m).switchAt ∧
          (t.model m).staged = (s.model m).staged ∧
          s.ended t o { status := 0x13, opcode := 0x10, result := 0x16, clampMap := o.clamps }) ∧
      (o.op = 0x12 → s.cfg.active.plnValid m = true → (s.plan m).switchAt ≠ none →
        ∃ t, exec (.longOperationStart dt fn) s = .next t ∧ (t.plan m).switchAt = (s.plan m).switchAt ∧
          (t.plan m).staged = (s.plan m).staged ∧
          s.ended t o { status := 0x13, opcode := 0x12, result := 0x1A, clampMap := o.clamps })) ∧
    (∀ d, s.taking d 0x10 n → s.tenAux n = true → n < 8 → ∃ t, exec (.modelStage dt) s = .next t ∧
      t.quiet = (s.advance dt).quiet ∧ s.answered t d { status := 0x11, opcode := 0x10, clampMap := d.clamps }) ∧
    (∀ d, s.nextTake = some d → opcodeOf d.bytes = 0x20 → s.tenantOf d.fn = some n → n < 8 → s.tenAux n = false →
      s.glb.st = .safe → (s.hfn d.fn).longRun = none → (s.hfn d.fn).longQ = [] → ∃ t, exec (.configStage dt) s = .next t ∧
      t.quiet = (s.advance dt).quiet ∧ s.answered t d { status := 0x17, opcode := 0x20, clampMap := d.clamps })

/-- R188, R197, R307 to R309, R315, R383, R442: an image whose read fails ends with FETCH and stores nothing; one that passes
every check is stored for its slot, and no other slot changes; a golden set waits for the active plan's next tick or for its
staged plan. -/
def Obligations.FetchedImagesAreJudged : Prop :=
  ∀ (dt fn : Nat) (o : LongOp) (image wimage : Bytes) (s : State), s.running fn o.op = some o → o.fn = fn →
    image.length = rd o.bytes 24 8 →
    (o.op = 0x10 → ∃ t, exec (.modelStageDone dt fn false image) s = .next t ∧ t.quiet = (s.advance dt).quiet ∧
      s.ended t o { status := 0x14, opcode := 0x10, clampMap := o.clamps }) ∧
    (o.op = 0x10 → s.cfg.active.mValid (rd o.bytes 8 1) = true → bTablesFail image = none →
      (bFit s.cfg.active (rd o.bytes 8 1) (s.masterUsed s.cfg.active (rd o.bytes 8 1)) image).reason = 0 →
      bWeightsOk image = true →
      (sigValid s.integKey image (bSigOff image) = true →
        ∃ t, exec (.modelStageDone dt fn true image) s = .next t ∧ (t.model (rd o.bytes 8 1)).staged = some image ∧
          (t.model (rd o.bytes 8 1)).stageCode = 1 ∧ (t.model (rd o.bytes 8 1)).active = (s.model (rd o.bytes 8 1)).active ∧
          (∀ m, m ≠ rd o.bytes 8 1 → t.model m = s.model m) ∧
          { t.quiet with bdg := {} } = { (s.advance dt).quiet with bdg := {} } ∧
          s.ended t o { status := b2n (o.clamps != 0), opcode := 0x10, result := 1, clampMap := o.clamps }) ∧
      (sigValid s.integKey image (bSigOff image) = false →
        ∃ t, exec (.modelStageDone dt fn true image) s = .next t ∧
          (t.model (rd o.bytes 8 1)).staged = (s.model (rd o.bytes 8 1)).staged ∧ (t.model (rd o.bytes 8 1)).stageCode = 0x10 ∧
          s.ended t o { status := 0x13, opcode := 0x10, result := 0x10, clampMap := o.clamps })) ∧
    (∀ pl, o.op = 0x12 → s.cfg.active.plnValid (rd o.bytes 8 1) = true → wimage.length = rd o.bytes 40 8 ∨ (s.reusedPlan (rd o.bytes 8 1) image).isSome = true →
      s.judgePlan (rd o.bytes 8 1) image wimage = .stored pl →
      pl.img = image ∧ ∃ t, exec (.planStageDone dt fn true image wimage) s = .next t ∧
        (t.plan (rd o.bytes 8 1)).staged = some pl ∧ (t.plan (rd o.bytes 8 1)).stageCode = 1 ∧
        (t.plan (rd o.bytes 8 1)).active = (s.plan (rd o.bytes 8 1)).active ∧
        (∀ p, p ≠ rd o.bytes 8 1 → t.plan p = s.plan p) ∧
        s.ended t o { status := b2n (o.clamps != 0), opcode := 0x12, result := 1, clampMap := o.clamps }) ∧
    (o.op = 0x14 → s.goldRefusal o.slot image = 0 →
      ∃ t, exec (.goldenScheduleDone dt fn true image) s = .next t ∧
        (∀ pl, s.goldPlan o.slot image = some (true, pl) → (t.gold o.slot).arriving = some image ∧
          (t.gold o.slot).staged = (s.gold o.slot).staged ∧ (t.gold o.slot).stageCode = 1) ∧
        (∀ pl, s.goldPlan o.slot image = some (false, pl) → (t.gold o.slot).staged = some image ∧
          (t.gold o.slot).arriving = (s.gold o.slot).arriving ∧ (t.gold o.slot).stageCode = 2) ∧
        (t.gold o.slot).active = (s.gold o.slot).active ∧ (∀ p, p ≠ o.slot → t.gold p = s.gold p)) ∧
    (o.op = 0x30 → ∃ t, exec (.evidenceReadDone dt fn) s = .next t ∧ t.quiet = (s.advance dt).quiet ∧
      (t.hfn fn).longRun = none ∧ ∀ e i, (s.readRecords o)[i]? = some e →
        .hostData fn (rd o.bytes 16 8 + 128 * i) e.bytes ∈ t.out)

/-- R193, R194, R310, R311, R382: a switch that every check allows waits for its SWITCH_FRAME, a refused one changes no
switch; GOLDEN_SCHEDULE without SET gives the context its interval. -/
def Obligations.SwitchesWaitForTheirFrame : Prop :=
  ∀ (dt n : Nat) (d : Desc) (s : State), s.tenAux n = false → n < 8 →
    (s.taking d 0x11 n → rd d.fields 8 1 < 4 → s.cfg.active.mValid (rd d.fields 8 1) = true → s.modelTenant (rd d.fields 8 1) = n →
      (s.modelSwitchRefusal (rd d.fields 8 1) (rd d.fields 16 8) = 0 → ∃ t, exec (.modelSwitch dt) s = .next t ∧
        (t.model (rd d.fields 8 1)).switchAt = some (rd d.fields 16 8) ∧
        (t.model (rd d.fields 8 1)).active = (s.model (rd d.fields 8 1)).active ∧
        (∀ m, m ≠ rd d.fields 8 1 → t.model m = s.model m) ∧
        { t.quiet with bdg := {} } = { (s.advance dt).quiet with bdg := {} } ∧
        s.answered t d { status := b2n (d.clamps != 0), opcode := 0x11, result := 2, clampMap := d.clamps }) ∧
      (s.modelSwitchRefusal (rd d.fields 8 1) (rd d.fields 16 8) ≠ 0 → ∃ t, exec (.modelSwitch dt) s = .next t ∧
        (t.model (rd d.fields 8 1)).switchAt = (s.model (rd d.fields 8 1)).switchAt ∧
        (t.model (rd d.fields 8 1)).stageCode = s.modelSwitchRefusal (rd d.fields 8 1) (rd d.fields 16 8))) ∧
    (s.taking d 0x13 n → rd d.fields 8 1 < 16 → s.cfg.active.plnValid (rd d.fields 8 1) = true →
      s.cfg.active.plnTenant (rd d.fields 8 1) = n →
      (s.planSwitchRefusal (rd d.fields 8 1) (rd d.fields 16 8) = (0, 0) → ∃ t, exec (.planSwitch dt) s = .next t ∧
        (t.plan (rd d.fields 8 1)).switchAt = some (rd d.fields 16 8) ∧
        (t.plan (rd d.fields 8 1)).active = (s.plan (rd d.fields 8 1)).active ∧
        (∀ p, p ≠ rd d.fields 8 1 → t.plan p = s.plan p) ∧ t.shr = s.shr ∧ t.vrd = s.vrd ∧ t.bdg = s.bdg ∧
        s.answered t d { status := b2n (d.clamps != 0), opcode := 0x13, result := 2, clampMap := d.clamps }) ∧
      ((s.planSwitchRefusal (rd d.fields 8 1) (rd d.fields 16 8)).1 ≠ 0 → ∃ t, exec (.planSwitch dt) s = .next t ∧
        (t.plan (rd d.fields 8 1)).switchAt = (s.plan (rd d.fields 8 1)).switchAt ∧
        (t.plan (rd d.fields 8 1)).stageCode = (s.planSwitchRefusal (rd d.fields 8 1) (rd d.fields 16 8)).1)) ∧
    (s.taking d 0x14 n → goldSet d.fields = false → (s.watch (rd d.fields 8 2)).tenant = n →
      s.scheduleRefusal { fn := d.fn, ring := d.ring, index := d.index, op := 0x14, clamps := d.clamps, bytes := d.fields, tenant := n } = 0 →
      ∃ t, exec (.goldenSchedule dt) s = .next t ∧
        t.watch (rd d.fields 8 2) = { s.watch (rd d.fields 8 2) with k := rd d.fields 10 1, g := rd d.fields 11 1 } ∧
        (∀ c, c ≠ rd d.fields 8 2 → t.watch c = s.watch c) ∧ t.shr = s.shr ∧
        s.answered t d { status := b2n (d.clamps != 0), opcode := 0x14, clampMap := d.clamps })

/-! ### Configurations, Fox, Tack and the test access port (chapters 16 and 17) -/

/-- R769, R775, R776, R778, R781, R783: an image that a check refuses is not stored, and one that none refuses is; a wrong
password is counted and commits nothing; a commit whose record has been written takes effect at once in MAINTENANCE, and one
whose write fails changes neither record nor configuration. -/
def Obligations.ConfigurationsAreStagedAndCommitted : Prop :=
  ∀ (dt fn : Nat) (o : LongOp) (image : Bytes) (flash : Bool) (s : State), o.fn = fn →
    (s.running fn 0x20 = some o → image.length = rd o.bytes 24 8 →
      ((s.advance dt).stageRefusal image flash ≠ 0 → ∃ t, exec (.configStageDone dt fn true image flash) s = .next t ∧
        t.cfg.stagedCode = (s.advance dt).stageRefusal image flash ∧ t.cfg.staged = s.cfg.staged ∧ t.cfg.active = s.cfg.active ∧
        t.nvm.slots = s.nvm.slots ∧ t.nvm.records = s.nvm.records) ∧
      ((s.advance dt).stageRefusal image flash = 0 → ∃ t, exec (.configStageDone dt fn true image flash) s = .next t ∧
        (t.cfg.stagedCode = 1 ∨ t.cfg.stagedCode = 2) ∧ (tget t.cfg.staged (rd image 5 1)).image = image ∧
        (tget t.cfg.staged (rd image 5 1)).kind = rd image 5 1 ∧
        (tget t.cfg.staged (rd image 5 1)).digest = imageDigest image ∧ t.cfg.active = s.cfg.active ∧
        (∀ k, k ≠ rd image 5 1 → tget t.cfg.staged k = tget s.cfg.staged k) ∧ t.shr = s.shr)) ∧
    (∀ rest, (s.hfn fn).longRun = none → (s.hfn fn).longQ = o :: rest → o.op = 0x21 → o.clamps = 0 →
      s.mayStart o = true → s.pwLocked = false → s.pwOk (slice o.bytes 16 32) = false →
      ∃ t, exec (.longOperationStart dt fn) s = .next t ∧ t.cfg.commitCode = 0x21 ∧
        t.nvm.pwFails = inc 8 s.nvm.pwFails ∧ t.nvm.pwAt = (s.advance dt).cyc ∧ t.cfg.active = s.cfg.active ∧
        t.nvm.records = s.nvm.records ∧ t.shr = s.shr) ∧
    (∀ st, s.running fn 0x21 = some o → s.stagedBy (slice o.bytes 48 16) = some st → st.kind = 5 →
      (s.advance dt).banksMissing ((s.advance dt).cfgOf st) = [] →
      (∃ t, exec (.configCommitDone dt fn false) s = .next t ∧ t.cfg.commitCode = 0x17 ∧ t.nvm.records = s.nvm.records ∧
        t.cfg.active = s.cfg.active ∧ t.nvm.clog = s.nvm.clog) ∧
      (s.acting = .maintenance → rd o.bytes 8 1 = 0 → ((s.advance dt).cfgOf st).option = [] →
        ∃ t, exec (.configCommitDone dt fn true) s = .next t ∧ t.cfg.commitCode = 4 ∧ t.cfg.active = (s.advance dt).cfgOf st ∧
          t.acting = .configured ∧ (t.nvm.crec (s.stageBank 5) 5).digest = st.digest ∧ (t.nvm.crec (s.stageBank 5) 5).ok = true ∧
          s.nvm.clogSeq < t.nvm.clogSeq ∧ t.nvm.fuses = s.nvm.fuses))

/-- R764, R790, R792: Fox answers the requests to its address, sends one datagram every TELEM_MS, archives what is newer
once a second, and signs the quote that a function has asked for; while it is in reset or halted, none of these happens. -/
def Obligations.FoxServesItsInterfaces : Prop :=
  ∀ (dt : Nat) (s : State),
    (s.foxRuns = true → s.mgmtEn = true →
      (∀ data, ∃ t, exec (.mgmtRequest dt s.mgmtMac (s.cf 0x340100 4 12) 2 s.mgmtIp data) s = .next t ∧
        t = { s.advance dt with out := [.ethernet s.mgmtMac data] }) ∧
      (∀ m vlan kind ip data, ip ≠ s.mgmtIp → ∃ t, exec (.mgmtRequest dt m vlan kind ip data) s = .next t ∧ t = s.advance dt) ∧
      (s.telemMs ≠ 0 → s.fox.telemAt + s.telemMs * msMc ≤ s.mc + dt → ∃ t, exec (.telemetry dt) s = .next t ∧
        t.fox.telemAt = s.mc + dt ∧ t.out = [.ethernet s.mgmtMac (s.deviceId ++ le 8 (s.advance dt).tmb.now ++ le 4 (s.advance dt).glbState ++ zeros 4 ++
          (s.advance dt).foxSensors)] ∧
        { t with fox := {}, out := [] } = { s.advance dt with fox := {}, out := [] })) ∧
    (s.foxRuns = false → exec (.telemetry dt) s = .next (s.advance dt) ∧ (∀ ops, exec (.archive dt ops) s = .next (s.advance dt)) ∧
      (∀ fn, exec (.quoteReady dt fn) s = .next (s.advance dt))) ∧
    (s.foxRuns = true → s.logReady = true → s.fox.archAt + 1000 * msMc ≤ s.mc + dt → ∀ ops l e, 128 ≤ ops →
      (s.log.records.filter fun e => decide (s.nvm.archNewest < e.seq)).take 4096 = l → l.getLast? = some e →
      ∃ t, exec (.archive dt ops) s = .next t ∧ t.nvm.archTotal = s.nvm.archTotal + l.length ∧ t.nvm.archNewest = e.seq ∧
        t.fox.archAt = s.mc + dt ∧ t.glb = s.glb ∧ t.shr = s.shr) ∧
    (∀ fn n, s.hostOn fn = true → s.tenantOf fn = some n → s.foxUp = true →
      ((s.quote fn).busy = false → ∃ t, exec (.foxQuoteGo dt fn) s = .next t ∧ (t.quote fn).busy = true ∧
        (t.quote fn).ready = false ∧ (t.quote fn).asked = (s.quote fn).nonce ∧ (∀ f, f ≠ fn → t.quote f = s.quote f) ∧
        { t with fox := {} } = { s.advance dt with fox := {} }) ∧
      ((s.quote fn).busy = true → s.foxRuns = true → ∃ t, exec (.quoteReady dt fn) s = .next t ∧ (t.quote fn).busy = false ∧
        (t.quote fn).ready = true ∧ (t.quote fn).window.take 256 = (s.advance dt).quoteHead (s.quote fn).asked ∧
        (∀ f, f ≠ fn → t.quote f = s.quote f) ∧ { t with fox := {} } = { s.advance dt with fox := {} }))

/-- R817 to R820: a repeated TAG gets the last response again and nothing is executed; ID is always served; the words of the
challenge and of the signature go through AUTH_READ and AUTH_WRITE, and AUTH_DONE opens the session or refuses with cause
0x2 and a fresh nonce; a bad request leaves cause 0x7 and no response. -/
def Obligations.TackAnswersAndAuthenticates : Prop :=
  ∀ (dt tag : Nat) (s : State), s.tackOn = true →
    (s.tck.lastTag = some (tag % 16) → ∃ t, exec (.tackId dt tag) s = .next t ∧
      t = { s.advance dt with out := [.tack s.tck.lastResp] }) ∧
    (s.tck.lastTag ≠ some (tag % 16) → s.tck.retry = none → s.life < 5 →
      (∃ t, exec (.tackId dt tag) s = .next t ∧ t.out = [.tack ((TackAns.data (s.glbId + 2 ^ 32 * (s.advance dt).cfgLife)).resp (tag % 16))] ∧
        t.tck.lastTag = some (tag % 16) ∧ { t with tck := {}, out := [] } = { s.advance dt with tck := {}, out := [] }) ∧
      (s.life = 3 ∨ s.life = 4 → ∀ addr data,
        (addr < 6 → ∃ t, exec (.authRead dt tag addr) s = .next t ∧
          t.out = [.tack ((TackAns.data (rd (s.deviceId ++ padTo 32 s.cfg.nonce) (8 * addr) 8)).resp (tag % 16))] ∧
          { t with tck := {}, out := [] } = { s.advance dt with tck := {}, out := [] }) ∧
        (addr < 303 → ∃ t, exec (.authWrite dt tag addr data) s = .next t ∧
          t.out = [.tack (TackAns.accept.resp (tag % 16))] ∧ tget t.tck.sig addr = BitVec.ofNat 64 data ∧
          (∀ w, w ≠ addr → tget t.tck.sig w = tget s.tck.sig w) ∧
          { t with tck := {}, out := [] } = { s.advance dt with tck := {}, out := [] }) ∧
        (s.authOk = true → ∃ t, exec (.authDone dt tag) s = .next t ∧ t.tck.session = true ∧
          t.out = [.tack (TackAns.accept.resp (tag % 16))] ∧
          { t with tck := {}, out := [] } = { s.advance dt with tck := {}, out := [] }) ∧
        (s.authOk = false → ∃ t, exec (.authDone dt tag) s = .next t ∧ t.tck.session = s.tck.session ∧ t.tck.cause = 2 ∧
          t.cfg.nonce = sha3 (be seedLen s.aud.drbg.v) ∧ t.out = [.tack ((TackAns.error 2).resp (tag % 16))])) ∧
      (s.life = 0 → ∀ addr data, ∃ t, exec (.authWrite dt tag addr data) s = .next t ∧
        t.out = [.tack ((TackAns.error 1).resp (tag % 16))] ∧ t.tck.sig = s.tck.sig)) ∧
    (∀ kind, kind < 2 → ∃ t, exec (.tackBadRequest dt kind) s = .next t ∧ t.tck = { s.tck with cause := 7 } ∧ t.out = [] ∧
      { t with tck := {} } = { s.advance dt with tck := {} })

/-- R818, R819, R821, R828: in a lifecycle state that allows them, READ answers with the word of its space, a READ still in
progress with RETRY, and WRITE to memory changes exactly its eight bytes, and corrects the rest of a line that was stored with
an error; FUSE only adds the bits of its data word, and TEST
leaves its outcome in the test space. -/
def Obligations.TackReadsWritesAndBlows : Prop :=
  ∀ (dt tag addr data : Nat) (s : State), s.tackOn = true → s.tck.lastTag ≠ some (tag % 16) → s.tck.retry = none →
    s.life = 1 → s.memWf →
    (∀ k, 1 ≤ k → k ≤ 3 → addr % 8 = 0 → spaceHas k addr = true → s.lineOn k (addr / 64) = true → s.lineBad k (addr / 64) = false →
      (∃ t, exec (.tackWrite dt k tag addr data true) s = .next t ∧ t.out = [.tack (TackAns.accept.resp (tag % 16))] ∧
        (∀ i, i < 8 → t.mem.read (cellKey k addr + i) = BitVec.ofNat 8 (data / 256 ^ i)) ∧
        (∀ c, c < cellKey k (addr / 64 * 64) ∨ cellKey k (addr / 64 * 64) + 64 ≤ c → t.mem.read c = s.mem.read c) ∧
        (s.mem.raw.lookup (lineKey k 0 (addr / 64)) = none →
          ∀ c, c < cellKey k addr ∨ cellKey k addr + 8 ≤ c → t.mem.read c = s.mem.read c) ∧
        { t with tck := {}, out := [], mem := {} } = { s.advance dt with tck := {}, out := [], mem := {} }) ∧
      (s.inReport k addr = none → s.deviceStores k addr = false →
        ∃ t, exec (.tackRead dt k tag addr true) s = .next t ∧
          t.out = [.tack ((TackAns.data (ofLe (s.mem.readN (cellKey k addr) 8))).resp (tag % 16))] ∧ t.mem = s.mem) ∧
      (∃ t, exec (.tackRead dt k tag addr false) s = .next t ∧ t.out = [.tack (TackAns.retry.resp (tag % 16))] ∧
        t.tck.retry = some (tag % 16, s.mc + dt) ∧ t.mem = s.mem)) ∧
    (∀ k done, 8 ≤ k → ∃ t, exec (.tackWrite dt k tag addr data done) s = .next t ∧
      t.out = [.tack ((TackAns.error 4).resp (tag % 16))] ∧ t.mem = s.mem ∧ t.tck.cause = 4) ∧
    (addr % 64 = 0 → addr < 4096 → (s.fuseAllowed addr data = true →
        ∃ t, exec (.fuse dt tag addr data) s = .next t ∧ t.nvm.fuses = s.nvm.fuses ||| (data % 2 ^ 64 * 2 ^ addr) ∧
          t.out = [.tack (TackAns.accept.resp (tag % 16))] ∧
          { t with tck := {}, out := [], nvm := {} } = { s.advance dt with tck := {}, out := [], nvm := {} }) ∧
      (s.fuseAllowed addr data = false → ∃ t, exec (.fuse dt tag addr data) s = .next t ∧ t.nvm = s.nvm ∧
        t.out = [.tack ((TackAns.error 1).resp (tag % 16))])) ∧
    (addr / 2 ^ 24 % 256 < kindUnits (addr / 2 ^ 32 % 256) → ∃ t, exec (.test dt tag addr data) s = .next t ∧
      (t.tck.outcome = 1 ∧ t.tck.misr = s.tck.expected ∨ t.tck.outcome = 2 ∧ t.tck.misr ≠ s.tck.expected) ∧
      t.tck.expected = s.tck.expected ∧ t.out = [.tack (TackAns.accept.resp (tag % 16))] ∧
      { t with tck := {}, out := [], free := 0 } = { s.advance dt with tck := {}, out := [], free := 0 })

/-- R823 to R825, R827: HALT, RESUME and STEP act on the control cores in START_UP and MAINTENANCE, and elsewhere end with
cause 0x3; BP_SET and BP_CLEAR write one breakpoint; a hit halts its target; in a halt the
other service cores stop where Fore has stopped, or at once where they are past it; STATUS shows the halts and the last cause. -/
def Obligations.TackHaltsStepsAndBreaks : Prop :=
  ∀ (dt tag : Nat) (s : State), s.tackOn = true → s.tck.lastTag ≠ some (tag % 16) → s.tck.retry = none → s.life = 1 →
    (s.glb.st = .startUp ∨ s.glb.st = .maintenance →
      (∃ t, exec (.halt dt 0 tag) s = .next t ∧ t.tck.haltCores = true ∧ t.tck.haltFox = s.tck.haltFox ∧
        t.out = [.tack (TackAns.accept.resp (tag % 16))] ∧ s.metFore t ∧
        { t with tck := {}, out := [], free := 0, cor := {} } = { s.advance dt with tck := {}, out := [], free := 0, cor := {} }) ∧
      (∃ t, exec (.resume dt 0 tag) s = .next t ∧ t.tck.haltCores = false ∧ t.tck.haltFox = s.tck.haltFox ∧
        { t with tck := {}, out := [] } = { s.advance dt with tck := {}, out := [] }) ∧
      (s.tck.haltCores = true → ∃ t, exec (.tackStep dt 0 tag) s = .next t ∧ t.tck.haltCores = true ∧
        (∀ c, c < 3 → (t.core c).instr = ((s.core c).instr + 1) % 2 ^ 64) ∧ t.shr = s.shr ∧ t.mem = s.mem) ∧
      (∀ addr, ∃ t, exec (.bpSet dt 0 tag addr) s = .next t ∧ tget t.tck.bps (addr / 2 ^ 38 % 4) = addr % 2 ^ 17 + 1 ∧
        (∀ k, k ≠ addr / 2 ^ 38 % 4 → tget t.tck.bps k = tget s.tck.bps k) ∧
        { t with tck := {}, out := [] } = { s.advance dt with tck := {}, out := [] }) ∧
      (∀ addr, ∃ t, exec (.bpClear dt 0 tag addr) s = .next t ∧ tget t.tck.bps (addr / 2 ^ 38 % 4) = 0 ∧
        (∀ k, k ≠ addr / 2 ^ 38 % 4 → tget t.tck.bps k = tget s.tck.bps k) ∧
        { t with tck := {}, out := [] } = { s.advance dt with tck := {}, out := [] })) ∧
    (s.glb.st ≠ .startUp → s.glb.st ≠ .maintenance → ∃ t, exec (.halt dt 0 tag) s = .next t ∧
      t.out = [.tack ((TackAns.error 3).resp (tag % 16))] ∧ t.tck.haltCores = s.tck.haltCores ∧ t.tck.cause = 3) ∧
    (∃ t, exec (.halt dt 2 tag) s = .next t ∧ t.out = [.tack ((TackAns.error 4).resp (tag % 16))] ∧
      t.tck.haltCores = s.tck.haltCores ∧ t.tck.haltFox = s.tck.haltFox) ∧
    (∀ n, n < 4 → tget s.tck.bps n ≠ 0 → s.tck.haltCores = false → s.atStep 5 = true →
      ∃ t, exec (.breakpointHit dt 0 n) s = .next t ∧ t.tck.haltCores = true ∧ t.tck.hitCores = some n ∧
        tget t.tck.pcs 0 = tget s.tck.bps n - 1 ∧ t.tck.haltFox = s.tck.haltFox ∧ s.metFore t ∧
        { t with tck := {}, cor := {} } = { s.advance dt with tck := {}, cor := {} }) ∧
    (s.tck.haltCores = true → ∃ t, exec (.tackStatus dt 0 tag) s = .next t ∧
      t.out = [.tack ((TackAns.data (s.tck.statusBits 0 + 2 ^ 32 * tget s.tck.pcs 0)).resp (tag % 16))] ∧
      { t with tck := {}, out := [] } = { s.advance dt with tck := {}, out := [] })

/-- R830 to R832: IDCODE shifts out 0x1947_0B4F; SAMPLE/PRELOAD loads the cells without driving a pin; EXTEST, CLAMP and HIGHZ
act in MANUFACTURE, INTEGRATION and RETURN and are BYPASS elsewhere; no instruction reaches a guarded pin or anything else of
the device. -/
def Obligations.BoundaryScanLeavesTheDeviceAlone : Prop :=
  ∀ (dt : Nat) (cap din : List Nat) (d : Bool) (s : State), s.tackOn = true →
    (∀ c, (c = .bypass dt d ∨ c = .idcode dt ∨ c = .samplePreload dt cap din ∨ c = .extest dt cap din ∨ c = .clamp dt d ∨
        c = .highz dt d) →
      ∃ t, exec c s = .next t ∧ { t with scn := {}, out := [] } = { s.advance dt with scn := {}, out := [] } ∧
        (∀ p : Pin, p.guarded = true → t.pinDrive p = .own) ∧
        (c = .bypass dt d → t.scn.ir = 0xF ∧ t.out = [.scan [false]] ∧ t.scn.driving = false ∧ t.scn.highz = false ∧
          t.scn.bypass = d) ∧
        (c = .idcode dt → t.scn.ir = 1 ∧ t.out = [.scan (bitsLsb 32 0x19470B4F)] ∧ t.scn.driving = false) ∧
        (c = .samplePreload dt cap din → t.scn.ir = 2 ∧ t.scn.driving = false ∧ t.scn.cells = scanCells din) ∧
        (s.life = 1 ∨ s.life = 2 ∨ s.life = 4 →
          (c = .extest dt cap din → t.scn.ir = 3 ∧ t.scn.driving = true ∧ t.scn.cells = scanCells din) ∧
          (c = .clamp dt d → t.scn.ir = 4 ∧ t.scn.driving = true ∧ t.scn.cells = s.scn.cells) ∧
          (c = .highz dt d → t.scn.ir = 5 ∧ t.scn.highz = true)) ∧
        (s.life = 0 ∨ s.life = 3 → c ≠ .idcode dt → c ≠ .samplePreload dt cap din →
          t.scn.ir = 0xF ∧ t.scn.driving = false ∧ t.scn.highz = false))
end

