-- ==== Sys2Proof/Laws/Checks.lean ====
section
/-! SUPPORT. What the range checks of a configuration (R770) can do to it: every one of them is a sequence of clamped
register fields and clamped Plibex fields. A property that both keep is kept by all the checks. -/

namespace Sys2Proof.Machine

/-- A property of a configuration under its checks that a clamped field keeps. -/
structure Check.Closed (P : Check → Prop) : Prop where
  put : ∀ {k : Check} {o lo w v : Nat} {b : Bool}, P k → P (k.put o lo w v b)
  putB : ∀ {k : Check} {off n v : Nat}, P k → P (k.putB off n v)

theorem Check.foldl_keeps {α : Type} {P : Check → Prop} {f : Check → α → Check} (hf : ∀ q a, P q → P (f q a)) :
    ∀ (l : List α) (k : Check), P k → P (l.foldl f k)
  | [], _, hk => hk
  | a :: l, k, hk => foldl_keeps hf l (f k a) (hf k a hk)

namespace Check.Closed

variable {P : Check → Prop} (h : Check.Closed P) {k : Check}

theorem cond {c : Prop} [Decidable c] {x y : Check} (hx : P x) (hy : P y) : P (if c then x else y) := by split <;> assumption
theorem each (n : Nat) {f : Check → Nat → Check} (hf : ∀ q a, P q → P (f q a)) (hk : P k) : P (k.each n f) :=
  Check.foldl_keeps hf _ k hk
include h
theorem range {o lo w a b : Nat} {s : Bool} (hk : P k) : P (k.range o lo w a b s) := cond (h.put hk) hk
theorem drop {o : Nat} {b : Bool} (hk : P k) : P (k.drop o b) := cond (h.put hk) hk
theorem putAll {o : Nat} {l : List (Nat × Nat × Nat)} {s : Bool} (hk : P k) : P (k.putAll o l s) :=
  Check.foldl_keeps (fun _ _ hq => h.put hq) l k hk
theorem mask {o : Nat} (hk : P k) : P (k.mask o) :=
  Check.foldl_keeps (fun _ _ hq => cond hq (h.put hq)) _ k hk
theorem rangeB {off n a b : Nat} (hk : P k) : P (k.rangeB off n a b) := h.putB hk

theorem rate (hk : P k) : P k.rate := by
  unfold Check.rate
  extract_lets k1 a c
  have h1 : P k1 := h.range (h.range hk)
  exact cond h1 (cond (h.put h1) (cond (h.put h1) h1))
theorem edges (hk : P k) : P k.edges := each 9 (fun _ _ hq => h.range hq) hk
theorem tenant {t : Nat} (hk : P k) : P (k.tenant t) := by
  unfold Check.tenant
  extract_lets o below k1 k2 base k3
  have h2 : P k2 := h.range (h.drop hk)
  have h3 : P k3 := cond (h.put h2) h2
  exact cond (h.put h3) h3
theorem fixedPart {p : Nat} (hk : P k) : P (k.fixedPart p) := by
  unfold Check.fixedPart
  extract_lets o k1 m k2
  have h1 : P k1 := cond (h.putAll hk) hk
  have h2 : P k2 := cond (h.putAll h1) h1
  exact cond (h.putAll h2) h2
theorem part {p : Nat} (hk : P k) : P (k.part p) := by
  unfold Check.part
  extract_lets o
  exact cond hk (each 4 (fun _ _ hq => h.put (cond (h.put hq) (h.put hq))) hk)
theorem region {c : Cfg} {n : Nat} (hk : P k) : P (Check.region c k n) := by
  unfold Check.region
  extract_lets r bad
  exact cond (h.put hk) hk
theorem slot {i : Nat} (hk : P k) : P (k.slot i) := by
  unfold Check.slot
  extract_lets o id k1 k2 z k3
  have h2 : P k2 := cond (h.put (h.drop hk)) (h.drop hk)
  have h3 : P k3 := cond (h.put h2) h2
  exact h.drop h3
theorem plan {p : Nat} (hk : P k) : P (k.plan p) := h.drop hk
theorem chl {p : Nat} (hk : P k) : P (k.chl p) := h.drop hk
theorem gold {p : Nat} (hk : P k) : P (k.gold p) := by
  unfold Check.gold
  extract_lets c g bad
  exact cond (h.put hk) hk
theorem limits (hk : P k) : P k.limits := h.range (h.range (h.range hk))
theorem model {m : Nat} (hk : P k) : P (k.model m) := by
  unfold Check.model
  extract_lets o b k1 r k2 c p
  have h1 : P k1 := cond (h.put hk) hk
  have h2 : P k2 := cond (h.put h1) h1
  exact h.drop h2
theorem source {i : Nat} (hk : P k) : P (k.source i) := by
  unfold Check.source
  extract_lets o eth k1 c below size bad
  have h1 : P k1 := cond (h.putAll hk) (h.putAll (h.put hk))
  exact h.drop h1
theorem time (hk : P k) : P k.time := by
  unfold Check.time
  extract_lets k1 k2 k3
  have h3 : P k3 := h.range (h.range (h.range (h.range (h.range hk))))
  exact cond (h.put h3) h3
theorem frer (hk : P k) : P k.frer := h.range (h.range hk)
theorem tsn (hk : P k) : P k.tsn := by
  unfold Check.tsn
  extract_lets k1
  have h1 : P k1 := each 4 (fun q m hq => by
    extract_lets o q1 q2
    have h2 : P q2 := cond (h.putAll (h.range (h.range hq))) (h.range (h.range hq))
    exact each 256 (fun _ _ hx => h.range hx) h2) hk
  exact each 256 (fun _ _ hx => h.range hx) h1
theorem mgmt (hk : P k) : P k.mgmt := by
  unfold Check.mgmt
  extract_lets k1 k2
  have h1 : P k1 := h.range (h.range hk)
  have h2 : P k2 := cond h1 (h.range h1)
  exact h.range h2
theorem sioRanges (hk : P k) : P k.sioRanges := by
  unfold Check.sioRanges
  extract_lets k1 k2 k3 k4
  have h2 : P k2 := each 32 (fun _ _ hq => h.range hq) (h.range (h.range (h.range hk)))
  have h3 : P k3 := each 64 (fun q n hq => by
    extract_lets o t zero q1 q2 q3
    have hz : ∀ {x off lo w u}, P x → P (zero x off lo w u) := fun hx => cond hx (h.put hx)
    have h1 : P q1 := h.range hq
    have h2 : P q2 := hz (hz (hz h1))
    have h3 : P q3 := hz (hz h2)
    exact cond (h.putAll (h.putAll (h.putAll (h.putAll hq)))) (hz (hz h3))) h2
  have h4 : P k4 := each 16 (fun _ _ hq => h.range (h.range (h.range hq))) h3
  exact each 4 (fun _ _ hq => h.range (h.range (h.range hq))) h4
theorem instance_ {n : Nat} (hk : P k) : P (k.instance_ n) := by
  unfold Check.instance_
  extract_lets c t mine rst below asInput asReset bad
  exact cond (h.put hk) hk
theorem output {o b : Nat} (hk : P k) : P (k.output o b) := h.drop hk
theorem shroud (hk : P k) : P k.shroud := by
  unfold Check.shroud
  extract_lets k1 top k2 k3 k4 k5 k6
  have h1 : P k1 := h.sioRanges hk
  have h2 : P k2 := cond (h.put h1) h1
  have h3 : P k3 := each 32 (fun _ _ hq => cond (h.put hq) hq) h2
  have h4 : P k4 := each 64 (fun _ _ hq => h.instance_ hq) h3
  have h5 : P k5 := each 20 (fun _ _ hq => h.output hq) h4
  have h6 : P k6 := cond (each 20 (fun _ _ hq => h.put hq) h5) h5
  exact each 64 (fun _ _ hq => each 20 (fun _ _ hx => cond (h.put hx) hx) hq) h6
theorem plibexAll (hk : P k) : P k.plibexAll := by
  unfold Check.plibexAll
  extract_lets k1 k2 n k3 k4
  have h1 : P k1 := cond (h.putB hk) hk
  have h2 : P k2 := h.rangeB h1
  have h3 : P k3 := each _ (fun _ _ hq =>
    h.rangeB (h.rangeB (h.rangeB (h.rangeB (h.rangeB (h.rangeB (h.rangeB hq))))))) h2
  have h4 : P k4 := each _ (fun _ _ hq => cond (h.putB hq) hq) h3
  exact cond hk (each _ (fun _ _ hq => h.putB (h.putB hq)) h4)

/-- All the checks together (R770). -/
theorem run {ceil : Nat} (hk : P k) : P (k.run ceil) := by
  unfold Check.run
  extract_lets k0 k1 k2 k3 k4 k5
  have h0 : P k0 := Check.foldl_keeps (fun _ _ hq => h.mask hq) _ _ hk
  have h1 : P k1 := each 8 (fun _ _ hq => h.tenant hq) (h.range (h.edges (h.rate h0)))
  have h2 : P k2 := each 64 (fun _ _ hq => cond hq (h.part hq)) (h.fixedPart (h.fixedPart h1))
  have h3 : P k3 := each 128 (fun _ _ hq => h.slot hq) (each 256 (fun _ _ hq => h.region hq) h2)
  have h4 : P k4 := h.limits (each 16 (fun _ _ hq => h.gold hq) (each 16 (fun _ _ hq => h.chl hq)
    (each 16 (fun _ _ hq => h.plan hq) h3)))
  have h5 : P k5 := h.time (each 16 (fun _ _ hq => h.source hq) (each 4 (fun _ _ hq => h.model hq) h4))
  exact h.mgmt (h.plibexAll (h.shroud (h.tsn (h.frer h5))))

end Check.Closed

/-- The checks leave the generation, the digest, the CRC of the option block, the raw Shroud section, the option section
and the list of sections as they are. -/
theorem Check.run_keeps (k : Check) (ceil : Nat) : (k.run ceil).cfg.gen = k.cfg.gen ∧ (k.run ceil).cfg.digest = k.cfg.digest ∧
    (k.run ceil).cfg.optCrc = k.cfg.optCrc ∧ (k.run ceil).cfg.sioRaw = k.cfg.sioRaw ∧ (k.run ceil).cfg.option = k.cfg.option ∧
    (k.run ceil).sects = k.sects := by
  refine Check.Closed.run (P := fun q => q.cfg.gen = k.cfg.gen ∧ q.cfg.digest = k.cfg.digest ∧ q.cfg.optCrc = k.cfg.optCrc ∧
    q.cfg.sioRaw = k.cfg.sioRaw ∧ q.cfg.option = k.cfg.option ∧ q.sects = k.sects) ⟨?_, ?_⟩ ⟨rfl, rfl, rfl, rfl, rfl, rfl⟩
  · intro q o lo w v b hq
    unfold Check.put
    split <;> exact hq
  · intro q off n v hq
    unfold Check.putB
    split <;> exact hq

theorem setWords_keep (g : Nat → Nat) : ∀ (l : List Nat) (c : Cfg),
    (l.foldl (fun c o => c.setWord o (g o)) c).gen = c.gen ∧ (l.foldl (fun c o => c.setWord o (g o)) c).digest = c.digest ∧
    (l.foldl (fun c o => c.setWord o (g o)) c).optCrc = c.optCrc ∧ (l.foldl (fun c o => c.setWord o (g o)) c).sioRaw = c.sioRaw ∧
    (l.foldl (fun c o => c.setWord o (g o)) c).option = c.option
  | [], _ => ⟨rfl, rfl, rfl, rfl, rfl⟩
  | o :: l, c => by simpa [Cfg.setWord] using setWords_keep g l (c.setWord o (g o))

theorem rawCfg_keeps (b : Bytes) : (rawCfg b).gen = rd b 16 4 ∧ (rawCfg b).digest = imageDigest b ∧ (rawCfg b).optCrc = rd b 20 4 ∧
    (rawCfg b).sioRaw = imageSio b (regSects b) ∧ (rawCfg b).option = sectBytes b 2 := by
  unfold rawCfg
  extract_lets l
  exact setWords_keep _ _ _

theorem fst_of {α β : Type} {p : α × β} {a : α} {b : β} (h : p = (a, b)) : p.1 = a := by rw [h]

/-- What the validated configuration of an image keeps of the image itself. -/
theorem State.checkImage_keeps (s : State) (b : Bytes) : (s.checkImage b).1.gen = rd b 16 4 ∧ (s.checkImage b).1.digest = imageDigest b ∧
    (s.checkImage b).1.optCrc = rd b 20 4 ∧ (s.checkImage b).1.sioRaw = imageSio b (regSects b) ∧ (s.checkImage b).1.option = sectBytes b 2 := by
  have h := Check.run_keeps { cfg := rawCfg b, sects := regSects b, opt := s.optOf b : Check } s.tdegCeil
  have r := rawCfg_keeps b
  have e := fst_of (State.checkImage.eq_1 s b)
  generalize (s.checkImage b).1 = x at e ⊢
  generalize (Check.run { cfg := rawCfg b, sects := regSects b, opt := s.optOf b } s.tdegCeil) = q at h e
  generalize rawCfg b = c at h r
  subst e
  simp only [h, r, and_self]

end Sys2Proof.Machine
end

