-- ==== Sys2Proof/Laws/Memory.lean ====
section
/-! SUPPORT. The list of cells stays in its canonical form, and a byte read back is the byte written. -/

namespace Sys2Proof.Machine

/-- The first key of a list of cells in canonical form is the least. -/
theorem cellsWf_tail {k : Nat} {b : Byte} {r : List Host.Cell} (h : cellsWf ((k, b) :: r) = true) :
    b ≠ Memory.unlisted ∧ cellsWf r = true ∧ ∀ x ∈ r, k < x.1 := by
  induction r generalizing k b with
  | nil => simpa [cellsWf] using h
  | cons x r ih =>
    obtain ⟨j, c⟩ := x
    simp only [cellsWf, Bool.and_eq_true, bne_iff_ne, ne_eq, decide_eq_true_eq] at h
    refine ⟨h.1.1, h.2, fun y hy => ?_⟩
    rcases List.mem_cons.1 hy with rfl | hy
    · exact h.1.2
    · exact Nat.lt_trans h.1.2 ((ih h.2).2.2 y hy)

theorem cellsWf_cons {k : Nat} {b : Byte} {r : List Host.Cell} (hb : b ≠ Memory.unlisted) (hr : cellsWf r = true)
    (hk : ∀ x ∈ r, k < x.1) : cellsWf ((k, b) :: r) = true := by
  match r with
  | [] => simpa [cellsWf] using hb
  | (j, c) :: r => simp only [cellsWf, Bool.and_eq_true, bne_iff_ne, ne_eq, decide_eq_true_eq]; exact ⟨⟨hb, hk (j, c) (by simp)⟩, hr⟩

theorem cellsWf_filter (p : Host.Cell → Bool) (l : List Host.Cell) (h : cellsWf l = true) : cellsWf (l.filter p) = true := by
  induction l with
  | nil => rfl
  | cons x l ih =>
    obtain ⟨k, b⟩ := x
    obtain ⟨hb, hr, hk⟩ := cellsWf_tail h
    rw [List.filter_cons]
    split
    · exact cellsWf_cons hb (ih hr) fun y hy => hk y (List.mem_filter.1 hy).1
    · exact ih hr

theorem mem_cellPut {k : Nat} {b : Byte} {l : List Host.Cell} {x : Host.Cell} (h : x ∈ cellPut k b l) : x.1 = k ∨ x ∈ l := by
  induction l with
  | nil => unfold cellPut at h; split at h <;> simp_all
  | cons y l ih =>
    obtain ⟨j, c⟩ := y
    unfold cellPut at h
    repeat' split at h
    all_goals simp only [List.mem_cons] at h ⊢
    all_goals first
      | (rcases h with rfl | h | h <;> simp_all; done)
      | (rcases h with rfl | h <;> simp_all; done)
      | (rcases h with rfl | h
         · simp
         · rcases ih h with h | h <;> simp [h])
      | (exact .inr (.inr h))

theorem cellsWf_put (k : Nat) (b : Byte) (l : List Host.Cell) (h : cellsWf l = true) : cellsWf (cellPut k b l) = true := by
  induction l with
  | nil => unfold cellPut; split <;> simp_all [cellsWf]
  | cons y l ih =>
    obtain ⟨j, c⟩ := y
    obtain ⟨hb, hr, hk⟩ := cellsWf_tail h
    unfold cellPut
    split
    · split
      · exact h
      · rename_i h1 h2
        exact cellsWf_cons h2 h fun x hx => by
          rcases List.mem_cons.1 hx with rfl | hx
          · exact h1
          · exact Nat.lt_trans h1 (hk x hx)
    · split
      · rename_i h1 h2
        subst h2
        split
        · exact hr
        · rename_i h3; exact cellsWf_cons h3 hr hk
      · rename_i h1 h2
        refine cellsWf_cons hb (ih hr) fun x hx => ?_
        rcases mem_cellPut hx with hx | hx
        · omega
        · exact hk x hx

theorem cellsWf_writeN (b : Bytes) (k : Nat) (m : Memory) (h : cellsWf m.cells = true) : cellsWf (m.writeN k b).cells = true := by
  induction b generalizing k m with
  | nil => exact h
  | cons x b ih => exact ih (k + 1) (m.write k x) (cellsWf_put k x _ h)

/-- The memory operations over whole lines keep the canonical form. -/
theorem cellsWf_rewrite (m : Memory) (array unit line : Nat) (data : Bytes) (h : cellsWf m.cells = true) :
    cellsWf (m.rewrite array unit line data).cells = true := by
  unfold Memory.rewrite; dsimp only
  split
  · exact cellsWf_writeN _ _ _ h
  · exact h

theorem cellsWf_copyLine (m : Memory) (array line : Nat) (h : cellsWf m.cells = true) :
    cellsWf (m.copyLine array line).cells = true := by
  unfold Memory.copyLine
  split
  · exact cellsWf_rewrite _ _ _ _ _ h
  · exact h

/-- Applying repair entries changes no stored byte. -/
@[simp] theorem applyRepairs_cells (m : Memory) (fuses : Nat) : (m.applyRepairs fuses).cells = m.cells := by
  have key : ∀ {α : Type} (f : Memory → α → Memory), (∀ q x, (f q x).cells = q.cells) → ∀ (l : List α) (q : Memory),
      (l.foldl f q).cells = q.cells := by
    intro α f hf l
    induction l with
    | nil => intro q; rfl
    | cons x l ih => intro q; exact (ih _).trans (hf q x)
  unfold Memory.applyRepairs
  refine (key _ (fun q x => ?_) _ _).trans (key _ (fun q x => ?_) _ _)
  · dsimp only; split <;> rfl
  · dsimp only; split <;> rfl

/-- The memory of the reset state is in its canonical form. -/
theorem reset_mem_wf : State.reset.mem.wf = true := rfl

/-- No entry of a canonical list lies below its first key. -/
theorem lookup_of_lt {k j : Nat} {b : Byte} {r : List Host.Cell} (h : cellsWf ((j, b) :: r) = true) (hk : k < j) :
    List.lookup k ((j, b) :: r) = none := by
  rw [List.lookup_eq_none_iff]
  intro x hx
  have hx' : j ≤ x.1 := by
    rcases List.mem_cons.1 hx with rfl | hx
    · exact Nat.le_refl _
    · exact Nat.le_of_lt ((cellsWf_tail h).2.2 x hx)
  simpa using (by omega : k ≠ x.1)

/-- A key that no entry of the tail of a canonical list has. -/
theorem lookup_tail {k : Nat} {b : Byte} {r : List Host.Cell} (h : cellsWf ((k, b) :: r) = true) : List.lookup k r = none := by
  rw [List.lookup_eq_none_iff]
  intro x hx
  have := (cellsWf_tail h).2.2 x hx
  simpa using (by omega : k ≠ x.1)

/-- A read after a write to the same place gives the byte written. -/
theorem read_write_self (m : Memory) (k : Nat) (b : Byte) (h : m.wf = true) : (m.write k b).read k = b := by
  have key : ∀ l : List Host.Cell, cellsWf l = true → ((cellPut k b l).lookup k).getD Memory.unlisted = b := by
    intro l
    induction l with
    | nil =>
      intro _
      unfold cellPut
      split <;> simp_all
    | cons y l ih =>
      obtain ⟨j, c⟩ := y
      intro h
      unfold cellPut
      split
      · rename_i h1
        split
        · rename_i h2; rw [lookup_of_lt h h1]; exact h2.symm
        · simp
      · split
        · rename_i h1 h2
          subst h2
          split
          · rename_i h3; rw [lookup_tail h]; exact h3.symm
          · simp
        · rename_i h1 h2
          have : (k == j) = false := by simpa using h2
          simp only [List.lookup, this]
          exact ih (cellsWf_tail h).2.1
  exact key m.cells h

/-- A write leaves every other place alone. -/
theorem read_write_ne (m : Memory) {k a : Nat} (b : Byte) (h : a ≠ k) : (m.write k b).read a = m.read a := by
  have ha : (a == k) = false := by simpa using h
  have key : ∀ l : List Host.Cell, (cellPut k b l).lookup a = l.lookup a := by
    intro l
    induction l with
    | nil => unfold cellPut; split <;> simp [List.lookup, ha]
    | cons y l ih =>
      obtain ⟨j, c⟩ := y
      unfold cellPut
      split
      · split
        · rfl
        · simp [List.lookup, ha]
      · split
        · rename_i h1 h2
          subst h2
          split <;> simp [List.lookup, ha]
        · simp only [List.lookup, ih]
  simp only [Memory.read, Memory.write, key]

/-- Bytes written from a key on leave every place below them and beyond them alone. -/
theorem read_writeN_out (b : Bytes) (k a : Nat) (m : Memory) (h : a < k ∨ k + b.length ≤ a) : (m.writeN k b).read a = m.read a := by
  induction b generalizing k m with
  | nil => rfl
  | cons x b ih =>
    simp only [List.length_cons] at h
    rw [Memory.writeN, ih (k + 1) (m.write k x) (by omega), read_write_ne m x (by omega)]

/-- Byte i of the bytes written reads back. -/
theorem read_writeN_in (b : Bytes) (k i : Nat) (m : Memory) (hm : m.wf = true) (h : i < b.length) :
    (m.writeN k b).read (k + i) = b[i] := by
  induction b generalizing k i m with
  | nil => exact absurd h (Nat.not_lt_zero _)
  | cons x b ih =>
    rw [Memory.writeN]
    cases i with
    | zero => exact (read_writeN_out b (k + 1) k _ (by omega)).trans (read_write_self m k x hm)
    | succ i =>
      have := ih (k + 1) i (m.write k x) (cellsWf_put k x _ hm) (by simpa using h)
      rw [show k + (i + 1) = k + 1 + i by omega]; simpa using this

end Sys2Proof.Machine
end

