-- ==== Sys2Proof/Laws/Held.lean ====
section
/-! SUPPORT. The part of State that hardly any command touches: the queue, the main clock, the fuses, the bytes of the
memories and the die Shroud. `held_f` says that f leaves all of it alone, `keeps_f` that f can only blow fuses and write
memory in its canonical form, `frees_f` that f may change the die Shroud as well. -/

namespace Sys2Proof.Machine
/-- The queue, the main clock, the fuses, the bytes of the memories and the die Shroud. -/
abbrev Kept : Type := List Instr × Nat × Nat × List Host.Cell × Shroud
/-- What most commands leave alone: the queue, the clock, the fuses, the bytes of the memories, and the die Shroud. -/
def State.held (s : State) : Kept :=
  (s.pending, s.mc, s.nvm.fuses, s.mem.cells, s.shr)

/-- From a to b the queue and the clock stay, no blown fuse is lost, and the memories keep their canonical form. -/
def freedTo (a b : Kept) : Prop :=
  b.1 = a.1 ∧ b.2.1 = a.2.1 ∧ a.2.2.1 ||| b.2.2.1 = b.2.2.1 ∧ (cellsWf a.2.2.2.1 = true → cellsWf b.2.2.2.1 = true)

/-- And Shroud stays as it is. -/
def heldTo (a b : Kept) : Prop :=
  freedTo a b ∧ b.2.2.2.2 = a.2.2.2.2

@[simp] theorem heldTo_refl (a : Kept) : heldTo a a :=
  ⟨⟨rfl, rfl, Nat.or_self _, id⟩, rfl⟩

@[simp] theorem freedTo_refl (a : Kept) : freedTo a a := ⟨rfl, rfl, Nat.or_self _, id⟩

theorem freedTo_trans {a b c : Kept} (h : freedTo a b) (g : freedTo b c) : freedTo a c :=
  ⟨g.1.trans h.1, g.2.1.trans h.2.1, by rw [← g.2.2.1, ← Nat.or_assoc, h.2.2.1], fun w => g.2.2.2 (h.2.2.2 w)⟩

@[simp] theorem held_eta (s : State) : (s.pending, s.mc, s.nvm.fuses, s.mem.cells, s.shr) = s.held := id rfl

theorem held_foldl {α : Type} (f : State → α → State) (hf : ∀ q x, (f q x).held = q.held) (l : List α) (s : State) :
    (l.foldl f s).held = s.held := by
  induction l generalizing s with
  | nil => rfl
  | cons x l ih => exact (ih _).trans (hf s x)

theorem keeps_foldl {α : Type} (a : Kept) (f : State → α → State)
    (hf : ∀ q x, heldTo a q.held → heldTo a (f q x).held) (l : List α) (s : State) (h : heldTo a s.held) :
    heldTo a (l.foldl f s).held := by
  induction l generalizing s with
  | nil => exact h
  | cons x l ih => exact ih _ (hf s x h)

theorem frees_foldl {α : Type} (a : Kept) (f : State → α → State)
    (hf : ∀ q x, freedTo a q.held → freedTo a (f q x).held) (l : List α) (s : State) (h : freedTo a s.held) :
    freedTo a (l.foldl f s).held := by
  induction l generalizing s with
  | nil => exact h
  | cons x l ih => exact ih _ (hf s x h)

@[simp] theorem held_ite (c : Prop) [Decidable c] (a b : State) : (if c then a else b).held = if c then a.held else b.held := by
  split <;> rfl

theorem fst_ite {α β : Type} (c : Prop) [Decidable c] (a b : α × β) : (if c then a else b).1 = if c then a.1 else b.1 := by
  split <;> rfl

theorem ite_eq_of {α : Type} {x y z : α} (c : Prop) [Decidable c] (hx : x = z) (hy : y = z) : (if c then x else y) = z := by
  split <;> assumption

theorem keeps_ite (a x y : Kept) (c : Prop) [Decidable c] (hx : heldTo a x) (hy : heldTo a y) :
    heldTo a (if c then x else y) := by split <;> assumption

theorem frees_ite (a x y : Kept) (c : Prop) [Decidable c] (hx : freedTo a x) (hy : freedTo a y) :
    freedTo a (if c then x else y) := by split <;> assumption

variable {a : Kept} {s : State}
section
variable (h : heldTo a s.held)
include h
@[simp] theorem keeps_filter (p : Host.Cell → Bool) :
    heldTo a (s.pending, s.mc, s.nvm.fuses, s.mem.cells.filter p, s.shr) :=
  ⟨⟨h.1.1, h.1.2.1, h.1.2.2.1, fun w => cellsWf_filter p _ (h.1.2.2.2 w)⟩, h.2⟩
@[simp] theorem keeps_writeN (k : Nat) (b : Bytes) :
    heldTo a (s.pending, s.mc, s.nvm.fuses, (s.mem.writeN k b).cells, s.shr) :=
  ⟨⟨h.1.1, h.1.2.1, h.1.2.2.1, fun w => cellsWf_writeN b k _ (h.1.2.2.2 w)⟩, h.2⟩
theorem keeps_mem (l : List Host.Cell) (hl : cellsWf s.mem.cells = true → cellsWf l = true) :
    heldTo a (s.pending, s.mc, s.nvm.fuses, l, s.shr) :=
  ⟨⟨h.1.1, h.1.2.1, h.1.2.2.1, fun w => hl (h.1.2.2.2 w)⟩, h.2⟩
@[simp] theorem keeps_rewrite (array unit line : Nat) (data : Bytes) :
    heldTo a (s.pending, s.mc, s.nvm.fuses, (s.mem.rewrite array unit line data).cells, s.shr) :=
  keeps_mem h _ (cellsWf_rewrite _ _ _ _ _)
@[simp] theorem keeps_lineWrite (array line k : Nat) (b : Bytes) :
    heldTo a (s.pending, s.mc, s.nvm.fuses, ((s.mem.copyLine array line).writeN k b).cells, s.shr) :=
  keeps_mem h _ fun w => cellsWf_writeN _ _ _ (cellsWf_copyLine _ _ _ w)
@[simp] theorem keeps_nil : heldTo a (s.pending, s.mc, s.nvm.fuses, [], s.shr) :=
  ⟨⟨h.1.1, h.1.2.1, h.1.2.2.1, fun _ => rfl⟩, h.2⟩
@[simp] theorem keeps_fuse (x : Nat) : heldTo a (s.pending, s.mc, s.nvm.fuses ||| x, s.mem.cells, s.shr) :=
  ⟨⟨h.1.1, h.1.2.1, by rw [← Nat.or_assoc, show a.2.2.1 ||| s.nvm.fuses = s.nvm.fuses from h.1.2.2.1], h.1.2.2.2⟩, h.2⟩
end
section
variable (h : freedTo a s.held)
include h
@[simp] theorem frees_nil (d : Shroud) : freedTo a (s.pending, s.mc, s.nvm.fuses, [], d) := ⟨h.1, h.2.1, h.2.2.1, fun _ => rfl⟩
@[simp] theorem frees_shr (d : Shroud) : freedTo a (s.pending, s.mc, s.nvm.fuses, s.mem.cells, d) := h
end

@[simp] theorem held_mk (mc : Nat) (glb : Glb) (die : DieLink) (fr : Frame) (prt : Partitions) (pw : PortW) (aud : Audit) (bdg : Badger) (vrd : Verdict) (hst : Hosts) (cor : Cores) (shr : Shroud) (pch : PchSide) (plx : Plibex) (tmb : TimeBase) (mem : Memory) (rst : Reset) (owl : Owls) (nvm : Nvm) (cfg : CfgBlock) (log : Log) (fox : Fox) (tck : Tack) (scn : Scan) (out : List Out) (free : Nat) (pending : List Instr) : (State.mk mc glb die fr prt pw aud bdg vrd hst cor shr pch plx tmb mem rst owl nvm cfg log fox tck scn out free pending).held = (pending, mc, nvm.fuses, mem.cells, shr) := id rfl

@[simp] theorem fresh_eq (s : State) : s.fresh = (Config.freeNat s.free, { s with free := s.free + 1 }) := rfl

end Sys2Proof.Machine
end

