-- ==== Sys2Proof/Laws/HeldOps.lean ====
section
/-! SUPPORT. What the shared operations keep. -/

set_option linter.unusedSimpArgs false

namespace Sys2Proof.Machine

/-! ### Ops -/

@[simp] theorem held_fresh (s : State) : (State.fresh s).2.held = s.held := by
  simp [State.fresh]

@[simp] theorem held_emit (s : State) (x : Out) : (State.emit s x).held = s.held := by
  simp [State.emit]

@[simp] theorem held_setRing (s : State) (fn : Nat) (r : Nat) (x : Ring) : (State.setRing s fn r x).held = s.held := by
  simp [State.setRing]

@[simp] theorem held_setHfn (s : State) (fn : Nat) (x : HostFn) : (State.setHfn s fn x).held = s.held := by
  simp [State.setHfn]

@[simp] theorem held_modTenant (s : State) (t : Nat) (f : Tenant → Tenant) : (State.modTenant s t f).held = s.held := by
  simp [State.modTenant]

@[simp] theorem held_signal (s : State) (fn : Nat) (v : Nat) : (State.signal s fn v).held = s.held := by
  simp [State.signal]

@[simp] theorem held_ringMessage (s : State) (fn : Nat) (r : Nat) : (State.ringMessage s fn r).held = s.held := by
  simp [State.ringMessage]

@[simp] theorem held_ringWritten (s : State) (fn : Nat) (r : Nat) (urgentRecord : Bool) : (State.ringWritten s fn r urgentRecord).held = s.held := by
  simp [State.ringWritten]

@[simp] theorem held_sendPending (s : State) (fn : Nat) : (State.sendPending s fn).held = s.held := by
  unfold State.sendPending; (try dsimp only); repeat' split
  all_goals first
  | (simp ; done)
  | (simp [held_foldl]; done)
  | (refine (held_foldl _ ?_ _ _).trans ?_
     · (intro q x; (try dsimp only); (repeat' split) <;> simp [held_foldl])
     · simp [held_foldl])

@[simp] theorem held_writeBack (s : State) (fn r i : Nat) : (State.writeBack s fn r i).held = s.held := by
  simp [State.writeBack]

@[simp] theorem held_hostRead (s : State) (fn addr len : Nat) : (State.hostRead s fn addr len).held = s.held := by
  simp [State.hostRead]

@[simp] theorem held_putRecord (s : State) (fn : Nat) (r : Nat) (b : Bytes) (urgentRecord : Bool) : (State.putRecord s fn r b urgentRecord).held = s.held := by
  simp [State.putRecord]

@[simp] theorem held_ringGap (s : State) (fn : Nat) (r : Nat) : (State.ringGap s fn r).held = s.held := by
  unfold State.ringGap; (repeat' split) <;> simp

@[simp] theorem held_copyTo (s : State) (fn : Nat) (r : Nat) (e : Evidence) : (State.copyTo s fn r e).held = s.held := by
  simp [State.copyTo]

@[simp] theorem held_logRecord (s : State) (kind : Nat) (tenant : Nat) (sev : Nat) (ctx : Nat) (payload : Bytes) : (State.logRecord s kind tenant sev ctx payload).held = s.held := by
  unfold State.logRecord; (repeat' split) <;> simp [held_foldl]

@[simp] theorem held_evidence (s : State) (kind : Nat) (tenant : Nat) (sev : Nat) (ctx : Nat) (payload : Bytes) : (State.evidence s kind tenant sev ctx payload).held = s.held := by
  simp [State.evidence]

@[simp] theorem held_evDev (s : State) (kind : Nat) (sev : Nat) (payload : Bytes) : (State.evDev s kind sev payload).held = s.held := by
  simp [State.evDev]

@[simp] theorem held_discardVerdict (s : State) (fn : Nat) (r : Nat) (frame : Nat) : (State.discardVerdict s fn r frame).held = s.held := by
  unfold State.discardVerdict; (repeat' split) <;> simp

@[simp] theorem held_mergeNotice (s : State) (fn : Nat) (r : Nat) (b : Bytes) : (State.mergeNotice s fn r b).held = s.held := by
  simp [State.mergeNotice]

@[simp] theorem held_dropHeld (s : State) (fn : Nat) (r : Nat) : (State.dropHeld s fn r).held = s.held := by
  unfold State.dropHeld; (repeat' split) <;> simp [held_foldl]

@[simp] theorem held_writeNotice (s : State) (fn : Nat) (r : Nat) : (State.writeNotice s fn r).held = s.held := by
  simp [State.writeNotice]

@[simp] theorem held_writeHeld (s : State) (fn : Nat) (r : Nat) : (State.writeHeld s fn r).held = s.held := by
  unfold State.writeHeld; (try dsimp only); repeat' split
  all_goals first
  | (simp ; done)
  | (simp [held_foldl]; done)
  | (refine (held_foldl _ ?_ _ _).trans ?_
     · (intro q x; (try dsimp only); (repeat' split) <;> simp [held_foldl])
     · simp [held_foldl])

@[simp] theorem held_holdNotice (s : State) (fn : Nat) (r : Nat) : (State.holdNotice s fn r).held = s.held := by
  simp [State.holdNotice]

@[simp] theorem held_postVerdict (s : State) (fn : Nat) (r : Nat) (frame : Nat) (b : Bytes) (urgentRecord : Bool) : (State.postVerdict s fn r frame b urgentRecord).held = s.held := by
  simp [State.postVerdict]

@[simp] theorem held_release (s : State) (fn : Nat) (r : Nat) : (State.release s fn r).held = s.held := by
  simp [State.release]

@[simp] theorem held_complete (s : State) (fn : Nat) (ring : Nat) (index : Nat) (c : Cpl) : (State.complete s fn ring index c).held = s.held := by
  unfold State.complete; (repeat' split) <;> simp

@[simp] theorem held_writeWaiting (s : State) (fn : Nat) (r : Nat) : (State.writeWaiting s fn r).held = s.held := by
  unfold State.writeWaiting; (repeat' split) <;> simp [held_foldl]

/-! ### StayOps -/

@[simp] theorem held_toShroud (s : State) (typ : Nat) (payload : Bytes) : (State.toShroud s typ payload).held = s.held := by
  simp [State.toShroud]

@[simp] theorem frees_fromShroud (A : Kept) (s : State) (typ : Nat) (payload : Bytes) (hA : freedTo A s.held) :
    freedTo A (State.fromShroud s typ payload).held := by
  simp [State.fromShroud, hA]

@[simp] theorem frees_shroudFault (A : Kept) (s : State) (code : Nat) (index : Nat) (mask : Nat) (hA : freedTo A s.held) :
    freedTo A (State.shroudFault s code index mask).held := by
  simp [State.shroudFault, hA]

@[simp] theorem held_sendStateFrame (s : State) : (State.sendStateFrame s).held = s.held := by
  simp [State.sendStateFrame]

/-! ### TelegramOps -/

@[simp] theorem held_setConn (s : State) (i : Nat) (x : Conn) : (State.setConn s i x).held = s.held := by
  simp [State.setConn]

@[simp] theorem held_modConn (s : State) (i : Nat) (f : Conn → Conn) : (State.modConn s i f).held = s.held := by
  simp [State.modConn]

@[simp] theorem held_sendTelegram (s : State) (i : Nat) (typ : Nat) (safeFlag : Bool) (payload : Bytes) : (State.sendTelegram s i typ safeFlag payload).held = s.held := by
  unfold State.sendTelegram; (repeat' split) <;> simp [held_foldl]

@[simp] theorem held_sendSafe (s : State) (cause : Nat) (i : Nat) : (State.sendSafe s cause i).held = s.held := by
  simp [State.sendSafe]

@[simp] theorem held_sendSafeAll (s : State) (cause : Nat) : (State.sendSafeAll s cause).held = s.held := by
  unfold State.sendSafeAll; (repeat' split) <;> simp [held_foldl]

@[simp] theorem held_setWatch (s : State) (c : Nat) (x : Watch) : (State.setWatch s c x).held = s.held := by
  simp [State.setWatch]

@[simp] theorem held_modWatch (s : State) (c : Nat) (f : Watch → Watch) : (State.modWatch s c f).held = s.held := by
  simp [State.modWatch]

@[simp] theorem held_sendVerdict (s : State) (i : Nat) : (State.sendVerdict s i).held = s.held := by
  simp [State.sendVerdict]

/-! ### VerdictOps -/

@[simp] theorem held_modSlot (s : State) (i : Nat) (f : Slot → Slot) : (State.modSlot s i f).held = s.held := by
  simp [State.modSlot]

@[simp] theorem held_modPlan (s : State) (p : Nat) (f : PlanSlot → PlanSlot) : (State.modPlan s p f).held = s.held := by
  simp [State.modPlan]

@[simp] theorem held_issue (s : State) (c : Nat) (code : Nat) (issueTime : Nat) : (State.issue s c code issueTime).held = s.held := by
  unfold State.issue; (repeat' split) <;> simp [held_foldl]

/-! ### StateOps -/

@[simp] theorem held_stateChanged (s : State) : (State.stateChanged s).held = s.held := by
  unfold State.stateChanged; (repeat' split) <;> simp [held_foldl]

@[simp] theorem held_stateRecord (s : State) (sev : Nat) : (State.stateRecord s sev).held = s.held := by
  simp [State.stateRecord]

@[simp] theorem held_moveTo (s : State) (st : OpState) : (State.moveTo s st).held = s.held := by
  simp [State.moveTo]

@[simp] theorem held_actTo (s : State) (st : OpState) : (State.actTo s st).held = s.held := by
  simp [State.actTo]

@[simp] theorem held_abortLong (s : State) (report : Bool) (o : LongOp) : (State.abortLong s report o).held = s.held := by
  unfold State.abortLong; (try dsimp only); repeat' split
  all_goals first
  | (simp ; done)
  | (simp [held_foldl]; done)
  | (refine (held_foldl _ ?_ _ _).trans ?_
     · (intro q x; (try dsimp only); (repeat' split) <;> simp [held_foldl])
     · simp [held_foldl])

@[simp] theorem held_abortOps (s : State) (fn : Nat) (report : Bool) (keep : LongOp → Bool) : (State.abortOps s fn report keep).held = s.held := by
  unfold State.abortOps; (repeat' split) <;> simp [held_foldl]

@[simp] theorem held_shiftWindow (s : State) (c : Nat) : (State.shiftWindow s c).held = s.held := by
  unfold State.shiftWindow; (try dsimp only); repeat' split
  all_goals first
  | (simp ; done)
  | (simp [held_foldl]; done)
  | (refine (held_foldl _ ?_ _ _).trans ?_
     · (intro q x; (try dsimp only); (repeat' split) <;> simp [held_foldl])
     · simp [held_foldl])

@[simp] theorem held_enterSafe (s : State) (cause : Nat) : (State.enterSafe s cause).held = s.held := by
  unfold State.enterSafe; (try dsimp only); repeat' split
  all_goals first
  | (simp ; done)
  | (simp [held_foldl]; done)
  | (refine (held_foldl _ ?_ _ _).trans ?_
     · (intro q x; (try dsimp only); (repeat' split) <;> simp [held_foldl])
     · simp [held_foldl])

@[simp] theorem held_enterDegraded (s : State) (cause : Nat) : (State.enterDegraded s cause).held = s.held := by
  simp [State.enterDegraded]

@[simp] theorem held_singleFault (s : State) (cause : Nat) : (State.singleFault s cause).held = s.held := by
  simp [State.singleFault]

@[simp] theorem held_exitDegraded (s : State) (cause : Nat) : (State.exitDegraded s cause).held = s.held := by
  simp [State.exitDegraded]

@[simp] theorem held_repairBegins (s : State) (k : Nat) : (State.repairBegins s k).held = s.held := by
  simp [State.repairBegins]

@[simp] theorem held_repairEnds (s : State) (k : Nat) : (State.repairEnds s k).held = s.held := by
  simp [State.repairEnds]

/-! ### FrameOps -/

@[simp] theorem held_switchOff (s : State) (d : Nat) : (State.switchOff s d).held = s.held := by
  simp [State.switchOff]

@[simp] theorem held_switchOn (s : State) (d : Nat) : (State.switchOn s d).held = s.held := by
  simp [State.switchOn]

@[simp] theorem held_requestRetest (s : State) (k : Nat) : (State.requestRetest s k).held = s.held := by
  simp [State.requestRetest]

@[simp] theorem held_abandoned (s : State) (block : Nat) (slot : Nat) (count : Nat) (tenant : Nat) : (State.abandoned s block slot count tenant).held = s.held := by
  simp [State.abandoned]

/-! ### Golden -/

@[simp] theorem held_modGold (s : State) (p : Nat) (f : Golden → Golden) : (State.modGold s p f).held = s.held := by
  simp [State.modGold]

@[simp] theorem held_goldOutcome (s : State) (p : Nat) (oc : Nat) : (State.goldOutcome s p oc).held = s.held := by
  unfold State.goldOutcome; (repeat' split) <;> simp [held_foldl]

/-! ### Report -/

@[simp] theorem held_initCtx (s : State) (k : Nat) (stream : Nat) (seq : Nat) (off : Nat) (poly : Nat) : (State.initCtx s k stream seq off poly).held = s.held := by
  simp [State.initCtx]

@[simp] theorem held_loadCtx (s : State) (k : Nat) : (State.loadCtx s k).held = s.held := by
  unfold State.loadCtx; (try dsimp only); repeat' split
  all_goals first
  | (simp ; done)
  | (simp [held_foldl]; done)
  | (refine (held_foldl _ ?_ _ _).trans ?_
     · (intro q x; (try dsimp only); (repeat' split) <;> simp [held_foldl])
     · simp [held_foldl])

@[simp] theorem held_foldCtx (s : State) (k : Nat) (cov : Bytes) (n : Nat) : (State.foldCtx s k cov n).held = s.held := by
  unfold State.foldCtx; (try dsimp only); repeat' split
  all_goals first
  | (simp ; done)
  | (simp [held_foldl]; done)
  | (refine (held_foldl _ ?_ _ _).trans ?_
     · (intro q x; (try dsimp only); (repeat' split) <;> simp [held_foldl])
     · simp [held_foldl])

@[simp] theorem held_failCtx (s : State) (k : Nat) : (State.failCtx s k).held = s.held := by
  simp [State.failCtx]

@[simp] theorem held_reportRecord (s : State) (slot : Nat) (tenant : Nat) (code : Nat) (off : Nat) : (State.reportRecord s slot tenant code off).held = s.held := by
  simp [State.reportRecord]

@[simp] theorem held_failReport (s : State) (i : Nat) (code : Nat) (off : Nat) (r : Report) : (State.failReport s i code off r).held = s.held := by
  simp [State.failReport]

@[simp] theorem held_staleWrite (s : State) (i : Nat) : (State.staleWrite s i).held = s.held := by
  simp [State.staleWrite]

@[simp] theorem held_lateWrite (s : State) (i : Nat) : (State.lateWrite s i).held = s.held := by
  simp [State.lateWrite]

@[simp] theorem held_countPoison (s : State) (poisoned : Bool) : (State.countPoison s poisoned).held = s.held := by
  simp [State.countPoison]

@[simp] theorem held_slotWrite (s : State) (i : Nat) (off : Nat) (data : Bytes) (poisoned : Bool) : (State.slotWrite s i off data poisoned).held = s.held := by
  unfold State.slotWrite; (try dsimp only); repeat' split
  all_goals first
  | (simp ; done)
  | (simp [held_foldl]; done)
  | (refine (held_foldl _ ?_ _ _).trans ?_
     · (intro q x; (try dsimp only); (repeat' split) <;> simp [held_foldl])
     · simp [held_foldl])

@[simp] theorem held_reportBusy (s : State) (i : Nat) (b : Bytes) : (State.reportBusy s i b).held = s.held := by
  unfold State.reportBusy; (repeat' split) <;> simp

@[simp] theorem held_slotComplete (s : State) (i : Nat) : (State.slotComplete s i).held = s.held := by
  simp [State.slotComplete]

@[simp] theorem held_slotDeadline (s : State) (i : Nat) : (State.slotDeadline s i).held = s.held := by
  simp [State.slotDeadline]

@[simp] theorem held_slotTick (s : State) (last : Nat) (i : Nat) : (State.slotTick s last i).held = s.held := by
  simp [State.slotTick]

@[simp] theorem held_goldFail (s : State) (code off : Nat) (r : Report) : (State.goldFail s code off r).held = s.held := by
  unfold State.goldFail; (try dsimp only); repeat' split
  all_goals first
  | (simp ; done)
  | (simp [held_foldl]; done)
  | (refine (held_foldl _ ?_ _ _).trans ?_
     · (intro q x; (try dsimp only); (repeat' split) <;> simp [held_foldl])
     · simp [held_foldl])

@[simp] theorem held_goldWrite (s : State) (off : Nat) (data : Bytes) (poisoned : Bool) : (State.goldWrite s off data poisoned).held = s.held := by
  unfold State.goldWrite; (try dsimp only); repeat' split
  all_goals first
  | (simp ; done)
  | (simp [held_foldl]; done)
  | (refine (held_foldl _ ?_ _ _).trans ?_
     · (intro q x; (try dsimp only); (repeat' split) <;> simp [held_foldl])
     · simp [held_foldl])

@[simp] theorem held_goldComplete (s : State) : (State.goldComplete s).held = s.held := by
  unfold State.goldComplete; (repeat' split) <;> simp

@[simp] theorem held_gldStart (s : State) : (State.gldStart s).held = s.held := by
  unfold State.gldStart; (repeat' split) <;> simp

@[simp] theorem held_gldEnd (s : State) : (State.gldEnd s).held = s.held := by
  unfold State.gldEnd; (try dsimp only); repeat' split
  all_goals first
  | (simp ; done)
  | (simp [held_foldl]; done)
  | (refine (held_foldl _ ?_ _ _).trans ?_
     · (intro q x; (try dsimp only); (repeat' split) <;> simp [held_foldl])
     · simp [held_foldl])

end Sys2Proof.Machine
end

