-- ==== Sys2Proof/Laws/HeldStoat.lean ====
section
/-! SUPPORT. What the operations of Stoat keep. -/

set_option linter.unusedSimpArgs false

namespace Sys2Proof.Machine

/-! ### StoatOps -/

@[simp] theorem held_modStt (s : State) (f : Stoat → Stoat) : (State.modStt s f).held = s.held := by
  simp [State.modStt]

@[simp] theorem held_modEng (s : State) (e : Nat) (f : Engine → Engine) : (State.modEng s e f).held = s.held := by
  simp [State.modEng]

@[simp] theorem held_redivide (s : State) (p : Nat) : (State.redivide s p).held = s.held := by
  unfold State.redivide; (repeat' split) <;> simp

@[simp] theorem held_auditStart (s : State) (p : Nat) : (State.auditStart s p).held = s.held := by
  unfold State.auditStart; (try dsimp only); repeat' split
  all_goals first
  | (simp ; done)
  | (simp [held_foldl]; done)
  | (refine (held_foldl _ ?_ _ _).trans ?_
     · (intro q x; (try dsimp only); (repeat' split) <;> simp [held_foldl])
     · simp [held_foldl])

@[simp] theorem held_takeComparison (s : State) (p : Nat) (l : Nat) (prof : Nat) (c : Comparison) : (State.takeComparison s p l prof c).held = s.held := by
  simp [State.takeComparison]

@[simp] theorem held_auditShareEnd (s : State) (p : Nat) (total : Nat) : (State.auditShareEnd s p total).held = s.held := by
  simp [State.auditShareEnd]

@[simp] theorem held_auditBlock (s : State) (p : Nat) (idx : Nat) : (State.auditBlock s p idx).held = s.held := by
  unfold State.auditBlock; (try dsimp only); repeat' split
  all_goals first
  | (simp ; done)
  | (simp [held_foldl]; done)
  | (refine (held_foldl _ ?_ _ _).trans ?_
     · (intro q x; (try dsimp only); (repeat' split) <;> simp [held_foldl])
     · simp [held_foldl])

@[simp] theorem held_auditWeightError (s : State) (p : Nat) (idx : Nat) : (State.auditWeightError s p idx).held = s.held := by
  unfold State.auditWeightError; (try dsimp only); repeat' split
  all_goals first
  | (simp ; done)
  | (simp [held_foldl]; done)
  | (refine (held_foldl _ ?_ _ _).trans ?_
     · (intro q x; (try dsimp only); (repeat' split) <;> simp [held_foldl])
     · simp [held_foldl])

@[simp] theorem held_auditEnd (s : State) (p : Nat) : (State.auditEnd s p).held = s.held := by
  simp [State.auditEnd]

@[simp] theorem held_itemsTick (s : State) (p : Nat) : (State.itemsTick s p).held = s.held := by
  unfold State.itemsTick; (try dsimp only); repeat' split
  all_goals first
  | (simp ; done)
  | (simp [held_foldl]; done)
  | (refine (held_foldl _ ?_ _ _).trans ?_
     · (intro q x; (try dsimp only); (repeat' split) <;> simp [held_foldl])
     · simp [held_foldl])

@[simp] theorem held_auditTick (s : State) (p : Nat) : (State.auditTick s p).held = s.held := by
  unfold State.auditTick; (repeat' split) <;> simp

@[simp] theorem held_activatePlan (s : State) (p : Nat) : (State.activatePlan s p).held = s.held := by
  unfold State.activatePlan; (repeat' split) <;> simp

@[simp] theorem held_challengeStart (s : State) (p : Nat) : (State.challengeStart s p).held = s.held := by
  simp [State.challengeStart]

@[simp] theorem held_drawTarget (s : State) (img : Bytes) (p : Nat) (t : Nat) : (s.drawTarget img p t).held = s.held := by
  unfold State.drawTarget; dsimp only; rw [held_mk]; rfl

@[simp] theorem held_drawAll (s : State) : (State.drawAll s).held = s.held := by
  unfold State.drawAll; dsimp only; rw [held_mk, held_eta]
  refine (held_foldl _ ?_ _ _).trans ?_
  · (intro q x; (try dsimp only); (repeat' split) <;> simp [held_foldl])
  · rw [held_mk]; rfl

@[simp] theorem held_mailboxPosted (s : State) : (State.mailboxPosted s).held = s.held := by
  unfold State.mailboxPosted; (repeat' split) <;> simp [held_foldl]

@[simp] theorem held_setChl (s : State) (i : Nat) (c : Challenge) : (State.setChl s i c).held = s.held := by
  simp [State.setChl]

@[simp] theorem held_failChallenge (s : State) (i : Nat) (code : Nat) (leaf : Nat) (row : Nat) (col : Nat) (acc : Nat) (dev : Nat) : (State.failChallenge s i code leaf row col acc dev).held = s.held := by
  unfold State.failChallenge; (repeat' split) <;> simp

@[simp] theorem held_failPlain (s : State) (i : Nat) (code : Nat) : (State.failPlain s i code).held = s.held := by
  simp [State.failPlain]

@[simp] theorem held_openingStale (s : State) : (State.openingStale s).held = s.held := by
  simp [State.openingStale]

@[simp] theorem held_openingWrite (s : State) (off : Nat) (data : Bytes) (poisoned : Bool) : (State.openingWrite s off data poisoned).held = s.held := by
  unfold State.openingWrite; (try dsimp only); repeat' split
  all_goals first
  | (simp ; done)
  | (simp [held_foldl]; done)
  | (refine (held_foldl _ ?_ _ _).trans ?_
     · (intro q x; (try dsimp only); (repeat' split) <;> simp [held_foldl])
     · simp [held_foldl])

@[simp] theorem held_leafVerify (s : State) (i : Nat) (k : Nat) : (State.leafVerify s i k).held = s.held := by
  unfold State.leafVerify; (try dsimp only); repeat' split
  all_goals first
  | (simp ; done)
  | (simp [held_foldl]; done)
  | (refine (held_foldl _ ?_ _ _).trans ?_
     · (intro q x; (try dsimp only); (repeat' split) <;> simp [held_foldl])
     · simp [held_foldl])

@[simp] theorem held_challengePass (s : State) (p : Nat) : (State.challengePass s p).held = s.held := by
  simp [State.challengePass]

@[simp] theorem held_tileDone (s : State) (i : Nat) : (State.tileDone s i).held = s.held := by
  unfold State.tileDone; (try dsimp only); repeat' split
  all_goals first
  | (simp ; done)
  | (simp [held_foldl]; done)
  | (refine (held_foldl _ ?_ _ _).trans ?_
     · (intro q x; (try dsimp only); (repeat' split) <;> simp [held_foldl])
     · simp [held_foldl])

@[simp] theorem held_challengeEnd (s : State) : (State.challengeEnd s).held = s.held := by
  unfold State.challengeEnd; (repeat' split) <;> simp [held_foldl]

@[simp] theorem held_mailboxTick (s : State) : (State.mailboxTick s).held = s.held := by
  simp [State.mailboxTick]

@[simp] theorem held_dispatch (s : State) (e : Nat) : (State.dispatch s e).held = s.held := by
  unfold State.dispatch; (repeat' split) <;> simp

@[simp] theorem held_dropUnits (s : State) : (State.dropUnits s).held = s.held := by
  simp [State.dropUnits]

@[simp] theorem held_engineRecord (s : State) (e : Nat) (kind : Nat) (col : Nat) : (State.engineRecord s e kind col).held = s.held := by
  simp [State.engineRecord]

@[simp] theorem held_repeatUnit (s : State) (e : Nat) : (State.repeatUnit s e).held = s.held := by
  unfold State.repeatUnit; (repeat' split) <;> simp

@[simp] theorem held_countFault (s : State) (e kind col : Nat) : (State.countFault s e kind col).held = s.held := by
  unfold State.countFault; (try dsimp only); repeat' split
  all_goals first
  | (simp ; done)
  | (simp [held_foldl]; done)
  | (refine (held_foldl _ ?_ _ _).trans ?_
     · (intro q x; (try dsimp only); (repeat' split) <;> simp [held_foldl])
     · simp [held_foldl])

@[simp] theorem held_engineFailed (s : State) (e : Nat) : (State.engineFailed s e).held = s.held := by
  simp [State.engineFailed]

@[simp] theorem held_useSpare (s : State) (sp : Nat) : (State.useSpare s sp).held = s.held := by
  simp [State.useSpare]

@[simp] theorem held_engineTestFail (s : State) (e : Nat) : (State.engineTestFail s e).held = s.held := by
  unfold State.engineTestFail; (repeat' split) <;> simp

@[simp] theorem held_engineFault (s : State) (e : Nat) (kind : Nat) (col : Nat) : (State.engineFault s e kind col).held = s.held := by
  unfold State.engineFault; (try dsimp only); repeat' split
  all_goals first
  | (simp ; done)
  | (simp [held_foldl]; done)
  | (refine (held_foldl _ ?_ _ _).trans ?_
     · (intro q x; (try dsimp only); (repeat' split) <;> simp [held_foldl])
     · simp [held_foldl])

@[simp] theorem held_engineSlice (s : State) (e : Nat) (pass : Bool) : (State.engineSlice s e pass).held = s.held := by
  unfold State.engineSlice; (repeat' split) <;> simp

@[simp] theorem held_sha3Mismatch (s : State) (k : Nat) : (State.sha3Mismatch s k).held = s.held := by
  simp [State.sha3Mismatch]

@[simp] theorem held_sha3Slice (s : State) (k : Nat) (pass : Bool) : (State.sha3Slice s k pass).held = s.held := by
  simp [State.sha3Slice]

end Sys2Proof.Machine
end

