-- ==== Sys2Proof/Laws/HeldShroud.lean ====
section
/-! SUPPORT. What resets and the events and frames of the die Shroud keep. -/

set_option linter.unusedSimpArgs false

namespace Sys2Proof.Machine

/-! ### ResetOps -/

@[simp] theorem keeps_resetBlocks (A : Kept) (s : State) (k : Nat) (hA : heldTo A s.held) :
    heldTo A (State.resetBlocks s k).held := by
  simp [State.resetBlocks, hA]

@[simp] theorem frees_restart (A : Kept) (s : State) (k : Nat) (source : Nat) (brownout : Bool) (hA : freedTo A s.held) :
    freedTo A (s.restart k source brownout).held := by
  unfold State.restart State.resetBlocks; dsimp only; rw [held_mk]; exact frees_nil hA _

@[simp] theorem frees_resetSource (A : Kept) (s : State) (k : Nat) (source : Nat) (hA : freedTo A s.held) :
    freedTo A (State.resetSource s k source).held := by
  unfold State.resetSource; (repeat' split) <;> simp [hA]

@[simp] theorem held_resetFox (s : State) (source : Nat) : (State.resetFox s source).held = s.held := by
  simp [State.resetFox]

/-! ### Reset -/

@[simp] theorem held_loadOption (s : State) : (State.loadOption s).held = s.held := by
  simp [State.loadOption]

@[simp] theorem frees_powerOn (A : Kept) (s : State) (hA : freedTo A s.held) :
    freedTo A (State.powerOn s).held := by
  simp [State.powerOn, hA]

@[simp] theorem held_interrupt (s : State) (k : Nat) : (State.interrupt s k).held = s.held := by
  simp [State.interrupt]

theorem frees_execPowerOn (dt : Nat) (pins : ResetPins) (s : State) : ∃ u, execPowerOn dt pins s = .next u ∧ freedTo (s.advance dt).held u.held :=
  ⟨_, rfl, by simp⟩

theorem frees_execSysReset (dt : Nat) (sys : PinDrive) (s : State) : ∃ u, execSysReset dt sys s = .next u ∧ freedTo (s.advance dt).held u.held := by
  refine ⟨_, rfl, ?_⟩; (repeat' split) <;> simp

theorem held_execHold (dt k cond : Nat) (s : State) : ∃ u, execHold dt k cond s = .next u ∧ u.held = (s.advance dt).held :=
  ⟨_, rfl, by simp⟩

theorem frees_execClockFault (dt which step : Nat) (s : State) : ∃ u, execClockFault dt which step s = .next u ∧ freedTo (s.advance dt).held u.held := by
  refine ⟨_, rfl, ?_⟩; (repeat' split) <;> simp

theorem frees_execPowerGoodFailure (dt step : Nat) (s : State) : ∃ u, execPowerGoodFailure dt step s = .next u ∧ freedTo (s.advance dt).held u.held := by
  refine ⟨_, rfl, ?_⟩; (repeat' split) <;> simp

@[simp] theorem held_domainRecord (s : State) (d : Nat) (event : Nat) : (State.domainRecord s d event).held = s.held := by
  simp [State.domainRecord]

theorem held_execDomainPowerGoodTimeout (dt d : Nat) (s : State) : ∃ u, execDomainPowerGoodTimeout dt d s = .next u ∧ u.held = (s.advance dt).held :=
  ⟨_, rfl, by simp⟩

theorem frees_execThermalTrip (dt : Nat) (s : State) : ∃ u, execThermalTrip dt s = .next u ∧ freedTo (s.advance dt).held u.held := by
  refine ⟨_, rfl, ?_⟩; (repeat' split) <;> simp

theorem held_execThermalTripHoldEnd (dt : Nat) (s : State) : ∃ u, execThermalTripHoldEnd dt s = .next u ∧ u.held = (s.advance dt).held :=
  ⟨_, rfl, by simp⟩

@[simp] theorem frees_foxRequest (A : Kept) (s : State) (hA : freedTo A s.held) :
    freedTo A (State.foxRequest s).held := by
  unfold State.foxRequest; (repeat' split) <;> simp [hA]

theorem frees_execFoxSoftwareRequest (dt : Nat) (s : State) : ∃ u, execFoxSoftwareRequest dt s = .next u ∧ freedTo (s.advance dt).held u.held :=
  ⟨_, rfl, by simp⟩

@[simp] theorem held_powerFailRecord (s : State) (src : Nat) : (State.powerFailRecord s src).held = s.held := by
  simp [State.powerFailRecord]

@[simp] theorem frees_powerFail (A : Kept) (s : State) (src : Nat) (hA : freedTo A s.held) :
    freedTo A (s.powerFail src).held := by
  unfold State.powerFail State.resetBlocks; dsimp only; rw [held_mk]
  exact frees_nil (s := ((s.sendSafeAll 0).powerFailRecord src).fresh.2) (by simpa using hA) _

theorem frees_execPowerFailWarning (dt src : Nat) (s : State) : ∃ u, execPowerFailWarning dt src s = .next u ∧ freedTo (s.advance dt).held u.held := by
  refine ⟨_, rfl, ?_⟩; (repeat' split) <;> simp

theorem frees_execBrownout (dt : Nat) (s : State) : ∃ u, execBrownout dt s = .next u ∧ freedTo (s.advance dt).held u.held := by
  refine ⟨_, rfl, ?_⟩; (repeat' split) <;> simp

/-! ### SafetyFns -/

@[simp] theorem frees_settleOutputs (A : Kept) (s : State) (hA : freedTo A s.held) : freedTo A (s.settleOutputs).held := by
  have h : ∀ (q : State) (r : Shroud × Nat) (x : Nat), freedTo A q.held →
      freedTo A (if r.2 = 0 then { q with shr := r.1 } else ({ q with shr := r.1 } : State).shroudFault r.2 x 0).held := fun q r x hq => by
    have e : freedTo A ({ q with shr := r.1 } : State).held := by rw [held_mk]; exact frees_shr hq _
    split
    · exact e
    · exact frees_shroudFault _ _ _ _ _ e
  rw [State.settleOutputs]
  exact frees_foldl A _ (fun q x hq => h q (q.shr.settlePv q.cyc x) x hq) _ _
    (frees_foldl A _ (fun q x hq => h q (q.shr.settleSo q.cyc x) x hq) _ _ hA)

@[simp] theorem held_refusedRecord (s : State) (n : Nat) (l : List (Nat × Nat)) : (State.refusedRecord s n l).held = s.held := by
  unfold State.refusedRecord; (repeat' split) <;> simp

@[simp] theorem frees_hchSet (A : Kept) (s : State) (n : Nat) (r : Fn × Bool) (hA : freedTo A s.held) :
    freedTo A (State.hchSet s n r).held := by
  unfold State.hchSet; (repeat' split) <;> simp [hA]

@[simp] theorem held_pchSet (s : State) (n : Nat) (r : Fn × Bool) : (State.pchSet s n r).held = s.held := by
  simp [State.pchSet]

@[simp] theorem frees_hchEval (A : Kept) (s : State) (hA : freedTo A s.held) :
    freedTo A (State.hchEval s).held := by
  unfold State.hchEval; (try dsimp only); repeat' split
  all_goals first
  | (simp [hA]; done)
  | (simp [held_foldl, frees_ite, hA]; done)
  | (refine frees_foldl _ _ ?_ _ _ ?_
     · (intro q x hq; (try dsimp only); (repeat' split) <;> simp [held_foldl, hq])
     · simp [held_foldl, frees_ite, hA])

@[simp] theorem held_pchEval (s : State) : (State.pchEval s).held = s.held := by
  unfold State.pchEval; (repeat' split) <;> simp [held_foldl]

@[simp] theorem frees_hchReset (A : Kept) (s : State) (i : Nat) (t : Nat) (hA : freedTo A s.held) :
    freedTo A (State.hchReset s i t).held := by
  unfold State.hchReset; (try dsimp only); repeat' split
  all_goals first
  | (simp [hA]; done)
  | (simp [held_foldl, frees_ite, hA]; done)
  | (refine frees_foldl _ _ ?_ _ _ ?_
     · (intro q x hq; (try dsimp only); (repeat' split) <;> simp [held_foldl, hq])
     · simp [held_foldl, frees_ite, hA])

@[simp] theorem held_pchReset (s : State) (i : Nat) (t : Nat) : (State.pchReset s i t).held = s.held := by
  unfold State.pchReset; (repeat' split) <;> simp [held_foldl]

/-! ### ShroudLink -/

@[simp] theorem frees_shroudRejects (A : Kept) (s : State) (hA : freedTo A s.held) :
    freedTo A (State.shroudRejects s).held := by
  simp [State.shroudRejects, hA]

@[simp] theorem held_lDieRejects (s : State) : (State.lDieRejects s).held = s.held := by
  simp [State.lDieRejects]

@[simp] theorem held_stateDue (s : State) : (State.stateDue s).held = s.held := by
  unfold State.stateDue; (try dsimp only); repeat' split
  all_goals first
  | (simp ; done)
  | (simp [held_foldl]; done)
  | (refine (held_foldl _ ?_ _ _).trans ?_
     · (intro q x; (try dsimp only); (repeat' split) <;> simp [held_foldl])
     · simp [held_foldl])

@[simp] theorem held_lDieSends (s : State) : (State.lDieSends s).held = s.held := by
  unfold State.lDieSends; dsimp only; split <;> simp

@[simp] theorem held_shroudSends (s : State) : (State.shroudSends s).held = s.held := by
  unfold State.shroudSends; (try dsimp only); repeat' split
  all_goals first
  | (simp ; done)
  | (simp [held_foldl]; done)
  | (refine (held_foldl _ ?_ _ _).trans ?_
     · (intro q x; (try dsimp only); (repeat' split) <;> simp [held_foldl])
     · simp [held_foldl])

@[simp] theorem frees_onShroud (A : Kept) (s : State) (typ : Nat) (seq : Nat) (p : Bytes) (act : State → State)
    (h_act : ∀ x0, freedTo A x0.held → freedTo A (act x0).held) (hA : freedTo A s.held) : freedTo A (s.onShroud typ seq p act).held := by
  rw [State.onShroud]
  split
  · exact hA
  · dsimp only
    split
    · rw [held_lDieSends]; exact frees_settleOutputs _ _ (h_act _ (by rw [held_mk]; exact frees_shr hA _))
    · exact frees_shroudRejects _ _ (by rw [held_mk]; exact frees_shr hA _)

@[simp] theorem frees_onLDie (A : Kept) (s : State) (typ : Nat) (seq : Nat) (p : Bytes) (act : State → State) (h_act : ∀ x0, freedTo A x0.held → freedTo A (act x0).held) (hA : freedTo A s.held) :
    freedTo A (State.onLDie s typ seq p act).held := by
  unfold State.onLDie; (try dsimp only); repeat' split
  all_goals first
  | (simp [h_act, hA]; done)
  | (simp [held_foldl, frees_ite, h_act, hA]; done)
  | (refine frees_foldl _ _ ?_ _ _ ?_
     · (intro q x hq; (try dsimp only); (repeat' split) <;> simp [held_foldl, hq])
     · simp [held_foldl, frees_ite, h_act, hA])

@[simp] theorem frees_takePchFunc (A : Kept) (s : State) (hA : freedTo A s.held) :
    freedTo A (State.takePchFunc s).held := by
  simp [State.takePchFunc, hA]

theorem frees_execPchFunc (dt seq : Nat) (s : State) :
    ∃ u, execPchFunc dt seq s = .next u ∧ freedTo (s.advance dt).held u.held := by
  refine ⟨_, rfl, ?_⟩
  exact frees_onShroud _ _ _ _ _ _ (fun _ hx => frees_takePchFunc _ _ hx) (freedTo_refl _)

@[simp] theorem frees_refuseRising (A : Kept) (s : State) (req : Nat) (hA : freedTo A s.held) :
    freedTo A (State.refuseRising s req).held := by
  unfold State.refuseRising
  refine frees_foldl _ _ ?_ _ _ ?_
  · (intro q x hq; (try dsimp only); (repeat' split) <;> simp [held_foldl, hq])
  · simp [held_foldl, frees_ite, hA]

@[simp] theorem frees_takePchOut (A : Kept) (s : State) (r : Nat × Nat × Nat) (hA : freedTo A s.held) :
    freedTo A (State.takePchOut s r).held := by
  simp [State.takePchOut, hA]

theorem frees_execPchOut (dt seq : Nat) (s : State) :
    ∃ u, execPchOut dt seq s = .next u ∧ freedTo (s.advance dt).held u.held := by
  refine ⟨_, rfl, ?_⟩
  exact frees_onShroud _ _ _ _ _ _ (fun _ hx => frees_takePchOut _ _ _ hx) (freedTo_refl _)

@[simp] theorem held_heartbeatRecord (s : State) (slot : Nat) (event : Nat) (ctx : Nat) : (State.heartbeatRecord s slot event ctx).held = s.held := by
  simp [State.heartbeatRecord]

@[simp] theorem frees_heartbeatLapses (A : Kept) (s : State) (n : Nat) (hA : freedTo A s.held) :
    freedTo A (State.heartbeatLapses s n).held := by
  unfold State.heartbeatLapses; (try dsimp only); repeat' split
  all_goals first
  | (simp [hA]; done)
  | (simp [held_foldl, frees_ite, hA]; done)
  | (refine frees_foldl _ _ ?_ _ _ ?_
     · (intro q x hq; (try dsimp only); (repeat' split) <;> simp [held_foldl, hq])
     · simp [held_foldl, frees_ite, hA])

@[simp] theorem frees_takeHeartbeat (A : Kept) (s : State) (p : Bytes) (hA : freedTo A s.held) : freedTo A (s.takeHeartbeat p).held := by
  rw [State.takeHeartbeat]
  dsimp only
  split
  · rw [held_mk]; exact frees_shr (frees_heartbeatLapses A s _ hA) _
  · simp [hA]

theorem frees_execHeartbeat (dt seq : Nat) (payload : Bytes) (s : State) :
    ∃ u, execHeartbeat dt seq payload s = .next u ∧ freedTo (s.advance dt).held u.held := by
  refine ⟨_, rfl, ?_⟩
  exact frees_onShroud _ _ _ _ _ _ (fun _ hx => frees_takeHeartbeat _ _ _ hx) (freedTo_refl _)

@[simp] theorem frees_takeBind (A : Kept) (s : State) (p : Bytes) (hA : freedTo A s.held) :
    freedTo A (State.takeBind s p).held := by
  unfold State.takeBind; (try dsimp only); repeat' split
  all_goals first
  | (simp [hA]; done)
  | (simp [held_foldl, frees_ite, hA]; done)
  | (refine frees_foldl _ _ ?_ _ _ ?_
     · (intro q x hq; (try dsimp only); (repeat' split) <;> simp [held_foldl, hq])
     · simp [held_foldl, frees_ite, hA])

theorem frees_execBind (dt seq : Nat) (payload : Bytes) (s : State) :
    ∃ u, execBind dt seq payload s = .next u ∧ freedTo (s.advance dt).held u.held := by
  refine ⟨_, rfl, ?_⟩
  exact frees_onShroud _ _ _ _ _ _ (fun _ hx => frees_takeBind _ _ _ hx) (freedTo_refl _)

@[simp] theorem frees_takeUnbind (A : Kept) (s : State) (p : Bytes) (hA : freedTo A s.held) :
    freedTo A (State.takeUnbind s p).held := by
  unfold State.takeUnbind; (repeat' split) <;> simp [held_foldl, frees_ite, hA]

theorem frees_execUnbind (dt seq : Nat) (payload : Bytes) (s : State) :
    ∃ u, execUnbind dt seq payload s = .next u ∧ freedTo (s.advance dt).held u.held := by
  refine ⟨_, rfl, ?_⟩
  exact frees_onShroud _ _ _ _ _ _ (fun _ hx => frees_takeUnbind _ _ _ hx) (freedTo_refl _)

@[simp] theorem frees_takeState (A : Kept) (s : State) (p : Bytes) (hA : freedTo A s.held) :
    freedTo A (State.takeState s p).held := by
  simp [State.takeState, hA]

theorem frees_execStayState (dt seq : Nat) (payload : Bytes) (s : State) :
    ∃ u, execStayState dt seq payload s = .next u ∧ freedTo (s.advance dt).held u.held := by
  refine ⟨_, rfl, ?_⟩
  exact frees_onShroud _ _ _ _ _ _ (fun _ hx => frees_takeState _ _ _ hx) (freedTo_refl _)

@[simp] theorem frees_takeSafe (A : Kept) (s : State) (hA : freedTo A s.held) :
    freedTo A (State.takeSafe s).held := by
  simp [State.takeSafe, hA]

theorem frees_execStaySafe (dt seq : Nat) (payload : Bytes) (s : State) :
    ∃ u, execStaySafe dt seq payload s = .next u ∧ freedTo (s.advance dt).held u.held := by
  refine ⟨_, rfl, ?_⟩
  exact frees_onShroud _ _ _ _ _ _ (fun _ hx => frees_takeSafe _ _ hx) (freedTo_refl _)

@[simp] theorem frees_setShr (A : Kept) (s : State) (h : Shroud) (hA : freedTo A s.held) :
    freedTo A (s.setShr h).held := by
  unfold State.setShr; rw [held_mk]; exact frees_shr hA _

@[simp] theorem frees_takeCfg (A : Kept) (s : State) (p : Bytes) (hA : freedTo A s.held) :
    freedTo A (State.takeCfg s p).held := by
  unfold State.takeCfg; dsimp only
  apply frees_fromShroud; split
  · exact frees_hchEval _ _ (frees_setShr _ _ _ hA)
  · exact hA

theorem frees_execCfg (dt seq : Nat) (payload : Bytes) (s : State) :
    ∃ u, execCfg dt seq payload s = .next u ∧ freedTo (s.advance dt).held u.held := by
  refine ⟨_, rfl, ?_⟩
  exact frees_onShroud _ _ _ _ _ _ (fun _ hx => frees_takeCfg _ _ _ hx) (freedTo_refl _)

theorem frees_execNak (dt : Nat) (atShroud : Bool) (seq : Nat) (payload : Bytes) (s : State) : ∃ u, execNak dt atShroud seq payload s = .next u ∧ freedTo (s.advance dt).held u.held := by
  refine ⟨_, rfl, ?_⟩; (repeat' split) <;> simp [held_foldl, frees_ite]

theorem frees_execIdle (dt : Nat) (atShroud : Bool) (seq : Nat) (payload : Bytes) (s : State) : ∃ u, execIdle dt atShroud seq payload s = .next u ∧ freedTo (s.advance dt).held u.held := by
  refine ⟨_, rfl, ?_⟩; (repeat' split) <;> simp

theorem frees_execStayFrameReject (dt : Nat) (atShroud : Bool) (typ : Nat) (payload lane0 lane1 : Bytes) (s : State) : ∃ u, execStayFrameReject dt atShroud typ payload lane0 lane1 s = .next u ∧ freedTo (s.advance dt).held u.held := by
  refine ⟨_, rfl, ?_⟩; (repeat' split) <;> simp

@[simp] theorem held_pchSample (s : State) (raw : Nat) (i : Nat) : (State.pchSample s raw i).held = s.held := by
  unfold State.pchSample; (try dsimp only); repeat' split
  all_goals first
  | (simp ; done)
  | (simp [held_foldl]; done)
  | (refine (held_foldl _ ?_ _ _).trans ?_
     · (intro q x; (try dsimp only); (repeat' split) <;> simp [held_foldl])
     · simp [held_foldl])

@[simp] theorem held_takeInputs (s : State) (raw filt : Nat) : (State.takeInputs s raw filt).held = s.held := by
  unfold State.takeInputs; (repeat' split) <;> simp [held_foldl]

theorem frees_execInputs (dt seq raw : Nat) (s : State) : ∃ u, execInputs dt seq raw s = .next u ∧ freedTo (s.advance dt).held u.held :=
  ⟨_, rfl, by simp⟩

@[simp] theorem held_adopt (s : State) : (State.adopt s).held = s.held := by
  unfold State.adopt; split <;> simp [held_foldl]

@[simp] theorem held_takeHch (s : State) : (State.takeHch s).held = s.held := by
  simp [State.takeHch]

theorem frees_execHch (dt seq : Nat) (s : State) : ∃ u, execHch dt seq s = .next u ∧ freedTo (s.advance dt).held u.held :=
  ⟨_, rfl, by simp⟩

@[simp] theorem held_takeOutputs (s : State) : (State.takeOutputs s).held = s.held := by
  simp [State.takeOutputs]

theorem frees_execOutputs (dt seq : Nat) (s : State) : ∃ u, execOutputs dt seq s = .next u ∧ freedTo (s.advance dt).held u.held :=
  ⟨_, rfl, by simp⟩

@[simp] theorem held_channelRecord (s : State) (n : Nat) : (State.channelRecord s n).held = s.held := by
  simp [State.channelRecord]

@[simp] theorem held_takeFault (s : State) (p : Bytes) : (State.takeFault s p).held = s.held := by
  simp [State.takeFault]

theorem frees_execStayFault (dt seq : Nat) (payload : Bytes) (s : State) : ∃ u, execStayFault dt seq payload s = .next u ∧ freedTo (s.advance dt).held u.held :=
  ⟨_, rfl, by simp⟩

theorem frees_execStayLinkLossShroud (dt : Nat) (s : State) : ∃ u, execStayLinkLossShroud dt s = .next u ∧ freedTo (s.advance dt).held u.held := by
  refine ⟨_, rfl, ?_⟩; (repeat' split) <;> simp

theorem held_execStayLinkLossLDie (dt : Nat) (s : State) : ∃ u, execStayLinkLossLDie dt s = .next u ∧ u.held = (s.advance dt).held :=
  ⟨_, rfl, by simp⟩

/-! ### ShroudEvents -/

@[simp] theorem frees_filterFlips (A : Kept) (s : State) (i : Nat) (hA : freedTo A s.held) :
    freedTo A (s.filterFlips i).held := by
  rw [State.filterFlips]
  try dsimp only
  repeat' first
    | with_reducible exact hA
    | with_reducible apply frees_settleOutputs
    | with_reducible apply frees_shroudFault
    | with_reducible apply frees_hchSet
    | with_reducible apply frees_hchEval
    | with_reducible apply frees_hchReset
    | with_reducible apply frees_hchXs
    | with_reducible apply frees_setSo
    | with_reducible apply frees_setPv
    | rw [held_pchSet]
    | rw [held_pchXs]
    | split
    | (rw [held_mk]; with_reducible apply frees_shr)

theorem frees_execFilteredInputChange (dt i : Nat) (s : State) :
    ∃ u, execFilteredInputChange dt i s = .next u ∧ freedTo (s.advance dt).held u.held := by
  refine ⟨_, rfl, ?_⟩
  exact frees_filterFlips _ _ _ (freedTo_refl _)

theorem frees_execTestPulseStart (dt k : Nat) (s : State) : ∃ u, execTestPulseStart dt k s = .next u ∧ freedTo (s.advance dt).held u.held := by
  refine ⟨_, rfl, ?_⟩; (repeat' split) <;> simp

@[simp] theorem frees_hchXs (A : Kept) (s : State) (xs : List Nat) (hA : freedTo A s.held) :
    freedTo A (State.hchXs s xs).held := by
  unfold State.hchXs; (try dsimp only); repeat' split
  all_goals first
  | (simp [hA]; done)
  | (simp [held_foldl, frees_ite, hA]; done)
  | (refine frees_foldl _ _ ?_ _ _ ?_
     · (intro q x hq; (try dsimp only); (repeat' split) <;> simp [held_foldl, hq])
     · simp [held_foldl, frees_ite, hA])

@[simp] theorem held_pchXs (s : State) (xs : List Nat) : (State.pchXs s xs).held = s.held := by
  unfold State.pchXs; (repeat' split) <;> simp [held_foldl]

@[simp] theorem frees_pulseEnds (A : Kept) (s : State) (k : Nat) (before : Nat) (late : Nat) (hA : freedTo A s.held) :
    freedTo A (s.pulseEnds k before late).held := by
  rw [State.pulseEnds]
  try dsimp only
  repeat' first
    | with_reducible exact hA
    | with_reducible apply frees_settleOutputs
    | with_reducible apply frees_shroudFault
    | with_reducible apply frees_hchSet
    | with_reducible apply frees_hchEval
    | with_reducible apply frees_hchReset
    | with_reducible apply frees_hchXs
    | with_reducible apply frees_setSo
    | with_reducible apply frees_setPv
    | rw [held_pchSet]
    | rw [held_pchXs]
    | split
    | (rw [held_mk]; with_reducible apply frees_shr)

theorem frees_execTestPulseEnd (dt k before late : Nat) (s : State) :
    ∃ u, execTestPulseEnd dt k before late s = .next u ∧ freedTo (s.advance dt).held u.held := by
  refine ⟨_, rfl, ?_⟩
  exact frees_pulseEnds _ _ _ _ _ (freedTo_refl _)

@[simp] theorem held_pchDisc (s : State) (n : Nat) : (s.pchDisc n).held = s.held := by
  unfold State.pchDisc; (try dsimp only); (repeat' split) <;> first | rfl | simp

@[simp] theorem frees_hchDisc (A : Kept) (s : State) (n : Nat) (hA : freedTo A s.held) : freedTo A (s.hchDisc n).held := by
  unfold State.hchDisc; dsimp only; repeat' split
  all_goals repeat' first
    | with_reducible exact hA
    | with_reducible apply frees_settleOutputs
    | with_reducible apply frees_shroudFault
    | with_reducible apply frees_hchSet

@[simp] theorem frees_discTimeout (A : Kept) (s : State) (pch : Bool) (n : Nat) (hA : freedTo A s.held) :
    freedTo A (s.discTimeout pch n).held := by
  unfold State.discTimeout; repeat' split
  · exact hA
  · rw [held_pchDisc]; exact hA
  · exact frees_hchDisc _ _ _ hA

theorem frees_execDiscrepancyTimeout (dt : Nat) (pch : Bool) (n : Nat) (s : State) :
    ∃ u, execDiscrepancyTimeout dt pch n s = .next u ∧ freedTo (s.advance dt).held u.held := by
  refine ⟨_, rfl, ?_⟩
  exact frees_discTimeout _ _ _ _ (freedTo_refl _)

@[simp] theorem frees_handTimeout (A : Kept) (s : State) (pch : Bool) (n : Nat) (hA : freedTo A s.held) :
    freedTo A (State.handTimeout s pch n).held := by
  unfold State.handTimeout; (try dsimp only); repeat' split
  all_goals first
  | (simp [hA]; done)
  | (simp [held_foldl, frees_ite, hA]; done)
  | (refine frees_foldl _ _ ?_ _ _ ?_
     · (intro q x hq; (try dsimp only); (repeat' split) <;> simp [held_foldl, hq])
     · simp [held_foldl, frees_ite, hA])

theorem frees_execTwohandTimeout (dt : Nat) (pch : Bool) (n : Nat) (s : State) : ∃ u, execTwohandTimeout dt pch n s = .next u ∧ freedTo (s.advance dt).held u.held :=
  ⟨_, rfl, by simp⟩

@[simp] theorem frees_channelDiscrepancy (A : Kept) (s : State) (shroud : Bool) (n : Nat) (hA : freedTo A s.held) :
    freedTo A (State.channelDiscrepancy s shroud n).held := by
  unfold State.channelDiscrepancy; (try dsimp only); repeat' split
  all_goals first
  | (simp [hA]; done)
  | (simp [held_foldl, frees_ite, hA]; done)
  | (refine frees_foldl _ _ ?_ _ _ ?_
     · (intro q x hq; (try dsimp only); (repeat' split) <;> simp [held_foldl, hq])
     · simp [held_foldl, frees_ite, hA])

theorem frees_execChannelDiscrepancy (dt : Nat) (shroud : Bool) (n : Nat) (s : State) : ∃ u, execChannelDiscrepancy dt shroud n s = .next u ∧ freedTo (s.advance dt).held u.held :=
  ⟨_, rfl, by simp⟩

@[simp] theorem frees_setSo (A : Kept) (s : State) (o : Nat) (x : So) (hA : freedTo A s.held) :
    freedTo A (State.setSo s o x).held := by
  simp [State.setSo, hA]

@[simp] theorem frees_lockSo (A : Kept) (s : State) (o : Nat) (code : Nat) (hA : freedTo A s.held) :
    freedTo A (s.lockSo o code).held := by
  rw [State.lockSo]
  try dsimp only
  repeat' first
    | with_reducible exact hA
    | with_reducible apply frees_settleOutputs
    | with_reducible apply frees_shroudFault
    | with_reducible apply frees_hchSet
    | with_reducible apply frees_hchEval
    | with_reducible apply frees_hchReset
    | with_reducible apply frees_hchXs
    | with_reducible apply frees_setSo
    | with_reducible apply frees_setPv
    | rw [held_pchSet]
    | rw [held_pchXs]
    | split
    | (rw [held_mk]; with_reducible apply frees_shr)

@[simp] theorem frees_edmChanges (A : Kept) (s : State) (o : Nat) (hA : freedTo A s.held) :
    freedTo A (s.edmChanges o).held := by
  rw [State.edmChanges]
  try dsimp only
  repeat' first
    | with_reducible exact hA
    | with_reducible apply frees_settleOutputs
    | with_reducible apply frees_shroudFault
    | with_reducible apply frees_hchSet
    | with_reducible apply frees_hchEval
    | with_reducible apply frees_hchReset
    | with_reducible apply frees_hchXs
    | with_reducible apply frees_setSo
    | with_reducible apply frees_setPv
    | rw [held_pchSet]
    | rw [held_pchXs]
    | with_reducible apply frees_lockSo
    | split
    | (rw [held_mk]; with_reducible apply frees_shr)

theorem frees_execEdmChange (dt o : Nat) (s : State) :
    ∃ u, execEdmChange dt o s = .next u ∧ freedTo (s.advance dt).held u.held := by
  refine ⟨_, rfl, ?_⟩
  exact frees_edmChanges _ _ _ (freedTo_refl _)

@[simp] theorem frees_edmExpires (A : Kept) (s : State) (o : Nat) (hA : freedTo A s.held) :
    freedTo A (s.edmExpires o).held := by
  rw [State.edmExpires]
  try dsimp only
  repeat' first
    | with_reducible exact hA
    | with_reducible apply frees_settleOutputs
    | with_reducible apply frees_shroudFault
    | with_reducible apply frees_hchSet
    | with_reducible apply frees_hchEval
    | with_reducible apply frees_hchReset
    | with_reducible apply frees_hchXs
    | with_reducible apply frees_setSo
    | with_reducible apply frees_setPv
    | rw [held_pchSet]
    | rw [held_pchXs]
    | with_reducible apply frees_lockSo
    | split
    | (rw [held_mk]; with_reducible apply frees_shr)

theorem frees_execEdmMsExpiry (dt o : Nat) (s : State) :
    ∃ u, execEdmMsExpiry dt o s = .next u ∧ freedTo (s.advance dt).held u.held := by
  refine ⟨_, rfl, ?_⟩
  exact frees_edmExpires _ _ _ (freedTo_refl _)

@[simp] theorem frees_setPv (A : Kept) (s : State) (p : Nat) (x : Pv) (hA : freedTo A s.held) :
    freedTo A (State.setPv s p x).held := by
  simp [State.setPv, hA]

@[simp] theorem frees_lockPv (A : Kept) (s : State) (p : Nat) (code : Nat) (hA : freedTo A s.held) :
    freedTo A (s.lockPv p code).held := by
  rw [State.lockPv]
  try dsimp only
  repeat' first
    | with_reducible exact hA
    | with_reducible apply frees_settleOutputs
    | with_reducible apply frees_shroudFault
    | with_reducible apply frees_hchSet
    | with_reducible apply frees_hchEval
    | with_reducible apply frees_hchReset
    | with_reducible apply frees_hchXs
    | with_reducible apply frees_setSo
    | with_reducible apply frees_setPv
    | rw [held_pchSet]
    | rw [held_pchXs]
    | split
    | (rw [held_mk]; with_reducible apply frees_shr)

@[simp] theorem frees_minOffExpires (A : Kept) (s : State) (prv : Bool) (i : Nat) (hA : freedTo A s.held) :
    freedTo A (State.minOffExpires s prv i).held := by
  unfold State.minOffExpires; (try dsimp only); repeat' split
  all_goals first
  | (simp [hA]; done)
  | (simp [held_foldl, frees_ite, hA]; done)
  | (refine frees_foldl _ _ ?_ _ _ ?_
     · (intro q x hq; (try dsimp only); (repeat' split) <;> simp [held_foldl, hq])
     · simp [held_foldl, frees_ite, hA])

theorem frees_execMinOffExpiry (dt : Nat) (prv : Bool) (i : Nat) (s : State) : ∃ u, execMinOffExpiry dt prv i s = .next u ∧ freedTo (s.advance dt).held u.held :=
  ⟨_, rfl, by simp⟩

@[simp] theorem frees_senseChanges (A : Kept) (s : State) (p : Nat) (high : Bool) (hA : freedTo A s.held) :
    freedTo A (State.senseChanges s p high).held := by
  unfold State.senseChanges; (repeat' split) <;> simp [hA]

theorem frees_execSenseChange (dt p : Nat) (high : Bool) (s : State) : ∃ u, execSenseChange dt p high s = .next u ∧ freedTo (s.advance dt).held u.held :=
  ⟨_, rfl, by simp⟩

@[simp] theorem frees_senseExpires (A : Kept) (s : State) (p : Nat) (hA : freedTo A s.held) :
    freedTo A (s.senseExpires p).held := by
  rw [State.senseExpires]
  try dsimp only
  repeat' first
    | with_reducible exact hA
    | with_reducible apply frees_settleOutputs
    | with_reducible apply frees_shroudFault
    | with_reducible apply frees_hchSet
    | with_reducible apply frees_hchEval
    | with_reducible apply frees_hchReset
    | with_reducible apply frees_hchXs
    | with_reducible apply frees_setSo
    | with_reducible apply frees_setPv
    | rw [held_pchSet]
    | rw [held_pchXs]
    | with_reducible apply frees_lockPv
    | split
    | (rw [held_mk]; with_reducible apply frees_shr)

theorem frees_execSenseUsExpiry (dt p : Nat) (s : State) :
    ∃ u, execSenseUsExpiry dt p s = .next u ∧ freedTo (s.advance dt).held u.held := by
  refine ⟨_, rfl, ?_⟩
  exact frees_senseExpires _ _ _ (freedTo_refl _)

@[simp] theorem frees_hsTimeout (A : Kept) (s : State) (p : Nat) (hA : freedTo A s.held) :
    freedTo A (s.hsTimeout p).held := by
  rw [State.hsTimeout]
  try dsimp only
  repeat' first
    | with_reducible exact hA
    | with_reducible apply frees_settleOutputs
    | with_reducible apply frees_shroudFault
    | with_reducible apply frees_hchSet
    | with_reducible apply frees_hchEval
    | with_reducible apply frees_hchReset
    | with_reducible apply frees_hchXs
    | with_reducible apply frees_setSo
    | with_reducible apply frees_setPv
    | rw [held_pchSet]
    | rw [held_pchXs]
    | split
    | (rw [held_mk]; with_reducible apply frees_shr)

theorem frees_execHsCommandTimeout (dt p : Nat) (s : State) :
    ∃ u, execHsCommandTimeout dt p s = .next u ∧ freedTo (s.advance dt).held u.held := by
  refine ⟨_, rfl, ?_⟩
  exact frees_hsTimeout _ _ _ (freedTo_refl _)

theorem frees_execHeartbeatLapse (dt n : Nat) (s : State) : ∃ u, execHeartbeatLapse dt n s = .next u ∧ freedTo (s.advance dt).held u.held :=
  ⟨_, rfl, by simp⟩

end Sys2Proof.Machine
end

