-- ==== Sys2Proof/Laws/HeldTrust.lean ====
section
/-! SUPPORT. What Plibex, Badger and the verdict unit keep. -/

set_option linter.unusedSimpArgs false

namespace Sys2Proof.Machine

/-! ### Plibex -/

@[simp] theorem held_modMac (s : State) (m : Nat) (f : Mac → Mac) : (State.modMac s m f).held = s.held := by
  simp [State.modMac]

@[simp] theorem held_sfDrop (s : State) (d : Datagram) (f : Nat) : (State.sfDrop s d f).held = s.held := by
  simp [State.sfDrop]

@[simp] theorem held_metered (s : State) (d : Datagram) (f : Nat) (k : Nat) (o : Option Meter) : (s.metered d f k o).1.held = s.held := by
  cases o with
  | some m => exact held_mk ..
  | none => exact (held_sfDrop ..).trans (held_mk ..)

@[simp] theorem held_meterFrame (s : State) (d : Datagram) (f : Nat) (k : Nat) : (s.meterFrame d f k).1.held = s.held :=
  held_metered ..

@[simp] theorem held_police (s : State) (d : Datagram) : (s.police d).1.held = s.held := by
  rw [State.police]
  cases s.filterOf d with
  | none => rfl
  | some f =>
    rw [fst_ite, held_ite, fst_ite, held_ite]
    exact ite_eq_of _ (held_sfDrop ..) (ite_eq_of _ (held_meterFrame ..) rfl)

@[simp] theorem held_rejectRx (s : State) (i : Nat) (code : Nat) (seq : Nat) : (State.rejectRx s i code seq).held = s.held := by
  simp [State.rejectRx]

@[simp] theorem held_acceptRx (s : State) (i : Nat) (b : Bytes) (t : Nat) : (State.acceptRx s i b t).held = s.held := by
  simp [State.acceptRx]

@[simp] theorem held_plibexIn (s : State) (d : Datagram) (t : Nat) : (State.plibexIn s d t).held = s.held := by
  unfold State.plibexIn; (try dsimp only); repeat' split
  all_goals first
  | (simp ; done)
  | (simp [held_foldl]; done)
  | (refine (held_foldl _ ?_ _ _).trans ?_
     · (intro q x; (try dsimp only); (repeat' split) <;> simp [held_foldl])
     · simp [held_foldl])

@[simp] theorem held_macIn (s : State) (d : Datagram) : (State.macIn s d).1.held = s.held := by
  unfold State.macIn; (repeat' split) <;> simp

@[simp] theorem held_plibexRx (s : State) (d : Datagram) (ago : Nat) : (State.plibexRx s d ago).held = s.held := by
  simp [State.plibexRx]

theorem held_execPlibexRx (dt : Nat) (d : Datagram) (ago : Nat) (s : State) : ∃ u, execPlibexRx dt d ago s = .next u ∧ u.held = (s.advance dt).held :=
  ⟨_, rfl, by simp⟩

theorem held_execRxWatchdogExpiry (dt i : Nat) (s : State) : ∃ u, execRxWatchdogExpiry dt i s = .next u ∧ u.held = (s.advance dt).held :=
  ⟨_, rfl, by simp⟩

@[simp] theorem held_txLate (s : State) (i : Nat) (typ : Nat) (lateUs : Nat) : (State.txLate s i typ lateUs).held = s.held := by
  simp [State.txLate]

@[simp] theorem held_periodic (s : State) (i : Nat) : (State.periodic s i).held = s.held := by
  unfold State.periodic; (try dsimp only); repeat' split
  all_goals first
  | (simp ; done)
  | (simp [held_foldl]; done)
  | (refine (held_foldl _ ?_ _ _).trans ?_
     · (intro q x; (try dsimp only); (repeat' split) <;> simp [held_foldl])
     · simp [held_foldl])

@[simp] theorem held_leftAfter (s old : State) (i typ due : Nat) : (State.leftAfter s old i typ due).held = s.held := by
  unfold State.leftAfter; (try dsimp only); repeat' split
  all_goals first
  | (simp ; done)
  | (simp [held_foldl]; done)
  | (refine (held_foldl _ ?_ _ _).trans ?_
     · (intro q x; (try dsimp only); (repeat' split) <;> simp [held_foldl])
     · simp [held_foldl])

theorem held_execTxPeriod (dt i : Nat) (s : State) : ∃ u, execTxPeriod dt i s = .next u ∧ u.held = (s.advance dt).held := by
  refine ⟨_, rfl, ?_⟩; (repeat' split) <;> simp

theorem held_execFuncStateSend (dt i : Nat) (s : State) : ∃ u, execFuncStateSend dt i s = .next u ∧ u.held = (s.advance dt).held :=
  ⟨_, rfl, by simp⟩

theorem held_execSafeStateRepeat (dt i : Nat) (s : State) : ∃ u, execSafeStateRepeat dt i s = .next u ∧ u.held = (s.advance dt).held :=
  ⟨_, rfl, by simp⟩

theorem held_execLink (dt m : Nat) (up : Bool) (speed : Nat) (s : State) : ∃ u, execLink dt m up speed s = .next u ∧ u.held = (s.advance dt).held :=
  ⟨_, rfl, by simp⟩

theorem held_execPreempt (dt m status : Nat) (s : State) : ∃ u, execPreempt dt m status s = .next u ∧ u.held = (s.advance dt).held :=
  ⟨_, rfl, by simp⟩

/-! ### BadgerOps -/

@[simp] theorem held_modModel (s : State) (m : Nat) (f : ModelSlot → ModelSlot) : (State.modModel s m f).held = s.held := by
  simp [State.modModel]

@[simp] theorem held_modSource (s : State) (k : Nat) (f : Source → Source) : (State.modSource s k f).held = s.held := by
  simp [State.modSource]

@[simp] theorem held_modBdg (s : State) (f : Badger → Badger) : (State.modBdg s f).held = s.held := by
  simp [State.modBdg]

@[simp] theorem held_modTile (s : State) (t : Nat) (f : Tile → Tile) : (State.modTile s t f).held = s.held := by
  simp [State.modTile]

@[simp] theorem held_settleInput (s : State) (m : Nat) : (State.settleInput s m).held = s.held := by
  unfold State.settleInput; (try dsimp only); repeat' split
  all_goals first
  | (simp ; done)
  | (simp [held_foldl]; done)
  | (refine (held_foldl _ ?_ _ _).trans ?_
     · (intro q x; (try dsimp only); (repeat' split) <;> simp [held_foldl])
     · simp [held_foldl])

@[simp] theorem held_settleInputs (s : State) : (State.settleInputs s).held = s.held := by
  unfold State.settleInputs; (repeat' split) <;> simp [held_foldl]

@[simp] theorem held_noteOps (s : State) (t mac n : Nat) : (State.noteOps s t mac n).held = s.held := by
  simp [State.noteOps]

@[simp] theorem held_noteLayers (s : State) (m n : Nat) : (State.noteLayers s m n).held = s.held := by
  refine held_foldl _ (fun q k => ?_) _ _
  split
  · rfl
  · exact held_foldl _ (fun q l => held_foldl _ (fun q i => by simp) _ _) _ _

@[simp] theorem held_stopPass (s : State) (m : Nat) : (State.stopPass s m).1.held = s.held := by
  simp [State.stopPass]

@[simp] theorem held_abandonRole (s : State) (r : Nat) (noTile : Bool) : (State.abandonRole s r noTile).held = s.held := by
  unfold State.abandonRole; (repeat' split) <;> simp [held_foldl]

@[simp] theorem held_passStart (s : State) (m : Nat) : (State.passStart s m).held = s.held := by
  simp [State.passStart]

@[simp] theorem held_passDone (s : State) (m : Nat) : (State.passDone s m).held = s.held := by
  simp [State.passDone]

@[simp] theorem held_slotShdEnd (s : State) (m : Nat) : (State.slotShdEnd s m).held = s.held := by
  unfold State.slotShdEnd; (try dsimp only); repeat' split
  all_goals first
  | (simp ; done)
  | (simp [held_foldl]; done)
  | (refine (held_foldl _ ?_ _ _).trans ?_
     · (intro q x; (try dsimp only); (repeat' split) <;> simp [held_foldl])
     · simp [held_foldl])

@[simp] theorem held_shdEnd (s : State) : (State.shdEnd s).held = s.held := by
  unfold State.shdEnd; (repeat' split) <;> simp [held_foldl]

@[simp] theorem held_raiseThresholds (s : State) (m : Nat) (b : Bytes) : (State.raiseThresholds s m b).held = s.held := by
  unfold State.raiseThresholds; (repeat' split) <;> simp [held_foldl]

@[simp] theorem held_activateModel (s : State) (m : Nat) : (State.activateModel s m).held = s.held := by
  unfold State.activateModel; (try dsimp only); repeat' split
  all_goals first
  | (simp ; done)
  | (simp [held_foldl]; done)
  | (refine (held_foldl _ ?_ _ _).trans ?_
     · (intro q x; (try dsimp only); (repeat' split) <;> simp [held_foldl])
     · simp [held_foldl])

@[simp] theorem held_modelSwitches (s : State) : (State.modelSwitches s).held = s.held := by
  unfold State.modelSwitches
  refine (held_foldl _ ?_ _ _).trans ?_
  · (intro q x; (try dsimp only); (repeat' split) <;> simp [held_foldl])
  · simp [held_foldl]

@[simp] theorem held_modelTick (s : State) (last : Nat) (m : Nat) : (State.modelTick s last m).held = s.held := by
  simp [State.modelTick]

@[simp] theorem held_modCsi (s : State) (r : Nat) (f : CsiRx → CsiRx) : (State.modCsi s r f).held = s.held := by
  simp [State.modCsi]

@[simp] theorem held_csiEcc2 (s : State) (r : Nat) (vc : Nat) : (State.csiEcc2 s r vc).held = s.held := by
  unfold State.csiEcc2; (repeat' split) <;> simp

@[simp] theorem held_ingEnd (s : State) : (State.ingEnd s).held = s.held := by
  unfold State.ingEnd; (repeat' split) <;> simp [held_foldl]

@[simp] theorem held_tileRecord (s : State) (t : Nat) (macro_ : Nat) (kind : Nat) (resid : Nat) : (State.tileRecord s t macro_ kind resid).held = s.held := by
  simp [State.tileRecord]

@[simp] theorem held_tileFailed (s : State) (t : Nat) : (State.tileFailed s t).held = s.held := by
  simp [State.tileFailed]

@[simp] theorem held_endSwap (s : State) (t : Nat) : (State.endSwap s t).held = s.held := by
  simp [State.endSwap]

@[simp] theorem held_calFail (s : State) (t : Nat) (macro_ : Nat) (kind : Nat) (resid : Nat) : (State.calFail s t macro_ kind resid).held = s.held := by
  unfold State.calFail; (try dsimp only); repeat' split
  all_goals first
  | (simp ; done)
  | (simp [held_foldl]; done)
  | (refine (held_foldl _ ?_ _ _).trans ?_
     · (intro q x; (try dsimp only); (repeat' split) <;> simp [held_foldl])
     · simp [held_foldl])

@[simp] theorem held_tileReadyAs (s : State) (t : Nat) (role : Option Nat) : (State.tileReadyAs s t role).held = s.held := by
  unfold State.tileReadyAs; (repeat' split) <;> simp

@[simp] theorem held_calPass (s : State) (t : Nat) : (State.calPass s t).held = s.held := by
  unfold State.calPass; (try dsimp only); repeat' split
  all_goals first
  | (simp ; done)
  | (simp [held_foldl]; done)
  | (refine (held_foldl _ ?_ _ _).trans ?_
     · (intro q x; (try dsimp only); (repeat' split) <;> simp [held_foldl])
     · simp [held_foldl])

@[simp] theorem held_tileSlice (s : State) (t : Nat) (pass : Bool) : (State.tileSlice s t pass).held = s.held := by
  simp [State.tileSlice]

@[simp] theorem held_driftActive (s : State) (t : Nat) : (State.driftActive s t).held = s.held := by
  unfold State.driftActive; (repeat' split) <;> simp

@[simp] theorem held_driftFailure (s : State) (t : Nat) (macro_ : Nat) (kind : Nat) (resid : Nat) : (State.driftFailure s t macro_ kind resid).held = s.held := by
  unfold State.driftFailure; (try dsimp only); repeat' split
  all_goals first
  | (simp ; done)
  | (simp [held_foldl]; done)
  | (refine (held_foldl _ ?_ _ _).trans ?_
     · (intro q x; (try dsimp only); (repeat' split) <;> simp [held_foldl])
     · simp [held_foldl])

@[simp] theorem held_blockMean (s : State) (t : Nat) (mean : Nat) : (State.blockMean s t mean).held = s.held := by
  simp [State.blockMean]

@[simp] theorem held_refBlock (s : State) (t mac : Nat) (ops : List RefOp) : (State.refBlock s t mac ops).held = s.held := by
  unfold State.refBlock; (try dsimp only); repeat' split
  all_goals first
  | (simp ; done)
  | (simp [held_foldl]; done)
  | (refine (held_foldl _ ?_ _ _).trans ?_
     · (intro q x; (try dsimp only); (repeat' split) <;> simp [held_foldl])
     · simp [held_foldl])

@[simp] theorem held_rotate (s : State) : (State.rotate s).held = s.held := by
  unfold State.rotate; (repeat' split) <;> simp

@[simp] theorem held_startupTile (s : State) (t resid : Nat) (coefs : List Nat) (pass : Bool) : (State.startupTile s t resid coefs pass).held = s.held := by
  unfold State.startupTile; (try dsimp only); repeat' split
  all_goals first
  | (simp ; done)
  | (simp [held_foldl]; done)
  | (refine (held_foldl _ ?_ _ _).trans ?_
     · (intro q x; (try dsimp only); (repeat' split) <;> simp [held_foldl])
     · simp [held_foldl])

@[simp] theorem held_startupCal (s : State) (mask : Nat) (resids : List Nat) (coefs : List Coefs) : (State.startupCal s mask resids coefs).held = s.held := by
  unfold State.startupCal; (try dsimp only); repeat' split
  all_goals first
  | (simp ; done)
  | (simp [held_foldl]; done)
  | (refine (held_foldl _ ?_ _ _).trans ?_
     · (intro q x; (try dsimp only); (repeat' split) <;> simp [held_foldl])
     · simp [held_foldl])

/-! ### Badger -/

theorem held_execCsiFrameStart (dt r vc ecc : Nat) (line : Bool) (lk : CsiLink) (s : State) : ∃ u, execCsiFrameStart dt r vc ecc line lk s = .next u ∧ u.held = (s.advance dt).held := by
  refine ⟨_, rfl, ?_⟩; (try dsimp only); repeat' split
  all_goals first
  | (simp ; done)
  | (simp [held_foldl]; done)
  | (refine (held_foldl _ ?_ _ _).trans ?_
     · (intro q x; (try dsimp only); (repeat' split) <;> simp [held_foldl])
     · simp [held_foldl])

theorem held_execCsiLongPacket (dt r vc ecc ty : Nat) (payload : Bytes) (crc : Nat) (lk : CsiLink) (s : State) : ∃ u, execCsiLongPacket dt r vc ecc ty payload crc lk s = .next u ∧ u.held = (s.advance dt).held := by
  refine ⟨_, rfl, ?_⟩; (try dsimp only); repeat' split
  all_goals first
  | (simp ; done)
  | (simp [held_foldl]; done)
  | (refine (held_foldl _ ?_ _ _).trans ?_
     · (intro q x; (try dsimp only); (repeat' split) <;> simp [held_foldl])
     · simp [held_foldl])

theorem held_execCsiFrameEnd (dt r vc ecc : Nat) (line : Bool) (lk : CsiLink) (s : State) : ∃ u, execCsiFrameEnd dt r vc ecc line lk s = .next u ∧ u.held = (s.advance dt).held := by
  refine ⟨_, rfl, ?_⟩; (try dsimp only); repeat' split
  all_goals first
  | (simp ; done)
  | (simp [held_foldl]; done)
  | (refine (held_foldl _ ?_ _ _).trans ?_
     · (intro q x; (try dsimp only); (repeat' split) <;> simp [held_foldl])
     · simp [held_foldl])

theorem held_execLidarDatagram (dt : Nat) (d : Datagram) (ago : Nat) (s : State) : ∃ u, execLidarDatagram dt d ago s = .next u ∧ u.held = (s.advance dt).held := by
  refine ⟨_, rfl, ?_⟩; (try dsimp only); repeat' split
  all_goals first
  | (simp ; done)
  | (simp [held_foldl]; done)
  | (refine (held_foldl _ ?_ _ _).trans ?_
     · (intro q x; (try dsimp only); (repeat' split) <;> simp [held_foldl])
     · simp [held_foldl])

theorem held_execShadowPassStart (dt m : Nat) (s : State) : ∃ u, execShadowPassStart dt m s = .next u ∧ u.held = (s.advance dt).held :=
  ⟨_, rfl, by simp⟩

theorem held_execShadowPassDone (dt m : Nat) (s : State) : ∃ u, execShadowPassDone dt m s = .next u ∧ u.held = (s.advance dt).held :=
  ⟨_, rfl, by simp⟩

theorem held_execModelProgrammed (dt m : Nat) (s : State) : ∃ u, execModelProgrammed dt m s = .next u ∧ u.held = (s.advance dt).held :=
  ⟨_, rfl, by simp⟩

theorem held_execDriftFailure (dt t mac : Nat) (ops : List RefOp) (s : State) : ∃ u, execDriftFailure dt t mac ops s = .next u ∧ u.held = (s.advance dt).held :=
  ⟨_, rfl, by simp⟩

theorem held_execReferenceOperations (dt t mac : Nat) (ops : List RefOp) (s : State) : ∃ u, execReferenceOperations dt t mac ops s = .next u ∧ u.held = (s.advance dt).held :=
  ⟨_, rfl, by simp⟩

theorem held_execCalibrationMeasured (dt t mac resid gain off : Nat) (coefs : Coefs) (s : State) : ∃ u, execCalibrationMeasured dt t mac resid gain off coefs s = .next u ∧ u.held = (s.advance dt).held :=
  ⟨_, rfl, by simp⟩

theorem held_execTileReady (dt t : Nat) (ok : Bool) (mac : Nat) (s : State) : ∃ u, execTileReady dt t ok mac s = .next u ∧ u.held = (s.advance dt).held :=
  ⟨_, rfl, by simp⟩

theorem held_execStartupCalibrationDone (dt mask : Nat) (resids : List Nat) (coefs : List Coefs) (s : State) : ∃ u, execStartupCalibrationDone dt mask resids coefs s = .next u ∧ u.held = (s.advance dt).held :=
  ⟨_, rfl, by simp⟩

theorem held_execDieLinkNeedsRetraining (dt : Nat) (s : State) : ∃ u, execDieLinkNeedsRetraining dt s = .next u ∧ u.held = (s.advance dt).held :=
  ⟨_, rfl, by simp⟩

theorem held_execDieLinkRetrain (dt : Nat) (s : State) : ∃ u, execDieLinkRetrain dt s = .next u ∧ u.held = (s.advance dt).held := by
  refine ⟨_, rfl, ?_⟩; (repeat' split) <;> simp

theorem held_execDieLinkRetrainTimeout (dt : Nat) (s : State) : ∃ u, execDieLinkRetrainTimeout dt s = .next u ∧ u.held = (s.advance dt).held := by
  refine ⟨_, rfl, ?_⟩; (repeat' split) <;> simp

/-! ### Comparator -/

@[simp] theorem held_noCorridor (s : State) (c : Nat) : (State.noCorridor s c).held = s.held := by
  simp [State.noCorridor]

@[simp] theorem held_settleCorridor (s : State) (c : Nat) : (State.settleCorridor s c).held = s.held := by
  simp [State.settleCorridor]

@[simp] theorem held_cmpStart (s : State) (c : Nat) : (State.cmpStart s c).held = s.held := by
  simp [State.cmpStart]

@[simp] theorem held_cmpFinish (s : State) (c : Nat) : (State.cmpFinish s c).held = s.held := by
  unfold State.cmpFinish; (try dsimp only); repeat' split
  all_goals first
  | (simp ; done)
  | (simp [held_foldl]; done)
  | (refine (held_foldl _ ?_ _ _).trans ?_
     · (intro q x; (try dsimp only); (repeat' split) <;> simp [held_foldl])
     · simp [held_foldl])

@[simp] theorem held_cmpEnd (s : State) (c : Nat) : (State.cmpEnd s c).held = s.held := by
  simp [State.cmpEnd]

@[simp] theorem held_cmpTick (s : State) (c : Nat) : (State.cmpTick s c).held = s.held := by
  simp [State.cmpTick]

/-! ### VerdictUnit -/

@[simp] theorem held_escalate (s : State) (c : Nat) (under : Nat) : (State.escalate s c under).held = s.held := by
  simp [State.escalate]

@[simp] theorem held_setLane (s : State) (l : Nat) (x : LaneState) : (State.setLane s l x).held = s.held := by
  simp [State.setLane]

@[simp] theorem held_laneRecord (s : State) (l : Nat) (event : Nat) : (State.laneRecord s l event).held = s.held := by
  simp [State.laneRecord]

@[simp] theorem held_retestFirst (s : State) (k : Nat) : (State.retestFirst s k).held = s.held := by
  simp [State.retestFirst]

@[simp] theorem held_outvote (s : State) (l : Nat) : (State.outvote s l).held = s.held := by
  unfold State.outvote; (try dsimp only); repeat' split
  all_goals first
  | (simp ; done)
  | (simp [held_foldl]; done)
  | (refine (held_foldl _ ?_ _ _).trans ?_
     · (intro q x; (try dsimp only); (repeat' split) <;> simp [held_foldl])
     · simp [held_foldl])

@[simp] theorem held_laneSplit (s : State) : (State.laneSplit s).held = s.held := by
  simp [State.laneSplit]

@[simp] theorem held_laneReinit (s : State) : (State.laneReinit s).held = s.held := by
  simp [State.laneReinit]

@[simp] theorem held_laneEvent (s : State) (ev : Nat) : (State.laneEvent s ev).held = s.held := by
  unfold State.laneEvent; (try dsimp only); repeat' split
  all_goals first
  | (simp ; done)
  | (simp [held_foldl]; done)
  | (refine (held_foldl _ ?_ _ _).trans ?_
     · (intro q x; (try dsimp only); (repeat' split) <;> simp [held_foldl])
     · simp [held_foldl])

@[simp] theorem held_laneSlice (s : State) (l : Nat) (pass : Bool) : (State.laneSlice s l pass).held = s.held := by
  unfold State.laneSlice; (repeat' split) <;> simp

@[simp] theorem held_verdictOf (s : State) (x : Nat × Nat) : (State.verdictOf s x).held = s.held := by
  unfold State.verdictOf; (try dsimp only); repeat' split
  all_goals first
  | (simp ; done)
  | (simp [held_foldl]; done)
  | (refine (held_foldl _ ?_ _ _).trans ?_
     · (intro q x; (try dsimp only); (repeat' split) <;> simp [held_foldl])
     · simp [held_foldl])

@[simp] theorem held_issueAll (s : State) (lanes : Nat) : (State.issueAll s lanes).held = s.held := by
  unfold State.issueAll; (repeat' split) <;> simp [held_foldl]

@[simp] theorem held_goldActivate (s : State) (p : Nat) : (State.goldActivate s p).held = s.held := by
  unfold State.goldActivate; (try dsimp only); repeat' split
  all_goals first
  | (simp ; done)
  | (simp [held_foldl]; done)
  | (refine (held_foldl _ ?_ _ _).trans ?_
     · (intro q x; (try dsimp only); (repeat' split) <;> simp [held_foldl])
     · simp [held_foldl])

@[simp] theorem held_goldTick (s : State) : (State.goldTick s).held = s.held := by
  unfold State.goldTick; (try dsimp only); repeat' split
  all_goals first
  | (simp ; done)
  | (simp [held_foldl]; done)
  | (refine (held_foldl _ ?_ _ _).trans ?_
     · (intro q x; (try dsimp only); (repeat' split) <;> simp [held_foldl])
     · simp [held_foldl])

@[simp] theorem held_ageCheck (s : State) (c : Nat) : (State.ageCheck s c).held = s.held := by
  unfold State.ageCheck; (repeat' split) <;> simp [held_foldl]

@[simp] theorem held_heartbeat (s : State) (c : Nat) : (State.heartbeat s c).held = s.held := by
  simp [State.heartbeat]

theorem held_execComparisonStart (dt c : Nat) (s : State) : ∃ u, execComparisonStart dt c s = .next u ∧ u.held = (s.advance dt).held :=
  ⟨_, rfl, by simp⟩

theorem held_execComparisonDone (dt : Nat) (s : State) : ∃ u, execComparisonDone dt s = .next u ∧ u.held = (s.advance dt).held := by
  refine ⟨_, rfl, ?_⟩; (repeat' split) <;> simp

theorem held_execAgeMonitor (dt : Nat) (s : State) : ∃ u, execAgeMonitor dt s = .next u ∧ u.held = (s.advance dt).held := by
  refine ⟨_, rfl, ?_⟩; (repeat' split) <;> simp [held_foldl]

theorem held_execTrustHeartbeat (dt : Nat) (s : State) : ∃ u, execTrustHeartbeat dt s = .next u ∧ u.held = (s.advance dt).held := by
  refine ⟨_, rfl, ?_⟩; (repeat' split) <;> simp [held_foldl]

end Sys2Proof.Machine
end

