-- ==== Sys2Proof/Laws/HeldCores.lean ====
section
/-! SUPPORT. What the cores, self-tests and error reactions keep. -/

set_option linter.unusedSimpArgs false

namespace Sys2Proof.Machine

/-! ### Cores -/

@[simp] theorem held_modCor (s : State) (f : Cores → Cores) : (State.modCor s f).held = s.held := by
  simp [State.modCor]

@[simp] theorem held_modCore (s : State) (c : Nat) (f : Core → Core) : (State.modCore s c f).held = s.held := by
  simp [State.modCore]

@[simp] theorem held_coreRecord (s : State) (c : Nat) : (State.coreRecord s c).held = s.held := by
  simp [State.coreRecord]

@[simp] theorem held_pruneLedger (s : State) : (State.pruneLedger s).held = s.held := by
  simp [State.pruneLedger]

@[simp] theorem held_consume (s : State) (c : Nat) (value : Bytes) : (State.consume s c value).held = s.held := by
  simp [State.consume]

@[simp] theorem held_sample (s : State) (c : Nat) (kind : Nat) (len : Nat) (source : Nat) (addr : Nat) (value : Bytes) : (State.sample s c kind len source addr value).held = s.held := by
  simp [State.sample]

@[simp] theorem held_retire (s : State) (counts : List Nat) : (State.retire s counts).held = s.held := by
  unfold State.retire; (try dsimp only); repeat' split
  all_goals first
  | (simp ; done)
  | (simp [held_foldl]; done)
  | (refine (held_foldl _ ?_ _ _).trans ?_
     · (intro q x; (try dsimp only); (repeat' split) <;> simp [held_foldl])
     · simp [held_foldl])

@[simp] theorem held_ledgerRequest (s : State) (c : Nat) (counts : List Nat) (kind len source addr : Nat) (value : Bytes) (bad : Bool) : (State.ledgerRequest s c counts kind len source addr value bad).held = s.held := by
  unfold State.ledgerRequest; (try dsimp only); repeat' split
  all_goals first
  | (simp ; done)
  | (simp [held_foldl]; done)
  | (refine (held_foldl _ ?_ _ _).trans ?_
     · (intro q x; (try dsimp only); (repeat' split) <;> simp [held_foldl])
     · simp [held_foldl])

@[simp] theorem held_startCores (s : State) : (State.startCores s).held = s.held := by
  simp [State.startCores]

@[simp] theorem held_holdAll (s : State) : (State.holdAll s).held = s.held := by
  simp [State.holdAll]

@[simp] theorem held_dropPosition (s : State) (c : Nat) : (State.dropPosition s c).held = s.held := by
  unfold State.dropPosition; (repeat' split) <;> simp [held_foldl]

@[simp] theorem held_holdCore (s : State) (c : Nat) (st : CoreState) : (State.holdCore s c st).held = s.held := by
  simp [State.holdCore]

@[simp] theorem held_dissent (s : State) (c : Nat) (kind : Nat) (ckpt : Nat) (fields : Nat) (pc : Nat) : (State.dissent s c kind ckpt fields pc).held = s.held := by
  unfold State.dissent; (try dsimp only); repeat' split
  all_goals first
  | (simp ; done)
  | (simp [held_foldl]; done)
  | (refine (held_foldl _ ?_ _ _).trans ?_
     · (intro q x; (try dsimp only); (repeat' split) <;> simp [held_foldl])
     · simp [held_foldl])

@[simp] theorem held_oddOut (s : State) (n : Nat) (d : Decision) : (State.oddOut s n d).held = s.held := by
  unfold State.oddOut; (repeat' split) <;> simp

@[simp] theorem held_ledgerRecord (s : State) (sev : Nat) (maj : List Nat) (n : Nat) (flag : Nat) : (State.ledgerRecord s sev maj n flag).held = s.held := by
  simp [State.ledgerRecord]

@[simp] theorem held_discardFrom (s : State) (maj : List Nat) (n : Nat) : (State.discardFrom s maj n).held = s.held := by
  unfold State.discardFrom; (repeat' split) <;> simp [held_foldl]

@[simp] theorem held_releaseBank (s : State) (n c : Nat) : (State.releaseBank s n c).held = s.held := by
  unfold State.releaseBank; (try dsimp only); repeat' split
  all_goals first
  | (simp ; done)
  | (simp [held_foldl]; done)
  | (refine (held_foldl _ ?_ _ _).trans ?_
     · (intro q x; (try dsimp only); (repeat' split) <;> simp [held_foldl])
     · simp [held_foldl])

@[simp] theorem held_freeBanks (s : State) (n : Nat) : (State.freeBanks s n).held = s.held := by
  unfold State.freeBanks; (try dsimp only); repeat' split
  all_goals first
  | (simp ; done)
  | (simp [held_foldl]; done)
  | (refine (held_foldl _ ?_ _ _).trans ?_
     · (intro q x; (try dsimp only); (repeat' split) <;> simp [held_foldl])
     · simp [held_foldl])

@[simp] theorem held_accepted (s : State) (n : Nat) (d : Decision) : (State.accepted s n d).held = s.held := by
  have h0 : (d.majority.head?.elim s fun c => s.releaseBank n c).held = s.held := by cases d.majority.head? <;> simp
  unfold State.accepted; dsimp only; split
  · refine (held_foldl _ (fun q x => by simp) _ _).trans ?_
    simp [h0]
  · simp [h0]

@[simp] theorem held_startCopy (s : State) : (State.startCopy s).held = s.held := by
  unfold State.startCopy; (repeat' split) <;> simp

@[simp] theorem held_react (s : State) (n : Nat) (d : Decision) : (State.react s n d).held = s.held := by
  unfold State.react; (repeat' split) <;> simp

@[simp] theorem held_vote (s : State) (n : Nat) (a : Option Nat) (b : Option Nat) (banks : Bool) : (State.vote s n a b banks).held = s.held := by
  simp [State.vote]

@[simp] theorem held_closeBank (s : State) (c : Nat) (actions : List Action) : (State.closeBank s c actions).held = s.held := by
  simp [State.closeBank]

@[simp] theorem held_recordIn (s : State) (c : Nat) (r : Bytes) (a b : Option Nat) (banks : Bool) : (State.recordIn s c r a b banks).held = s.held := by
  unfold State.recordIn; (try dsimp only); repeat' split
  all_goals first
  | (simp ; done)
  | (simp [held_foldl]; done)
  | (refine (held_foldl _ ?_ _ _).trans ?_
     · (intro q x; (try dsimp only); (repeat' split) <;> simp [held_foldl])
     · simp [held_foldl])

@[simp] theorem held_checkpoint (s : State) (c : Nat) (counts : List Nat) (actions : List Action) (barrier : Bool) (given : Bytes) (a b : Option Nat) (banks : Bool) : (State.checkpoint s c counts actions barrier given a b banks).held = s.held := by
  unfold State.checkpoint; (try dsimp only); repeat' split
  all_goals first
  | (simp ; done)
  | (simp [held_foldl]; done)
  | (refine (held_foldl _ ?_ _ _).trans ?_
     · (intro q x; (try dsimp only); (repeat' split) <;> simp [held_foldl])
     · simp [held_foldl])

@[simp] theorem held_voteTimeout (s : State) (a : Option Nat) (b : Option Nat) (banks : Bool) : (State.voteTimeout s a b banks).held = s.held := by
  unfold State.voteTimeout; (repeat' split) <;> simp

@[simp] theorem held_copyDone (s : State) : (State.copyDone s).held = s.held := by
  unfold State.copyDone; (repeat' split) <;> simp

@[simp] theorem held_coreTest (s : State) (c : Nat) : (State.coreTest s c).held = s.held := by
  unfold State.coreTest; (try dsimp only); repeat' split
  all_goals first
  | (simp ; done)
  | (simp [held_foldl]; done)
  | (refine (held_foldl _ ?_ _ _).trans ?_
     · (intro q x; (try dsimp only); (repeat' split) <;> simp [held_foldl])
     · simp [held_foldl])

@[simp] theorem held_coreSlice (s : State) (c : Nat) (pass : Bool) : (State.coreSlice s c pass).held = s.held := by
  simp [State.coreSlice]

theorem held_execLedgerRequest (dt c : Nat) (counts : List Nat) (kind len source addr : Nat) (value : Bytes) (bad : Bool) (s : State) : ∃ u, execLedgerRequest dt c counts kind len source addr value bad s = .next u ∧ u.held = (s.advance dt).held :=
  ⟨_, rfl, by simp⟩

theorem held_execCheckpoint (dt c : Nat) (counts : List Nat) (actions : List Action) (barrier : Bool) (given : Bytes) (a b : Option Nat) (banks : Bool) (s : State) : ∃ u, execCheckpoint dt c counts actions barrier given a b banks s = .next u ∧ u.held = (s.advance dt).held :=
  ⟨_, rfl, by simp⟩

theorem held_execVoteTimeout (dt : Nat) (a b : Option Nat) (banks : Bool) (s : State) : ∃ u, execVoteTimeout dt a b banks s = .next u ∧ u.held = (s.advance dt).held :=
  ⟨_, rfl, by simp⟩

theorem held_execResyncCopyDone (dt : Nat) (s : State) : ∃ u, execResyncCopyDone dt s = .next u ∧ u.held = (s.advance dt).held :=
  ⟨_, rfl, by simp⟩

theorem held_execTdegExpiry (dt : Nat) (s : State) : ∃ u, execTdegExpiry dt s = .next u ∧ u.held = (s.advance dt).held :=
  ⟨_, rfl, by simp⟩

theorem keeps_execInjectionTest (dt passed first us : Nat) (s : State) : ∃ u, execInjectionTest dt passed first us s = .next u ∧ heldTo (s.advance dt).held u.held := by
  refine ⟨_, rfl, ?_⟩; (repeat' split) <;> simp [held_foldl, keeps_ite]

/-! ### SelfTest -/

@[simp] theorem modMem_eq (s : State) (f : Memory → Memory) : s.modMem f = { s with mem := f s.mem } := rfl

@[simp] theorem modBank_eq (s : State) (b : Nat) (f : Bank → Bank) :
    s.modBank b f = { s with mem := { s.mem with banks := tmod s.mem.banks b f } } := rfl

@[simp] theorem held_modSlf (s : State) (f : SelfTest → SelfTest) : (State.modSlf s f).held = s.held := by
  simp [State.modSlf]

@[simp] theorem held_isolateCvu (s : State) (u : Nat) : (State.isolateCvu s u).held = s.held := by
  simp [State.isolateCvu]

@[simp] theorem held_returnCvu (s : State) (u : Nat) : (State.returnCvu s u).held = s.held := by
  simp [State.returnCvu]

@[simp] theorem held_sliceBegins (s : State) (e : Nat) : (State.sliceBegins s e).held = s.held := by
  unfold State.sliceBegins; (repeat' split) <;> simp

@[simp] theorem held_startL (s : State) (e : Nat) : (State.startL s e).held = s.held := by
  simp [State.startL]

@[simp] theorem held_advancePointer (s : State) : (State.advancePointer s).held = s.held := by
  simp [State.advancePointer]

@[simp] theorem held_roundNext (l : List Nat) (s : State) : (s.roundNext l).held = s.held := by
  induction l generalizing s with
  | nil => unfold State.roundNext; simp
  | cons e l ih => unfold State.roundNext; (repeat' split) <;> simp [ih]

@[simp] theorem held_postpone (s : State) (reason : Nat) : (State.postpone s reason).held = s.held := by
  simp [State.postpone]

@[simp] theorem held_startRound (s : State) : (State.startRound s).held = s.held := by
  simp [State.startRound]

@[simp] theorem held_nextL (l : List Nat) (s : State) : (State.nextL l s).held = s.held := by
  induction l generalizing s with
  | nil => unfold State.nextL; split <;> simp
  | cons k l ih => unfold State.nextL; (repeat' split) <;> simp [ih]

@[simp] theorem held_nextA (s : State) : (State.nextA s).held = s.held := by
  unfold State.nextA; (repeat' split) <;> simp

@[simp] theorem held_nextC (s : State) : (State.nextC s).held = s.held := by
  unfold State.nextC; (repeat' split) <;> simp

@[simp] theorem held_slfStart (s : State) : (State.slfStart s).held = s.held := by
  simp [State.slfStart]

@[simp] theorem held_slfEnd (s : State) : (State.slfEnd s).held = s.held := by
  simp [State.slfEnd]

@[simp] theorem held_sliceFail (s : State) (e : Nat) (sig : Nat) : (State.sliceFail s e sig).held = s.held := by
  simp [State.sliceFail]

@[simp] theorem held_bankSlice (s : State) (b : Nat) (pass : Bool) (rows : Nat) : (State.bankSlice s b pass rows).held = s.held := by
  simp [State.bankSlice]

@[simp] theorem held_cvuSlice (s : State) (u : Nat) (pass : Bool) : (State.cvuSlice s u pass).held = s.held := by
  simp [State.cvuSlice]

@[simp] theorem held_sliceOutcome (s : State) (e : Nat) (pass : Bool) (rows : Nat) : (State.sliceOutcome s e pass rows).held = s.held := by
  unfold State.sliceOutcome; (repeat' split) <;> simp

@[simp] theorem held_sliceNext (s : State) (q : Nat) : (State.sliceNext s q).held = s.held := by
  simp [State.sliceNext]

@[simp] theorem held_sliceEnds (s : State) (q : Nat) (sig : Nat) (pass : Bool) (rows : Nat) : (State.sliceEnds s q sig pass rows).held = s.held := by
  unfold State.sliceEnds; (repeat' split) <;> simp

theorem held_execSliceDone (dt q sig rows : Nat) (s : State) : ∃ u, execSliceDone dt q sig rows s = .next u ∧ u.held = (s.advance dt).held := by
  refine ⟨_, rfl, ?_⟩; split <;> simp

theorem held_execSliceTimeout (dt q : Nat) (s : State) : ∃ u, execSliceTimeout dt q s = .next u ∧ u.held = (s.advance dt).held := by
  refine ⟨_, rfl, ?_⟩; (try dsimp only); repeat' split
  all_goals first
  | (simp ; done)
  | (simp [held_foldl]; done)
  | (refine (held_foldl _ ?_ _ _).trans ?_
     · (intro q x; (try dsimp only); (repeat' split) <;> simp [held_foldl])
     · simp [held_foldl])

@[simp] theorem held_rotationRecord (s : State) (frames : Nat) (mcs : Nat) (late : Bool) : (State.rotationRecord s frames mcs late).held = s.held := by
  simp [State.rotationRecord]

theorem held_execRotation (dt : Nat) (s : State) : ∃ u, execRotation dt s = .next u ∧ u.held = (s.advance dt).held := by
  refine ⟨_, rfl, ?_⟩; (repeat' split) <;> simp

/-! ### Protect -/

@[simp] theorem countCe_cells (m : Memory) (array : Nat) : (m.countCe array).cells = m.cells := by
  unfold Memory.countCe; (repeat' split) <;> rfl

@[simp] theorem countUe_cells (m : Memory) (array : Nat) : (m.countUe array).cells = m.cells := by
  unfold Memory.countUe; split <;> rfl

@[simp] theorem held_exhausted (s : State) (array : Nat) (bank : Nat) (line : Nat) : (State.exhausted s array bank line).held = s.held := by
  simp [State.exhausted]

theorem cellsWf_copyLines (array row : Nat) (l : List Nat) (m : Memory) (h : cellsWf m.cells = true) :
    cellsWf (l.foldl (fun q i => q.copyLine array (row + i)) m).cells = true := by
  induction l generalizing m with
  | nil => exact h
  | cons x l ih => exact ih _ (cellsWf_copyLine _ _ _ h)

theorem cellsWf_copyRow (m : Memory) (array line : Nat) (h : cellsWf m.cells = true) :
    cellsWf (m.copyRow array line).cells = true := cellsWf_copyLines _ _ _ _ h

@[simp] theorem keeps_repairRow (A : Kept) (s : State) (array : Nat) (line : Nat) (hA : heldTo A s.held) :
    heldTo A (State.repairRow s array line).held := by
  unfold State.repairRow; dsimp only
  split
  · simp [hA]
  · rw [held_evDev, modMem_eq, held_mk]
    exact keeps_mem hA _ (fun w => cellsWf_copyRow _ _ _ w)

@[simp] theorem held_keepRaw (s : State) (array unit line : Nat) (stored : Bytes) : (State.keepRaw s array unit line stored).held = s.held := by
  simp [State.keepRaw]

@[simp] theorem keeps_correct (A : Kept) (s : State) (array unit line channel symbols : Nat) (stored data : Bytes) (scrub : Bool) (hA : heldTo A s.held) :
    heldTo A (State.correct s array unit line channel symbols stored data scrub).held := by
  unfold State.correct; (try dsimp only); repeat' split
  all_goals first
  | (simp [hA]; done)
  | (refine keeps_foldl _ _ ?_ _ _ ?_
     · (intro q x hq; (try dsimp only); (repeat' split) <;> simp [hq])
     · simp [hA])

@[simp] theorem held_imageBad (s : State) (p : Nat) : (State.imageBad s p).held = s.held := by
  simp [State.imageBad]

@[simp] theorem held_invalidate (s : State) (q : Nat) (d : Detect) : (State.invalidate s q d).held = s.held := by
  unfold State.invalidate; (repeat' split) <;> simp [held_foldl]

@[simp] theorem held_imagesHit (s : State) (q : Nat) : (State.imagesHit s q).held = s.held := by
  unfold State.imagesHit; (try dsimp only); repeat' split
  all_goals first
  | (simp ; done)
  | (simp [held_foldl]; done)
  | (refine (held_foldl _ ?_ _ _).trans ?_
     · (intro q x; (try dsimp only); (repeat' split) <;> simp [held_foldl])
     · simp [held_foldl])

@[simp] theorem keeps_auxError (A : Kept) (s : State) (array unit line : Nat) (clean : Bool) (hA : heldTo A s.held) :
    heldTo A (State.auxError s array unit line clean).held := by
  unfold State.auxError; (try dsimp only); repeat' split
  all_goals first
  | (simp [hA]; done)
  | (refine keeps_foldl _ _ ?_ _ _ ?_
     · (intro q x hq; (try dsimp only); (repeat' split) <;> simp [hq])
     · simp [hA])

@[simp] theorem keeps_ueReact (A : Kept) (s : State) (array unit line q : Nat) (d : Detect) (clean : Bool) (hA : heldTo A s.held) :
    heldTo A (State.ueReact s array unit line q d clean).held := by
  unfold State.ueReact; (try dsimp only); repeat' split
  all_goals first
  | (simp [hA]; done)
  | (refine keeps_foldl _ _ ?_ _ _ ?_
     · (intro q x hq; (try dsimp only); (repeat' split) <;> simp [hq])
     · simp [hA])

@[simp] theorem keeps_uncorrectableNew (A : Kept) (s : State) (array unit line channel : Nat) (address : Bool) (d : Detect) (clean : Bool) (hA : heldTo A s.held) :
    heldTo A (State.uncorrectableNew s array unit line channel address d clean).held := by
  unfold State.uncorrectableNew; (try dsimp only); repeat' split
  all_goals first
  | (simp [hA]; done)
  | (refine keeps_foldl _ _ ?_ _ _ ?_
     · (intro q x hq; (try dsimp only); (repeat' split) <;> simp [hq])
     · simp [hA])

@[simp] theorem keeps_uncorrectable (A : Kept) (s : State) (array unit line channel : Nat) (address : Bool) (d : Detect) (clean : Bool) (hA : heldTo A s.held) :
    heldTo A (State.uncorrectable s array unit line channel address d clean).held := by
  unfold State.uncorrectable; (try dsimp only); repeat' split
  all_goals first
  | (simp [hA]; done)
  | (refine keeps_foldl _ _ ?_ _ _ ?_
     · (intro q x hq; (try dsimp only); (repeat' split) <;> simp [hq])
     · simp [hA])

@[simp] theorem keeps_lineRead (A : Kept) (s : State) (array unit line channel : Nat) (stored : Bytes) (d : Detect) (clean : Bool) (hA : heldTo A s.held) :
    heldTo A (State.lineRead s array unit line channel stored d clean).held := by
  unfold State.lineRead; (try dsimp only); repeat' split
  all_goals first
  | (simp [hA]; done)
  | (refine keeps_foldl _ _ ?_ _ _ ?_
     · (intro q x hq; (try dsimp only); (repeat' split) <;> simp [hq])
     · simp [hA])

theorem keeps_execCorrected (dt array unit line channel : Nat) (stored : Bytes) (scrub : Bool) (s : State) :
    ∃ u, execCorrected dt array unit line channel stored scrub s = .next u ∧ heldTo (s.advance dt).held u.held := by
  refine ⟨_, rfl, ?_⟩; (repeat' split) <;> simp

theorem keeps_execUncorrectable (dt array unit line channel : Nat) (stored : Bytes) (use a b : Nat) (clean : Bool) (s : State) :
    ∃ u, execUncorrectable dt array unit line channel stored use a b clean s = .next u ∧ heldTo (s.advance dt).held u.held := by
  refine ⟨_, rfl, ?_⟩; (repeat' split) <;> simp

theorem keeps_execEdc (dt ch line lines n : Nat) (write clean : Bool) (s : State) :
    ∃ u, execEdc dt ch line lines n write clean s = .next u ∧ heldTo (s.advance dt).held u.held := by
  refine ⟨_, rfl, ?_⟩; repeat' split
  all_goals first
  | (simp; done)
  | exact keeps_foldl _ _ (fun q x hq => by simp [hq]) _ _ (by simp)

theorem held_execScrubLate (dt array ms : Nat) (s : State) : ∃ u, execScrubLate dt array ms s = .next u ∧ u.held = (s.advance dt).held :=
  ⟨_, rfl, by simp⟩

theorem held_execNocDenied (dt p target initiator : Nat) (write : Bool) (address len : Nat) (s : State) : ∃ u, execNocDenied dt p target initiator write address len s = .next u ∧ u.held = (s.advance dt).held :=
  ⟨_, rfl, by simp⟩

theorem held_execBwShort (dt p target : Nat) (s : State) : ∃ u, execBwShort dt p target s = .next u ∧ u.held = (s.advance dt).held :=
  ⟨_, rfl, by simp⟩

end Sys2Proof.Machine
end

