-- ==== Sys2Proof/Laws/HeldConfig.lean ====
section
/-! SUPPORT. What descriptors, rings, staging and commits keep. -/

set_option linter.unusedSimpArgs false

namespace Sys2Proof.Machine

/-! ### ConfigOps -/

@[simp] theorem held_armTick (s : State) (t : Nat) : (State.armTick s t).held = s.held := by
  simp [State.armTick]

@[simp] theorem held_rateFrom (s : State) (b : Nat) : (State.rateFrom s b).held = s.held := by
  unfold State.rateFrom; (try dsimp only); repeat' split
  all_goals first
  | (simp ; done)
  | (simp [held_foldl]; done)
  | (refine (held_foldl _ ?_ _ _).trans ?_
     · (intro q x; (try dsimp only); (repeat' split) <;> simp [held_foldl])
     · simp [held_foldl])

@[simp] theorem held_remapConns (s : State) (old : Cfg) : (State.remapConns s old).held = s.held := by
  unfold State.remapConns; (repeat' split) <;> simp [held_foldl]

@[simp] theorem held_disarmMoved (s : State) (old : Cfg) : (State.disarmMoved s old).held = s.held := by
  unfold State.disarmMoved; (repeat' split) <;> simp [held_foldl]

@[simp] theorem keeps_trimBanks (A : Kept) (s : State) (hA : heldTo A s.held) :
    heldTo A (State.trimBanks s).held := by
  unfold State.trimBanks
  refine keeps_foldl _ _ ?_ _ _ ?_
  · (intro q x hq; (try dsimp only); (repeat' split) <;> simp [held_foldl, hq])
  · simp [held_foldl, keeps_ite, hA]

@[simp] theorem held_powerBanks (s : State) (c : Cfg) : (State.powerBanks s c).held = s.held := by
  unfold State.powerBanks; (repeat' split) <;> simp [held_foldl]

@[simp] theorem held_sendCfgFrame (s : State) (old : Cfg) : (State.sendCfgFrame s old).held = s.held := by
  simp [State.sendCfgFrame]

@[simp] theorem held_rebindSlots (s : State) : (State.rebindSlots s).held = s.held := by
  unfold State.rebindSlots; (try dsimp only); repeat' split
  all_goals first
  | (simp ; done)
  | (simp [held_foldl]; done)
  | (refine (held_foldl _ ?_ _ _).trans ?_
     · (intro q x; (try dsimp only); (repeat' split) <;> simp [held_foldl])
     · simp [held_foldl])

@[simp] theorem keeps_takeConfig (A : Kept) (s : State) (c : Cfg) (b : Nat) (hA : heldTo A s.held) :
    heldTo A (State.takeConfig s c b).held := by
  unfold State.takeConfig; dsimp only
  rw [held_rateFrom, held_sendCfgFrame]
  exact keeps_trimBanks _ _ (by simp [held_foldl, hA])

@[simp] theorem keeps_activateDue (A : Kept) (s : State) (hA : heldTo A s.held) :
    heldTo A (State.activateDue s).held := by
  unfold State.activateDue; (repeat' split) <;> simp [hA]

/-! ### HostOps -/

@[simp] theorem held_modRing (s : State) (fn : Nat) (r : Nat) (f : Ring → Ring) : (State.modRing s fn r f).held = s.held := by
  simp [State.modRing]

@[simp] theorem held_modHfn (s : State) (fn : Nat) (f : HostFn → HostFn) : (State.modHfn s fn f).held = s.held := by
  simp [State.modHfn]

@[simp] theorem held_modHst (s : State) (f : Hosts → Hosts) : (State.modHst s f).held = s.held := by
  simp [State.modHst]

@[simp] theorem held_enableRing (s : State) (fn : Nat) (r : Nat) (v : Nat) : (State.enableRing s fn r v).held = s.held := by
  simp [State.enableRing]

@[simp] theorem held_disableNow (s : State) (fn : Nat) (r : Nat) : (State.disableNow s fn r).held = s.held := by
  simp [State.disableNow]

@[simp] theorem held_disableRing (s : State) (fn : Nat) (r : Nat) (v : Nat) : (State.disableRing s fn r v).held = s.held := by
  simp [State.disableRing]

@[simp] theorem held_writeRingCtl (s : State) (fn : Nat) (v : Nat) : (State.writeRingCtl s fn v).held = s.held := by
  simp [State.writeRingCtl]

@[simp] theorem held_rejectDb (s : State) (fn : Nat) (r : Nat) (cause : Nat) (index : Nat) (seq : Nat) : (State.rejectDb s fn r cause index seq).held = s.held := by
  unfold State.rejectDb; (repeat' split) <;> simp

@[simp] theorem held_doorbell (s : State) (fn : Nat) (r : Nat) (index : Nat) (seq : Nat) : (State.doorbell s fn r index seq).held = s.held := by
  simp [State.doorbell]

@[simp] theorem held_doorbells (s : State) (fn : Nat) (r : Nat) (l : List Bytes) : (s.doorbells fn r l).held = s.held := by
  induction l generalizing s r with
  | nil => rfl
  | cons w l ih => unfold State.doorbells; rw [ih]; simp

@[simp] theorem held_doorbellWrite (s : State) (fn : Nat) (off : Nat) (data : Bytes) : (State.doorbellWrite s fn off data).held = s.held := by
  simp [State.doorbellWrite]

@[simp] theorem held_fetched (s : State) (fn : Nat) (r : Nat) : (State.fetched s fn r).held = s.held := by
  simp [State.fetched]

@[simp] theorem held_checkFailed (s : State) (fn : Nat) (r : Nat) (i : Nat) (b : Bytes) : (State.checkFailed s fn r i b).held = s.held := by
  unfold State.checkFailed; (repeat' split) <;> simp

@[simp] theorem held_descFetch (s : State) (fn : Nat) (r : Nat) (bytes : Bytes) (ok : Bool) : (State.descFetch s fn r bytes ok).held = s.held := by
  simp [State.descFetch]

@[simp] theorem held_Taken_answer (t : Taken) (s : State) (status : Nat) (result : Nat) (detail : Nat) (data : Bytes) : (Taken.answer t s status result detail data).held = s.held := by
  simp [Taken.answer]

@[simp] theorem held_Taken_stop (t : Taken) (s : State) (status : Nat) : (Taken.stop t s status).held = s.held := by
  simp [Taken.stop]

@[simp] theorem held_Taken_refuse (t : Taken) (s : State) (result : Nat) : (Taken.refuse t s result).held = s.held := by
  simp [Taken.refuse]

@[simp] theorem held_Taken_done (t : Taken) (s : State) (result : Nat) (data : Bytes) : (Taken.done t s result data).held = s.held := by
  simp [Taken.done]

@[simp] theorem held_onOpcode (s : State) (mine : Nat → Bytes → Bool) (owner : State → Taken → Bool) (act : State → Taken → State) (h_act : ∀ x0 x1, (act x0 x1).held = x0.held) : (State.onOpcode s mine owner act).held = s.held := by
  unfold State.onOpcode; (repeat' split) <;> simp [h_act]

@[simp] theorem keeps_onOpcode (A : Kept) (s : State) (mine : Nat → Bytes → Bool) (owner : State → Taken → Bool)
    (act : State → Taken → State) (h_act : ∀ x0 x1, heldTo A x0.held → heldTo A (act x0 x1).held) (hA : heldTo A s.held) :
    heldTo A (s.onOpcode mine owner act).held := by
  unfold State.onOpcode
  split
  · exact hA
  · dsimp only
    (repeat' split) <;> first | exact hA | (simp [hA]; done) | exact h_act _ _ (by simpa using hA)

@[simp] theorem frees_onOpcode (A : Kept) (s : State) (mine : Nat → Bytes → Bool) (owner : State → Taken → Bool)
    (act : State → Taken → State) (h_act : ∀ x0 x1, freedTo A x0.held → freedTo A (act x0 x1).held) (hA : freedTo A s.held) :
    freedTo A (s.onOpcode mine owner act).held := by
  unfold State.onOpcode
  split
  · exact hA
  · dsimp only
    (repeat' split) <;> first | exact hA | (simp [hA]; done) | exact h_act _ _ (by simpa using hA)

/-! ### Rings -/

theorem held_execRingEnable (dt fn v : Nat) (s : State) : ∃ u, execRingEnable dt fn v s = .next u ∧ u.held = (s.advance dt).held :=
  ⟨_, rfl, by simp⟩

theorem held_execRingDisable (dt fn v : Nat) (s : State) : ∃ u, execRingDisable dt fn v s = .next u ∧ u.held = (s.advance dt).held :=
  ⟨_, rfl, by simp⟩

theorem held_execDoorbell (dt fn off : Nat) (data : Bytes) (s : State) : ∃ u, execDoorbell dt fn off data s = .next u ∧ u.held = (s.advance dt).held :=
  ⟨_, rfl, by simp⟩

theorem held_execDescriptorFetch (dt fn r : Nat) (bytes : Bytes) (ok : Bool) (s : State) : ∃ u, execDescriptorFetch dt fn r bytes ok s = .next u ∧ u.held = (s.advance dt).held :=
  ⟨_, rfl, by simp⟩

theorem held_execBusMasterEnable (dt fn : Nat) (on msixOn msixMask : Bool) (mps mrrs : Nat) (s : State) : ∃ u, execBusMasterEnable dt fn on msixOn msixMask mps mrrs s = .next u ∧ u.held = (s.advance dt).held := by
  refine ⟨_, rfl, ?_⟩; (repeat' split) <;> simp [held_foldl]

theorem held_execIrqModerationTimeout (dt fn r : Nat) (s : State) : ∃ u, execIrqModerationTimeout dt fn r s = .next u ∧ u.held = (s.advance dt).held :=
  ⟨_, rfl, by simp⟩

theorem held_execHeldRecordWrite (dt fn r : Nat) (s : State) : ∃ u, execHeldRecordWrite dt fn r s = .next u ∧ u.held = (s.advance dt).held :=
  ⟨_, rfl, by simp⟩

theorem held_execLostNotice (dt fn r : Nat) (s : State) : ∃ u, execLostNotice dt fn r s = .next u ∧ u.held = (s.advance dt).held :=
  ⟨_, rfl, by simp⟩

theorem held_execRingGap (dt fn r : Nat) (s : State) : ∃ u, execRingGap dt fn r s = .next u ∧ u.held = (s.advance dt).held :=
  ⟨_, rfl, by simp⟩

@[simp] theorem keeps_resetFn (A : Kept) (s : State) (fn : Nat) (hA : heldTo A s.held) :
    heldTo A (State.resetFn s fn).held := by
  unfold State.resetFn; (repeat' split) <;> simp [held_foldl, keeps_ite, hA]

theorem keeps_execFunctionReset (dt fn kind speed width : Nat) (s : State) : ∃ u, execFunctionReset dt fn kind speed width s = .next u ∧ heldTo (s.advance dt).held u.held := by
  refine ⟨_, rfl, ?_⟩; (repeat' split) <;> simp

@[simp] theorem held_accessRecord (s : State) (fn : Nat) (write : Bool) (off size : Nat) : (State.accessRecord s fn write off size).held = s.held := by
  simp [State.accessRecord]

@[simp] theorem held_hostCpl (s : State) (fn : Nat) (st : CplStatus) (data : Bytes) : (State.hostCpl s fn st data).held = s.held := by
  simp [State.hostCpl]

@[simp] theorem held_readWord (s : State) (fn off : Nat) : (State.readWord s fn off).held = s.held := by
  unfold State.readWord; (try dsimp only); repeat' split
  all_goals first
  | (simp ; done)
  | (simp [held_foldl]; done)
  | (refine (held_foldl _ ?_ _ _).trans ?_
     · (intro q x; (try dsimp only); (repeat' split) <;> simp [held_foldl])
     · simp [held_foldl])

theorem held_execBar0Access (dt fn kind bar off size : Nat) (s : State) : ∃ u, execBar0Access dt fn kind bar off size s = .next u ∧ u.held = (s.advance dt).held :=
  ⟨_, rfl, by simp⟩

/-! ### Staging -/

@[simp] theorem held_Taken_enqueue (t : Taken) (s : State) (slot : Nat) : (Taken.enqueue t s slot).held = s.held := by
  simp [Taken.enqueue]

@[simp] theorem held_LongOp_finish (o : LongOp) (s : State) (status : Nat) (result : Nat) (detail : Nat) (data : Bytes) : (LongOp.finish o s status result detail data).held = s.held := by
  simp [LongOp.finish]

@[simp] theorem held_LongOp_done (o : LongOp) (s : State) (result : Nat) (detail : Nat) (data : Bytes) : (LongOp.done o s result detail data).held = s.held := by
  simp [LongOp.done]

@[simp] theorem held_LongOp_refuse (o : LongOp) (s : State) (result : Nat) (detail : Nat) : (LongOp.refuse o s result detail).held = s.held := by
  simp [LongOp.refuse]

@[simp] theorem held_planCode (s : State) (p : Nat) (code : Nat) (layer : Nat) : (State.planCode s p code layer).held = s.held := by
  simp [State.planCode]

@[simp] theorem held_planStage (s : State) (t : Taken) : (State.planStage s t).held = s.held := by
  simp [State.planStage]

@[simp] theorem held_planStaged (s : State) (o : LongOp) (b : Bytes) (w : Bytes) : (State.planStaged s o b w).held = s.held := by
  unfold State.planStaged; (try dsimp only); repeat' split
  all_goals first
  | (simp ; done)
  | (simp [held_foldl]; done)
  | (refine (held_foldl _ ?_ _ _).trans ?_
     · (intro q x; (try dsimp only); (repeat' split) <;> simp [held_foldl])
     · simp [held_foldl])

@[simp] theorem held_planSwitch (s : State) (t : Taken) : (State.planSwitch s t).held = s.held := by
  simp [State.planSwitch]

theorem held_execPlanSwitch (dt : Nat) (s : State) : ∃ u, execPlanSwitch dt s = .next u ∧ u.held = (s.advance dt).held :=
  ⟨_, rfl, by simp⟩

@[simp] theorem held_modelCode (s : State) (m : Nat) (code : Nat) (layer : Nat) : (State.modelCode s m code layer).held = s.held := by
  simp [State.modelCode]

@[simp] theorem held_modelStage (s : State) (t : Taken) : (State.modelStage s t).held = s.held := by
  simp [State.modelStage]

@[simp] theorem held_modelStaged (s : State) (o : LongOp) (b : Bytes) : (State.modelStaged s o b).held = s.held := by
  unfold State.modelStaged; (repeat' split) <;> simp

@[simp] theorem held_modelSwitch (s : State) (t : Taken) : (State.modelSwitch s t).held = s.held := by
  simp [State.modelSwitch]

theorem held_execModelSwitch (dt : Nat) (s : State) : ∃ u, execModelSwitch dt s = .next u ∧ u.held = (s.advance dt).held :=
  ⟨_, rfl, by simp⟩

@[simp] theorem held_goldCode (s : State) (p : Nat) (code : Nat) : (State.goldCode s p code).held = s.held := by
  simp [State.goldCode]

@[simp] theorem held_goldStaged (s : State) (o : LongOp) (g : Bytes) : (State.goldStaged s o g).held = s.held := by
  simp [State.goldStaged]

@[simp] theorem held_goldSchedule (s : State) (t : Taken) : (State.goldSchedule s t).held = s.held := by
  unfold State.goldSchedule; (try dsimp only); repeat' split
  all_goals first
  | (simp ; done)
  | (simp [held_foldl]; done)
  | (refine (held_foldl _ ?_ _ _).trans ?_
     · (intro q x; (try dsimp only); (repeat' split) <;> simp [held_foldl])
     · simp [held_foldl])

theorem held_execGoldenSchedule (dt : Nat) (s : State) : ∃ u, execGoldenSchedule dt s = .next u ∧ u.held = (s.advance dt).held :=
  ⟨_, rfl, by simp⟩

/-! ### Commit -/

@[simp] theorem held_modCfg (s : State) (f : CfgBlock → CfgBlock) : (State.modCfg s f).held = s.held := by
  simp [State.modCfg]

@[simp] theorem modNvm_eq (s : State) (f : Nvm → Nvm) : s.modNvm f = { s with nvm := f s.nvm } := rfl

@[simp] theorem held_freshNonce (s : State) : (State.freshNonce s).held = s.held := by
  simp [State.freshNonce]

@[simp] theorem held_clog (s : State) (tenant : Nat) (kind : Nat) (flags : Nat) (field : Nat) (old : Bytes) (new : Bytes) (gen : Nat) : (State.clog s tenant kind flags field old new gen).held = s.held := by
  simp [State.clog]

@[simp] theorem held_clogConfig (s : State) (tenant : Nat) (old : Cfg) (new : Cfg) (clamps : List Clamp) : (State.clogConfig s tenant old new clamps).held = s.held := by
  unfold State.clogConfig; (repeat' split) <;> simp [held_foldl]

@[simp] theorem held_LongOp_staged (o : LongOp) (s : State) (code : Nat) (kind : Nat) (safety : Nat) (other : Nat) (id : Bytes) : (LongOp.staged o s code kind safety other id).held = s.held := by
  simp [LongOp.staged]

@[simp] theorem held_storeStaged (s : State) (b : Bytes) (clamps : List Clamp) : (State.storeStaged s b clamps).held = s.held := by
  simp [State.storeStaged]

@[simp] theorem held_configStaged (s : State) (o : LongOp) (b : Bytes) (flash : Bool) : (State.configStaged s o b flash).held = s.held := by
  simp [State.configStaged]

@[simp] theorem held_stageStart (s : State) (o : LongOp) : (State.stageStart s o).held = s.held := by
  simp [State.stageStart]

@[simp] theorem held_pwFail (s : State) (tenant : Nat) : (State.pwFail s tenant).held = s.held := by
  simp [State.pwFail]

@[simp] theorem held_LongOp_committed (o : LongOp) (s : State) (code : Nat) (detail : Nat) (kind : Nat) (gen : Nat) : (LongOp.committed o s code detail kind gen).held = s.held := by
  simp [LongOp.committed]

@[simp] theorem keeps_takeNow (A : Kept) (s : State) (c : Cfg) (hA : heldTo A s.held) :
    heldTo A (State.takeNow s c).held := by
  simp [State.takeNow, hA]

@[simp] theorem keeps_selectOperation (A : Kept) (s : State) (hA : heldTo A s.held) :
    heldTo A (State.selectOperation s).held := by
  unfold State.selectOperation; (repeat' split) <;> simp [hA]

@[simp] theorem held_selectMaintenance (s : State) : (State.selectMaintenance s).held = s.held := by
  simp [State.selectMaintenance]

@[simp] theorem keeps_commitMode (A : Kept) (s : State) (o : LongOp) (hA : heldTo A s.held) :
    heldTo A (State.commitMode s o).held := by
  unfold State.commitMode; (repeat' split) <;> simp [hA]

@[simp] theorem held_commitBegin (s : State) (o : LongOp) (st : Staged) : (State.commitBegin s o st).held = s.held := by
  simp [State.commitBegin]

@[simp] theorem held_planReason (s : State) (c : Cfg) : (State.planReason s c).held = s.held := by
  unfold State.planReason; (try dsimp only); repeat' split
  all_goals first
  | (simp ; done)
  | (simp [held_foldl]; done)
  | (refine (held_foldl _ ?_ _ _).trans ?_
     · (intro q x; (try dsimp only); (repeat' split) <;> simp [held_foldl])
     · simp [held_foldl])

@[simp] theorem keeps_commitStart (A : Kept) (s : State) (o : LongOp) (hA : heldTo A s.held) :
    heldTo A (State.commitStart s o).held := by
  unfold State.commitStart; (try dsimp only); repeat' split
  all_goals first
  | (simp [hA]; done)
  | (split <;> simp [hA]; done)
  | (rw [held_LongOp_committed]; split <;> simp [hA]; done)
  | (refine keeps_foldl _ _ ?_ _ _ ?_
     · (intro q x hq; (try dsimp only); (repeat' split) <;> simp [hq])
     · simp [hA])

@[simp] theorem held_writeRecord (s : State) (o : LongOp) (st : Staged) (gen : Nat) (clogSeq : Nat) : (State.writeRecord s o st gen clogSeq).held = s.held := by
  simp [State.writeRecord]

@[simp] theorem held_newPassword (s : State) (tenant : Nat) (b : Bytes) : (State.newPassword s tenant b).held = s.held := by
  simp [State.newPassword]

@[simp] theorem held_writeOption (s : State) (b : Bytes) : (State.writeOption s b).held = s.held := by
  simp [State.writeOption]

@[simp] theorem keeps_schedule (A : Kept) (s : State) (c : Cfg) (hA : heldTo A s.held) :
    heldTo A (State.schedule s c).2.held := by
  unfold State.schedule; (try dsimp only); repeat' split
  all_goals first
  | (simp [hA]; done)
  | (simp [held_foldl, keeps_ite, hA]; done)
  | (refine keeps_foldl _ _ ?_ _ _ ?_
     · (intro q x hq; (try dsimp only); (repeat' split) <;> simp [held_foldl, hq])
     · simp [held_foldl, keeps_ite, hA])

@[simp] theorem held_commitEnds (s : State) (o : LongOp) (gen : Nat) (code : Nat) : (State.commitEnds s o gen code).held = s.held := by
  simp [State.commitEnds]

@[simp] theorem held_writeCommit (s : State) (o : LongOp) (st : Staged) : (State.writeCommit s o st).held = s.held := by
  simp [State.writeCommit]

@[simp] theorem keeps_commitConfig (A : Kept) (s : State) (o : LongOp) (st : Staged) (hA : heldTo A s.held) :
    heldTo A (s.commitConfig o st).held := by
  rw [State.commitConfig, held_commitEnds]
  refine keeps_schedule A _ _ ?_
  rw [held_ite, held_selectMaintenance, ite_self, held_writeCommit]
  exact hA

@[simp] theorem keeps_commitModeOf (A : Kept) (s : State) (o : LongOp) (hA : heldTo A s.held) :
    heldTo A (State.commitModeOf s o).held := by
  unfold State.commitModeOf; (repeat' split) <;> simp [hA]

@[simp] theorem keeps_commitFirmware (A : Kept) (s : State) (o : LongOp) (st : Staged) (hA : heldTo A s.held) :
    heldTo A (State.commitFirmware s o st).held := by
  simp [State.commitFirmware, hA]

@[simp] theorem keeps_commitKey (A : Kept) (s : State) (o : LongOp) (st : Staged) (hA : heldTo A s.held) :
    heldTo A (State.commitKey s o st).held := by
  unfold State.commitKey; (repeat' split) <;> simp [hA]

@[simp] theorem keeps_commitLife (A : Kept) (s : State) (o : LongOp) (st : Staged) (hA : heldTo A s.held) :
    heldTo A (s.commitLife o st).held := by
  have h : ∀ x : Nat, heldTo A ({ s.clog (s.recTenant o.fn) 4 0 0 (le 8 s.life) (le 8 (rd st.image 21 1)) 0 with
      nvm := { (s.clog (s.recTenant o.fn) 4 0 0 (le 8 s.life) (le 8 (rd st.image 21 1)) 0).nvm with fuses := s.nvm.fuses ||| x } } : State).held := fun x => by
    rw [held_mk]
    have e : (s.clog (s.recTenant o.fn) 4 0 0 (le 8 s.life) (le 8 (rd st.image 21 1)) 0).held = s.held := held_clog ..
    simp only [State.held, Prod.mk.injEq] at e
    rw [e.1, e.2.1, e.2.2.2.1, e.2.2.2.2]
    exact keeps_fuse hA x
  unfold State.commitLife
  dsimp only
  rw [held_LongOp_committed, held_evDev, held_freshNonce]
  unfold State.modNvm
  split
  · rw [Nat.or_assoc]; exact h _
  · exact h _

@[simp] theorem keeps_commitDone (A : Kept) (s : State) (o : LongOp) (ok : Bool) (hA : heldTo A s.held) :
    heldTo A (State.commitDone s o ok).held := by
  unfold State.commitDone; (repeat' split) <;> simp [hA]

end Sys2Proof.Machine
end

