-- ==== Sys2Proof/Laws/HeldTime.lean ====
section
/-! SUPPORT. What frames, the time base, start-up, watches, Owls and Fox keep. -/

set_option linter.unusedSimpArgs false

namespace Sys2Proof.Machine

/-! ### Frame -/

@[simp] theorem held_modPulse (s : State) (p : Nat) (f : Pulse → Pulse) : (State.modPulse s p f).held = s.held := by
  simp [State.modPulse]

@[simp] theorem held_firePulse (s : State) (p : Nat) : (State.firePulse s p).held = s.held := by
  simp [State.firePulse]

@[simp] theorem held_pulsesTick (s : State) : (State.pulsesTick s).held = s.held := by
  unfold State.pulsesTick; (repeat' split) <;> simp [held_foldl]

@[simp] theorem held_newFrame (s : State) : (State.newFrame s).held = s.held := by
  simp [State.newFrame]

@[simp] theorem held_planSwitches (s : State) : (State.planSwitches s).held = s.held := by
  unfold State.planSwitches
  refine (held_foldl _ ?_ _ _).trans ?_
  · (intro q x; (try dsimp only); (repeat' split) <;> simp [held_foldl])
  · simp [held_foldl]

@[simp] theorem held_frameTick (s : State) : (State.frameTick s).held = s.held := by
  unfold State.frameTick; (repeat' split) <;> simp [held_foldl]

@[simp] theorem held_atDc (s : State) : (State.atDc s).held = s.held := by
  unfold State.atDc; (repeat' split) <;> simp [held_foldl]

@[simp] theorem held_atDv (s : State) (lanes : Nat) : (State.atDv s lanes).held = s.held := by
  unfold State.atDv; (repeat' split) <;> simp [held_foldl]

@[simp] theorem held_closeOut (s : State) : (State.closeOut s).held = s.held := by
  unfold State.closeOut; (repeat' split) <;> simp [held_foldl]

@[simp] theorem held_fireEdge (s : State) (e : Nat) (lanes : Nat) : (State.fireEdge s e lanes).held = s.held := by
  unfold State.fireEdge; (repeat' split) <;> simp

@[simp] theorem held_edgesBefore (s : State) (t n : Nat) : (s.edgesBefore t n).held = s.held := by
  induction n generalizing s with
  | zero => rfl
  | succ n ih =>
    unfold State.edgesBefore
    repeat' split
    all_goals simp [ih]

@[simp] theorem held_edgeCommand (s : State) (e : Nat) (lanes : Nat) : (State.edgeCommand s e lanes).held = s.held := by
  simp [State.edgeCommand]

@[simp] theorem keeps_fire (A : Kept) (s : State) (x : Firing) (hA : heldTo A s.held) :
    heldTo A (s.fire x).held := by
  cases x <;> unfold State.fire <;> dsimp only
  · split <;> simp [hA]
  · simp [hA]
  · simp [hA]

@[simp] theorem keeps_fireDue (A : Kept) (n : Nat) (s : State) (hA : heldTo A s.held) :
    heldTo A (State.fireDue n s).held := by
  induction n generalizing s with
  | zero => exact hA
  | succ n ih =>
    unfold State.fireDue
    split
    · exact hA
    · exact ih _ (keeps_fire A _ _ (by simpa using hA))

@[simp] theorem held_markStepped (s : State) : (State.markStepped s).held = s.held := by
  simp [State.markStepped]

@[simp] theorem keeps_stepTime (A : Kept) (s : State) (m : Int) (hA : heldTo A s.held) :
    heldTo A (State.stepTime s m).held := by
  unfold State.stepTime; (repeat' split) <;> simp [hA]

theorem keeps_execFrameTick (dt : Nat) (s : State) : ∃ u, execFrameTick dt s = .next u ∧ heldTo (s.advance dt).held u.held :=
  ⟨_, rfl, by simp⟩

theorem held_execDC (dt : Nat) (s : State) : ∃ u, execDC dt s = .next u ∧ u.held = (s.advance dt).held :=
  ⟨_, rfl, by simp⟩

theorem held_execDV (dt lanes : Nat) (s : State) : ∃ u, execDV dt lanes s = .next u ∧ u.held = (s.advance dt).held :=
  ⟨_, rfl, by simp⟩

theorem held_execIngEnd (dt : Nat) (s : State) : ∃ u, execIngEnd dt s = .next u ∧ u.held = (s.advance dt).held :=
  ⟨_, rfl, by simp⟩

theorem held_execShdStart (dt : Nat) (s : State) : ∃ u, execShdStart dt s = .next u ∧ u.held = (s.advance dt).held :=
  ⟨_, rfl, by simp⟩

theorem held_execShdEnd (dt : Nat) (s : State) : ∃ u, execShdEnd dt s = .next u ∧ u.held = (s.advance dt).held :=
  ⟨_, rfl, by simp⟩

theorem held_execGldStart (dt : Nat) (s : State) : ∃ u, execGldStart dt s = .next u ∧ u.held = (s.advance dt).held :=
  ⟨_, rfl, by simp⟩

theorem held_execGldEnd (dt : Nat) (s : State) : ∃ u, execGldEnd dt s = .next u ∧ u.held = (s.advance dt).held :=
  ⟨_, rfl, by simp⟩

theorem held_execSlfStart (dt : Nat) (s : State) : ∃ u, execSlfStart dt s = .next u ∧ u.held = (s.advance dt).held :=
  ⟨_, rfl, by simp⟩

theorem held_execSlfEnd (dt : Nat) (s : State) : ∃ u, execSlfEnd dt s = .next u ∧ u.held = (s.advance dt).held :=
  ⟨_, rfl, by simp⟩

theorem held_execCloseOut (dt : Nat) (s : State) : ∃ u, execCloseOut dt s = .next u ∧ u.held = (s.advance dt).held :=
  ⟨_, rfl, by simp⟩

theorem keeps_execConfigActivate (dt : Nat) (s : State) : ∃ u, execConfigActivate dt s = .next u ∧ heldTo (s.advance dt).held u.held :=
  ⟨_, rfl, by simp⟩

/-! ### TimeBase -/

@[simp] theorem held_modTmb (s : State) (f : TimeBase → TimeBase) : (State.modTmb s f).held = s.held := by
  simp [State.modTmb]

@[simp] theorem held_acquired (s : State) : (State.acquired s).held = s.held := by
  simp [State.acquired]

@[simp] theorem keeps_lockedSample (A : Kept) (s : State) (e : Int) (tau : Nat) (hA : heldTo A s.held) :
    heldTo A (State.lockedSample s e tau).held := by
  unfold State.lockedSample; (try dsimp only); repeat' split
  all_goals first
  | (simp [hA]; done)
  | (simp [held_foldl, keeps_ite, hA]; done)
  | (refine keeps_foldl _ _ ?_ _ _ ?_
     · (intro q x hq; (try dsimp only); (repeat' split) <;> simp [held_foldl, hq])
     · simp [held_foldl, keeps_ite, hA])

@[simp] theorem keeps_acquireSample (A : Kept) (s : State) (e : Int) (hA : heldTo A s.held) :
    heldTo A (State.acquireSample s e).held := by
  unfold State.acquireSample; (repeat' split) <;> simp [hA]

@[simp] theorem keeps_takeSample (A : Kept) (s : State) (e : Int) (hA : heldTo A s.held) :
    heldTo A (State.takeSample s e).held := by
  unfold State.takeSample; (repeat' split) <;> simp [hA]

@[simp] theorem keeps_sync (A : Kept) (s : State) (m : Nat) (domNs : Nat) (hA : heldTo A s.held) :
    heldTo A (State.sync s m domNs).held := by
  unfold State.sync; (repeat' split) <;> simp [held_foldl, keeps_ite, hA]

@[simp] theorem keeps_ppsAcquire (A : Kept) (s : State) (t : Nat) (first : Bool) (hA : heldTo A s.held) :
    heldTo A (State.ppsAcquire s t first).held := by
  unfold State.ppsAcquire; (repeat' split) <;> simp [hA]

@[simp] theorem keeps_ppsEdge (A : Kept) (s : State) (hA : heldTo A s.held) :
    heldTo A (State.ppsEdge s).held := by
  unfold State.ppsEdge; (repeat' split) <;> simp [held_foldl, keeps_ite, hA]

theorem keeps_execSync (dt m domNs : Nat) (s : State) : ∃ u, execSync dt m domNs s = .next u ∧ heldTo (s.advance dt).held u.held :=
  ⟨_, rfl, by simp⟩

theorem keeps_execPpsInEdge (dt : Nat) (s : State) : ∃ u, execPpsInEdge dt s = .next u ∧ heldTo (s.advance dt).held u.held :=
  ⟨_, rfl, by simp⟩

theorem held_execSyncTimeout (dt : Nat) (s : State) : ∃ u, execSyncTimeout dt s = .next u ∧ u.held = (s.advance dt).held :=
  ⟨_, rfl, by simp⟩

theorem held_execHoldoverExpiry (dt : Nat) (s : State) : ∃ u, execHoldoverExpiry dt s = .next u ∧ u.held = (s.advance dt).held :=
  ⟨_, rfl, by simp⟩

theorem held_execGmChange (dt m gm : Nat) (s : State) : ∃ u, execGmChange dt m gm s = .next u ∧ u.held = (s.advance dt).held :=
  ⟨_, rfl, by simp⟩

@[simp] theorem held_fireFirst (s : State) (p : Nat) : (State.fireFirst s p).held = s.held := by
  unfold State.fireFirst; (try dsimp only); repeat' split
  all_goals first
  | (simp ; done)
  | (simp [held_foldl]; done)
  | (refine (held_foldl _ ?_ _ _).trans ?_
     · (intro q x; (try dsimp only); (repeat' split) <;> simp [held_foldl])
     · simp [held_foldl])

@[simp] theorem held_pulseArm (s : State) (p : Nat) (v : Nat) : (State.pulseArm s p v).held = s.held := by
  simp [State.pulseArm]

theorem held_execPulseArm (dt fn p v : Nat) (s : State) : ∃ u, execPulseArm dt fn p v s = .next u ∧ u.held = (s.advance dt).held :=
  ⟨_, rfl, by simp⟩

theorem held_execPulseDisarm (dt fn p v : Nat) (s : State) : ∃ u, execPulseDisarm dt fn p v s = .next u ∧ u.held = (s.advance dt).held :=
  ⟨_, rfl, by simp⟩

theorem held_execPulseFire (dt p : Nat) (s : State) : ∃ u, execPulseFire dt p s = .next u ∧ u.held = (s.advance dt).held :=
  ⟨_, rfl, by simp⟩

theorem held_execPulseEnd (dt p : Nat) (s : State) : ∃ u, execPulseEnd dt p s = .next u ∧ u.held = (s.advance dt).held :=
  ⟨_, rfl, by simp⟩

/-! ### Boot -/

@[simp] theorem held_flushPending (s : State) : (State.flushPending s).held = s.held := by
  unfold State.flushPending; (repeat' split) <;> simp [held_foldl]

@[simp] theorem held_evLater (s : State) (kind : Nat) (sev : Nat) (payload : Bytes) : (State.evLater s kind sev payload).held = s.held := by
  simp [State.evLater]

@[simp] theorem held_bootSelect (s : State) (k : Nat) (bank : Nat) (fallback : Bool) : (State.bootSelect s k bank fallback).held = s.held := by
  simp [State.bootSelect]

@[simp] theorem held_startFox (s : State) : (State.startFox s).held = s.held := by
  unfold State.startFox; (try dsimp only); repeat' split
  all_goals first
  | (simp ; done)
  | (simp [held_foldl]; done)
  | (refine (held_foldl _ ?_ _ _).trans ?_
     · (intro q x; (try dsimp only); (repeat' split) <;> simp [held_foldl])
     · simp [held_foldl])

@[simp] theorem held_startFirmware (s : State) : (State.startFirmware s).held = s.held := by
  unfold State.startFirmware; (repeat' split) <;> simp

@[simp] theorem held_checkTable (s : State) : (State.checkTable s).held = s.held := by
  simp [State.checkTable]

@[simp] theorem held_startTime (s : State) : (State.startTime s).held = s.held := by
  simp [State.startTime]

@[simp] theorem held_startMain (s : State) : (State.startMain s).held = s.held := by
  simp [State.startMain]

@[simp] theorem held_stepStarts (s : State) (k : Nat) : (State.stepStarts s k).held = s.held := by
  unfold State.stepStarts; (repeat' split) <;> simp

@[simp] theorem held_releaseStep (s : State) (k : Nat) : (State.releaseStep s k).held = s.held := by
  simp [State.releaseStep]

@[simp] theorem held_foxAgain (s : State) : (State.foxAgain s).held = s.held := by
  unfold State.foxAgain; (try dsimp only); repeat' split
  all_goals first
  | (simp ; done)
  | (simp [held_foldl]; done)
  | (refine (held_foldl _ ?_ _ _).trans ?_
     · (intro q x; (try dsimp only); (repeat' split) <;> simp [held_foldl])
     · simp [held_foldl])

theorem held_execDomainRelease (dt k : Nat) (pins : ResetPins) (good : List Nat) (s : State) : ∃ u, execDomainRelease dt k pins good s = .next u ∧ u.held = (s.advance dt).held :=
  ⟨_, rfl, by simp⟩

@[simp] theorem held_mendClog (s : State) (c : Cfg) : (State.mendClog s c).held = s.held := by
  unfold State.mendClog; (repeat' split) <;> simp

@[simp] theorem keeps_boot (A : Kept) (s : State) (hA : heldTo A s.held) :
    heldTo A (State.boot s).held := by
  unfold State.boot; (try dsimp only); repeat' split
  all_goals first
  | (simp [hA]; done)
  | (simp [held_foldl, keeps_ite, hA]; done)
  | (refine keeps_foldl _ _ ?_ _ _ ?_
     · (intro q x hq; (try dsimp only); (repeat' split) <;> simp [held_foldl, hq])
     · simp [held_foldl, keeps_ite, hA])

theorem keeps_execBootComplete (dt : Nat) (s : State) : ∃ u, execBootComplete dt s = .next u ∧ heldTo (s.advance dt).held u.held := by
  refine ⟨_, rfl, ?_⟩; (repeat' split) <;> simp

@[simp] theorem keeps_wipe (A : Kept) (s : State) (hA : heldTo A s.held) :
    heldTo A (State.wipe s).held := by
  simp [State.wipe, hA]

theorem keeps_execReturnWipe (dt : Nat) (s : State) : ∃ u, execReturnWipe dt s = .next u ∧ heldTo (s.advance dt).held u.held := by
  refine ⟨_, rfl, ?_⟩; (repeat' split) <;> simp

theorem frees_execSafetyFwActivate (dt : Nat) (s : State) : ∃ u, execSafetyFwActivate dt s = .next u ∧ freedTo (s.advance dt).held u.held := by
  refine ⟨_, rfl, ?_⟩; (repeat' split) <;> simp

/-! ### Watch -/

theorem held_execNop (dt : Nat) (s : State) : ∃ u, execNop dt s = .next u ∧ u.held = (s.advance dt).held :=
  ⟨_, rfl, by simp⟩

theorem held_execWatchOpen (dt : Nat) (s : State) : ∃ u, execWatchOpen dt s = .next u ∧ u.held = (s.advance dt).held :=
  ⟨_, rfl, by simp⟩

@[simp] theorem held_Opening_finish (o : Opening) (s : State) (status : Nat) (result : Nat) : (Opening.finish o s status result).held = s.held := by
  simp [Opening.finish]

@[simp] theorem held_Opening_accept (o : Opening) (s : State) : (Opening.accept o s).held = s.held := by
  unfold Opening.accept; (repeat' split) <;> simp [held_foldl]

@[simp] theorem held_Opening_judge (o : Opening) (s : State) (bytes : Bytes) : (Opening.judge o s bytes).held = s.held := by
  simp [Opening.judge]

theorem held_execWatchParameterBlockRead (dt fn r : Nat) (bytes : Bytes) (ok : Bool) (s : State) : ∃ u, execWatchParameterBlockRead dt fn r bytes ok s = .next u ∧ u.held = (s.advance dt).held := by
  refine ⟨_, rfl, ?_⟩; (repeat' split) <;> simp

@[simp] theorem held_ackBind (s : State) (p : Bytes) : (State.ackBind s p).held = s.held := by
  unfold State.ackBind; (repeat' split) <;> simp

@[simp] theorem held_ackCfg (s : State) (p : Bytes) : (State.ackCfg s p).held = s.held := by
  simp [State.ackCfg]

theorem frees_execAck (dt seq : Nat) (payload : Bytes) (s : State) : ∃ u, execAck dt seq payload s = .next u ∧ freedTo (s.advance dt).held u.held :=
  ⟨_, rfl, by simp⟩

@[simp] theorem held_closeCtx (s : State) (c : Nat) : (State.closeCtx s c).held = s.held := by
  unfold State.closeCtx; (repeat' split) <;> simp [held_foldl]

theorem held_execWatchClose (dt : Nat) (s : State) : ∃ u, execWatchClose dt s = .next u ∧ u.held = (s.advance dt).held :=
  ⟨_, rfl, by simp⟩

theorem held_execWatchClear (dt : Nat) (s : State) :
    ∃ u, execWatchClear dt s = .next u ∧ u.held = (s.advance dt).held := by
  refine ⟨_, rfl, ?_⟩
  refine held_onOpcode _ _ _ _ fun q t => ?_
  split
  · simp
  · split <;> simp

theorem held_execFrameAnnounce (dt : Nat) (s : State) : ∃ u, execFrameAnnounce dt s = .next u ∧ u.held = (s.advance dt).held :=
  ⟨_, rfl, by simp⟩

theorem held_execQueryContext (dt : Nat) (s : State) : ∃ u, execQueryContext dt s = .next u ∧ u.held = (s.advance dt).held :=
  ⟨_, rfl, by simp⟩

theorem held_execQueryFrame (dt : Nat) (s : State) : ∃ u, execQueryFrame dt s = .next u ∧ u.held = (s.advance dt).held :=
  ⟨_, rfl, by simp⟩

theorem held_execQueryDevice (dt : Nat) (s : State) : ∃ u, execQueryDevice dt s = .next u ∧ u.held = (s.advance dt).held :=
  ⟨_, rfl, by simp⟩

/-! ### Owl -/

@[simp] theorem held_modOwl (s : State) (i : Nat) (f : Owl → Owl) : (State.modOwl s i f).held = s.held := by
  simp [State.modOwl]

@[simp] theorem held_owlTrap (s : State) (i : Nat) (event : Nat) : (State.owlTrap s i event).held = s.held := by
  simp [State.owlTrap]

@[simp] theorem held_owlNext (s : State) (i : Nat) : (State.owlNext s i).held = s.held := by
  simp [State.owlNext]

@[simp] theorem held_owlRoll (s : State) (i : Nat) : (State.owlRoll s i).held = s.held := by
  unfold State.owlRoll; (try dsimp only); repeat' split
  all_goals first
  | (simp ; done)
  | (simp [held_foldl]; done)
  | (refine (held_foldl _ ?_ _ _).trans ?_
     · (intro q x; (try dsimp only); (repeat' split) <;> simp [held_foldl])
     · simp [held_foldl])

@[simp] theorem held_owlGood (s : State) (i : Nat) : (State.owlGood s i).held = s.held := by
  simp [State.owlGood]

@[simp] theorem held_owlRefused (s : State) (i : Nat) : (State.owlRefused s i).held = s.held := by
  simp [State.owlRefused]

@[simp] theorem held_owlJudge (s : State) (i : Nat) : (State.owlJudge s i).held = s.held := by
  simp [State.owlJudge]

@[simp] theorem held_owlService (s : State) (i : Nat) (v : Nat) : (State.owlService s i v).held = s.held := by
  simp [State.owlService]

@[simp] theorem held_owlCheckIn (s : State) (i : Nat) (v : Nat) : (State.owlCheckIn s i v).held = s.held := by
  simp [State.owlCheckIn]

theorem held_execOwlSetup (dt i v : Nat) (s : State) : ∃ u, execOwlSetup dt i v s = .next u ∧ u.held = (s.advance dt).held :=
  ⟨_, rfl, by simp⟩

theorem held_execOwlServiceWrite (dt i v : Nat) (s : State) : ∃ u, execOwlServiceWrite dt i v s = .next u ∧ u.held = (s.advance dt).held :=
  ⟨_, rfl, by simp⟩

theorem held_execOwlCheckIn (dt i v : Nat) (s : State) : ∃ u, execOwlCheckIn dt i v s = .next u ∧ u.held = (s.advance dt).held :=
  ⟨_, rfl, by simp⟩

theorem held_execOwlWindowOpen (dt i : Nat) (s : State) : ∃ u, execOwlWindowOpen dt i s = .next u ∧ u.held = (s.advance dt).held :=
  ⟨_, rfl, by simp⟩

theorem held_execOwlPeriodStart (dt i : Nat) (s : State) : ∃ u, execOwlPeriodStart dt i s = .next u ∧ u.held = (s.advance dt).held :=
  ⟨_, rfl, by simp⟩

theorem held_execOwlExpiry (dt i : Nat) (s : State) : ∃ u, execOwlExpiry dt i s = .next u ∧ u.held = (s.advance dt).held :=
  ⟨_, rfl, by simp⟩

theorem frees_execOwlHardTimer (dt i : Nat) (s : State) : ∃ u, execOwlHardTimer dt i s = .next u ∧ freedTo (s.advance dt).held u.held := by
  refine ⟨_, rfl, ?_⟩; (repeat' split) <;> simp

@[simp] theorem held_suspendRecord (s : State) (event : Nat) (us : Nat) : (State.suspendRecord s event us).held = s.held := by
  simp [State.suspendRecord]

@[simp] theorem held_flashBusy (s : State) : (State.flashBusy s).held = s.held := by
  simp [State.flashBusy]

@[simp] theorem held_flashIdle (s : State) : (State.flashIdle s).held = s.held := by
  unfold State.flashIdle; (repeat' split) <;> simp

theorem held_execOwlSuspend (dt : Nat) (s : State) : ∃ u, execOwlSuspend dt s = .next u ∧ u.held = (s.advance dt).held :=
  ⟨_, rfl, by simp⟩

theorem held_execOwlResume (dt : Nat) (s : State) : ∃ u, execOwlResume dt s = .next u ∧ u.held = (s.advance dt).held :=
  ⟨_, rfl, by simp⟩

theorem held_execFlashOperationTimeout (dt : Nat) (s : State) : ∃ u, execFlashOperationTimeout dt s = .next u ∧ u.held = (s.advance dt).held := by
  refine ⟨_, rfl, ?_⟩; (repeat' split) <;> simp

/-! ### Fox -/

@[simp] theorem archived_fuses (v : Nvm) (l : List Evidence) : (l.foldl Nvm.archiveOne v).fuses = v.fuses := by
  induction l generalizing v with
  | nil => rfl
  | cons e l ih => exact ih _

@[simp] theorem held_modFox (s : State) (f : Fox → Fox) : (State.modFox s f).held = s.held := by
  simp [State.modFox]

@[simp] theorem held_archiveRecord (s : State) (event : Nat) (first : Nat) (last : Nat) : (State.archiveRecord s event first last).held = s.held := by
  simp [State.archiveRecord]

@[simp] theorem held_archive (s : State) (ops : Nat) : (State.archive s ops).held = s.held := by
  unfold State.archive; (try dsimp only); repeat' split
  all_goals first
  | (simp ; done)
  | (simp [held_foldl]; done)
  | (refine (held_foldl _ ?_ _ _).trans ?_
     · (intro q x; (try dsimp only); (repeat' split) <;> simp [held_foldl])
     · simp [held_foldl])

theorem held_execArchive (dt ops : Nat) (s : State) : ∃ u, execArchive dt ops s = .next u ∧ u.held = (s.advance dt).held :=
  ⟨_, rfl, by simp⟩

theorem held_execTelemetry (dt : Nat) (s : State) : ∃ u, execTelemetry dt s = .next u ∧ u.held = (s.advance dt).held :=
  ⟨_, rfl, by simp⟩

theorem held_execMgmtRequest (dt m vlan kind : Nat) (ip data : Bytes) (s : State) : ∃ u, execMgmtRequest dt m vlan kind ip data s = .next u ∧ u.held = (s.advance dt).held :=
  ⟨_, rfl, by simp⟩

@[simp] theorem held_modQuote (s : State) (fn : Nat) (f : Quote → Quote) : (State.modQuote s fn f).held = s.held := by
  simp [State.modQuote]

theorem held_execFoxQuoteGo (dt fn : Nat) (s : State) : ∃ u, execFoxQuoteGo dt fn s = .next u ∧ u.held = (s.advance dt).held :=
  ⟨_, rfl, by simp⟩

theorem held_execQuoteReady (dt fn : Nat) (s : State) : ∃ u, execQuoteReady dt fn s = .next u ∧ u.held = (s.advance dt).held :=
  ⟨_, rfl, by simp⟩

@[simp] theorem held_thermalRecord (s : State) (sensor : Nat) (level : Nat) (t : Int) : (State.thermalRecord s sensor level t).held = s.held := by
  simp [State.thermalRecord]

@[simp] theorem held_warnDie (s : State) (d : Nat) : (State.warnDie s d).held = s.held := by
  unfold State.warnDie; (repeat' split) <;> simp

@[simp] theorem held_readTemp (s : State) (n : Nat) (temp : Nat) : (State.readTemp s n temp).held = s.held := by
  unfold State.readTemp; (try dsimp only); repeat' split
  all_goals first
  | (simp ; done)
  | (simp [held_foldl]; done)
  | (refine (held_foldl _ ?_ _ _).trans ?_
     · (intro q x; (try dsimp only); (repeat' split) <;> simp [held_foldl])
     · simp [held_foldl])

theorem held_execThermal (dt sensor temp : Nat) (s : State) : ∃ u, execThermal dt sensor temp s = .next u ∧ u.held = (s.advance dt).held :=
  ⟨_, rfl, by simp⟩

end Sys2Proof.Machine
end

