-- ==== Sys2Proof/Laws/HeldDebug.lean ====
section
/-! SUPPORT. What long operations, Port W, the register maps, Tack, the boundary scan and Stoat keep. -/

set_option linter.unusedSimpArgs false

namespace Sys2Proof.Machine

/-! ### LongOps -/

@[simp] theorem held_fetchImage (s : State) (o : LongOp) : (State.fetchImage s o).held = s.held := by
  simp [State.fetchImage]

@[simp] theorem held_planStart (s : State) (o : LongOp) : (State.planStart s o).held = s.held := by
  unfold State.planStart; (try dsimp only); repeat' split
  all_goals first
  | (simp ; done)
  | (simp [held_foldl]; done)
  | (refine (held_foldl _ ?_ _ _).trans ?_
     · (intro q x; (try dsimp only); (repeat' split) <;> simp [held_foldl])
     · simp [held_foldl])

@[simp] theorem held_modelStart (s : State) (o : LongOp) : (State.modelStart s o).held = s.held := by
  unfold State.modelStart; (try dsimp only); repeat' split
  all_goals first
  | (simp ; done)
  | (simp [held_foldl]; done)
  | (refine (held_foldl _ ?_ _ _).trans ?_
     · (intro q x; (try dsimp only); (repeat' split) <;> simp [held_foldl])
     · simp [held_foldl])

@[simp] theorem keeps_startWork (A : Kept) (s : State) (o : LongOp) (hA : heldTo A s.held) :
    heldTo A (State.startWork s o).held := by
  unfold State.startWork; (repeat' split) <;> simp [hA]

@[simp] theorem keeps_startNext (A : Kept) (s : State) (fn : Nat) (hA : heldTo A s.held) :
    heldTo A (State.startNext s fn).held := by
  unfold State.startNext; (try dsimp only); repeat' split
  all_goals first
  | (simp [hA]; done)
  | (simp [held_foldl, keeps_ite, hA]; done)
  | (refine keeps_foldl _ _ ?_ _ _ ?_
     · (intro q x hq; (try dsimp only); (repeat' split) <;> simp [held_foldl, hq])
     · simp [held_foldl, keeps_ite, hA])

theorem keeps_execLongOperationStart (dt fn : Nat) (s : State) : ∃ u, execLongOperationStart dt fn s = .next u ∧ heldTo (s.advance dt).held u.held :=
  ⟨_, rfl, by simp⟩

@[simp] theorem keeps_beginLong (A : Kept) (s : State) (mine : Nat → Bytes → Bool) (owner : State → Taken → Bool)
    (act : State → Taken → State) (h_act : ∀ x0 x1, heldTo A x0.held → heldTo A (act x0 x1).held) (hA : heldTo A s.held) :
    heldTo A (s.beginLong mine owner act).held :=
  keeps_onOpcode A s mine owner _ (fun q t hq => keeps_startNext A _ _ (h_act q t hq)) hA

@[simp] theorem held_endLong (s : State) (fn : Nat) (op : Nat) (act : State → LongOp → State) (h_act : ∀ x0 x1, (act x0 x1).held = x0.held) : (State.endLong s fn op act).held = s.held := by
  unfold State.endLong; (repeat' split) <;> simp [h_act]

@[simp] theorem keeps_endLong (A : Kept) (s : State) (fn : Nat) (op : Nat) (act : State → LongOp → State) (h_act : ∀ x0 x1, heldTo A x0.held → heldTo A (act x0 x1).held) (hA : heldTo A s.held) :
    heldTo A (State.endLong s fn op act).held := by
  unfold State.endLong; (repeat' split) <;> simp [h_act, hA]

@[simp] theorem frees_endLong (A : Kept) (s : State) (fn : Nat) (op : Nat) (act : State → LongOp → State) (h_act : ∀ x0 x1, freedTo A x0.held → freedTo A (act x0 x1).held) (hA : freedTo A s.held) :
    freedTo A (State.endLong s fn op act).held := by
  unfold State.endLong; (repeat' split) <;> simp [h_act, hA]

@[simp] theorem held_endFetch (s : State) (fn : Nat) (op : Nat) (ok : Bool) (image : Bytes) (act : State → LongOp → State) (h_act : ∀ x0 x1, (act x0 x1).held = x0.held) : (State.endFetch s fn op ok image act).held = s.held := by
  simp [State.endFetch, h_act]

@[simp] theorem keeps_endFetch (A : Kept) (s : State) (fn : Nat) (op : Nat) (ok : Bool) (image : Bytes)
    (act : State → LongOp → State) (h_act : ∀ x0 x1, heldTo A x0.held → heldTo A (act x0 x1).held) (hA : heldTo A s.held) :
    heldTo A (s.endFetch fn op ok image act).held := by
  refine keeps_endLong A s fn op _ (fun q o hq => ?_) hA
  (repeat' split) <;> first | exact hq | (simp [hq]; done) | exact h_act q o hq

@[simp] theorem frees_endFetch (A : Kept) (s : State) (fn : Nat) (op : Nat) (ok : Bool) (image : Bytes)
    (act : State → LongOp → State) (h_act : ∀ x0 x1, freedTo A x0.held → freedTo A (act x0 x1).held) (hA : freedTo A s.held) :
    freedTo A (s.endFetch fn op ok image act).held := by
  refine frees_endLong A s fn op _ (fun q o hq => ?_) hA
  (repeat' split) <;> first | exact hq | (simp [hq]; done) | exact h_act q o hq

theorem keeps_execModelStage (dt : Nat) (s : State) : ∃ u, execModelStage dt s = .next u ∧ heldTo (s.advance dt).held u.held :=
  ⟨_, rfl, by simp⟩

theorem held_execModelStageDone (dt fn : Nat) (ok : Bool) (image : Bytes) (s : State) : ∃ u, execModelStageDone dt fn ok image s = .next u ∧ u.held = (s.advance dt).held :=
  ⟨_, rfl, by simp⟩

theorem keeps_execPlanStage (dt : Nat) (s : State) : ∃ u, execPlanStage dt s = .next u ∧ heldTo (s.advance dt).held u.held :=
  ⟨_, rfl, by simp⟩

theorem held_execPlanStageDone (dt fn : Nat) (ok : Bool) (image wimage : Bytes) (s : State) : ∃ u, execPlanStageDone dt fn ok image wimage s = .next u ∧ u.held = (s.advance dt).held :=
  ⟨_, rfl, by simp⟩

theorem keeps_execGoldenScheduleSet (dt : Nat) (s : State) : ∃ u, execGoldenScheduleSet dt s = .next u ∧ heldTo (s.advance dt).held u.held :=
  ⟨_, rfl, by simp⟩

theorem held_execGoldenScheduleDone (dt fn : Nat) (ok : Bool) (image : Bytes) (s : State) : ∃ u, execGoldenScheduleDone dt fn ok image s = .next u ∧ u.held = (s.advance dt).held :=
  ⟨_, rfl, by simp⟩

theorem keeps_execConfigStage (dt : Nat) (s : State) : ∃ u, execConfigStage dt s = .next u ∧ heldTo (s.advance dt).held u.held :=
  ⟨_, rfl, by simp⟩

theorem held_execConfigStageDone (dt fn : Nat) (ok : Bool) (image : Bytes) (flash : Bool) (s : State) : ∃ u, execConfigStageDone dt fn ok image flash s = .next u ∧ u.held = (s.advance dt).held :=
  ⟨_, rfl, by simp⟩

theorem keeps_execConfigCommit (dt : Nat) (s : State) : ∃ u, execConfigCommit dt s = .next u ∧ heldTo (s.advance dt).held u.held :=
  ⟨_, rfl, by simp⟩

theorem keeps_execConfigCommitModeOnly (dt : Nat) (s : State) : ∃ u, execConfigCommitModeOnly dt s = .next u ∧ heldTo (s.advance dt).held u.held :=
  ⟨_, rfl, by simp⟩

theorem keeps_execConfigCommitDone (dt fn : Nat) (ok : Bool) (s : State) :
    ∃ u, execConfigCommitDone dt fn ok s = .next u ∧ heldTo (s.advance dt).held u.held := by
  refine ⟨_, rfl, ?_⟩
  exact keeps_endLong _ _ _ _ _ (fun q o hq => keeps_commitDone _ _ _ _ hq) (heldTo_refl _)

theorem keeps_execEvidenceRead (dt : Nat) (s : State) : ∃ u, execEvidenceRead dt s = .next u ∧ heldTo (s.advance dt).held u.held :=
  ⟨_, rfl, by simp⟩

@[simp] theorem held_evidenceRead (s : State) (o : LongOp) : (State.evidenceRead s o).held = s.held := by
  unfold State.evidenceRead; (repeat' split) <;> simp [held_foldl]

theorem held_execEvidenceReadDone (dt fn : Nat) (s : State) : ∃ u, execEvidenceReadDone dt fn s = .next u ∧ u.held = (s.advance dt).held :=
  ⟨_, rfl, by simp⟩

/-! ### PortW -/

@[simp] theorem held_wCpl (s : State) (st : CplStatus) (data : Bytes) (parts : List Nat) : (State.wCpl s st data parts).held = s.held := by
  simp [State.wCpl]

@[simp] theorem held_wAbort (s : State) : (State.wAbort s).held = s.held := by
  simp [State.wAbort]

@[simp] theorem held_goldRead (s : State) (off : Nat) (n : Nat) : (State.goldRead s off n).held = s.held := by
  unfold State.goldRead; (repeat' split) <;> simp

@[simp] theorem held_wRead (s : State) (off : Nat) (n : Nat) : (State.wRead s off n).held = s.held := by
  simp [State.wRead]

@[simp] theorem held_wWrite (s : State) (off : Nat) (data : Bytes) (poisoned : Bool) : (State.wWrite s off data poisoned).held = s.held := by
  unfold State.wWrite; (try dsimp only); repeat' split
  all_goals first
  | (simp ; done)
  | (simp [held_foldl]; done)
  | (refine (held_foldl _ ?_ _ _).trans ?_
     · (intro q x; (try dsimp only); (repeat' split) <;> simp [held_foldl])
     · simp [held_foldl])

@[simp] theorem held_wConfigRead (s : State) (off : Nat) : (State.wConfigRead s off).held = s.held := by
  unfold State.wConfigRead; (try dsimp only); repeat' split
  all_goals first
  | (simp ; done)
  | (simp [held_foldl]; done)
  | (refine (held_foldl _ ?_ _ _).trans ?_
     · (intro q x; (try dsimp only); (repeat' split) <;> simp [held_foldl])
     · simp [held_foldl])

@[simp] theorem held_wConfigWrite (s : State) (off v : Nat) : (State.wConfigWrite s off v).held = s.held := by
  unfold State.wConfigWrite; (try dsimp only); repeat' split
  all_goals first
  | (simp ; done)
  | (simp [held_foldl]; done)
  | (refine (held_foldl _ ?_ _ _).trans ?_
     · (intro q x; (try dsimp only); (repeat' split) <;> simp [held_foldl])
     · simp [held_foldl])

theorem held_execReportWindowWrite (dt slot off : Nat) (data : Bytes) (poisoned : Bool) (s : State) : ∃ u, execReportWindowWrite dt slot off data poisoned s = .next u ∧ u.held = (s.advance dt).held :=
  ⟨_, rfl, by simp⟩

theorem held_execReportComplete (dt : Nat) (golden : Bool) (slot : Nat) (s : State) : ∃ u, execReportComplete dt golden slot s = .next u ∧ u.held = (s.advance dt).held :=
  ⟨_, rfl, by simp⟩

theorem held_execGoldenReportWrite (dt off : Nat) (data : Bytes) (poisoned : Bool) (s : State) : ∃ u, execGoldenReportWrite dt off data poisoned s = .next u ∧ u.held = (s.advance dt).held :=
  ⟨_, rfl, by simp⟩

theorem held_execOpeningWrite (dt off : Nat) (data : Bytes) (poisoned : Bool) (s : State) : ∃ u, execOpeningWrite dt off data poisoned s = .next u ∧ u.held = (s.advance dt).held :=
  ⟨_, rfl, by simp⟩

theorem held_execGoldenInputRead (dt off n : Nat) (s : State) : ∃ u, execGoldenInputRead dt off n s = .next u ∧ u.held = (s.advance dt).held :=
  ⟨_, rfl, by simp⟩

theorem held_execPortWInvalidWrite (dt kind off : Nat) (data : Bytes) (poisoned : Bool) (s : State) : ∃ u, execPortWInvalidWrite dt kind off data poisoned s = .next u ∧ u.held = (s.advance dt).held :=
  ⟨_, rfl, by simp⟩

theorem held_execPortWInvalidRead (dt kind off n : Nat) (s : State) : ∃ u, execPortWInvalidRead dt kind off n s = .next u ∧ u.held = (s.advance dt).held :=
  ⟨_, rfl, by simp⟩

theorem held_execPortWLinkDown (dt : Nat) (s : State) : ∃ u, execPortWLinkDown dt s = .next u ∧ u.held = (s.advance dt).held :=
  ⟨_, rfl, by simp⟩

theorem held_execWportLink (dt speed width : Nat) (s : State) : ∃ u, execWportLink dt speed width s = .next u ∧ u.held = (s.advance dt).held :=
  ⟨_, rfl, by simp⟩

/-! ### HostRegs -/

@[simp] theorem held_writeBar0 (s : State) (fn : Nat) (o : Nat) (v : Nat) : (State.writeBar0 s fn o v).held = s.held := by
  simp [State.writeBar0]

@[simp] theorem held_writeMsix (s : State) (fn : Nat) (w : Nat) (v : Nat) : (State.writeMsix s fn w v).held = s.held := by
  simp [State.writeMsix]

@[simp] theorem held_writeWords (s : State) (fn : Nat) (bar : Nat) (o : Nat) (l : List Bytes) : (s.writeWords fn bar o l).held = s.held := by
  induction l generalizing s o with
  | nil => rfl
  | cons b l ih => unfold State.writeWords; dsimp only; rw [ih]; (repeat' split) <;> simp

theorem held_execRegisterWrite (dt fn bar off : Nat) (data : Bytes) (s : State) : ∃ u, execRegisterWrite dt fn bar off data s = .next u ∧ u.held = (s.advance dt).held :=
  ⟨_, rfl, by simp⟩

theorem held_execLowerWordRead (dt fn off : Nat) (s : State) : ∃ u, execLowerWordRead dt fn off s = .next u ∧ u.held = (s.advance dt).held :=
  ⟨_, rfl, by simp⟩

/-! ### Tack -/

@[simp] theorem held_modTck (s : State) (f : Tack → Tack) : (State.modTck s f).held = s.held := by
  simp [State.modTck]

@[simp] theorem held_tackSend (s : State) (tag : Nat) (a : TackAns) : (State.tackSend s tag a).held = s.held := by
  unfold State.tackSend; (repeat' split) <;> simp

@[simp] theorem held_tack (s : State) (tag : Nat) (run : State → State × TackAns) (h_run : ∀ x0, (run x0).1.held = x0.held) : (State.tack s tag run).held = s.held := by
  simp [State.tack, h_run]

@[simp] theorem keeps_tack (A : Kept) (s : State) (tag : Nat) (run : State → State × TackAns) (h_run : ∀ x0, heldTo A x0.held → heldTo A (run x0).1.held) (hA : heldTo A s.held) :
    heldTo A (State.tack s tag run).held := by
  unfold State.tack; (try dsimp only); repeat' split
  all_goals first
  | (simp [h_run, hA]; done)
  | (simp [held_foldl, keeps_ite, h_run, hA]; done)
  | (refine keeps_foldl _ _ ?_ _ _ ?_
     · (intro q x hq; (try dsimp only); (repeat' split) <;> simp [held_foldl, hq])
     · simp [held_foldl, keeps_ite, h_run, hA])

@[simp] theorem frees_tack (A : Kept) (s : State) (tag : Nat) (run : State → State × TackAns) (h_run : ∀ x0, freedTo A x0.held → freedTo A (run x0).1.held) (hA : freedTo A s.held) :
    freedTo A (State.tack s tag run).held := by
  unfold State.tack; (try dsimp only); repeat' split
  all_goals first
  | (simp [h_run, hA]; done)
  | (simp [held_foldl, frees_ite, h_run, hA]; done)
  | (refine frees_foldl _ _ ?_ _ _ ?_
     · (intro q x hq; (try dsimp only); (repeat' split) <;> simp [held_foldl, hq])
     · simp [held_foldl, frees_ite, h_run, hA])

@[simp] theorem held_tackCmd (s : State) (tag : Nat) (r : AccessRow) (open_ : Bool) (run : State → State × TackAns)
    (h_run : ∀ x0, (run x0).1.held = x0.held) : (s.tackCmd tag r open_ run).held = s.held := by
  refine held_tack s tag _ fun q => ?_
  dsimp only
  split
  · rfl
  · exact h_run q

@[simp] theorem keeps_tackCmd (A : Kept) (s : State) (tag : Nat) (r : AccessRow) (open_ : Bool)
    (run : State → State × TackAns) (h_run : ∀ x0, heldTo A x0.held → heldTo A (run x0).1.held) (hA : heldTo A s.held) :
    heldTo A (s.tackCmd tag r open_ run).held := by
  refine keeps_tack A s tag _ (fun q hq => ?_) hA
  dsimp only
  split
  · exact hq
  · exact h_run q hq

@[simp] theorem frees_tackCmd (A : Kept) (s : State) (tag : Nat) (r : AccessRow) (open_ : Bool)
    (run : State → State × TackAns) (h_run : ∀ x0, freedTo A x0.held → freedTo A (run x0).1.held) (hA : freedTo A s.held) :
    freedTo A (s.tackCmd tag r open_ run).held := by
  refine frees_tack A s tag _ (fun q hq => ?_) hA
  dsimp only
  split
  · exact hq
  · exact h_run q hq

theorem held_execTackId (dt tag : Nat) (s : State) : ∃ u, execTackId dt tag s = .next u ∧ u.held = (s.advance dt).held :=
  ⟨_, rfl, by simp⟩

theorem held_execAuthRead (dt tag addr : Nat) (s : State) : ∃ u, execAuthRead dt tag addr s = .next u ∧ u.held = (s.advance dt).held := by
  refine ⟨_, rfl, ?_⟩; (repeat' split) <;> simp

theorem held_execAuthWrite (dt tag addr data : Nat) (s : State) : ∃ u, execAuthWrite dt tag addr data s = .next u ∧ u.held = (s.advance dt).held := by
  refine ⟨_, rfl, ?_⟩; (repeat' split) <;> simp

theorem held_execAuthDone (dt tag : Nat) (s : State) :
    ∃ u, execAuthDone dt tag s = .next u ∧ u.held = (s.advance dt).held := by
  refine ⟨_, rfl, ?_⟩
  refine held_tackCmd _ _ _ _ _ fun q => ?_
  split <;> simp

@[simp] theorem held_memWord (s : State) (t : Nat) (addr : Nat) : (State.memWord s t addr).1.held = s.held := by
  unfold State.memWord; (try dsimp only); repeat' split
  all_goals first
  | (simp ; done)
  | (simp [held_foldl]; done)
  | (refine (held_foldl _ ?_ _ _).trans ?_
     · (intro q x; (try dsimp only); (repeat' split) <;> simp [held_foldl])
     · simp [held_foldl])

@[simp] theorem keeps_tackUe (A : Kept) (s : State) (t : Nat) (line : Nat) (hA : heldTo A s.held) :
    heldTo A (State.tackUe s t line).held := by
  simp [State.tackUe, hA]

@[simp] theorem keeps_tackRead (A : Kept) (s : State) (space : Nat) (addr : Nat) (hA : heldTo A s.held) :
    heldTo A (State.tackRead s space addr).1.held := by
  unfold State.tackRead; (try dsimp only); repeat' split
  all_goals first
  | (simp [hA]; done)
  | (simp [held_foldl, keeps_ite, hA]; done)
  | (refine keeps_foldl _ _ ?_ _ _ ?_
     · (intro q x hq; (try dsimp only); (repeat' split) <;> simp [held_foldl, hq])
     · simp [held_foldl, keeps_ite, hA])

@[simp] theorem keeps_tackWrite (A : Kept) (s : State) (space : Nat) (addr : Nat) (data : Nat) (hA : heldTo A s.held) :
    heldTo A (State.tackWrite s space addr data).1.held := by
  unfold State.tackWrite; (try dsimp only); repeat' split
  all_goals first
  | (simp [hA]; done)
  | (simp [held_foldl, keeps_ite, hA]; done)
  | (refine keeps_foldl _ _ ?_ _ _ ?_
     · (intro q x hq; (try dsimp only); (repeat' split) <;> simp [held_foldl, hq])
     · simp [held_foldl, keeps_ite, hA])

@[simp] theorem held_tackAccess (s : State) (tag : Nat) (space : Nat) (addr : Nat) (done : Bool) (run : State → State × TackAns) (h_run : ∀ x0, (run x0).1.held = x0.held) : (State.tackAccess s tag space addr done run).1.held = s.held := by
  unfold State.tackAccess; (try dsimp only); repeat' split
  all_goals first
  | (simp [h_run]; done)
  | (simp [held_foldl, h_run]; done)
  | (refine (held_foldl _ ?_ _ _).trans ?_
     · (intro q x; (try dsimp only); (repeat' split) <;> simp [held_foldl, h_run])
     · simp [held_foldl, h_run])

@[simp] theorem keeps_tackAccess (A : Kept) (s : State) (tag : Nat) (space : Nat) (addr : Nat) (done : Bool) (run : State → State × TackAns) (h_run : ∀ x0, heldTo A x0.held → heldTo A (run x0).1.held) (hA : heldTo A s.held) :
    heldTo A (State.tackAccess s tag space addr done run).1.held := by
  unfold State.tackAccess; (try dsimp only); repeat' split
  all_goals first
  | (simp [h_run, hA]; done)
  | (simp [held_foldl, keeps_ite, h_run, hA]; done)
  | (refine keeps_foldl _ _ ?_ _ _ ?_
     · (intro q x hq; (try dsimp only); (repeat' split) <;> simp [held_foldl, hq])
     · simp [held_foldl, keeps_ite, h_run, hA])

@[simp] theorem frees_tackAccess (A : Kept) (s : State) (tag : Nat) (space : Nat) (addr : Nat) (done : Bool) (run : State → State × TackAns) (h_run : ∀ x0, freedTo A x0.held → freedTo A (run x0).1.held) (hA : freedTo A s.held) :
    freedTo A (State.tackAccess s tag space addr done run).1.held := by
  unfold State.tackAccess; (try dsimp only); repeat' split
  all_goals first
  | (simp [h_run, hA]; done)
  | (simp [held_foldl, frees_ite, h_run, hA]; done)
  | (refine frees_foldl _ _ ?_ _ _ ?_
     · (intro q x hq; (try dsimp only); (repeat' split) <;> simp [held_foldl, hq])
     · simp [held_foldl, frees_ite, h_run, hA])

theorem keeps_execTackRead (dt target tag addr : Nat) (done : Bool) (s : State) :
    ∃ u, execTackRead dt target tag addr done s = .next u ∧ heldTo (s.advance dt).held u.held := by
  refine ⟨_, rfl, ?_⟩
  exact keeps_tackCmd _ _ _ _ _ _ (fun q hq => keeps_tackAccess _ _ _ _ _ _ _ (fun x hx => keeps_tackRead _ _ _ _ hx) hq)
    (heldTo_refl _)

theorem keeps_execTackWrite (dt target tag addr data : Nat) (done : Bool) (s : State) :
    ∃ u, execTackWrite dt target tag addr data done s = .next u ∧ heldTo (s.advance dt).held u.held := by
  refine ⟨_, rfl, ?_⟩
  exact keeps_tackCmd _ _ _ _ _ _ (fun q hq => keeps_tackAccess _ _ _ _ _ _ _ (fun x hx => keeps_tackWrite _ _ _ _ _ hx) hq)
    (heldTo_refl _)

@[simp] theorem held_tackTarget (s : State) (tag : Nat) (target : Nat) (run : State → State)
    (h_run : ∀ x0, (run x0).held = x0.held) : (s.tackTarget tag target run).held = s.held := by
  refine held_tackCmd s tag _ _ _ fun q => ?_
  dsimp only
  split
  · rfl
  · exact h_run q

@[simp] theorem keeps_tackTarget (A : Kept) (s : State) (tag : Nat) (target : Nat)
    (run : State → State) (h_run : ∀ x0, heldTo A x0.held → heldTo A (run x0).held) (hA : heldTo A s.held) :
    heldTo A (s.tackTarget tag target run).held := by
  refine keeps_tackCmd A s tag _ _ _ (fun q hq => ?_) hA
  dsimp only
  split
  · exact hq
  · exact h_run q hq

@[simp] theorem frees_tackTarget (A : Kept) (s : State) (tag : Nat) (target : Nat)
    (run : State → State) (h_run : ∀ x0, freedTo A x0.held → freedTo A (run x0).held) (hA : freedTo A s.held) :
    freedTo A (s.tackTarget tag target run).held := by
  refine frees_tackCmd A s tag _ _ _ (fun q hq => ?_) hA
  dsimp only
  split
  · exact hq
  · exact h_run q hq

@[simp] theorem held_freshPcs (s : State) (target : Nat) : (State.freshPcs s target).held = s.held := by
  simp [State.freshPcs]

@[simp] theorem held_setHalt (s : State) (target : Nat) (on : Bool) : (State.setHalt s target on).held = s.held := by
  simp [State.setHalt]

@[simp] theorem held_meetFore (s : State) (target : Nat) : (State.meetFore s target).held = s.held := by
  unfold State.meetFore; (try dsimp only); repeat' split
  all_goals first
  | (simp ; done)
  | (simp [held_foldl]; done)
  | (refine (held_foldl _ ?_ _ _).trans ?_
     · (intro q x; (try dsimp only); (repeat' split) <;> simp [held_foldl])
     · simp [held_foldl])

theorem held_execHalt (dt target tag : Nat) (s : State) : ∃ u, execHalt dt target tag s = .next u ∧ u.held = (s.advance dt).held :=
  ⟨_, rfl, by simp⟩

@[simp] theorem held_resume (s : State) (target : Nat) : (State.resume s target).held = s.held := by
  simp [State.resume]

theorem held_execResume (dt target tag : Nat) (s : State) : ∃ u, execResume dt target tag s = .next u ∧ u.held = (s.advance dt).held :=
  ⟨_, rfl, by simp⟩

@[simp] theorem held_tackStep (s : State) (target : Nat) : (State.tackStep s target).held = s.held := by
  unfold State.tackStep; (repeat' split) <;> simp [held_foldl]

theorem held_execTackStep (dt target tag : Nat) (s : State) : ∃ u, execTackStep dt target tag s = .next u ∧ u.held = (s.advance dt).held :=
  ⟨_, rfl, by simp⟩

theorem held_execBpSet (dt target tag addr : Nat) (s : State) : ∃ u, execBpSet dt target tag addr s = .next u ∧ u.held = (s.advance dt).held :=
  ⟨_, rfl, by simp⟩

theorem held_execBpClear (dt target tag addr : Nat) (s : State) : ∃ u, execBpClear dt target tag addr s = .next u ∧ u.held = (s.advance dt).held :=
  ⟨_, rfl, by simp⟩

@[simp] theorem held_breakHit (s : State) (target : Nat) (n : Nat) : (State.breakHit s target n).held = s.held := by
  simp [State.breakHit]

theorem held_execBreakpointHit (dt target n : Nat) (s : State) : ∃ u, execBreakpointHit dt target n s = .next u ∧ u.held = (s.advance dt).held :=
  ⟨_, rfl, by simp⟩

@[simp] theorem held_statusPc (s : State) (target : Nat) : (State.statusPc s target).1.held = s.held := by
  unfold State.statusPc; (try dsimp only); repeat' split
  all_goals first
  | (simp ; done)
  | (simp [held_foldl]; done)
  | (refine (held_foldl _ ?_ _ _).trans ?_
     · (intro q x; (try dsimp only); (repeat' split) <;> simp [held_foldl])
     · simp [held_foldl])

theorem held_execTackStatus (dt target tag : Nat) (s : State) : ∃ u, execTackStatus dt target tag s = .next u ∧ u.held = (s.advance dt).held := by
  refine ⟨_, rfl, ?_⟩; (repeat' split) <;> simp

theorem frees_execTackReset (dt tag : Nat) (s : State) : ∃ u, execTackReset dt tag s = .next u ∧ freedTo (s.advance dt).held u.held := by
  refine ⟨_, rfl, ?_⟩; (repeat' split) <;> simp

theorem keeps_execFuse (dt tag addr data : Nat) (s : State) :
    ∃ u, execFuse dt tag addr data s = .next u ∧ heldTo (s.advance dt).held u.held := by
  refine ⟨_, rfl, ?_⟩
  refine keeps_tackCmd _ _ _ _ _ _ (fun q hq => ?_) (heldTo_refl _)
  split
  · exact hq
  · split
    · exact hq
    · dsimp only [State.modNvm]; rw [held_mk]; exact keeps_fuse hq _

theorem held_execTest (dt tag addr _data : Nat) (s : State) : ∃ u, execTest dt tag addr _data s = .next u ∧ u.held = (s.advance dt).held := by
  refine ⟨_, rfl, ?_⟩; (repeat' split) <;> simp

theorem held_execTackBadRequest (dt kind : Nat) (s : State) : ∃ u, execTackBadRequest dt kind s = .next u ∧ u.held = (s.advance dt).held :=
  ⟨_, rfl, by simp⟩

/-! ### Scan -/

@[simp] theorem held_modScn (s : State) (f : Scan → Scan) : (State.modScn s f).held = s.held := by
  simp [State.modScn]

@[simp] theorem held_scanBypass (s : State) (ir : Nat) (din : Bool) (driving : Bool) (highz : Bool) : (State.scanBypass s ir din driving highz).held = s.held := by
  simp [State.scanBypass]

@[simp] theorem held_scanBoundary (s : State) (ir : Nat) (cap : List Nat) (din : List Nat) (driving : Bool) : (State.scanBoundary s ir cap din driving).held = s.held := by
  simp [State.scanBoundary]

theorem held_execBypass (dt : Nat) (din : Bool) (s : State) : ∃ u, execBypass dt din s = .next u ∧ u.held = (s.advance dt).held :=
  ⟨_, rfl, by simp⟩

theorem held_execIdcode (dt : Nat) (s : State) : ∃ u, execIdcode dt s = .next u ∧ u.held = (s.advance dt).held :=
  ⟨_, rfl, by simp⟩

theorem held_execSamplePreload (dt : Nat) (cap din : List Nat) (s : State) : ∃ u, execSamplePreload dt cap din s = .next u ∧ u.held = (s.advance dt).held :=
  ⟨_, rfl, by simp⟩

theorem held_execExtest (dt : Nat) (cap din : List Nat) (s : State) : ∃ u, execExtest dt cap din s = .next u ∧ u.held = (s.advance dt).held :=
  ⟨_, rfl, by simp⟩

theorem held_execClamp (dt : Nat) (din : Bool) (s : State) : ∃ u, execClamp dt din s = .next u ∧ u.held = (s.advance dt).held :=
  ⟨_, rfl, by simp⟩

theorem held_execHighz (dt : Nat) (din : Bool) (s : State) : ∃ u, execHighz dt din s = .next u ∧ u.held = (s.advance dt).held :=
  ⟨_, rfl, by simp⟩

/-! ### Stoat -/

theorem held_execMailboxPosted (dt : Nat) (s : State) : ∃ u, execMailboxPosted dt s = .next u ∧ u.held = (s.advance dt).held :=
  ⟨_, rfl, by simp⟩

theorem held_execLeafVerify (dt i k : Nat) (s : State) : ∃ u, execLeafVerify dt i k s = .next u ∧ u.held = (s.advance dt).held :=
  ⟨_, rfl, by simp⟩

theorem held_execSha3Mismatch (dt k : Nat) (s : State) : ∃ u, execSha3Mismatch dt k s = .next u ∧ u.held = (s.advance dt).held :=
  ⟨_, rfl, by simp⟩

theorem held_execChallengeWeightsInPlace (dt i : Nat) (s : State) : ∃ u, execChallengeWeightsInPlace dt i s = .next u ∧ u.held = (s.advance dt).held := by
  refine ⟨_, rfl, ?_⟩; (repeat' split) <;> simp

theorem held_execUnitDispatch (dt e : Nat) (s : State) : ∃ u, execUnitDispatch dt e s = .next u ∧ u.held = (s.advance dt).held :=
  ⟨_, rfl, by simp⟩

@[simp] theorem held_unitEnds (s : State) (e : Nat) : (State.unitEnds s e).held = s.held := by
  simp [State.unitEnds]

theorem held_execAuditBlockDone (dt e : Nat) (s : State) : ∃ u, execAuditBlockDone dt e s = .next u ∧ u.held = (s.advance dt).held := by
  refine ⟨_, rfl, ?_⟩; (repeat' split) <;> simp

theorem held_execChallengeTileDone (dt e : Nat) (s : State) : ∃ u, execChallengeTileDone dt e s = .next u ∧ u.held = (s.advance dt).held := by
  refine ⟨_, rfl, ?_⟩; (repeat' split) <;> simp

theorem held_execEngineFault (dt e kind col : Nat) (got want : Int) (s : State) : ∃ u, execEngineFault dt e kind col got want s = .next u ∧ u.held = (s.advance dt).held :=
  ⟨_, rfl, by simp⟩

theorem held_execDrbgReseed (dt : Nat) (s : State) : ∃ u, execDrbgReseed dt s = .next u ∧ u.held = (s.advance dt).held :=
  ⟨_, rfl, by simp⟩

theorem held_execEntropyHealthFailure (dt : Nat) (failing : Bool) (s : State) : ∃ u, execEntropyHealthFailure dt failing s = .next u ∧ u.held = (s.advance dt).held :=
  ⟨_, rfl, by simp⟩

end Sys2Proof.Machine
end

