-- ==== Sys2Proof/Laws/Records.lean ====
section
/-! SUPPORT. What the writing of evidence, completion and verdict records can change: the log and its mirror, the hosts'
rings, the count of lost records and what the device sends; nothing else. -/

namespace Sys2Proof.Machine

@[simp] theorem quiet_setRing (s : State) (fn r : Nat) (x : Ring) : (s.setRing fn r x).quiet = s.quiet := rfl
@[simp] theorem quiet_setHfn (s : State) (fn : Nat) (x : HostFn) : (s.setHfn fn x).quiet = s.quiet := rfl
@[simp] theorem quiet_modTenant (s : State) (t : Nat) (f : Tenant → Tenant) : (s.modTenant t f).quiet = s.quiet := rfl
@[simp] theorem quiet_emit (s : State) (x : Out) : (s.emit x).quiet = s.quiet := rfl

@[simp] theorem quiet_signal (s : State) (fn v : Nat) : (s.signal fn v).quiet = s.quiet := by
  simp only [State.signal]; repeat' split
  all_goals simp

@[simp] theorem quiet_ringMessage (s : State) (fn r : Nat) : (s.ringMessage fn r).quiet = s.quiet := by
  simp [State.ringMessage]

@[simp] theorem quiet_ringWritten (s : State) (fn r : Nat) (u : Bool) : (s.ringWritten fn r u).quiet = s.quiet := by
  simp only [State.ringWritten]; split <;> (try split) <;> simp

@[simp] theorem quiet_writeBack (s : State) (fn r i : Nat) : (s.writeBack fn r i).quiet = s.quiet := rfl

@[simp] theorem quiet_putRecord (s : State) (fn r : Nat) (b : Bytes) (u : Bool) :
    (s.putRecord fn r b u).quiet = s.quiet := by
  simp [State.putRecord]

@[simp] theorem quiet_ringGap (s : State) (fn r : Nat) : (s.ringGap fn r).quiet = s.quiet := by
  simp only [State.ringGap]; split
  · rfl
  · split <;> simp

@[simp] theorem quiet_copyTo (s : State) (fn r : Nat) (e : Evidence) : (s.copyTo fn r e).quiet = s.quiet := by
  simp only [State.copyTo]; split <;> simp

/-- A fold of operations that each leave `quiet` alone does so too. -/
theorem quiet_foldl {α : Type} (f : State → α → State) (hf : ∀ q x, (f q x).quiet = q.quiet) (l : List α) (s : State) :
    (l.foldl f s).quiet = s.quiet := by
  induction l generalizing s with
  | nil => rfl
  | cons x r ih => simp [ih, hf]

@[simp] theorem quiet_logRecord (s : State) (k t v c : Nat) (p : Bytes) : (s.logRecord k t v c p).quiet = s.quiet := by
  simp only [State.logRecord]
  rw [quiet_foldl _ (fun q x => by simp)]
  rfl

/-- An evidence record changes the log, its mirror, the rings, the lost count and the output only. -/
@[simp] theorem quiet_evidence (s : State) (k t v c : Nat) (p : Bytes) : (s.evidence k t v c p).quiet = s.quiet := by
  simp only [State.evidence]; split <;> simp

@[simp] theorem quiet_evDev (s : State) (k v : Nat) (p : Bytes) : (s.evDev k v p).quiet = s.quiet := by
  simp [State.evDev]

@[simp] theorem quiet_release (s : State) (fn r : Nat) : (s.release fn r).quiet = s.quiet := by simp [State.release]

/-- A completion record changes the rings, the tenant's count and the output only. -/
@[simp] theorem quiet_complete (s : State) (fn r i : Nat) (c : Cpl) : (s.complete fn r i c).quiet = s.quiet := by
  simp only [State.complete]
  repeat' split
  all_goals simp

/-! Components that `quiet` keeps, read off an equality of `quiet`. -/
section
variable {s t : State} (h : t.quiet = s.quiet)
include h
theorem quiet_mc : t.mc = s.mc := (congrArg State.mc h :)
theorem quiet_glb : t.glb = s.glb := (congrArg State.glb h :)
theorem quiet_die : t.die = s.die := (congrArg State.die h :)
theorem quiet_fr : t.fr = s.fr := (congrArg State.fr h :)
theorem quiet_prt : t.prt = s.prt := (congrArg State.prt h :)
theorem quiet_pw : t.pw = s.pw := (congrArg State.pw h :)
theorem quiet_aud : t.aud = s.aud := (congrArg State.aud h :)
theorem quiet_bdg : t.bdg = s.bdg := (congrArg State.bdg h :)
theorem quiet_vrd : t.vrd = s.vrd := (congrArg State.vrd h :)
theorem quiet_cor : t.cor = s.cor := (congrArg State.cor h :)
theorem quiet_shr : t.shr = s.shr := (congrArg State.shr h :)
theorem quiet_pch : t.pch = s.pch := (congrArg State.pch h :)
theorem quiet_plx : t.plx = s.plx := (congrArg State.plx h :)
theorem quiet_tmb : t.tmb = s.tmb := (congrArg State.tmb h :)
theorem quiet_mem : t.mem = s.mem := (congrArg State.mem h :)
theorem quiet_rst : t.rst = s.rst := (congrArg State.rst h :)
theorem quiet_owl : t.owl = s.owl := (congrArg State.owl h :)
theorem quiet_cfg : t.cfg = s.cfg := (congrArg State.cfg h :)
theorem quiet_tck : t.tck = s.tck := (congrArg State.tck h :)
theorem quiet_scn : t.scn = s.scn := (congrArg State.scn h :)
theorem quiet_free : t.free = s.free := (congrArg State.free h :)
theorem quiet_pending : t.pending = s.pending := (congrArg State.pending h :)
end

end Sys2Proof.Machine
end

