-- ==== Sys2Proof/Laws/Tables.lean ====
section
/-! SUPPORT. Sparse tables: what reading after writing gives, and what a change of every entry gives. -/

namespace Sys2Proof.Machine

theorem lookup_tins_self {α : Type} (k : Nat) (v : α) (t : Tbl α) : (tins k v t).lookup k = some v := by
  induction t with
  | nil => simp [tins]
  | cons a r ih =>
    obtain ⟨j, w⟩ := a
    unfold tins
    by_cases h1 : k < j
    · simp [h1]
    · by_cases h2 : k = j
      · simp [h2]
      · have : (k == j) = false := by simpa using h2
        simp [h1, h2, List.lookup, this, ih]

theorem lookup_tins_ne {α : Type} {k j : Nat} (h : j ≠ k) (v : α) (t : Tbl α) : (tins k v t).lookup j = t.lookup j := by
  induction t with
  | nil => have : (j == k) = false := by simpa using h
           simp [tins, List.lookup, this]
  | cons a r ih =>
    obtain ⟨i, w⟩ := a
    have hk : (j == k) = false := by simpa using h
    unfold tins
    by_cases h1 : k < i
    · simp [h1, List.lookup, hk]
    · by_cases h2 : k = i
      · subst h2; simp [List.lookup, hk]
      · simp only [h1, h2, if_false, List.lookup]
        rw [ih]

theorem lookup_filter_ne_self {α : Type} (k : Nat) (t : Tbl α) : (t.filter (·.1 != k)).lookup k = none := by
  induction t with
  | nil => rfl
  | cons a r ih =>
    obtain ⟨i, w⟩ := a
    by_cases h : i = k
    · simp [h, ih]
    · have h' : (k == i) = false := by simpa using (Ne.symm h)
      simp [h, List.lookup, h', ih]

theorem lookup_filter_ne {α : Type} {k j : Nat} (h : j ≠ k) (t : Tbl α) : (t.filter (·.1 != k)).lookup j = t.lookup j := by
  induction t with
  | nil => rfl
  | cons a r ih =>
    obtain ⟨i, w⟩ := a
    by_cases hi : i = k
    · subst hi
      have h' : (j == i) = false := by simpa using h
      simp [List.lookup, h', ih]
    · by_cases hj : j = i
      · subst hj; simp [hi]
      · have h' : (j == i) = false := by simpa using hj
        simp [hi, List.lookup, h', ih]

/-- Entry k of a table in which entry k was set. -/
@[simp] theorem tget_tset_self {α : Type} [Inhabited α] [DecidableEq α] (t : Tbl α) (k : Nat) (v : α) :
    tget (tset t k v) k = v := by
  unfold tget tset
  by_cases h : v = default
  · simp [h, lookup_filter_ne_self]
  · simp [h, lookup_tins_self]

/-- Setting entry k leaves every other entry alone. -/
theorem tget_tset_ne {α : Type} [Inhabited α] [DecidableEq α] {j k : Nat} (h : j ≠ k) (t : Tbl α) (v : α) :
    tget (tset t k v) j = tget t j := by
  unfold tget tset
  by_cases hv : v = default
  · simp [hv, lookup_filter_ne h]
  · simp [hv, lookup_tins_ne h]

@[simp] theorem tget_nil {α : Type} [Inhabited α] (k : Nat) : tget ([] : Tbl α) k = default := rfl

/-- Entry k of a table with every listed entry changed by f. -/
theorem tget_tmap {α : Type} [Inhabited α] [DecidableEq α] (f : α → α) (t : Tbl α) (k : Nat) :
    tget (tmap f t) k = ((t.lookup k).map f).getD default := by
  induction t with
  | nil => rfl
  | cons x r ih =>
    obtain ⟨j, v⟩ := x
    show tget (tset (tmap f r) j (f v)) k = _
    by_cases h : k = j
    · subst h; simp [List.lookup]
    · have h' : (k == j) = false := by simpa using h
      rw [tget_tset_ne h, ih]; simp [List.lookup, h']

/-- A change that keeps the reset value acts on every entry. -/
theorem tget_tmap_of {α : Type} [Inhabited α] [DecidableEq α] {f : α → α} (h : f default = default) (t : Tbl α) (k : Nat) :
    tget (tmap f t) k = f (tget t k) := by
  rw [tget_tmap]; unfold tget
  cases t.lookup k <;> simp [h]

/-- A property that the reset value has, and that f gives to every entry, holds of every entry of a table changed
by f. -/
theorem tget_tmap_prop {α : Type} [Inhabited α] [DecidableEq α] (p : α → Prop) (f : α → α) (t : Tbl α) (k : Nat)
    (h0 : p default) (hf : ∀ x, p (f x)) : p (tget (tmap f t) k) := by
  rw [tget_tmap]
  cases t.lookup k with
  | none => simpa using h0
  | some x => simpa using hf x

end Sys2Proof.Machine
end

