-- ==== Sys2Proof/Laws/Restart.lean ====
section
/-! SUPPORT. What a restart of the sequencer does. -/

namespace Sys2Proof.Machine

theorem cleared_souts (h : Shroud) (c o : Nat) : (tget (h.cleared c).souts o).st ≠ .on :=
  tget_tmap_prop (fun x : So => x.st ≠ .on) (·.cleared c) h.souts o (by decide) (fun x => by simp [So.cleared])

theorem cleared_prvs (h : Shroud) (c p : Nat) :
    (tget (h.cleared c).prvs p).st ≠ .on ∧ (tget (h.cleared c).prvs p).st ≠ .lsOn :=
  tget_tmap_prop (fun x : Pv => x.st ≠ .on ∧ x.st ≠ .lsOn) (·.cleared c) h.prvs p (by decide) (fun x => by simp [Pv.cleared])

/-- A restart that begins while none is running restarts from its own step with its own source. -/
theorem restart_restarted {s : State} (h : s.rst.restarting = false) (k src : Nat) (b : Bool) :
    s.restartedFrom (s.restart k src b) k src := by
  simp only [State.restartedFrom, State.restart, State.resetBlocks, h, State.outputsOff, State.so, State.pv]
  simp [cleared_souts, cleared_prvs]
  simp [Shroud.cleared]

end Sys2Proof.Machine
end

