-- ==== Sys2Proof/Laws/State.lean ====
section
/-! SUPPORT. The fields of State after each shared update: the update's own part changes, every other field is as before;
an entry of a table that was set reads as what was set, and every other entry as before. -/

namespace Sys2Proof.Machine

/-- The clock passes before every command; nothing else but the time base moves, and what was sent before is gone. -/
@[simp] theorem State.advance_fields (s : State) (dt : Nat) :
    (s.advance dt).mc = s.mc + dt ∧ (s.advance dt).tmb = s.tmb.advance dt ∧ (s.advance dt).out = [] ∧
    (s.advance dt).glb = s.glb ∧ (s.advance dt).die = s.die ∧ (s.advance dt).fr = s.fr ∧ (s.advance dt).prt = s.prt ∧
    (s.advance dt).pw = s.pw ∧ (s.advance dt).aud = s.aud ∧ (s.advance dt).bdg = s.bdg ∧ (s.advance dt).vrd = s.vrd ∧
    (s.advance dt).hst = s.hst ∧ (s.advance dt).cor = s.cor ∧ (s.advance dt).shr = s.shr ∧ (s.advance dt).pch = s.pch ∧
    (s.advance dt).plx = s.plx ∧ (s.advance dt).mem = s.mem ∧ (s.advance dt).rst = s.rst ∧ (s.advance dt).owl = s.owl ∧
    (s.advance dt).nvm = s.nvm ∧ (s.advance dt).cfg = s.cfg ∧ (s.advance dt).log = s.log ∧ (s.advance dt).fox = s.fox ∧
    (s.advance dt).tck = s.tck ∧ (s.advance dt).scn = s.scn ∧ (s.advance dt).free = s.free ∧ (s.advance dt).pending = s.pending :=
  ⟨rfl, rfl, rfl, rfl, rfl, rfl, rfl, rfl, rfl, rfl, rfl, rfl, rfl, rfl, rfl, rfl, rfl, rfl, rfl, rfl, rfl, rfl, rfl, rfl, rfl, rfl, rfl⟩

@[simp] theorem State.modModel_fields (s : State) (m : Nat) (f : ModelSlot → ModelSlot) :
    (s.modModel m f).mc = s.mc ∧ (s.modModel m f).glb = s.glb ∧ (s.modModel m f).die = s.die ∧ (s.modModel m f).fr = s.fr ∧
    (s.modModel m f).prt = s.prt ∧ (s.modModel m f).pw = s.pw ∧ (s.modModel m f).aud = s.aud ∧ (s.modModel m f).vrd = s.vrd ∧
    (s.modModel m f).hst = s.hst ∧ (s.modModel m f).cor = s.cor ∧ (s.modModel m f).shr = s.shr ∧ (s.modModel m f).pch = s.pch ∧
    (s.modModel m f).plx = s.plx ∧ (s.modModel m f).tmb = s.tmb ∧ (s.modModel m f).mem = s.mem ∧ (s.modModel m f).rst = s.rst ∧
    (s.modModel m f).owl = s.owl ∧ (s.modModel m f).nvm = s.nvm ∧ (s.modModel m f).cfg = s.cfg ∧ (s.modModel m f).log = s.log ∧
    (s.modModel m f).fox = s.fox ∧ (s.modModel m f).tck = s.tck ∧ (s.modModel m f).scn = s.scn ∧ (s.modModel m f).out = s.out ∧
    (s.modModel m f).free = s.free ∧ (s.modModel m f).pending = s.pending :=
  ⟨rfl, rfl, rfl, rfl, rfl, rfl, rfl, rfl, rfl, rfl, rfl, rfl, rfl, rfl, rfl, rfl, rfl, rfl, rfl, rfl, rfl, rfl, rfl, rfl, rfl, rfl⟩
@[simp] theorem State.modModel_model (s : State) (m : Nat) (f : ModelSlot → ModelSlot) : (s.modModel m f).model m = f (s.model m) := tget_tset_self _ _ _
theorem State.modModel_model_ne (s : State) (m : Nat) (f : ModelSlot → ModelSlot) {j : Nat} (h : j ≠ m) : (s.modModel m f).model j = s.model j := tget_tset_ne h _ _
@[simp] theorem State.modSource_fields (s : State) (k : Nat) (f : Source → Source) :
    (s.modSource k f).mc = s.mc ∧ (s.modSource k f).glb = s.glb ∧ (s.modSource k f).die = s.die ∧ (s.modSource k f).fr = s.fr ∧
    (s.modSource k f).prt = s.prt ∧ (s.modSource k f).pw = s.pw ∧ (s.modSource k f).aud = s.aud ∧ (s.modSource k f).vrd = s.vrd ∧
    (s.modSource k f).hst = s.hst ∧ (s.modSource k f).cor = s.cor ∧ (s.modSource k f).shr = s.shr ∧ (s.modSource k f).pch = s.pch ∧
    (s.modSource k f).plx = s.plx ∧ (s.modSource k f).tmb = s.tmb ∧ (s.modSource k f).mem = s.mem ∧ (s.modSource k f).rst = s.rst ∧
    (s.modSource k f).owl = s.owl ∧ (s.modSource k f).nvm = s.nvm ∧ (s.modSource k f).cfg = s.cfg ∧ (s.modSource k f).log = s.log ∧
    (s.modSource k f).fox = s.fox ∧ (s.modSource k f).tck = s.tck ∧ (s.modSource k f).scn = s.scn ∧ (s.modSource k f).out = s.out ∧
    (s.modSource k f).free = s.free ∧ (s.modSource k f).pending = s.pending :=
  ⟨rfl, rfl, rfl, rfl, rfl, rfl, rfl, rfl, rfl, rfl, rfl, rfl, rfl, rfl, rfl, rfl, rfl, rfl, rfl, rfl, rfl, rfl, rfl, rfl, rfl, rfl⟩
@[simp] theorem State.modSource_source (s : State) (k : Nat) (f : Source → Source) : (s.modSource k f).source k = f (s.source k) := tget_tset_self _ _ _
theorem State.modSource_source_ne (s : State) (k : Nat) (f : Source → Source) {j : Nat} (h : j ≠ k) : (s.modSource k f).source j = s.source j := tget_tset_ne h _ _
@[simp] theorem State.modBdg_fields (s : State) (f : Badger → Badger) :
    (s.modBdg f).mc = s.mc ∧ (s.modBdg f).glb = s.glb ∧ (s.modBdg f).die = s.die ∧ (s.modBdg f).fr = s.fr ∧ (s.modBdg f).prt = s.prt ∧
    (s.modBdg f).pw = s.pw ∧ (s.modBdg f).aud = s.aud ∧ (s.modBdg f).vrd = s.vrd ∧ (s.modBdg f).hst = s.hst ∧
    (s.modBdg f).cor = s.cor ∧ (s.modBdg f).shr = s.shr ∧ (s.modBdg f).pch = s.pch ∧ (s.modBdg f).plx = s.plx ∧
    (s.modBdg f).tmb = s.tmb ∧ (s.modBdg f).mem = s.mem ∧ (s.modBdg f).rst = s.rst ∧ (s.modBdg f).owl = s.owl ∧
    (s.modBdg f).nvm = s.nvm ∧ (s.modBdg f).cfg = s.cfg ∧ (s.modBdg f).log = s.log ∧ (s.modBdg f).fox = s.fox ∧
    (s.modBdg f).tck = s.tck ∧ (s.modBdg f).scn = s.scn ∧ (s.modBdg f).out = s.out ∧ (s.modBdg f).free = s.free ∧
    (s.modBdg f).pending = s.pending ∧ (s.modBdg f).bdg = f s.bdg :=
  ⟨rfl, rfl, rfl, rfl, rfl, rfl, rfl, rfl, rfl, rfl, rfl, rfl, rfl, rfl, rfl, rfl, rfl, rfl, rfl, rfl, rfl, rfl, rfl, rfl, rfl, rfl, rfl⟩
@[simp] theorem State.modTile_fields (s : State) (t : Nat) (f : Tile → Tile) :
    (s.modTile t f).mc = s.mc ∧ (s.modTile t f).glb = s.glb ∧ (s.modTile t f).die = s.die ∧ (s.modTile t f).fr = s.fr ∧
    (s.modTile t f).prt = s.prt ∧ (s.modTile t f).pw = s.pw ∧ (s.modTile t f).aud = s.aud ∧ (s.modTile t f).vrd = s.vrd ∧
    (s.modTile t f).hst = s.hst ∧ (s.modTile t f).cor = s.cor ∧ (s.modTile t f).shr = s.shr ∧ (s.modTile t f).pch = s.pch ∧
    (s.modTile t f).plx = s.plx ∧ (s.modTile t f).tmb = s.tmb ∧ (s.modTile t f).mem = s.mem ∧ (s.modTile t f).rst = s.rst ∧
    (s.modTile t f).owl = s.owl ∧ (s.modTile t f).nvm = s.nvm ∧ (s.modTile t f).cfg = s.cfg ∧ (s.modTile t f).log = s.log ∧
    (s.modTile t f).fox = s.fox ∧ (s.modTile t f).tck = s.tck ∧ (s.modTile t f).scn = s.scn ∧ (s.modTile t f).out = s.out ∧
    (s.modTile t f).free = s.free ∧ (s.modTile t f).pending = s.pending :=
  ⟨rfl, rfl, rfl, rfl, rfl, rfl, rfl, rfl, rfl, rfl, rfl, rfl, rfl, rfl, rfl, rfl, rfl, rfl, rfl, rfl, rfl, rfl, rfl, rfl, rfl, rfl⟩
@[simp] theorem State.modTile_tile (s : State) (t : Nat) (f : Tile → Tile) : (s.modTile t f).tile t = f (s.tile t) := tget_tset_self _ _ _
theorem State.modTile_tile_ne (s : State) (t : Nat) (f : Tile → Tile) {j : Nat} (h : j ≠ t) : (s.modTile t f).tile j = s.tile j := tget_tset_ne h _ _
@[simp] theorem State.modCfg_fields (s : State) (f : CfgBlock → CfgBlock) :
    (s.modCfg f).mc = s.mc ∧ (s.modCfg f).glb = s.glb ∧ (s.modCfg f).die = s.die ∧ (s.modCfg f).fr = s.fr ∧ (s.modCfg f).prt = s.prt ∧
    (s.modCfg f).pw = s.pw ∧ (s.modCfg f).aud = s.aud ∧ (s.modCfg f).bdg = s.bdg ∧ (s.modCfg f).vrd = s.vrd ∧
    (s.modCfg f).hst = s.hst ∧ (s.modCfg f).cor = s.cor ∧ (s.modCfg f).shr = s.shr ∧ (s.modCfg f).pch = s.pch ∧
    (s.modCfg f).plx = s.plx ∧ (s.modCfg f).tmb = s.tmb ∧ (s.modCfg f).mem = s.mem ∧ (s.modCfg f).rst = s.rst ∧
    (s.modCfg f).owl = s.owl ∧ (s.modCfg f).nvm = s.nvm ∧ (s.modCfg f).log = s.log ∧ (s.modCfg f).fox = s.fox ∧
    (s.modCfg f).tck = s.tck ∧ (s.modCfg f).scn = s.scn ∧ (s.modCfg f).out = s.out ∧ (s.modCfg f).free = s.free ∧
    (s.modCfg f).pending = s.pending ∧ (s.modCfg f).cfg = f s.cfg :=
  ⟨rfl, rfl, rfl, rfl, rfl, rfl, rfl, rfl, rfl, rfl, rfl, rfl, rfl, rfl, rfl, rfl, rfl, rfl, rfl, rfl, rfl, rfl, rfl, rfl, rfl, rfl, rfl⟩
@[simp] theorem State.modNvm_fields (s : State) (f : Nvm → Nvm) :
    (s.modNvm f).mc = s.mc ∧ (s.modNvm f).glb = s.glb ∧ (s.modNvm f).die = s.die ∧ (s.modNvm f).fr = s.fr ∧ (s.modNvm f).prt = s.prt ∧
    (s.modNvm f).pw = s.pw ∧ (s.modNvm f).aud = s.aud ∧ (s.modNvm f).bdg = s.bdg ∧ (s.modNvm f).vrd = s.vrd ∧
    (s.modNvm f).hst = s.hst ∧ (s.modNvm f).cor = s.cor ∧ (s.modNvm f).shr = s.shr ∧ (s.modNvm f).pch = s.pch ∧
    (s.modNvm f).plx = s.plx ∧ (s.modNvm f).tmb = s.tmb ∧ (s.modNvm f).mem = s.mem ∧ (s.modNvm f).rst = s.rst ∧
    (s.modNvm f).owl = s.owl ∧ (s.modNvm f).cfg = s.cfg ∧ (s.modNvm f).log = s.log ∧ (s.modNvm f).fox = s.fox ∧
    (s.modNvm f).tck = s.tck ∧ (s.modNvm f).scn = s.scn ∧ (s.modNvm f).out = s.out ∧ (s.modNvm f).free = s.free ∧
    (s.modNvm f).pending = s.pending ∧ (s.modNvm f).nvm = f s.nvm :=
  ⟨rfl, rfl, rfl, rfl, rfl, rfl, rfl, rfl, rfl, rfl, rfl, rfl, rfl, rfl, rfl, rfl, rfl, rfl, rfl, rfl, rfl, rfl, rfl, rfl, rfl, rfl, rfl⟩
@[simp] theorem State.modCor_fields (s : State) (f : Cores → Cores) :
    (s.modCor f).mc = s.mc ∧ (s.modCor f).glb = s.glb ∧ (s.modCor f).die = s.die ∧ (s.modCor f).fr = s.fr ∧ (s.modCor f).prt = s.prt ∧
    (s.modCor f).pw = s.pw ∧ (s.modCor f).aud = s.aud ∧ (s.modCor f).bdg = s.bdg ∧ (s.modCor f).vrd = s.vrd ∧
    (s.modCor f).hst = s.hst ∧ (s.modCor f).shr = s.shr ∧ (s.modCor f).pch = s.pch ∧ (s.modCor f).plx = s.plx ∧
    (s.modCor f).tmb = s.tmb ∧ (s.modCor f).mem = s.mem ∧ (s.modCor f).rst = s.rst ∧ (s.modCor f).owl = s.owl ∧
    (s.modCor f).nvm = s.nvm ∧ (s.modCor f).cfg = s.cfg ∧ (s.modCor f).log = s.log ∧ (s.modCor f).fox = s.fox ∧
    (s.modCor f).tck = s.tck ∧ (s.modCor f).scn = s.scn ∧ (s.modCor f).out = s.out ∧ (s.modCor f).free = s.free ∧
    (s.modCor f).pending = s.pending ∧ (s.modCor f).cor = f s.cor :=
  ⟨rfl, rfl, rfl, rfl, rfl, rfl, rfl, rfl, rfl, rfl, rfl, rfl, rfl, rfl, rfl, rfl, rfl, rfl, rfl, rfl, rfl, rfl, rfl, rfl, rfl, rfl, rfl⟩
@[simp] theorem State.modCore_fields (s : State) (c : Nat) (f : Core → Core) :
    (s.modCore c f).mc = s.mc ∧ (s.modCore c f).glb = s.glb ∧ (s.modCore c f).die = s.die ∧ (s.modCore c f).fr = s.fr ∧
    (s.modCore c f).prt = s.prt ∧ (s.modCore c f).pw = s.pw ∧ (s.modCore c f).aud = s.aud ∧ (s.modCore c f).bdg = s.bdg ∧
    (s.modCore c f).vrd = s.vrd ∧ (s.modCore c f).hst = s.hst ∧ (s.modCore c f).shr = s.shr ∧ (s.modCore c f).pch = s.pch ∧
    (s.modCore c f).plx = s.plx ∧ (s.modCore c f).tmb = s.tmb ∧ (s.modCore c f).mem = s.mem ∧ (s.modCore c f).rst = s.rst ∧
    (s.modCore c f).owl = s.owl ∧ (s.modCore c f).nvm = s.nvm ∧ (s.modCore c f).cfg = s.cfg ∧ (s.modCore c f).log = s.log ∧
    (s.modCore c f).fox = s.fox ∧ (s.modCore c f).tck = s.tck ∧ (s.modCore c f).scn = s.scn ∧ (s.modCore c f).out = s.out ∧
    (s.modCore c f).free = s.free ∧ (s.modCore c f).pending = s.pending :=
  ⟨rfl, rfl, rfl, rfl, rfl, rfl, rfl, rfl, rfl, rfl, rfl, rfl, rfl, rfl, rfl, rfl, rfl, rfl, rfl, rfl, rfl, rfl, rfl, rfl, rfl, rfl⟩
@[simp] theorem State.modCore_core (s : State) (c : Nat) (f : Core → Core) : (s.modCore c f).core c = f (s.core c) := tget_tset_self _ _ _
theorem State.modCore_core_ne (s : State) (c : Nat) (f : Core → Core) {j : Nat} (h : j ≠ c) : (s.modCore c f).core j = s.core j := tget_tset_ne h _ _
@[simp] theorem State.modFox_fields (s : State) (f : Fox → Fox) :
    (s.modFox f).mc = s.mc ∧ (s.modFox f).glb = s.glb ∧ (s.modFox f).die = s.die ∧ (s.modFox f).fr = s.fr ∧ (s.modFox f).prt = s.prt ∧
    (s.modFox f).pw = s.pw ∧ (s.modFox f).aud = s.aud ∧ (s.modFox f).bdg = s.bdg ∧ (s.modFox f).vrd = s.vrd ∧
    (s.modFox f).hst = s.hst ∧ (s.modFox f).cor = s.cor ∧ (s.modFox f).shr = s.shr ∧ (s.modFox f).pch = s.pch ∧
    (s.modFox f).plx = s.plx ∧ (s.modFox f).tmb = s.tmb ∧ (s.modFox f).mem = s.mem ∧ (s.modFox f).rst = s.rst ∧
    (s.modFox f).owl = s.owl ∧ (s.modFox f).nvm = s.nvm ∧ (s.modFox f).cfg = s.cfg ∧ (s.modFox f).log = s.log ∧
    (s.modFox f).tck = s.tck ∧ (s.modFox f).scn = s.scn ∧ (s.modFox f).out = s.out ∧ (s.modFox f).free = s.free ∧
    (s.modFox f).pending = s.pending ∧ (s.modFox f).fox = f s.fox :=
  ⟨rfl, rfl, rfl, rfl, rfl, rfl, rfl, rfl, rfl, rfl, rfl, rfl, rfl, rfl, rfl, rfl, rfl, rfl, rfl, rfl, rfl, rfl, rfl, rfl, rfl, rfl, rfl⟩
@[simp] theorem State.modQuote_fields (s : State) (fn : Nat) (f : Quote → Quote) :
    (s.modQuote fn f).mc = s.mc ∧ (s.modQuote fn f).glb = s.glb ∧ (s.modQuote fn f).die = s.die ∧ (s.modQuote fn f).fr = s.fr ∧
    (s.modQuote fn f).prt = s.prt ∧ (s.modQuote fn f).pw = s.pw ∧ (s.modQuote fn f).aud = s.aud ∧ (s.modQuote fn f).bdg = s.bdg ∧
    (s.modQuote fn f).vrd = s.vrd ∧ (s.modQuote fn f).hst = s.hst ∧ (s.modQuote fn f).cor = s.cor ∧ (s.modQuote fn f).shr = s.shr ∧
    (s.modQuote fn f).pch = s.pch ∧ (s.modQuote fn f).plx = s.plx ∧ (s.modQuote fn f).tmb = s.tmb ∧ (s.modQuote fn f).mem = s.mem ∧
    (s.modQuote fn f).rst = s.rst ∧ (s.modQuote fn f).owl = s.owl ∧ (s.modQuote fn f).nvm = s.nvm ∧ (s.modQuote fn f).cfg = s.cfg ∧
    (s.modQuote fn f).log = s.log ∧ (s.modQuote fn f).tck = s.tck ∧ (s.modQuote fn f).scn = s.scn ∧ (s.modQuote fn f).out = s.out ∧
    (s.modQuote fn f).free = s.free ∧ (s.modQuote fn f).pending = s.pending :=
  ⟨rfl, rfl, rfl, rfl, rfl, rfl, rfl, rfl, rfl, rfl, rfl, rfl, rfl, rfl, rfl, rfl, rfl, rfl, rfl, rfl, rfl, rfl, rfl, rfl, rfl, rfl⟩
@[simp] theorem State.modQuote_quote (s : State) (fn : Nat) (f : Quote → Quote) : (s.modQuote fn f).quote fn = f (s.quote fn) := tget_tset_self _ _ _
theorem State.modQuote_quote_ne (s : State) (fn : Nat) (f : Quote → Quote) {j : Nat} (h : j ≠ fn) : (s.modQuote fn f).quote j = s.quote j := tget_tset_ne h _ _
@[simp] theorem State.modPulse_fields (s : State) (p : Nat) (f : Pulse → Pulse) :
    (s.modPulse p f).mc = s.mc ∧ (s.modPulse p f).glb = s.glb ∧ (s.modPulse p f).die = s.die ∧ (s.modPulse p f).fr = s.fr ∧
    (s.modPulse p f).prt = s.prt ∧ (s.modPulse p f).pw = s.pw ∧ (s.modPulse p f).aud = s.aud ∧ (s.modPulse p f).bdg = s.bdg ∧
    (s.modPulse p f).vrd = s.vrd ∧ (s.modPulse p f).hst = s.hst ∧ (s.modPulse p f).cor = s.cor ∧ (s.modPulse p f).shr = s.shr ∧
    (s.modPulse p f).pch = s.pch ∧ (s.modPulse p f).plx = s.plx ∧ (s.modPulse p f).mem = s.mem ∧ (s.modPulse p f).rst = s.rst ∧
    (s.modPulse p f).owl = s.owl ∧ (s.modPulse p f).nvm = s.nvm ∧ (s.modPulse p f).cfg = s.cfg ∧ (s.modPulse p f).log = s.log ∧
    (s.modPulse p f).fox = s.fox ∧ (s.modPulse p f).tck = s.tck ∧ (s.modPulse p f).scn = s.scn ∧ (s.modPulse p f).out = s.out ∧
    (s.modPulse p f).free = s.free ∧ (s.modPulse p f).pending = s.pending :=
  ⟨rfl, rfl, rfl, rfl, rfl, rfl, rfl, rfl, rfl, rfl, rfl, rfl, rfl, rfl, rfl, rfl, rfl, rfl, rfl, rfl, rfl, rfl, rfl, rfl, rfl, rfl⟩
@[simp] theorem State.modPulse_pulse (s : State) (p : Nat) (f : Pulse → Pulse) : (s.modPulse p f).pulse p = f (s.pulse p) := tget_tset_self _ _ _
theorem State.modPulse_pulse_ne (s : State) (p : Nat) (f : Pulse → Pulse) {j : Nat} (h : j ≠ p) : (s.modPulse p f).pulse j = s.pulse j := tget_tset_ne h _ _
@[simp] theorem State.modGold_fields (s : State) (p : Nat) (f : Golden → Golden) :
    (s.modGold p f).mc = s.mc ∧ (s.modGold p f).glb = s.glb ∧ (s.modGold p f).die = s.die ∧ (s.modGold p f).fr = s.fr ∧
    (s.modGold p f).prt = s.prt ∧ (s.modGold p f).pw = s.pw ∧ (s.modGold p f).aud = s.aud ∧ (s.modGold p f).bdg = s.bdg ∧
    (s.modGold p f).hst = s.hst ∧ (s.modGold p f).cor = s.cor ∧ (s.modGold p f).shr = s.shr ∧ (s.modGold p f).pch = s.pch ∧
    (s.modGold p f).plx = s.plx ∧ (s.modGold p f).tmb = s.tmb ∧ (s.modGold p f).mem = s.mem ∧ (s.modGold p f).rst = s.rst ∧
    (s.modGold p f).owl = s.owl ∧ (s.modGold p f).nvm = s.nvm ∧ (s.modGold p f).cfg = s.cfg ∧ (s.modGold p f).log = s.log ∧
    (s.modGold p f).fox = s.fox ∧ (s.modGold p f).tck = s.tck ∧ (s.modGold p f).scn = s.scn ∧ (s.modGold p f).out = s.out ∧
    (s.modGold p f).free = s.free ∧ (s.modGold p f).pending = s.pending :=
  ⟨rfl, rfl, rfl, rfl, rfl, rfl, rfl, rfl, rfl, rfl, rfl, rfl, rfl, rfl, rfl, rfl, rfl, rfl, rfl, rfl, rfl, rfl, rfl, rfl, rfl, rfl⟩
@[simp] theorem State.modGold_gold (s : State) (p : Nat) (f : Golden → Golden) : (s.modGold p f).gold p = f (s.gold p) := tget_tset_self _ _ _
theorem State.modGold_gold_ne (s : State) (p : Nat) (f : Golden → Golden) {j : Nat} (h : j ≠ p) : (s.modGold p f).gold j = s.gold j := tget_tset_ne h _ _
@[simp] theorem State.setRing_fields (s : State) (fn r : Nat) (x : Ring) :
    (s.setRing fn r x).mc = s.mc ∧ (s.setRing fn r x).glb = s.glb ∧ (s.setRing fn r x).die = s.die ∧ (s.setRing fn r x).fr = s.fr ∧
    (s.setRing fn r x).prt = s.prt ∧ (s.setRing fn r x).pw = s.pw ∧ (s.setRing fn r x).aud = s.aud ∧ (s.setRing fn r x).bdg = s.bdg ∧
    (s.setRing fn r x).vrd = s.vrd ∧ (s.setRing fn r x).cor = s.cor ∧ (s.setRing fn r x).shr = s.shr ∧ (s.setRing fn r x).pch = s.pch ∧
    (s.setRing fn r x).plx = s.plx ∧ (s.setRing fn r x).tmb = s.tmb ∧ (s.setRing fn r x).mem = s.mem ∧ (s.setRing fn r x).rst = s.rst ∧
    (s.setRing fn r x).owl = s.owl ∧ (s.setRing fn r x).nvm = s.nvm ∧ (s.setRing fn r x).cfg = s.cfg ∧ (s.setRing fn r x).log = s.log ∧
    (s.setRing fn r x).fox = s.fox ∧ (s.setRing fn r x).tck = s.tck ∧ (s.setRing fn r x).scn = s.scn ∧ (s.setRing fn r x).out = s.out ∧
    (s.setRing fn r x).free = s.free ∧ (s.setRing fn r x).pending = s.pending :=
  ⟨rfl, rfl, rfl, rfl, rfl, rfl, rfl, rfl, rfl, rfl, rfl, rfl, rfl, rfl, rfl, rfl, rfl, rfl, rfl, rfl, rfl, rfl, rfl, rfl, rfl, rfl⟩
@[simp] theorem State.modRing_fields (s : State) (fn r : Nat) (f : Ring → Ring) :
    (s.modRing fn r f).mc = s.mc ∧ (s.modRing fn r f).glb = s.glb ∧ (s.modRing fn r f).die = s.die ∧ (s.modRing fn r f).fr = s.fr ∧
    (s.modRing fn r f).prt = s.prt ∧ (s.modRing fn r f).pw = s.pw ∧ (s.modRing fn r f).aud = s.aud ∧ (s.modRing fn r f).bdg = s.bdg ∧
    (s.modRing fn r f).vrd = s.vrd ∧ (s.modRing fn r f).cor = s.cor ∧ (s.modRing fn r f).shr = s.shr ∧ (s.modRing fn r f).pch = s.pch ∧
    (s.modRing fn r f).plx = s.plx ∧ (s.modRing fn r f).tmb = s.tmb ∧ (s.modRing fn r f).mem = s.mem ∧ (s.modRing fn r f).rst = s.rst ∧
    (s.modRing fn r f).owl = s.owl ∧ (s.modRing fn r f).nvm = s.nvm ∧ (s.modRing fn r f).cfg = s.cfg ∧ (s.modRing fn r f).log = s.log ∧
    (s.modRing fn r f).fox = s.fox ∧ (s.modRing fn r f).tck = s.tck ∧ (s.modRing fn r f).scn = s.scn ∧ (s.modRing fn r f).out = s.out ∧
    (s.modRing fn r f).free = s.free ∧ (s.modRing fn r f).pending = s.pending :=
  ⟨rfl, rfl, rfl, rfl, rfl, rfl, rfl, rfl, rfl, rfl, rfl, rfl, rfl, rfl, rfl, rfl, rfl, rfl, rfl, rfl, rfl, rfl, rfl, rfl, rfl, rfl⟩
@[simp] theorem State.setHfn_fields (s : State) (fn : Nat) (x : HostFn) :
    (s.setHfn fn x).mc = s.mc ∧ (s.setHfn fn x).glb = s.glb ∧ (s.setHfn fn x).die = s.die ∧ (s.setHfn fn x).fr = s.fr ∧
    (s.setHfn fn x).prt = s.prt ∧ (s.setHfn fn x).pw = s.pw ∧ (s.setHfn fn x).aud = s.aud ∧ (s.setHfn fn x).bdg = s.bdg ∧
    (s.setHfn fn x).vrd = s.vrd ∧ (s.setHfn fn x).cor = s.cor ∧ (s.setHfn fn x).shr = s.shr ∧ (s.setHfn fn x).pch = s.pch ∧
    (s.setHfn fn x).plx = s.plx ∧ (s.setHfn fn x).tmb = s.tmb ∧ (s.setHfn fn x).mem = s.mem ∧ (s.setHfn fn x).rst = s.rst ∧
    (s.setHfn fn x).owl = s.owl ∧ (s.setHfn fn x).nvm = s.nvm ∧ (s.setHfn fn x).cfg = s.cfg ∧ (s.setHfn fn x).log = s.log ∧
    (s.setHfn fn x).fox = s.fox ∧ (s.setHfn fn x).tck = s.tck ∧ (s.setHfn fn x).scn = s.scn ∧ (s.setHfn fn x).out = s.out ∧
    (s.setHfn fn x).free = s.free ∧ (s.setHfn fn x).pending = s.pending :=
  ⟨rfl, rfl, rfl, rfl, rfl, rfl, rfl, rfl, rfl, rfl, rfl, rfl, rfl, rfl, rfl, rfl, rfl, rfl, rfl, rfl, rfl, rfl, rfl, rfl, rfl, rfl⟩
@[simp] theorem State.setHfn_hfn (s : State) (fn : Nat) (x : HostFn) : (s.setHfn fn x).hfn fn = x := tget_tset_self _ _ _
theorem State.setHfn_hfn_ne (s : State) (fn : Nat) (x : HostFn) {j : Nat} (h : j ≠ fn) : (s.setHfn fn x).hfn j = s.hfn j := tget_tset_ne h _ _
@[simp] theorem State.modHfn_fields (s : State) (fn : Nat) (f : HostFn → HostFn) :
    (s.modHfn fn f).mc = s.mc ∧ (s.modHfn fn f).glb = s.glb ∧ (s.modHfn fn f).die = s.die ∧ (s.modHfn fn f).fr = s.fr ∧
    (s.modHfn fn f).prt = s.prt ∧ (s.modHfn fn f).pw = s.pw ∧ (s.modHfn fn f).aud = s.aud ∧ (s.modHfn fn f).bdg = s.bdg ∧
    (s.modHfn fn f).vrd = s.vrd ∧ (s.modHfn fn f).cor = s.cor ∧ (s.modHfn fn f).shr = s.shr ∧ (s.modHfn fn f).pch = s.pch ∧
    (s.modHfn fn f).plx = s.plx ∧ (s.modHfn fn f).tmb = s.tmb ∧ (s.modHfn fn f).mem = s.mem ∧ (s.modHfn fn f).rst = s.rst ∧
    (s.modHfn fn f).owl = s.owl ∧ (s.modHfn fn f).nvm = s.nvm ∧ (s.modHfn fn f).cfg = s.cfg ∧ (s.modHfn fn f).log = s.log ∧
    (s.modHfn fn f).fox = s.fox ∧ (s.modHfn fn f).tck = s.tck ∧ (s.modHfn fn f).scn = s.scn ∧ (s.modHfn fn f).out = s.out ∧
    (s.modHfn fn f).free = s.free ∧ (s.modHfn fn f).pending = s.pending :=
  ⟨rfl, rfl, rfl, rfl, rfl, rfl, rfl, rfl, rfl, rfl, rfl, rfl, rfl, rfl, rfl, rfl, rfl, rfl, rfl, rfl, rfl, rfl, rfl, rfl, rfl, rfl⟩
@[simp] theorem State.modHfn_hfn (s : State) (fn : Nat) (f : HostFn → HostFn) : (s.modHfn fn f).hfn fn = f (s.hfn fn) := tget_tset_self _ _ _
theorem State.modHfn_hfn_ne (s : State) (fn : Nat) (f : HostFn → HostFn) {j : Nat} (h : j ≠ fn) : (s.modHfn fn f).hfn j = s.hfn j := tget_tset_ne h _ _
@[simp] theorem State.modHst_fields (s : State) (f : Hosts → Hosts) :
    (s.modHst f).mc = s.mc ∧ (s.modHst f).glb = s.glb ∧ (s.modHst f).die = s.die ∧ (s.modHst f).fr = s.fr ∧ (s.modHst f).prt = s.prt ∧
    (s.modHst f).pw = s.pw ∧ (s.modHst f).aud = s.aud ∧ (s.modHst f).bdg = s.bdg ∧ (s.modHst f).vrd = s.vrd ∧
    (s.modHst f).cor = s.cor ∧ (s.modHst f).shr = s.shr ∧ (s.modHst f).pch = s.pch ∧ (s.modHst f).plx = s.plx ∧
    (s.modHst f).tmb = s.tmb ∧ (s.modHst f).mem = s.mem ∧ (s.modHst f).rst = s.rst ∧ (s.modHst f).owl = s.owl ∧
    (s.modHst f).nvm = s.nvm ∧ (s.modHst f).cfg = s.cfg ∧ (s.modHst f).log = s.log ∧ (s.modHst f).fox = s.fox ∧
    (s.modHst f).tck = s.tck ∧ (s.modHst f).scn = s.scn ∧ (s.modHst f).out = s.out ∧ (s.modHst f).free = s.free ∧
    (s.modHst f).pending = s.pending ∧ (s.modHst f).hst = f s.hst :=
  ⟨rfl, rfl, rfl, rfl, rfl, rfl, rfl, rfl, rfl, rfl, rfl, rfl, rfl, rfl, rfl, rfl, rfl, rfl, rfl, rfl, rfl, rfl, rfl, rfl, rfl, rfl, rfl⟩
@[simp] theorem State.modTenant_fields (s : State) (t : Nat) (f : Tenant → Tenant) :
    (s.modTenant t f).mc = s.mc ∧ (s.modTenant t f).glb = s.glb ∧ (s.modTenant t f).die = s.die ∧ (s.modTenant t f).fr = s.fr ∧
    (s.modTenant t f).prt = s.prt ∧ (s.modTenant t f).pw = s.pw ∧ (s.modTenant t f).aud = s.aud ∧ (s.modTenant t f).bdg = s.bdg ∧
    (s.modTenant t f).vrd = s.vrd ∧ (s.modTenant t f).cor = s.cor ∧ (s.modTenant t f).shr = s.shr ∧ (s.modTenant t f).pch = s.pch ∧
    (s.modTenant t f).plx = s.plx ∧ (s.modTenant t f).tmb = s.tmb ∧ (s.modTenant t f).mem = s.mem ∧ (s.modTenant t f).rst = s.rst ∧
    (s.modTenant t f).owl = s.owl ∧ (s.modTenant t f).nvm = s.nvm ∧ (s.modTenant t f).cfg = s.cfg ∧ (s.modTenant t f).log = s.log ∧
    (s.modTenant t f).fox = s.fox ∧ (s.modTenant t f).tck = s.tck ∧ (s.modTenant t f).scn = s.scn ∧ (s.modTenant t f).out = s.out ∧
    (s.modTenant t f).free = s.free ∧ (s.modTenant t f).pending = s.pending :=
  ⟨rfl, rfl, rfl, rfl, rfl, rfl, rfl, rfl, rfl, rfl, rfl, rfl, rfl, rfl, rfl, rfl, rfl, rfl, rfl, rfl, rfl, rfl, rfl, rfl, rfl, rfl⟩
@[simp] theorem State.modOwl_fields (s : State) (i : Nat) (f : Owl → Owl) :
    (s.modOwl i f).mc = s.mc ∧ (s.modOwl i f).glb = s.glb ∧ (s.modOwl i f).die = s.die ∧ (s.modOwl i f).fr = s.fr ∧
    (s.modOwl i f).prt = s.prt ∧ (s.modOwl i f).pw = s.pw ∧ (s.modOwl i f).aud = s.aud ∧ (s.modOwl i f).bdg = s.bdg ∧
    (s.modOwl i f).vrd = s.vrd ∧ (s.modOwl i f).hst = s.hst ∧ (s.modOwl i f).cor = s.cor ∧ (s.modOwl i f).shr = s.shr ∧
    (s.modOwl i f).pch = s.pch ∧ (s.modOwl i f).plx = s.plx ∧ (s.modOwl i f).tmb = s.tmb ∧ (s.modOwl i f).mem = s.mem ∧
    (s.modOwl i f).rst = s.rst ∧ (s.modOwl i f).nvm = s.nvm ∧ (s.modOwl i f).cfg = s.cfg ∧ (s.modOwl i f).log = s.log ∧
    (s.modOwl i f).fox = s.fox ∧ (s.modOwl i f).tck = s.tck ∧ (s.modOwl i f).scn = s.scn ∧ (s.modOwl i f).out = s.out ∧
    (s.modOwl i f).free = s.free ∧ (s.modOwl i f).pending = s.pending :=
  by unfold State.modOwl; split <;> simp
@[simp] theorem State.modMac_fields (s : State) (m : Nat) (f : Mac → Mac) :
    (s.modMac m f).mc = s.mc ∧ (s.modMac m f).glb = s.glb ∧ (s.modMac m f).die = s.die ∧ (s.modMac m f).fr = s.fr ∧
    (s.modMac m f).prt = s.prt ∧ (s.modMac m f).pw = s.pw ∧ (s.modMac m f).aud = s.aud ∧ (s.modMac m f).bdg = s.bdg ∧
    (s.modMac m f).vrd = s.vrd ∧ (s.modMac m f).hst = s.hst ∧ (s.modMac m f).cor = s.cor ∧ (s.modMac m f).shr = s.shr ∧
    (s.modMac m f).pch = s.pch ∧ (s.modMac m f).tmb = s.tmb ∧ (s.modMac m f).mem = s.mem ∧ (s.modMac m f).rst = s.rst ∧
    (s.modMac m f).owl = s.owl ∧ (s.modMac m f).nvm = s.nvm ∧ (s.modMac m f).cfg = s.cfg ∧ (s.modMac m f).log = s.log ∧
    (s.modMac m f).fox = s.fox ∧ (s.modMac m f).tck = s.tck ∧ (s.modMac m f).scn = s.scn ∧ (s.modMac m f).out = s.out ∧
    (s.modMac m f).free = s.free ∧ (s.modMac m f).pending = s.pending :=
  ⟨rfl, rfl, rfl, rfl, rfl, rfl, rfl, rfl, rfl, rfl, rfl, rfl, rfl, rfl, rfl, rfl, rfl, rfl, rfl, rfl, rfl, rfl, rfl, rfl, rfl, rfl⟩
@[simp] theorem State.modMac_mac (s : State) (m : Nat) (f : Mac → Mac) : (s.modMac m f).mac m = f (s.mac m) := tget_tset_self _ _ _
theorem State.modMac_mac_ne (s : State) (m : Nat) (f : Mac → Mac) {j : Nat} (h : j ≠ m) : (s.modMac m f).mac j = s.mac j := tget_tset_ne h _ _
@[simp] theorem State.modScn_fields (s : State) (f : Scan → Scan) :
    (s.modScn f).mc = s.mc ∧ (s.modScn f).glb = s.glb ∧ (s.modScn f).die = s.die ∧ (s.modScn f).fr = s.fr ∧ (s.modScn f).prt = s.prt ∧
    (s.modScn f).pw = s.pw ∧ (s.modScn f).aud = s.aud ∧ (s.modScn f).bdg = s.bdg ∧ (s.modScn f).vrd = s.vrd ∧
    (s.modScn f).hst = s.hst ∧ (s.modScn f).cor = s.cor ∧ (s.modScn f).shr = s.shr ∧ (s.modScn f).pch = s.pch ∧
    (s.modScn f).plx = s.plx ∧ (s.modScn f).tmb = s.tmb ∧ (s.modScn f).mem = s.mem ∧ (s.modScn f).rst = s.rst ∧
    (s.modScn f).owl = s.owl ∧ (s.modScn f).nvm = s.nvm ∧ (s.modScn f).cfg = s.cfg ∧ (s.modScn f).log = s.log ∧
    (s.modScn f).fox = s.fox ∧ (s.modScn f).tck = s.tck ∧ (s.modScn f).out = s.out ∧ (s.modScn f).free = s.free ∧
    (s.modScn f).pending = s.pending ∧ (s.modScn f).scn = f s.scn :=
  ⟨rfl, rfl, rfl, rfl, rfl, rfl, rfl, rfl, rfl, rfl, rfl, rfl, rfl, rfl, rfl, rfl, rfl, rfl, rfl, rfl, rfl, rfl, rfl, rfl, rfl, rfl, rfl⟩
@[simp] theorem State.modMem_fields (s : State) (f : Memory → Memory) :
    (s.modMem f).mc = s.mc ∧ (s.modMem f).glb = s.glb ∧ (s.modMem f).die = s.die ∧ (s.modMem f).fr = s.fr ∧ (s.modMem f).prt = s.prt ∧
    (s.modMem f).pw = s.pw ∧ (s.modMem f).aud = s.aud ∧ (s.modMem f).bdg = s.bdg ∧ (s.modMem f).vrd = s.vrd ∧
    (s.modMem f).hst = s.hst ∧ (s.modMem f).cor = s.cor ∧ (s.modMem f).shr = s.shr ∧ (s.modMem f).pch = s.pch ∧
    (s.modMem f).plx = s.plx ∧ (s.modMem f).tmb = s.tmb ∧ (s.modMem f).rst = s.rst ∧ (s.modMem f).owl = s.owl ∧
    (s.modMem f).nvm = s.nvm ∧ (s.modMem f).cfg = s.cfg ∧ (s.modMem f).log = s.log ∧ (s.modMem f).fox = s.fox ∧
    (s.modMem f).tck = s.tck ∧ (s.modMem f).scn = s.scn ∧ (s.modMem f).out = s.out ∧ (s.modMem f).free = s.free ∧
    (s.modMem f).pending = s.pending ∧ (s.modMem f).mem = f s.mem :=
  ⟨rfl, rfl, rfl, rfl, rfl, rfl, rfl, rfl, rfl, rfl, rfl, rfl, rfl, rfl, rfl, rfl, rfl, rfl, rfl, rfl, rfl, rfl, rfl, rfl, rfl, rfl, rfl⟩
@[simp] theorem State.modBank_fields (s : State) (b : Nat) (f : Bank → Bank) :
    (s.modBank b f).mc = s.mc ∧ (s.modBank b f).glb = s.glb ∧ (s.modBank b f).die = s.die ∧ (s.modBank b f).fr = s.fr ∧
    (s.modBank b f).prt = s.prt ∧ (s.modBank b f).pw = s.pw ∧ (s.modBank b f).aud = s.aud ∧ (s.modBank b f).bdg = s.bdg ∧
    (s.modBank b f).vrd = s.vrd ∧ (s.modBank b f).hst = s.hst ∧ (s.modBank b f).cor = s.cor ∧ (s.modBank b f).shr = s.shr ∧
    (s.modBank b f).pch = s.pch ∧ (s.modBank b f).plx = s.plx ∧ (s.modBank b f).tmb = s.tmb ∧ (s.modBank b f).rst = s.rst ∧
    (s.modBank b f).owl = s.owl ∧ (s.modBank b f).nvm = s.nvm ∧ (s.modBank b f).cfg = s.cfg ∧ (s.modBank b f).log = s.log ∧
    (s.modBank b f).fox = s.fox ∧ (s.modBank b f).tck = s.tck ∧ (s.modBank b f).scn = s.scn ∧ (s.modBank b f).out = s.out ∧
    (s.modBank b f).free = s.free ∧ (s.modBank b f).pending = s.pending :=
  ⟨rfl, rfl, rfl, rfl, rfl, rfl, rfl, rfl, rfl, rfl, rfl, rfl, rfl, rfl, rfl, rfl, rfl, rfl, rfl, rfl, rfl, rfl, rfl, rfl, rfl, rfl⟩
@[simp] theorem State.modBank_bank (s : State) (b : Nat) (f : Bank → Bank) : (s.modBank b f).bank b = f (s.bank b) := tget_tset_self _ _ _
theorem State.modBank_bank_ne (s : State) (b : Nat) (f : Bank → Bank) {j : Nat} (h : j ≠ b) : (s.modBank b f).bank j = s.bank j := tget_tset_ne h _ _
@[simp] theorem State.modSlf_fields (s : State) (f : SelfTest → SelfTest) :
    (s.modSlf f).mc = s.mc ∧ (s.modSlf f).glb = s.glb ∧ (s.modSlf f).die = s.die ∧ (s.modSlf f).fr = s.fr ∧ (s.modSlf f).prt = s.prt ∧
    (s.modSlf f).pw = s.pw ∧ (s.modSlf f).aud = s.aud ∧ (s.modSlf f).bdg = s.bdg ∧ (s.modSlf f).vrd = s.vrd ∧
    (s.modSlf f).hst = s.hst ∧ (s.modSlf f).cor = s.cor ∧ (s.modSlf f).shr = s.shr ∧ (s.modSlf f).pch = s.pch ∧
    (s.modSlf f).plx = s.plx ∧ (s.modSlf f).tmb = s.tmb ∧ (s.modSlf f).mem = s.mem ∧ (s.modSlf f).rst = s.rst ∧
    (s.modSlf f).nvm = s.nvm ∧ (s.modSlf f).cfg = s.cfg ∧ (s.modSlf f).log = s.log ∧ (s.modSlf f).fox = s.fox ∧
    (s.modSlf f).tck = s.tck ∧ (s.modSlf f).scn = s.scn ∧ (s.modSlf f).out = s.out ∧ (s.modSlf f).free = s.free ∧
    (s.modSlf f).pending = s.pending :=
  ⟨rfl, rfl, rfl, rfl, rfl, rfl, rfl, rfl, rfl, rfl, rfl, rfl, rfl, rfl, rfl, rfl, rfl, rfl, rfl, rfl, rfl, rfl, rfl, rfl, rfl, rfl⟩
@[simp] theorem State.setSo_fields (s : State) (o : Nat) (x : So) :
    (s.setSo o x).mc = s.mc ∧ (s.setSo o x).glb = s.glb ∧ (s.setSo o x).die = s.die ∧ (s.setSo o x).fr = s.fr ∧
    (s.setSo o x).prt = s.prt ∧ (s.setSo o x).pw = s.pw ∧ (s.setSo o x).aud = s.aud ∧ (s.setSo o x).bdg = s.bdg ∧
    (s.setSo o x).vrd = s.vrd ∧ (s.setSo o x).hst = s.hst ∧ (s.setSo o x).cor = s.cor ∧ (s.setSo o x).pch = s.pch ∧
    (s.setSo o x).plx = s.plx ∧ (s.setSo o x).tmb = s.tmb ∧ (s.setSo o x).mem = s.mem ∧ (s.setSo o x).rst = s.rst ∧
    (s.setSo o x).owl = s.owl ∧ (s.setSo o x).nvm = s.nvm ∧ (s.setSo o x).cfg = s.cfg ∧ (s.setSo o x).log = s.log ∧
    (s.setSo o x).fox = s.fox ∧ (s.setSo o x).tck = s.tck ∧ (s.setSo o x).scn = s.scn ∧ (s.setSo o x).out = s.out ∧
    (s.setSo o x).free = s.free ∧ (s.setSo o x).pending = s.pending :=
  ⟨rfl, rfl, rfl, rfl, rfl, rfl, rfl, rfl, rfl, rfl, rfl, rfl, rfl, rfl, rfl, rfl, rfl, rfl, rfl, rfl, rfl, rfl, rfl, rfl, rfl, rfl⟩
@[simp] theorem State.setSo_so (s : State) (o : Nat) (x : So) : (s.setSo o x).so o = x := tget_tset_self _ _ _
theorem State.setSo_so_ne (s : State) (o : Nat) (x : So) {j : Nat} (h : j ≠ o) : (s.setSo o x).so j = s.so j := tget_tset_ne h _ _
@[simp] theorem State.setPv_fields (s : State) (p : Nat) (x : Pv) :
    (s.setPv p x).mc = s.mc ∧ (s.setPv p x).glb = s.glb ∧ (s.setPv p x).die = s.die ∧ (s.setPv p x).fr = s.fr ∧
    (s.setPv p x).prt = s.prt ∧ (s.setPv p x).pw = s.pw ∧ (s.setPv p x).aud = s.aud ∧ (s.setPv p x).bdg = s.bdg ∧
    (s.setPv p x).vrd = s.vrd ∧ (s.setPv p x).hst = s.hst ∧ (s.setPv p x).cor = s.cor ∧ (s.setPv p x).pch = s.pch ∧
    (s.setPv p x).plx = s.plx ∧ (s.setPv p x).tmb = s.tmb ∧ (s.setPv p x).mem = s.mem ∧ (s.setPv p x).rst = s.rst ∧
    (s.setPv p x).owl = s.owl ∧ (s.setPv p x).nvm = s.nvm ∧ (s.setPv p x).cfg = s.cfg ∧ (s.setPv p x).log = s.log ∧
    (s.setPv p x).fox = s.fox ∧ (s.setPv p x).tck = s.tck ∧ (s.setPv p x).scn = s.scn ∧ (s.setPv p x).out = s.out ∧
    (s.setPv p x).free = s.free ∧ (s.setPv p x).pending = s.pending :=
  ⟨rfl, rfl, rfl, rfl, rfl, rfl, rfl, rfl, rfl, rfl, rfl, rfl, rfl, rfl, rfl, rfl, rfl, rfl, rfl, rfl, rfl, rfl, rfl, rfl, rfl, rfl⟩
@[simp] theorem State.setPv_pv (s : State) (p : Nat) (x : Pv) : (s.setPv p x).pv p = x := tget_tset_self _ _ _
theorem State.setPv_pv_ne (s : State) (p : Nat) (x : Pv) {j : Nat} (h : j ≠ p) : (s.setPv p x).pv j = s.pv j := tget_tset_ne h _ _
@[simp] theorem State.setChl_fields (s : State) (i : Nat) (c : Challenge) :
    (s.setChl i c).mc = s.mc ∧ (s.setChl i c).glb = s.glb ∧ (s.setChl i c).die = s.die ∧ (s.setChl i c).fr = s.fr ∧
    (s.setChl i c).prt = s.prt ∧ (s.setChl i c).pw = s.pw ∧ (s.setChl i c).bdg = s.bdg ∧ (s.setChl i c).vrd = s.vrd ∧
    (s.setChl i c).hst = s.hst ∧ (s.setChl i c).cor = s.cor ∧ (s.setChl i c).shr = s.shr ∧ (s.setChl i c).pch = s.pch ∧
    (s.setChl i c).plx = s.plx ∧ (s.setChl i c).tmb = s.tmb ∧ (s.setChl i c).mem = s.mem ∧ (s.setChl i c).rst = s.rst ∧
    (s.setChl i c).owl = s.owl ∧ (s.setChl i c).nvm = s.nvm ∧ (s.setChl i c).cfg = s.cfg ∧ (s.setChl i c).log = s.log ∧
    (s.setChl i c).fox = s.fox ∧ (s.setChl i c).tck = s.tck ∧ (s.setChl i c).scn = s.scn ∧ (s.setChl i c).out = s.out ∧
    (s.setChl i c).free = s.free ∧ (s.setChl i c).pending = s.pending :=
  ⟨rfl, rfl, rfl, rfl, rfl, rfl, rfl, rfl, rfl, rfl, rfl, rfl, rfl, rfl, rfl, rfl, rfl, rfl, rfl, rfl, rfl, rfl, rfl, rfl, rfl, rfl⟩
@[simp] theorem State.modStt_fields (s : State) (f : Stoat → Stoat) :
    (s.modStt f).mc = s.mc ∧ (s.modStt f).glb = s.glb ∧ (s.modStt f).die = s.die ∧ (s.modStt f).fr = s.fr ∧ (s.modStt f).prt = s.prt ∧
    (s.modStt f).pw = s.pw ∧ (s.modStt f).bdg = s.bdg ∧ (s.modStt f).vrd = s.vrd ∧ (s.modStt f).hst = s.hst ∧
    (s.modStt f).cor = s.cor ∧ (s.modStt f).shr = s.shr ∧ (s.modStt f).pch = s.pch ∧ (s.modStt f).plx = s.plx ∧
    (s.modStt f).tmb = s.tmb ∧ (s.modStt f).mem = s.mem ∧ (s.modStt f).rst = s.rst ∧ (s.modStt f).owl = s.owl ∧
    (s.modStt f).nvm = s.nvm ∧ (s.modStt f).cfg = s.cfg ∧ (s.modStt f).log = s.log ∧ (s.modStt f).fox = s.fox ∧
    (s.modStt f).tck = s.tck ∧ (s.modStt f).scn = s.scn ∧ (s.modStt f).out = s.out ∧ (s.modStt f).free = s.free ∧
    (s.modStt f).pending = s.pending :=
  ⟨rfl, rfl, rfl, rfl, rfl, rfl, rfl, rfl, rfl, rfl, rfl, rfl, rfl, rfl, rfl, rfl, rfl, rfl, rfl, rfl, rfl, rfl, rfl, rfl, rfl, rfl⟩
@[simp] theorem State.modEng_fields (s : State) (e : Nat) (f : Engine → Engine) :
    (s.modEng e f).mc = s.mc ∧ (s.modEng e f).glb = s.glb ∧ (s.modEng e f).die = s.die ∧ (s.modEng e f).fr = s.fr ∧
    (s.modEng e f).prt = s.prt ∧ (s.modEng e f).pw = s.pw ∧ (s.modEng e f).bdg = s.bdg ∧ (s.modEng e f).vrd = s.vrd ∧
    (s.modEng e f).hst = s.hst ∧ (s.modEng e f).cor = s.cor ∧ (s.modEng e f).shr = s.shr ∧ (s.modEng e f).pch = s.pch ∧
    (s.modEng e f).plx = s.plx ∧ (s.modEng e f).tmb = s.tmb ∧ (s.modEng e f).mem = s.mem ∧ (s.modEng e f).rst = s.rst ∧
    (s.modEng e f).owl = s.owl ∧ (s.modEng e f).nvm = s.nvm ∧ (s.modEng e f).cfg = s.cfg ∧ (s.modEng e f).log = s.log ∧
    (s.modEng e f).fox = s.fox ∧ (s.modEng e f).tck = s.tck ∧ (s.modEng e f).scn = s.scn ∧ (s.modEng e f).out = s.out ∧
    (s.modEng e f).free = s.free ∧ (s.modEng e f).pending = s.pending :=
  ⟨rfl, rfl, rfl, rfl, rfl, rfl, rfl, rfl, rfl, rfl, rfl, rfl, rfl, rfl, rfl, rfl, rfl, rfl, rfl, rfl, rfl, rfl, rfl, rfl, rfl, rfl⟩
@[simp] theorem State.modEng_eng (s : State) (e : Nat) (f : Engine → Engine) : (s.modEng e f).eng e = f (s.eng e) := tget_tset_self _ _ _
theorem State.modEng_eng_ne (s : State) (e : Nat) (f : Engine → Engine) {j : Nat} (h : j ≠ e) : (s.modEng e f).eng j = s.eng j := tget_tset_ne h _ _
@[simp] theorem State.modTck_fields (s : State) (f : Tack → Tack) :
    (s.modTck f).mc = s.mc ∧ (s.modTck f).glb = s.glb ∧ (s.modTck f).die = s.die ∧ (s.modTck f).fr = s.fr ∧ (s.modTck f).prt = s.prt ∧
    (s.modTck f).pw = s.pw ∧ (s.modTck f).aud = s.aud ∧ (s.modTck f).bdg = s.bdg ∧ (s.modTck f).vrd = s.vrd ∧
    (s.modTck f).hst = s.hst ∧ (s.modTck f).cor = s.cor ∧ (s.modTck f).shr = s.shr ∧ (s.modTck f).pch = s.pch ∧
    (s.modTck f).plx = s.plx ∧ (s.modTck f).tmb = s.tmb ∧ (s.modTck f).mem = s.mem ∧ (s.modTck f).rst = s.rst ∧
    (s.modTck f).owl = s.owl ∧ (s.modTck f).nvm = s.nvm ∧ (s.modTck f).cfg = s.cfg ∧ (s.modTck f).log = s.log ∧
    (s.modTck f).fox = s.fox ∧ (s.modTck f).scn = s.scn ∧ (s.modTck f).out = s.out ∧ (s.modTck f).free = s.free ∧
    (s.modTck f).pending = s.pending ∧ (s.modTck f).tck = f s.tck :=
  ⟨rfl, rfl, rfl, rfl, rfl, rfl, rfl, rfl, rfl, rfl, rfl, rfl, rfl, rfl, rfl, rfl, rfl, rfl, rfl, rfl, rfl, rfl, rfl, rfl, rfl, rfl, rfl⟩
@[simp] theorem State.setConn_fields (s : State) (i : Nat) (x : Conn) :
    (s.setConn i x).mc = s.mc ∧ (s.setConn i x).glb = s.glb ∧ (s.setConn i x).die = s.die ∧ (s.setConn i x).fr = s.fr ∧
    (s.setConn i x).prt = s.prt ∧ (s.setConn i x).pw = s.pw ∧ (s.setConn i x).aud = s.aud ∧ (s.setConn i x).bdg = s.bdg ∧
    (s.setConn i x).vrd = s.vrd ∧ (s.setConn i x).hst = s.hst ∧ (s.setConn i x).cor = s.cor ∧ (s.setConn i x).shr = s.shr ∧
    (s.setConn i x).pch = s.pch ∧ (s.setConn i x).tmb = s.tmb ∧ (s.setConn i x).mem = s.mem ∧ (s.setConn i x).rst = s.rst ∧
    (s.setConn i x).owl = s.owl ∧ (s.setConn i x).nvm = s.nvm ∧ (s.setConn i x).cfg = s.cfg ∧ (s.setConn i x).log = s.log ∧
    (s.setConn i x).fox = s.fox ∧ (s.setConn i x).tck = s.tck ∧ (s.setConn i x).scn = s.scn ∧ (s.setConn i x).out = s.out ∧
    (s.setConn i x).free = s.free ∧ (s.setConn i x).pending = s.pending :=
  ⟨rfl, rfl, rfl, rfl, rfl, rfl, rfl, rfl, rfl, rfl, rfl, rfl, rfl, rfl, rfl, rfl, rfl, rfl, rfl, rfl, rfl, rfl, rfl, rfl, rfl, rfl⟩
@[simp] theorem State.setConn_conn (s : State) (i : Nat) (x : Conn) : (s.setConn i x).conn i = x := tget_tset_self _ _ _
theorem State.setConn_conn_ne (s : State) (i : Nat) (x : Conn) {j : Nat} (h : j ≠ i) : (s.setConn i x).conn j = s.conn j := tget_tset_ne h _ _
@[simp] theorem State.modConn_fields (s : State) (i : Nat) (f : Conn → Conn) :
    (s.modConn i f).mc = s.mc ∧ (s.modConn i f).glb = s.glb ∧ (s.modConn i f).die = s.die ∧ (s.modConn i f).fr = s.fr ∧
    (s.modConn i f).prt = s.prt ∧ (s.modConn i f).pw = s.pw ∧ (s.modConn i f).aud = s.aud ∧ (s.modConn i f).bdg = s.bdg ∧
    (s.modConn i f).vrd = s.vrd ∧ (s.modConn i f).hst = s.hst ∧ (s.modConn i f).cor = s.cor ∧ (s.modConn i f).shr = s.shr ∧
    (s.modConn i f).pch = s.pch ∧ (s.modConn i f).tmb = s.tmb ∧ (s.modConn i f).mem = s.mem ∧ (s.modConn i f).rst = s.rst ∧
    (s.modConn i f).owl = s.owl ∧ (s.modConn i f).nvm = s.nvm ∧ (s.modConn i f).cfg = s.cfg ∧ (s.modConn i f).log = s.log ∧
    (s.modConn i f).fox = s.fox ∧ (s.modConn i f).tck = s.tck ∧ (s.modConn i f).scn = s.scn ∧ (s.modConn i f).out = s.out ∧
    (s.modConn i f).free = s.free ∧ (s.modConn i f).pending = s.pending :=
  ⟨rfl, rfl, rfl, rfl, rfl, rfl, rfl, rfl, rfl, rfl, rfl, rfl, rfl, rfl, rfl, rfl, rfl, rfl, rfl, rfl, rfl, rfl, rfl, rfl, rfl, rfl⟩
@[simp] theorem State.modConn_conn (s : State) (i : Nat) (f : Conn → Conn) : (s.modConn i f).conn i = f (s.conn i) := tget_tset_self _ _ _
theorem State.modConn_conn_ne (s : State) (i : Nat) (f : Conn → Conn) {j : Nat} (h : j ≠ i) : (s.modConn i f).conn j = s.conn j := tget_tset_ne h _ _
@[simp] theorem State.setWatch_fields (s : State) (c : Nat) (x : Watch) :
    (s.setWatch c x).mc = s.mc ∧ (s.setWatch c x).glb = s.glb ∧ (s.setWatch c x).die = s.die ∧ (s.setWatch c x).fr = s.fr ∧
    (s.setWatch c x).prt = s.prt ∧ (s.setWatch c x).pw = s.pw ∧ (s.setWatch c x).aud = s.aud ∧ (s.setWatch c x).bdg = s.bdg ∧
    (s.setWatch c x).hst = s.hst ∧ (s.setWatch c x).cor = s.cor ∧ (s.setWatch c x).shr = s.shr ∧ (s.setWatch c x).pch = s.pch ∧
    (s.setWatch c x).plx = s.plx ∧ (s.setWatch c x).tmb = s.tmb ∧ (s.setWatch c x).mem = s.mem ∧ (s.setWatch c x).rst = s.rst ∧
    (s.setWatch c x).owl = s.owl ∧ (s.setWatch c x).nvm = s.nvm ∧ (s.setWatch c x).cfg = s.cfg ∧ (s.setWatch c x).log = s.log ∧
    (s.setWatch c x).fox = s.fox ∧ (s.setWatch c x).tck = s.tck ∧ (s.setWatch c x).scn = s.scn ∧ (s.setWatch c x).out = s.out ∧
    (s.setWatch c x).free = s.free ∧ (s.setWatch c x).pending = s.pending :=
  ⟨rfl, rfl, rfl, rfl, rfl, rfl, rfl, rfl, rfl, rfl, rfl, rfl, rfl, rfl, rfl, rfl, rfl, rfl, rfl, rfl, rfl, rfl, rfl, rfl, rfl, rfl⟩
@[simp] theorem State.setWatch_watch (s : State) (c : Nat) (x : Watch) : (s.setWatch c x).watch c = x := tget_tset_self _ _ _
theorem State.setWatch_watch_ne (s : State) (c : Nat) (x : Watch) {j : Nat} (h : j ≠ c) : (s.setWatch c x).watch j = s.watch j := tget_tset_ne h _ _
@[simp] theorem State.modWatch_fields (s : State) (c : Nat) (f : Watch → Watch) :
    (s.modWatch c f).mc = s.mc ∧ (s.modWatch c f).glb = s.glb ∧ (s.modWatch c f).die = s.die ∧ (s.modWatch c f).fr = s.fr ∧
    (s.modWatch c f).prt = s.prt ∧ (s.modWatch c f).pw = s.pw ∧ (s.modWatch c f).aud = s.aud ∧ (s.modWatch c f).bdg = s.bdg ∧
    (s.modWatch c f).hst = s.hst ∧ (s.modWatch c f).cor = s.cor ∧ (s.modWatch c f).shr = s.shr ∧ (s.modWatch c f).pch = s.pch ∧
    (s.modWatch c f).plx = s.plx ∧ (s.modWatch c f).tmb = s.tmb ∧ (s.modWatch c f).mem = s.mem ∧ (s.modWatch c f).rst = s.rst ∧
    (s.modWatch c f).owl = s.owl ∧ (s.modWatch c f).nvm = s.nvm ∧ (s.modWatch c f).cfg = s.cfg ∧ (s.modWatch c f).log = s.log ∧
    (s.modWatch c f).fox = s.fox ∧ (s.modWatch c f).tck = s.tck ∧ (s.modWatch c f).scn = s.scn ∧ (s.modWatch c f).out = s.out ∧
    (s.modWatch c f).free = s.free ∧ (s.modWatch c f).pending = s.pending :=
  ⟨rfl, rfl, rfl, rfl, rfl, rfl, rfl, rfl, rfl, rfl, rfl, rfl, rfl, rfl, rfl, rfl, rfl, rfl, rfl, rfl, rfl, rfl, rfl, rfl, rfl, rfl⟩
@[simp] theorem State.modWatch_watch (s : State) (c : Nat) (f : Watch → Watch) : (s.modWatch c f).watch c = f (s.watch c) := tget_tset_self _ _ _
theorem State.modWatch_watch_ne (s : State) (c : Nat) (f : Watch → Watch) {j : Nat} (h : j ≠ c) : (s.modWatch c f).watch j = s.watch j := tget_tset_ne h _ _
@[simp] theorem State.modTmb_fields (s : State) (f : TimeBase → TimeBase) :
    (s.modTmb f).mc = s.mc ∧ (s.modTmb f).glb = s.glb ∧ (s.modTmb f).die = s.die ∧ (s.modTmb f).fr = s.fr ∧ (s.modTmb f).prt = s.prt ∧
    (s.modTmb f).pw = s.pw ∧ (s.modTmb f).aud = s.aud ∧ (s.modTmb f).bdg = s.bdg ∧ (s.modTmb f).vrd = s.vrd ∧
    (s.modTmb f).hst = s.hst ∧ (s.modTmb f).cor = s.cor ∧ (s.modTmb f).shr = s.shr ∧ (s.modTmb f).pch = s.pch ∧
    (s.modTmb f).plx = s.plx ∧ (s.modTmb f).mem = s.mem ∧ (s.modTmb f).rst = s.rst ∧ (s.modTmb f).owl = s.owl ∧
    (s.modTmb f).nvm = s.nvm ∧ (s.modTmb f).cfg = s.cfg ∧ (s.modTmb f).log = s.log ∧ (s.modTmb f).fox = s.fox ∧
    (s.modTmb f).tck = s.tck ∧ (s.modTmb f).scn = s.scn ∧ (s.modTmb f).out = s.out ∧ (s.modTmb f).free = s.free ∧
    (s.modTmb f).pending = s.pending ∧ (s.modTmb f).tmb = f s.tmb :=
  ⟨rfl, rfl, rfl, rfl, rfl, rfl, rfl, rfl, rfl, rfl, rfl, rfl, rfl, rfl, rfl, rfl, rfl, rfl, rfl, rfl, rfl, rfl, rfl, rfl, rfl, rfl, rfl⟩
@[simp] theorem State.modSlot_fields (s : State) (i : Nat) (f : Slot → Slot) :
    (s.modSlot i f).mc = s.mc ∧ (s.modSlot i f).glb = s.glb ∧ (s.modSlot i f).die = s.die ∧ (s.modSlot i f).fr = s.fr ∧
    (s.modSlot i f).prt = s.prt ∧ (s.modSlot i f).aud = s.aud ∧ (s.modSlot i f).bdg = s.bdg ∧ (s.modSlot i f).vrd = s.vrd ∧
    (s.modSlot i f).hst = s.hst ∧ (s.modSlot i f).cor = s.cor ∧ (s.modSlot i f).shr = s.shr ∧ (s.modSlot i f).pch = s.pch ∧
    (s.modSlot i f).plx = s.plx ∧ (s.modSlot i f).tmb = s.tmb ∧ (s.modSlot i f).mem = s.mem ∧ (s.modSlot i f).rst = s.rst ∧
    (s.modSlot i f).owl = s.owl ∧ (s.modSlot i f).nvm = s.nvm ∧ (s.modSlot i f).cfg = s.cfg ∧ (s.modSlot i f).log = s.log ∧
    (s.modSlot i f).fox = s.fox ∧ (s.modSlot i f).tck = s.tck ∧ (s.modSlot i f).scn = s.scn ∧ (s.modSlot i f).out = s.out ∧
    (s.modSlot i f).free = s.free ∧ (s.modSlot i f).pending = s.pending :=
  ⟨rfl, rfl, rfl, rfl, rfl, rfl, rfl, rfl, rfl, rfl, rfl, rfl, rfl, rfl, rfl, rfl, rfl, rfl, rfl, rfl, rfl, rfl, rfl, rfl, rfl, rfl⟩
@[simp] theorem State.modSlot_slot (s : State) (i : Nat) (f : Slot → Slot) : (s.modSlot i f).slot i = f (s.slot i) := tget_tset_self _ _ _
theorem State.modSlot_slot_ne (s : State) (i : Nat) (f : Slot → Slot) {j : Nat} (h : j ≠ i) : (s.modSlot i f).slot j = s.slot j := tget_tset_ne h _ _
@[simp] theorem State.modPlan_fields (s : State) (p : Nat) (f : PlanSlot → PlanSlot) :
    (s.modPlan p f).mc = s.mc ∧ (s.modPlan p f).glb = s.glb ∧ (s.modPlan p f).die = s.die ∧ (s.modPlan p f).fr = s.fr ∧
    (s.modPlan p f).prt = s.prt ∧ (s.modPlan p f).pw = s.pw ∧ (s.modPlan p f).bdg = s.bdg ∧ (s.modPlan p f).vrd = s.vrd ∧
    (s.modPlan p f).hst = s.hst ∧ (s.modPlan p f).cor = s.cor ∧ (s.modPlan p f).shr = s.shr ∧ (s.modPlan p f).pch = s.pch ∧
    (s.modPlan p f).plx = s.plx ∧ (s.modPlan p f).tmb = s.tmb ∧ (s.modPlan p f).mem = s.mem ∧ (s.modPlan p f).rst = s.rst ∧
    (s.modPlan p f).owl = s.owl ∧ (s.modPlan p f).nvm = s.nvm ∧ (s.modPlan p f).cfg = s.cfg ∧ (s.modPlan p f).log = s.log ∧
    (s.modPlan p f).fox = s.fox ∧ (s.modPlan p f).tck = s.tck ∧ (s.modPlan p f).scn = s.scn ∧ (s.modPlan p f).out = s.out ∧
    (s.modPlan p f).free = s.free ∧ (s.modPlan p f).pending = s.pending :=
  ⟨rfl, rfl, rfl, rfl, rfl, rfl, rfl, rfl, rfl, rfl, rfl, rfl, rfl, rfl, rfl, rfl, rfl, rfl, rfl, rfl, rfl, rfl, rfl, rfl, rfl, rfl⟩
@[simp] theorem State.modPlan_plan (s : State) (p : Nat) (f : PlanSlot → PlanSlot) : (s.modPlan p f).plan p = f (s.plan p) := tget_tset_self _ _ _
theorem State.modPlan_plan_ne (s : State) (p : Nat) (f : PlanSlot → PlanSlot) {j : Nat} (h : j ≠ p) : (s.modPlan p f).plan j = s.plan j := tget_tset_ne h _ _
@[simp] theorem State.setLane_fields (s : State) (l : Nat) (x : LaneState) :
    (s.setLane l x).mc = s.mc ∧ (s.setLane l x).glb = s.glb ∧ (s.setLane l x).die = s.die ∧ (s.setLane l x).fr = s.fr ∧
    (s.setLane l x).prt = s.prt ∧ (s.setLane l x).pw = s.pw ∧ (s.setLane l x).aud = s.aud ∧ (s.setLane l x).bdg = s.bdg ∧
    (s.setLane l x).hst = s.hst ∧ (s.setLane l x).cor = s.cor ∧ (s.setLane l x).shr = s.shr ∧ (s.setLane l x).pch = s.pch ∧
    (s.setLane l x).plx = s.plx ∧ (s.setLane l x).tmb = s.tmb ∧ (s.setLane l x).mem = s.mem ∧ (s.setLane l x).rst = s.rst ∧
    (s.setLane l x).owl = s.owl ∧ (s.setLane l x).nvm = s.nvm ∧ (s.setLane l x).cfg = s.cfg ∧ (s.setLane l x).log = s.log ∧
    (s.setLane l x).fox = s.fox ∧ (s.setLane l x).tck = s.tck ∧ (s.setLane l x).scn = s.scn ∧ (s.setLane l x).out = s.out ∧
    (s.setLane l x).free = s.free ∧ (s.setLane l x).pending = s.pending :=
  ⟨rfl, rfl, rfl, rfl, rfl, rfl, rfl, rfl, rfl, rfl, rfl, rfl, rfl, rfl, rfl, rfl, rfl, rfl, rfl, rfl, rfl, rfl, rfl, rfl, rfl, rfl⟩
@[simp] theorem State.setLane_lane (s : State) (l : Nat) (x : LaneState) : (s.setLane l x).lane l = x := tget_tset_self _ _ _
theorem State.setLane_lane_ne (s : State) (l : Nat) (x : LaneState) {j : Nat} (h : j ≠ l) : (s.setLane l x).lane j = s.lane j := tget_tset_ne h _ _
@[simp] theorem State.emit_fields (s : State) (x : Out) :
    (s.emit x).mc = s.mc ∧ (s.emit x).glb = s.glb ∧ (s.emit x).die = s.die ∧ (s.emit x).fr = s.fr ∧ (s.emit x).prt = s.prt ∧
    (s.emit x).pw = s.pw ∧ (s.emit x).aud = s.aud ∧ (s.emit x).bdg = s.bdg ∧ (s.emit x).vrd = s.vrd ∧ (s.emit x).hst = s.hst ∧
    (s.emit x).cor = s.cor ∧ (s.emit x).shr = s.shr ∧ (s.emit x).pch = s.pch ∧ (s.emit x).plx = s.plx ∧ (s.emit x).tmb = s.tmb ∧
    (s.emit x).mem = s.mem ∧ (s.emit x).rst = s.rst ∧ (s.emit x).owl = s.owl ∧ (s.emit x).nvm = s.nvm ∧ (s.emit x).cfg = s.cfg ∧
    (s.emit x).log = s.log ∧ (s.emit x).fox = s.fox ∧ (s.emit x).tck = s.tck ∧ (s.emit x).scn = s.scn ∧ (s.emit x).free = s.free ∧
    (s.emit x).pending = s.pending ∧ (s.emit x).out = s.out ++ [x] :=
  ⟨rfl, rfl, rfl, rfl, rfl, rfl, rfl, rfl, rfl, rfl, rfl, rfl, rfl, rfl, rfl, rfl, rfl, rfl, rfl, rfl, rfl, rfl, rfl, rfl, rfl, rfl, rfl⟩

end Sys2Proof.Machine
end

