-- ==== Sys2Proof/WellFormed.lean ====
section
/-! DEFINITION. Well-formed commands: the ranges that the spec gives their operands. A meaning does not rely on them: a
number outside its range names nothing, and its command changes only the clock. -/

namespace Sys2Proof

/-- A datagram's fields are within their widths: MACs 0 to 3 (R586), a 12-bit VLAN, 16-bit ports, a 16-byte address. -/
def Datagram.wf (d : Datagram) : Bool :=
  decide (d.mac < 4 ∧ d.vlan < 4096 ∧ d.dmac < 2 ^ 48 ∧ d.srcIp.length = 16 ∧ d.srcPort < 65536 ∧ d.dstPort < 65536)

/-- An operation has the 512 inputs of a macro and the accumulators of its 8 reference columns (R278). -/
def RefOp.wf (o : RefOp) : Bool := decide (o.1.length ≤ 512 ∧ o.2.length = 8)

/-- The operands of a command are in the ranges of the spec. -/
def Instr.wf : Instr → Bool
  | .powerOn _ _ => true
  | .sysReset _ _ => true
  | .domainRelease _ k _ good => decide (k ≤ 10 ∧ good.all (fun j => 1 ≤ j ∧ j ≤ 10) = true)
  | .hold _ k cond => decide (1 ≤ k ∧ k ≤ 10 ∧ cond < 256)
  | .clockFault _ which step => decide (which < 3 ∧ (which = 2 → 4 ≤ step ∧ step ≤ 9))
  | .powerGoodFailure _ step => decide (1 ≤ step ∧ step ≤ 7)
  | .domainPowerGoodTimeout _ d => decide (d < 132)
  | .thermalTrip _ => true
  | .thermalTripHoldEnd _ => true
  | .foxSoftwareRequest _ => true
  | .powerFailWarning _ src => decide (src < 3)
  | .brownout _ => true
  | .returnWipe _ => true
  | .injectionTest _ passed first us => decide (passed < 16 ∧ first < 16 ∧ us < 65536)
  | .bootComplete _ => true
  | .startupCalibrationDone _ mask resids coefs => decide (mask < 512 ∧ resids.length = 9 ∧ coefs.length = 9 ∧ coefs.all (fun l => l.length ≤ 16896 && l.all (· < 65536)) = true)
  | .frameTick _ => true
  | .dC _ => true
  | .mailboxPosted _ => true
  | .dV _ lanes => decide (lanes < 2 ^ 16)
  | .ingEnd _ => true
  | .shdStart _ => true
  | .shdEnd _ => true
  | .gldStart _ => true
  | .gldEnd _ => true
  | .slfStart _ => true
  | .slfEnd _ => true
  | .closeOut _ => true
  | .configActivate _ => true
  | .safetyFwActivate _ => true
  | .sync _ m domNs => decide (m < 4 ∧ domNs < 2 ^ 64)
  | .ppsInEdge _ => true
  | .syncTimeout _ => true
  | .holdoverExpiry _ => true
  | .gmChange _ m gm => decide (m < 4 ∧ gm < 2 ^ 64)
  | .pulseArm _ fn p v => decide (fn < 8 ∧ p < 8 ∧ v < 2 ^ 32 ∧ v / 8 % 2 = 1)
  | .pulseDisarm _ fn p v => decide (fn < 8 ∧ p < 8 ∧ v < 2 ^ 32 ∧ v % 4 = 0)
  | .pulseFire _ p => decide (p < 8)
  | .pulseEnd _ p => decide (p < 8)
  | .reportWindowWrite _ slot off data _ => decide (slot < 128 ∧ off + data.length ≤ 2 ^ 28)
  | .reportComplete _ _ slot => decide (slot < 128)
  | .goldenReportWrite _ off data _ => decide (off + data.length ≤ 2 ^ 28)
  | .openingWrite _ off data _ => decide (off + data.length ≤ 2 ^ 32)
  | .goldenInputRead _ off n => decide (off < 2 ^ 32 ∧ 1 ≤ n)
  | .portWInvalidWrite _ kind off _ _ => decide (kind < 3 ∧ off < 2 ^ 36)
  | .portWInvalidRead _ kind off n => decide (kind < 2 ∧ off < 2 ^ 36 ∧ 1 ≤ n)
  | .portWLinkDown _ => true
  | .wportLink _ speed width => decide (1 ≤ speed ∧ speed ≤ 5 ∧ [1, 2, 4, 8, 16].contains width)
  | .leafVerify _ i k => decide (i < 2 ^ 16 ∧ k < 2 ^ 16)
  | .sha3Mismatch _ k => decide (k < 8)
  | .challengeWeightsInPlace _ i => decide (i < 2 ^ 16)
  | .unitDispatch _ e => decide (e < 17)
  | .auditBlockDone _ e => decide (e < 17)
  | .challengeTileDone _ e => decide (e < 17)
  | .engineFault _ e kind col _ _ => decide (e < 17 ∧ 1 ≤ kind ∧ kind ≤ 5 ∧ col < 32)
  | .drbgReseed _ => true
  | .entropyHealthFailure _ _ => true
  | .csiFrameStart _ r vc ecc _ lk => decide (r < 4 ∧ vc < 16 ∧ ecc < 3 ∧ (lk.lanes = 1 ∨ lk.lanes = 2 ∨ lk.lanes = 4))
  | .csiLongPacket _ r vc ecc ty payload crc lk => decide (r < 4 ∧ vc < 16 ∧ ecc < 3 ∧ ty < 64 ∧ payload.length < 65536 ∧ crc < 65536 ∧ (lk.lanes = 1 ∨ lk.lanes = 2 ∨ lk.lanes = 4))
  | .csiFrameEnd _ r vc ecc _ lk => decide (r < 4 ∧ vc < 16 ∧ ecc < 3 ∧ (lk.lanes = 1 ∨ lk.lanes = 2 ∨ lk.lanes = 4))
  | .lidarDatagram _ d _ => decide (d.wf = true)
  | .shadowPassStart _ m => decide (m < 4)
  | .shadowPassDone _ m => decide (m < 4)
  | .modelProgrammed _ m => decide (m < 4)
  | .driftFailure _ t mac ops => decide (t < 9 ∧ mac < 32 ∧ ops.length ≤ 1024 ∧ ops.all RefOp.wf = true)
  | .referenceOperations _ t mac ops => decide (t < 9 ∧ mac < 32 ∧ ops.length = 1024 ∧ ops.all RefOp.wf = true)
  | .calibrationMeasured _ t mac _ _ _ coefs => decide (t < 9 ∧ mac < 32 ∧ coefs.length ≤ 16896 ∧ coefs.all (· < 65536) = true)
  | .tileReady _ t _ mac => decide (t < 9 ∧ mac < 256)
  | .dieLinkRetrain _ => true
  | .dieLinkRetrainTimeout _ => true
  | .comparisonStart _ c => decide (c < 65536)
  | .comparisonDone _ => true
  | .ageMonitor _ => true
  | .trustHeartbeat _ => true
  | .tdegExpiry _ => true
  | .ledgerRequest _ c _ kind len _ _ value _ => decide (c < 3 ∧ 1 ≤ kind ∧ kind ≤ 5 ∧ 1 ≤ len ∧ len ≤ 32 ∧ value.length = len)
  | .checkpoint _ c _ actions _ given _ _ _ => decide (c < 3 ∧ actions.length ≤ 32 ∧ given.length = 64)
  | .voteTimeout _ _ _ _ => true
  | .resyncCopyDone _ => true
  | .owlSetup _ i v => decide (i < 2 ∧ v < 2 ^ 64)
  | .owlServiceWrite _ i v => decide (i < 2 ∧ v < 2 ^ 64)
  | .owlCheckIn _ i v => decide (i < 2 ∧ v < 2 ^ 64)
  | .owlWindowOpen _ i => decide (i < 2)
  | .owlExpiry _ i => decide (i < 2)
  | .owlHardTimer _ i => decide (i < 2)
  | .owlSuspend _ => true
  | .owlResume _ => true
  | .flashOperationTimeout _ => true
  | .sliceDone _ q sig _ => decide (q < 3 ∧ sig < 2 ^ 64)
  | .sliceTimeout _ q => decide (q < 3)
  | .rotation _ => true
  | .corrected _ array _ _ _ stored _ => decide (array ≤ 7 ∧ stored.length = (if array = 7 then 20 else 72))
  | .uncorrectable _ array _ _ _ stored _ _ _ _ => decide (array ≤ 7 ∧ stored.length = (if array = 7 then 20 else 72))
  | .edc _ ch _ lines n _ _ => decide (ch < 4 ∧ 1 ≤ lines ∧ lines ≤ 2 ∧ 1 ≤ n ∧ n ≤ 4)
  | .scrubLate _ array _ => decide (array ≤ 7)
  | .nocDenied _ p target initiator _ address len => decide (p < 64 ∧ target < 256 ∧ initiator < 65536 ∧ address < 2 ^ 64 ∧ 1 ≤ len)
  | .bwShort _ p target => decide (p < 64 ∧ target < 4)
  | .thermal _ sensor _ => decide (sensor < 22)
  | .pchFunc _ seq => decide (seq < 256)
  | .pchOut _ seq => decide (seq < 256)
  | .heartbeat _ seq payload => decide (seq < 256 ∧ payload.length = 10)
  | .bind _ seq payload => decide (seq < 256 ∧ payload.length = 10)
  | .unbind _ seq payload => decide (seq < 256 ∧ payload.length = 10)
  | .stayState _ seq payload => decide (seq < 256 ∧ payload.length = 10)
  | .staySafe _ seq payload => decide (seq < 256 ∧ payload.length = 10)
  | .cfg _ seq payload => decide (seq < 256 ∧ payload.length = 10)
  | .nak _ _ seq payload => decide (payload.length = 10 ∧ seq < 256 ∧ payload.length = 10)
  | .inputs _ seq raw => decide (raw < 2 ^ 32 ∧ seq < 256)
  | .hch _ seq => decide (seq < 256)
  | .outputs _ seq => decide (seq < 256)
  | .ack _ seq payload => decide (seq < 256 ∧ payload.length = 10)
  | .stayFault _ seq payload => decide (seq < 256 ∧ payload.length = 10)
  | .stayFrameReject _ _ _ payload lane0 lane1 => decide (payload.length = 10 ∧ lane0.length = 16 ∧ lane1.length = 16)
  | .stayLinkLossShroud _ => true
  | .stayLinkLossLDie _ => true
  | .filteredInputChange _ i => decide (i < 32)
  | .testPulseStart _ k => decide (k < 8)
  | .testPulseEnd _ k _ _ => decide (k < 8)
  | .discrepancyTimeout _ _ n => decide (n < 64)
  | .twohandTimeout _ _ n => decide (n < 64)
  | .channelDiscrepancy _ _ n => decide (n < 64)
  | .edmChange _ o => decide (o < 16)
  | .edmMsExpiry _ o => decide (o < 16)
  | .minOffExpiry _ _ _ => true
  | .senseChange _ p _ => decide (p < 4)
  | .senseUsExpiry _ p => decide (p < 4)
  | .hsCommandTimeout _ p => decide (p < 4)
  | .heartbeatLapse _ n => decide (n < 32)
  | .plibexRx _ d _ => decide (d.wf = true)
  | .rxWatchdogExpiry _ i => decide (i < 4096)
  | .txPeriod _ i => decide (i < 4096)
  | .funcStateSend _ i => decide (i < 4096)
  | .safeStateRepeat _ i => decide (i < 4096)
  | .link _ m _ speed => decide (m < 4 ∧ speed < 5)
  | .preempt _ m status => decide (m < 2 ∧ status < 6)
  | .mgmtRequest _ m vlan kind ip _ => decide (m < 4 ∧ vlan < 4096 ∧ kind < 3 ∧ ip.length = 16)
  | .telemetry _ => true
  | .archive _ _ => true
  | .foxQuoteGo _ fn => decide (fn < 8)
  | .quoteReady _ fn => decide (fn < 8)
  | .doorbell _ fn off _ => decide (off < 0x20000 ∧ fn < 8)
  | .descriptorFetch _ fn r bytes _ => decide (r < 16384 ∧ bytes.length = 64 ∧ fn < 8)
  | .ringEnable _ fn v => decide (v < 2 ^ 32 ∧ v % 2 = 1 ∧ fn < 8)
  | .ringDisable _ fn v => decide (v < 2 ^ 32 ∧ v % 2 = 0 ∧ fn < 8)
  | .registerWrite _ fn _ off data => decide (data.length ≤ 8 ∧ off < 2 ^ 24 ∧ fn < 8)
  | .bar0Access _ fn kind bar off size => decide (kind < 3 ∧ (bar = 0 ∨ bar = 2) ∧ 1 ≤ size ∧ size ≤ 4096 ∧ off < 2 ^ 24 ∧ fn < 8)
  | .functionReset _ fn kind _ _ => decide (kind < 3 ∧ fn < 8)
  | .irqModerationTimeout _ fn r => decide (r < 16384 ∧ fn < 8)
  | .heldRecordWrite _ fn r => decide (r < 16384 ∧ fn < 8)
  | .lostNotice _ fn r => decide (r < 16384 ∧ fn < 8)
  | .ringGap _ fn r => decide (r < 16384 ∧ fn < 8)
  | .nop _ => true
  | .watchOpen _ => true
  | .watchParameterBlockRead _ fn r bytes _ => decide (r < 16384 ∧ bytes.length = 128 ∧ fn < 8)
  | .watchClose _ => true
  | .watchClear _ => true
  | .frameAnnounce _ => true
  | .modelStage _ => true
  | .modelStageDone _ fn _ _ => decide (fn < 8)
  | .modelSwitch _ => true
  | .planStage _ => true
  | .planStageDone _ fn _ _ _ => decide (fn < 8)
  | .planSwitch _ => true
  | .goldenSchedule _ => true
  | .goldenScheduleSet _ => true
  | .goldenScheduleDone _ fn _ _ => decide (fn < 8)
  | .configStage _ => true
  | .configStageDone _ fn _ _ _ => decide (fn < 8)
  | .configCommit _ => true
  | .configCommitModeOnly _ => true
  | .configCommitDone _ fn _ => decide (fn < 8)
  | .evidenceRead _ => true
  | .evidenceReadDone _ fn => decide (fn < 8)
  | .longOperationStart _ fn => decide (fn < 8)
  | .queryContext _ => true
  | .queryFrame _ => true
  | .queryDevice _ => true
  | .tackId _ tag => decide (tag < 16)
  | .authRead _ tag addr => decide (addr < 2 ^ 40 ∧ tag < 16)
  | .authWrite _ tag addr data => decide (addr < 2 ^ 40 ∧ data < 2 ^ 64 ∧ tag < 16)
  | .authDone _ tag => decide (tag < 16)
  | .tackRead _ target tag addr _ => decide (target < 16 ∧ addr < 2 ^ 40 ∧ tag < 16)
  | .tackWrite _ target tag addr data _ => decide (target < 16 ∧ addr < 2 ^ 40 ∧ data < 2 ^ 64 ∧ tag < 16)
  | .halt _ target tag => decide (target < 16 ∧ tag < 16)
  | .resume _ target tag => decide (target < 16 ∧ tag < 16)
  | .tackStep _ target tag => decide (target < 16 ∧ tag < 16)
  | .bpSet _ target tag addr => decide (target < 16 ∧ addr < 2 ^ 40 ∧ tag < 16)
  | .bpClear _ target tag addr => decide (target < 16 ∧ addr < 2 ^ 40 ∧ tag < 16)
  | .breakpointHit _ target n => decide (target < 16 ∧ n < 4)
  | .tackStatus _ target tag => decide (target < 16 ∧ tag < 16)
  | .tackReset _ tag => decide (tag < 16)
  | .fuse _ tag addr data => decide (addr < 2 ^ 40 ∧ data < 2 ^ 64 ∧ tag < 16)
  | .test _ tag addr data => decide (addr < 2 ^ 40 ∧ data < 2 ^ 64 ∧ tag < 16)
  | .tackBadRequest _ kind => decide (kind < 3)
  | .bypass _ _ => true
  | .idcode _ => true
  | .samplePreload _ _ _ => true
  | .extest _ _ _ => true
  | .clamp _ _ => true
  | .highz _ _ => true
  | .idle _ _ seq payload => decide (seq < 256 ∧ payload.length = 10)
  | .dieLinkNeedsRetraining _ => true
  | .owlPeriodStart _ i => decide (i < 2)
  | .busMasterEnable _ fn _ _ _ mps mrrs => decide (mps < 3 ∧ mrrs < 6 ∧ fn < 8)
  | .lowerWordRead _ fn off => decide (off < 2 ^ 24 ∧ fn < 8)

end Sys2Proof
end

