-- ==== Sys2Proof/Tests/Slice0.lean ====
section
/-! SUPPORT. Tests of the model: ill-formed terms, worked examples of the spec, and for every statement with hypotheses a
state and operands that meet them. -/

set_option maxRecDepth 100000
set_option exponentiation.threshold 1000
set_option Elab.async false

open Sys2Proof Sys2Proof.Machine

namespace Sys2Proof.Tests

/-! ### States of the tests -/

/-- Configuration of the tests: tenant 0 on function 0 and the AUX tenant 1 on function 4, 16 rings each; frames of 33.3 ms
with their slots; partitions 2 (tenant 0) and 3 (tenant 1). -/
def cfg0 : Cfg := { gen := 7, regs := [
  (0x100, 0x30064), (0x120, 21000), (0x124, 31000), (0x128, 5000), (0x12C, 5000), (0x130, 20000), (0x134, 22000),
  (0x138, 26000), (0x13C, 27000), (0x140, 30000),
  (0x10100, 1), (0x180008, 0xF87E00), (0x10104, 0x100000), (0x10120, 0xB), (0x10124, 0x100000), (0x2D0040, 0x3F01), (0x2D0044, 0x10101010)] }

/-- A device in RUNNING: every step released, the time base locked at 10 s, at the tick of frame 300. -/
def running : State := {
  mc := 18000000000, glb := { st := .running, booted := true },
  fr := { ticking := true, num := 300, tick := 160000000000, nextTick := 160533333328, fired := [], alignMs := 100, count := 3,
          edges := [21000, 31000, 5000, 5000, 20000, 22000, 26000, 27000, 30000] },
  hst := { fns := [(0, { busMaster := true, up := true, evtEnable := true }), (4, { busMaster := true, up := true })],
           rings := [(0, { enable := true, kind := 0, sizeLog2 := 6, cplRing := 1 }),
                     (1, { enable := true, kind := 1, sizeLog2 := 6 }), (2, { enable := true, kind := 2, sizeLog2 := 6 })] },
  cor := { injPass := true },
  tmb := { running := true, now := 160000000000, valid := true, servo := .locked, lastSample := some 159990000000 },
  rst := { released := some 10, restarting := false, resetOutN := true, on := List.range 132, source := 1 },
  nvm := { shadow := 3, fuses := 3 },
  log := { nextSeq := 1 },
  fox := { st := .running },
  owl := { s := { live := true, st := .run, startCyc := 2250000000 }, f := { live := true, st := .run, startCyc := 2250000000 },
           slf := { tableOk := true } },
  cfg := { active := cfg0, hasActive := true } }

/-- `running` in another operating state, and with other fuses (their low bits code the lifecycle state). -/
def inState (st : OpState) : State := { running with glb := { running.glb with st := st } }
def lifeS (n : Nat) (s : State) : State := { s with nvm := { s.nvm with shadow := n, fuses := n } }

/-- `running` at another local time, and at another main clock. -/
def nowT (s : State) (n : Nat) : State := { s with tmb := { s.tmb with now := n } }
def nowMc (n : Nat) (s : State) : State := { s with mc := n }

/-- Reset, power and start: the sequencer at step k, a warning at main clock 5, the hold of a thermal trip, a firmware
commit, a trap of Owl-S, and START_UP. -/
def startingAt (k : Nat) : State := { running with rst := { running.rst with released := some k, restarting := true, resetOutN := false } }
def warned : State := { running with rst := { running.rst with pf := { since := some 5 } } }
def tripped : State := { running with rst := { running.rst with tripHold := true, tripAt := 0 } }
def fwCommitted : State := { running with cfg := { running.cfg with fwCommitAt := some 5 } }
def owlTrapped : State := { running with owl := { running.owl with s := { running.owl.s with st := .trap, trapCyc := 0 } } }
def inStartUp : State := { running with glb := {} }

/-- Frames and time. -/
def cfgDue (boundary : Nat) : State :=
  { running with cfg := { running.cfg with next := some { cfg0 with gen := 9 }, boundary := boundary } }
def retraining (since : Nat) : State := { running with die := { retraining := some since } }
def tmbS (f : TimeBase → TimeBase) : State := { running with tmb := f running.tmb }
def pulses : State := tmbS fun t => { t with pulses := [
  (0, { armed := true, mode := 1, next := 160000000000, start := 160000000000, width := 5 }),
  (1, { mode := 1, start := 170000000000, width := 1000 }), (2, { active := true, endAt := 5 })] }

/-- Port W: slot 0 armed for stream 0x1234 of the open context 0. -/
def cfgA : Cfg := { cfg0 with regs := cfg0.regs ++ [(0x3C1000, 1), (0x3C1004, 0x1234), (0x3C100C, 64), (0x80100, 1)] }
def armS : State := { running with cfg := { running.cfg with active := cfgA }, vrd := { ctxs := [(0, { isOpen := true, slot := 0, stream := 0x1234 })] } }
def magic : Bytes := [0x43, 0x4C, 0x46, 0x46]

/-- A report of 320 bytes with its CHECK, right or wrong, all received. -/
def reportBody (bad : Bool) : Bytes :=
  let b := zeros 12 ++ le 4 320 ++ zeros 256
  let c := streamCheck (armS.slotCtx 0).poly (armS.slotCtx 0).fold (armS.fr.num % 2 ^ 32) 0 256 b
  b ++ le 8 (if bad then c + 1 else c) ++ zeros 40
def reported (bad : Bool) : State := armS.modSlot 0 fun x => { x with rep := { code := 1, bytes := reportBody bad } }

/-- A golden test offered in the golden slot. -/
def goldImg : Bytes := zeros 256 ++ zeros 8 ++ le 4 1 ++ zeros 4096
def goldW : State := { (nowT armS 160352000000) with
  vrd := { armS.vrd with pendingGold := true, offered := some 0, golds := [(0, { active := some goldImg })] } }

/-- Challenges on a plan image with one layer, two tensors and one target. -/
def mboxS (st : Nat) (es : List Challenge) : State := { armS with aud := { armS.aud with mbox := { state := st, entries := es } } }
def openCh : Challenge := { openOff := 0, openLen := 8320, status := 1 }
def img0 : Bytes :=
  zeros 12 ++ le 2 1 ++ le 2 2 ++ zeros 80 ++ le 4 320 ++ le 4 384 ++ le 4 448 ++ zeros 148 ++
  (le 4 0 ++ [1, 1, 0, 0] ++ le 4 1 ++ le 4 64 ++ le 4 32 ++ zeros 44) ++
  (le 2 0 ++ [1, 0] ++ le 4 1 ++ le 4 64 ++ zeros 4 ++ le 8 64 ++ zeros 8) ++
  (le 2 1 ++ [3, 0] ++ le 4 1 ++ le 4 32 ++ zeros 4 ++ le 8 128 ++ zeros 8) ++
  (le 2 1 ++ zeros 14) ++ ([1, 0, 0, 0] ++ le 2 0 ++ [3, 0] ++ zeros 24) ++ zeros 16 ++
  (le 2 1 ++ le 2 1 ++ zeros 12) ++
  (le 2 0 ++ le 2 1 ++ le 2 0 ++ le 2 0xFFFF ++ le 2 1 ++ le 2 0 ++ [1, 0] ++ le 2 1 ++ le 2 32 ++ zeros 14)
def leafAt0 : LeafAt := ((leafTable img0 64 (opened img0 0 0 0))[0]?).getD default
def root0 : Bytes := sha3 ([0] ++ le 4 0 ++ le 4 0 ++ zeros 4096)
def rep0 : Bytes := zeros (mrkEntry img0 0 + 32) ++ root0
def chl (st : Nat) (bytes : Bytes) : Challenge := { status := st, bytes := bytes, leafCount := 2, openLen := 8320 }
def chlS (rep : Bytes) (c : Challenge) : State :=
  let s := { mboxS 2 [c] with aud := { (mboxS 2 [c]).aud with plans := [(0, { active := some { img := img0 } })] } }
  s.modSlot 0 fun x => { x with rep := { code := 2, bytes := rep } }
def engS (s : State) (l : Tbl Engine) : State := { s with aud := { s.aud with stt := { s.aud.stt with engines := l } } }
def tileB (dev : Bool) : Bytes := zeros 4160 ++ (if dev then le 4 7 else zeros 4) ++ zeros 4160
def drbgS (d : Drbg) : State := { armS with aud := { armS.aud with drbg := d } }

/-- Badger and the comparator: source 0 on receiver 0, source 1 a lidar, model slot 0. -/
def cfgB : Cfg := { cfg0 with regs := cfg0.regs ++ [(0x100008, 0x281405), (0x100C00, 0x22A01), (0x100C04, 4), (0x100C20, 3),
  (0x100C24, 5), (0x100C28, 12), (0x3C1000, 1), (0x3C1004, 0x1234), (0x3C100C, 64), (0x80100, 1)] }
def bd : State := { running with cfg := { running.cfg with active := cfgB } }
def srcS (f : Source) : State := { bd with bdg := { sources := [(0, f)] } }
def mdlS (x : ModelSlot) : State := { nowT bd 160096000000 with bdg := { slots := [(0, x)] } }
def tileS (x : Tile) : State := { bd with bdg := { calibrated := true, tiles := [(1, { role := 1 }), (2, { role := 2 }),
  (3, { role := 3 }), (4, { role := 4 }), (5, { role := 5 }), (6, { role := 6 }), (7, { role := 7 }), (8, x)] } }
def lidarDg : Datagram := {
  mac := 0, vlan := 0, dmac := 0, srcIp := [], srcPort := 9, dstPort := 5, v6 := false, rtag := none,
  sdu := 100, fault := .none, payload := zeros 24 }
def wchS (s : State) (w : Watch) : State := { s with vrd := { s.vrd with ctxs := [(0, w)] } }
def repS (s : State) (c : Nat) : State := s.modSlot 0 fun x => { x with rep := { code := c } }
def cmpW : Watch := { isOpen := true, slot := 0, modelMask := 1, corrFixed := true, cmpCode := 1, openedIn := some 1 }

/-- The control cores. -/
def corS (f : Cores → Cores) : State := { running with cor := f running.cor }
def ent : Bytes := let b := zeros 4 ++ [2, 2] ++ le 2 5 ++ zeros 8 ++ le 8 5 ++ [7, 9] ++ zeros 34; b ++ le 4 (crcK b)
def ckr : Bytes := let b := le 8 1 ++ zeros 32 ++ le 4 0xFFFFFFFF ++ [0, 0, 1, 0] ++ zeros 12; b ++ le 4 (crcK b)
def ckpt (c : Nat) : CkptRecord := { core := c, bytes := ckr, at_ := 17000000000 }

/-- The Owls and the self-test engine. -/
def owlS (f : Owls → Owls) : State := { running with owl := f running.owl }
def owlBoot (f : Owl → Owl) : State := owlS fun o => { o with s := f { o.s with st := .boot } }
def flashBusy : State := owlS fun o => { o with flash := { busyFrom := some 5 }, f := { o.f with st := .suspended, prior := .run } }

/-- Shroud: unit 1 two-handed, unit 2, outputs SOUT 0 and PRV 0 with feedback, the links at SEQ 4. -/
def shcfg : Tbl W32 := [(0x201000, 40), (0x201004, 1), (0x201100, 0x805), (0x201104, 0x5), (0x201210, 0x00640003), (0x201214, 0x03020100),
  (0x20121C, 2), (0x201220, 0x00640001), (0x201224, 0x0100), (0x20122C, 1), (0x201600, 0x00320005), (0x201604, 0x00640064),
  (0x201610, 0x00320007), (0x201614, 0x00640064), (0x201700, 0x00320003), (0x201704, 0x00640064)]
def shr0 : Shroud := { cfgActive := true, cfgGen := 7, cfg := shcfg, mirror := 2, link := { lastSeq := 4, lastAt := 0, live := true } }
def shS (f : Shroud → Shroud) : State := { running with shr := f shr0, pch := { link := { lastSeq := 4, live := true } } }
def soS (x : So) : State := shS fun h => { h with souts := [(0, x)] }
def pvS (x : Pv) : State := shS fun h => { h with
  prvs := [(0, x)], hsCmd := 1, prvReq := 1, slots := [(5, { bound := true, prv := 1, hbAt := some 1000000000000 })] }
def trustS : State := shS fun h => { h with slots := [(5, { bound := true, context := 7, sout := 2, prv := 1, hbAt := some 0 })] }
def discS : State := shS fun h => { h with
  fns := [(1, { st := .stop, discFrom := some 0, handFrom := some 0 }), (2, { st := .run, discFrom := some 0 })], discFrom := [(2, 0)],
  souts := [(0, { st := .on })] }
def sioRaw0 : Bytes := zeros 2044 ++ le 4 (crcK (zeros 2044))
def sectionS : State := { shS id with cfg := { running.cfg with active := { cfg0 with sioRaw := sioRaw0 } } }

/-- Plibex: connection 0 receives with id 77, connection 1 is FUNC_STATE, connection 2 is VERDICT. -/
def plxEntry (b : Bytes) : Bytes := b ++ zeros (64 - b.length)
def plxS : Bytes := (le 4 0x11 ++ zeros 2 ++ le 2 3 ++ zeros 120) ++
  plxEntry (le 4 77 ++ [3, 4, 0, 0] ++ le 4 0x22 ++ zeros 4 ++ zeros 2 ++ le 2 100 ++ le 4 1000 ++ le 2 100 ++ [0, 5]) ++
  plxEntry (le 4 78 ++ [1, 3, 0, 0] ++ le 4 0x22 ++ zeros 4 ++ le 2 10) ++ plxEntry (le 4 79 ++ [1, 1, 0, 0] ++ le 4 0x22 ++ zeros 4 ++ le 2 10)
def plS (l : Tbl Conn) : State := { running with cfg := { running.cfg with active := { cfg0 with plibex := plxS } }, plx := { conns := l } }
def tel : Bytes := telegramBytes 4 0 77 6 9999999000 (zeros 8) 0x22 0x11
def telDg (b : Bytes) : Datagram := {
  mac := 0, vlan := 0, dmac := 0, srcIp := zeros 16, srcPort := 0, dstPort := 0, v6 := false,
  rtag := none, sdu := 100, fault := .none, payload := b }
def conns (at_ : Nat) : Tbl Conn := [(0, { st := .live, wdFrom := 0, last := 5, sentAt := some at_ }), (1, { sentAt := some at_ }),
  (2, { sentAt := some at_, lastPayload := some (1, [1, 2]) })]
def plSafe : State := { plS (conns 0) with glb := { running.glb with st := .safe, cause := 0x17 } }

/-- Rings and descriptors of function 0: what is changed of its registers and of its rings. -/
def hostS (f : HostFn → HostFn) (l : List (Nat × (Ring → Ring))) : State :=
  l.foldl (fun q x => q.modRing 0 x.1 x.2) (running.setHfn 0 (f (running.hfn 0)))
def descB (ok : Bool) : Bytes := let b := zeros 64; patch b 4 (le 4 ((streamCheck 0 0x80000000 0 0 64 b) + if ok then 0 else 1))
def fill (l : List (Nat × Nat × Nat)) (n : Nat) : Bytes := l.foldl (fun b x => patch b x.1 (le x.2.1 x.2.2)) (zeros n)
def desc (fn op : Nat) (l : List (Nat × Nat × Nat)) : Desc := { fn := fn, ring := 0, index := 0, bytes := fill ((0, 1, op) :: l) 64 }
def cfgC : Cfg := { cfg0 with regs := cfg0.regs ++ [(0x3C1000, 1), (0x3C1004, 0x1234), (0x3C100C, 64), (0x80100, 0x301), (0x10120, 0xB),
  (0x100400, 0x4101FD), (0x100404, 0x20000), (0x2D1000, 0), (0x140200, 4)] }
def hostC : State := { running with cfg := { running.cfg with active := cfgC } }
def fetchedS (s : State) (d : Desc) : State :=
  let s1 := s.modRing d.fn 0 fun g => { g with enable := true, sizeLog2 := 6, cplRing := 1, outstanding := [(0, 1)], ci := 1, pi := 1 }
  let s2 := s1.modRing d.fn 1 fun g => { g with enable := true, kind := 1, sizeLog2 := 6, owed := 1 }
  s2.modHst fun h => { h with fetched := [d] }
def openedS (w : Watch) : State := wchS hostC { w with isOpen := true }
def busyS (s : State) : State := s.setHfn 0 { s.hfn 0 with longRun := some { fn := 0, op := 0x30 } }
def paramBlock : Bytes :=
  let b := (clampParam 0 (fill [(0, 1, 1), (2, 1, 1), (4, 4, 0x1234), (8, 4, 5000), (12, 2, 1), (65, 1, 1)] 128)).2.take 124
  b ++ le 4 (crcK b)
def opening0 : Opening := { fn := 0, ring := 0, index := 0, context := 3 }
def openingS : State := (fetchedS hostC (desc 0 1 [])).modHst fun h => { h with fetched := [], openings := [opening0] }
def lop (op n : Nat) : LongOp := { fn := 0, ring := 0, index := 0, op := op, bytes := fill [(24, 8, n)] 64 }
def runS (s : State) (o : LongOp) : State := (fetchedS s (desc 0 0 [])).setHfn 0 { s.hfn 0 with longRun := some o }

/-- The smallest image for model slot 0: one camera of 16 by 16, one layer that emits, no weights; and its configuration. -/
def badgerImg : Bytes := padTo 6516 (
  le 4 0x44424C43 ++ [1, 3] ++ le 2 256 ++ le 4 6516 ++ [0, 1, 1, 0] ++ zeros 8 ++ le 2 1 ++ zeros 6 ++ le 4 1 ++ [100, 0, 4, 0] ++
  le 4 256 ++ le 4 320 ++ le 4 384 ++ zeros 4 ++ le 4 4096 ++ zeros 4 ++ le 4 4096 ++ zeros 188 ++
  [1, 0, 1, 0] ++ le 2 16 ++ le 2 16 ++ [1, 1] ++ zeros 10 ++ le 4 256 ++ zeros 40 ++
  [0x30, 0, 0, 0] ++ le 4 0x80000000 ++ le 4 0xFFFFFFFF ++ le 4 0xFFFFFFFF ++ le 4 1 ++ le 2 0 ++ le 2 16)
def modelS : State := { hostC with
  bdg := { hostC.bdg with available := true }
  cfg := { running.cfg with active := { cfgC with regs := [(0x2D1000, 0x1000000), (0x2D1004, 100), (0x2D1008, 0x33F),
    (0x100C00, 0x22A01), (0x100C04, 4)] ++ cfgC.regs } } }

/-- Configurations, Fox and Tack. -/
def cfgF : Cfg := { cfg0 with regs := cfg0.regs ++ [(0x340100, 0x51), (0x340104, 100)] }
def foxS (f : Fox → Fox) : State := { running with cfg := { running.cfg with active := cfgF }, fox := f running.fox }
def staged5 : Staged := { kind := 5, digest := zeros 32, image := zeros 256 }
def commitS (st : OpState) : State := runS { inState st with cfg := { running.cfg with staged := [(5, staged5)] } } (lop 0x21 0)
def tckS (f : Tack → Tack) (s : State) : State := { s with tck := f s.tck }

/-- A step whose condition holds; a device whose pins are driven high. -/
def condS (k c : Nat) : State := { startingAt (k - 1) with rst := { (startingAt (k - 1)).rst with condFrom := [(k, c)] } }
def pinsHigh : ResetPins := { sys := .high, pwr := .high }

/-- A stored line: its data, and the check bytes of R629; and one with wrong symbols. -/
def storedLine (array unit memory line : Nat) (data : Bytes) : Bytes :=
  data ++ ofSymbols (rsCheck (checkLen array) (symbols (storedAddress array unit memory line ++ data)))
def line5 : Bytes := storedLine 0 0 0 5 (zeros 64)
def bent (k : Nat) : Bytes := (List.range k).foldl (fun b i => b.set (3 * i) 9) line5

/-- A reference operation whose residuals are 0, and one with a residual beyond every limit. -/
def lk1 : CsiLink := { lanes := 1, rate := 1000, sot := 0, deskew := false, hs := true }

/-! ### WellFormed: an ill-formed term for each check -/

def dgGood : Datagram := {
  mac := 0, vlan := 0, dmac := 0, srcIp := List.replicate 16 0, srcPort := 0, dstPort := 0, v6 := false,
  rtag := none, sdu := 0, fault := .none, payload := [] }
def dgBad : Datagram := { dgGood with mac := 4 }

theorem test_datagram_wf : dgGood.wf = true ∧ [dgBad, { dgGood with vlan := 4096 }, { dgGood with dmac := 2 ^ 48 }, { dgGood with srcIp := [] },
    { dgGood with srcPort := 65536 }, { dgGood with dstPort := 65536 }].all (fun d => !d.wf) = true := by decide

theorem test_ill_formed_from_domain_release : ([
    .domainRelease 0 11 pinsHigh [], .domainRelease 0 2 pinsHigh [0], .domainRelease 0 2 pinsHigh [11], .hold 0 0 0, .hold 0 11 0,
    .hold 0 1 256, .clockFault 0 3 4, .clockFault 0 2 3, .clockFault 0 2 10, .powerGoodFailure 0 0, .powerGoodFailure 0 8,
    .domainPowerGoodTimeout 0 132, .powerFailWarning 0 3, .injectionTest 0 16 0 0, .injectionTest 0 0 16 0,
    .injectionTest 0 0 0 65536, .startupCalibrationDone 0 512 (List.replicate 9 0) (List.replicate 9 []),
    .startupCalibrationDone 0 0 (List.replicate 8 0) (List.replicate 9 []),
    .startupCalibrationDone 0 0 (List.replicate 9 0) (List.replicate 8 []),
    .startupCalibrationDone 0 0 (List.replicate 9 0) (List.replicate 9 [65536]),
    .startupCalibrationDone 0 0 (List.replicate 9 0) (List.replicate 9 (List.replicate 16897 0)), .dV 0 65536, .sync 0 4 0,
    .sync 0 0 18446744073709551616, .gmChange 0 4 0, .gmChange 0 0 18446744073709551616, .pulseArm 0 8 0 8, .pulseArm 0 0 8 8,
    .pulseArm 0 0 0 4294967304, .pulseArm 0 0 0 0, .pulseDisarm 0 8 0 0, .pulseDisarm 0 0 8 0, .pulseDisarm 0 0 0 4294967296,
    .pulseDisarm 0 0 0 1, .pulseFire 0 8, .pulseEnd 0 8, .reportWindowWrite 0 128 0 [] default,
    .reportWindowWrite 0 0 268435455 (zeros 2) default, .reportComplete 0 default 128,
    .goldenReportWrite 0 268435455 (zeros 2) default] : List Instr).all (fun i => !i.wf) = true := by decide +kernel

theorem test_ill_formed_from_opening_write : ([
    .openingWrite 0 4294967295 (zeros 2) default, .goldenInputRead 0 4294967296 1, .goldenInputRead 0 0 0,
    .portWInvalidWrite 0 3 0 [] default, .portWInvalidWrite 0 0 68719476736 [] default, .portWInvalidRead 0 2 0 1,
    .portWInvalidRead 0 0 68719476736 1, .portWInvalidRead 0 0 0 0, .wportLink 0 0 1, .wportLink 0 6 1, .wportLink 0 1 3,
    .leafVerify 0 65536 0, .leafVerify 0 0 65536, .sha3Mismatch 0 8, .challengeWeightsInPlace 0 65536, .unitDispatch 0 17,
    .auditBlockDone 0 17, .challengeTileDone 0 17, .engineFault 0 17 1 0 default default, .engineFault 0 0 0 0 default default,
    .engineFault 0 0 6 0 default default, .engineFault 0 0 1 32 default default, .csiFrameStart 0 4 0 0 false lk1,
    .csiFrameStart 0 0 16 0 false lk1, .csiFrameStart 0 0 0 3 false lk1, .csiFrameStart 0 0 0 0 false { lk1 with lanes := 3 },
    .csiLongPacket 0 4 0 0 0 [] 0 lk1, .csiLongPacket 0 0 16 0 0 [] 0 lk1, .csiLongPacket 0 0 0 3 0 [] 0 lk1,
    .csiLongPacket 0 0 0 0 64 [] 0 lk1, .csiLongPacket 0 0 0 0 0 (zeros 65536) 0 lk1, .csiLongPacket 0 0 0 0 0 [] 65536 lk1,
    .csiLongPacket 0 0 0 0 0 [] 0 { lk1 with lanes := 0 }, .csiFrameEnd 0 4 0 0 false lk1, .csiFrameEnd 0 0 16 0 false lk1,
    .csiFrameEnd 0 0 0 3 false lk1, .csiFrameEnd 0 0 0 0 false { lk1 with lanes := 3 }, .lidarDatagram 0 dgBad 0,
    .shadowPassStart 0 4, .shadowPassDone 0 4] : List Instr).all (fun i => !i.wf) = true := by decide +kernel

theorem test_ill_formed_from_model_programmed : ([
    .modelProgrammed 0 4, .driftFailure 0 9 0 [], .driftFailure 0 0 32 [],
    .driftFailure 0 0 0 (List.replicate 1025 ([], List.replicate 8 0)), .driftFailure 0 0 0 [([], [])],
    .driftFailure 0 0 0 [(zeros 513, List.replicate 8 0)],
    .referenceOperations 0 9 0 (List.replicate 1024 ([], List.replicate 8 0)),
    .referenceOperations 0 0 32 (List.replicate 1024 ([], List.replicate 8 0)),
    .referenceOperations 0 0 0 (List.replicate 1023 ([], List.replicate 8 0)),
    .referenceOperations 0 0 0 (List.replicate 1024 ([], [])), .calibrationMeasured 0 9 0 0 0 0 [],
    .calibrationMeasured 0 0 32 0 0 0 [], .calibrationMeasured 0 0 0 0 0 0 (List.replicate 16897 0),
    .calibrationMeasured 0 0 0 0 0 0 [65536], .tileReady 0 9 default 0, .tileReady 0 0 default 256, .comparisonStart 0 65536,
    .ledgerRequest 0 3 [] 1 1 0 0 [0] false, .ledgerRequest 0 0 [] 0 1 0 0 [0] false, .ledgerRequest 0 0 [] 6 1 0 0 [0] false,
    .ledgerRequest 0 0 [] 1 0 0 0 [] false, .ledgerRequest 0 0 [] 1 33 0 0 (zeros 33) false,
    .ledgerRequest 0 0 [] 1 1 0 0 [] false, .checkpoint 0 3 [] [] false (zeros 64) none none false,
    .checkpoint 0 0 [] (List.replicate 33 (0, 0, [])) false (zeros 64) none none false,
    .checkpoint 0 0 [] [] false (zeros 63) none none false, .owlSetup 0 2 0, .owlSetup 0 0 18446744073709551616,
    .owlServiceWrite 0 2 0, .owlServiceWrite 0 0 18446744073709551616, .owlCheckIn 0 2 0, .owlCheckIn 0 0 18446744073709551616,
    .owlWindowOpen 0 2, .owlExpiry 0 2, .owlHardTimer 0 2, .sliceDone 0 3 0 0, .sliceDone 0 0 18446744073709551616 0,
    .sliceTimeout 0 3, .corrected 0 8 0 0 0 (zeros 72) false,
      .corrected 0 0 0 0 0 (zeros 20) false] : List Instr).all (fun i => !i.wf) = true := by decide +kernel

theorem test_ill_formed_from_corrected : ([
    .corrected 0 7 0 0 0 (zeros 72) false, .uncorrectable 0 8 0 0 0 (zeros 72) 1 0 0 false,
    .uncorrectable 0 0 0 0 0 (zeros 20) 1 0 0 false, .uncorrectable 0 7 0 0 0 (zeros 72) 1 0 0 false,
    .edc 0 4 0 1 1 default default, .edc 0 0 0 0 1 default default, .edc 0 0 0 3 1 default default, .edc 0 0 0 1 0 default default,
    .edc 0 0 0 1 5 default default, .scrubLate 0 8 0, .nocDenied 0 64 0 0 default 0 1, .nocDenied 0 0 256 0 default 0 1,
    .nocDenied 0 0 0 65536 default 0 1, .nocDenied 0 0 0 0 default 18446744073709551616 1, .nocDenied 0 0 0 0 default 0 0,
    .bwShort 0 64 0, .bwShort 0 0 4, .thermal 0 22 0, .pchFunc 0 256, .pchOut 0 256, .heartbeat 0 256 (zeros 10),
    .heartbeat 0 0 [], .bind 0 256 (zeros 10), .bind 0 0 [], .unbind 0 256 (zeros 10), .unbind 0 0 [], .stayState 0 256 (zeros 10),
    .stayState 0 0 [], .staySafe 0 256 (zeros 10), .staySafe 0 0 [], .cfg 0 256 (zeros 10), .cfg 0 0 [], .nak 0 default 0 [],
    .nak 0 default 256 (zeros 10), .inputs 0 0 4294967296, .inputs 0 256 0, .hch 0 256, .outputs 0 256, .ack 0 256 (zeros 10),
    .ack 0 0 []] : List Instr).all (fun i => !i.wf) = true := by decide +kernel

theorem test_ill_formed_from_stay_fault : ([
    .stayFault 0 256 (zeros 10), .stayFault 0 0 [], .stayFrameReject 0 default 0 [] (zeros 16) (zeros 16),
    .stayFrameReject 0 default 0 (zeros 10) [] (zeros 16), .stayFrameReject 0 default 0 (zeros 10) (zeros 16) [],
    .filteredInputChange 0 32, .testPulseStart 0 8, .testPulseEnd 0 8 0 0, .discrepancyTimeout 0 default 64,
    .twohandTimeout 0 default 64, .channelDiscrepancy 0 default 64, .edmChange 0 16, .edmMsExpiry 0 16, .senseChange 0 4 default,
    .senseUsExpiry 0 4, .hsCommandTimeout 0 4, .heartbeatLapse 0 32, .plibexRx 0 dgBad 0, .rxWatchdogExpiry 0 4096,
    .txPeriod 0 4096, .funcStateSend 0 4096, .safeStateRepeat 0 4096, .link 0 4 default 0, .link 0 0 default 5, .preempt 0 2 0,
    .preempt 0 0 6, .mgmtRequest 0 4 0 0 (zeros 16) [], .mgmtRequest 0 0 4096 0 (zeros 16) [], .mgmtRequest 0 0 0 3 (zeros 16) [],
    .mgmtRequest 0 0 0 0 [] [], .foxQuoteGo 0 8, .quoteReady 0 8, .doorbell 0 0 131072 [], .doorbell 0 8 0 [],
    .descriptorFetch 0 0 16384 (zeros 64) default, .descriptorFetch 0 0 0 [] default, .descriptorFetch 0 8 0 (zeros 64) default,
    .ringEnable 0 0 4294967297, .ringEnable 0 0 0, .ringEnable 0 8 1] : List Instr).all (fun i => !i.wf) = true := by decide +kernel

theorem test_ill_formed_from_ring_disable : ([
    .ringDisable 0 0 4294967296, .ringDisable 0 0 1, .ringDisable 0 8 0, .registerWrite 0 0 0 0 (zeros 9),
    .registerWrite 0 0 0 16777216 [], .registerWrite 0 8 0 0 [], .bar0Access 0 8 0 0 0 4, .bar0Access 0 0 3 0 0 4,
    .bar0Access 0 0 0 1 0 4, .bar0Access 0 0 0 0 0 0, .bar0Access 0 0 0 0 0 4097, .bar0Access 0 0 0 0 16777216 4,
    .functionReset 0 0 3 0 0, .functionReset 0 8 0 0 0, .irqModerationTimeout 0 0 16384, .irqModerationTimeout 0 8 0,
    .heldRecordWrite 0 0 16384, .heldRecordWrite 0 8 0, .lostNotice 0 0 16384, .lostNotice 0 8 0, .ringGap 0 0 16384,
    .ringGap 0 8 0, .watchParameterBlockRead 0 0 16384 (zeros 128) default, .watchParameterBlockRead 0 0 0 [] default,
    .watchParameterBlockRead 0 8 0 (zeros 128) default, .modelStageDone 0 8 default [], .planStageDone 0 8 default [] [],
    .goldenScheduleDone 0 8 default [], .configStageDone 0 8 default [] default, .configCommitDone 0 8 default,
    .evidenceReadDone 0 8, .longOperationStart 0 8, .tackId 0 16, .authRead 0 0 1099511627776, .authRead 0 16 0,
    .authWrite 0 0 1099511627776 0, .authWrite 0 0 0 18446744073709551616, .authWrite 0 16 0 0, .authDone 0 16,
    .tackRead 0 16 0 0 default] : List Instr).all (fun i => !i.wf) = true := by decide +kernel

theorem test_ill_formed_from_tack_read : ([
    .tackRead 0 0 0 1099511627776 default, .tackRead 0 0 16 0 default, .tackWrite 0 16 0 0 0 default,
    .tackWrite 0 0 0 1099511627776 0 default, .tackWrite 0 0 0 0 18446744073709551616 default, .tackWrite 0 0 16 0 0 default,
    .halt 0 16 0, .halt 0 0 16, .resume 0 16 0, .resume 0 0 16, .tackStep 0 16 0, .tackStep 0 0 16, .bpSet 0 16 0 0,
    .bpSet 0 0 0 1099511627776, .bpSet 0 0 16 0, .bpClear 0 16 0 0, .bpClear 0 0 0 1099511627776, .bpClear 0 0 16 0,
    .breakpointHit 0 16 0, .breakpointHit 0 0 4, .tackStatus 0 16 0, .tackStatus 0 0 16, .tackReset 0 16,
    .fuse 0 0 1099511627776 0, .fuse 0 0 0 18446744073709551616, .fuse 0 16 0 0, .test 0 0 1099511627776 0,
    .test 0 0 0 18446744073709551616, .test 0 16 0 0, .tackBadRequest 0 3, .idle 0 default 256 (zeros 10), .idle 0 default 0 [],
    .owlPeriodStart 0 2, .busMasterEnable 0 0 default default default 3 0, .busMasterEnable 0 0 default default default 0 6,
    .busMasterEnable 0 8 default default default 0 0, .lowerWordRead 0 0 16777216,
      .lowerWordRead 0 8 0] : List Instr).all (fun i => !i.wf) = true := by decide +kernel


/-! ### The spec's worked examples (chapter 08, "Start of day for two tenants"; R4, R831) and single steps -/

/-- The state after one command. -/
def after (i : Instr) (s : State) : Option State := match exec i s with | .next t => some t | _ => none

/-- The two tenants of the example: tenant 0 on function 0 of H0A, the AUX tenant 1 on function 1 of H1. -/
def day : State := { running with
  glb := { running.glb with st := .configured }
  hst := { fns := [(0, { busMaster := true, up := true }), (5, { busMaster := true, up := true })] }
  cfg := { running.cfg with active := { cfg0 with
    regs := [(0x10100, 1), (0x10104, 0x10000000), (0x10120, 0x1B), (0x10124, 0x401000)] } } }
def daySel (n : Nat) (l : List (Nat × Ring)) : State :=
  let s := day.setHfn 0 { day.hfn 0 with ringSel := n }
  { s with hst := { s.hst with rings := l } }
def ring1 : Ring := { enable := true, kind := 1, sizeLog2 := 10, urgent := true }

theorem test_glb_id : (lifeS 0x400 day).bar0Word 0 0 = 0x94701B10 := by decide +kernel
theorem test_glb_state : day.bar0Word 0 4 = 1 := by decide +kernel
theorem test_ten_self : day.bar0Word 0 0x10004 = 0x08 ∧ day.bar0Word 5 0x10004 = 0xD9 := by decide +kernel
theorem test_ring_enable_completion : (after (.ringEnable 0 0 0x253) (daySel 1 [])).map (fun t => (t.ring 0 1).enable && (t.ring 0 1).kind == 1 &&
    (t.ring 0 1).size == 1024 && (t.ring 0 1).urgent && (t.ring 0 1).ctlWord == 0x253 && (t.ring 0 1).setupErr == 0) = some true := by
  decide +kernel
theorem test_ring_enable_submission : (after (.ringEnable 0 0 0x541) (daySel 0 [(1, ring1)])).map (fun t => (t.ring 0 0).enable &&
    (t.ring 0 0).size == 256 && (t.ring 0 0).poly == 1 && (t.ring 0 0).cplRing == 1 && (t.ring 0 0).ctlWord == 0x541) = some true := by decide +kernel
theorem test_ring_needs_its_completion_ring : (after (.ringEnable 0 0 0x541) (daySel 0 [])).map (fun t => ((t.ring 0 0).enable,
  (t.ring 0 0).setupErr)) =
    some (false, 6) := by decide +kernel
theorem test_ring_enable_evidence : (after (.ringEnable 0 0 0x65) (daySel 2 [])).map (fun t => (t.ring 0 2).enable && (t.ring 0 2).kind == 2 &&
    (t.ring 0 2).size == 4096) = some true := by decide +kernel
theorem test_doorbell : (after (.doorbell 0 0 0 [4, 0, 0, 0, 1, 0, 0, 0]) (daySel 0 [(1, ring1),
    (0, { enable := true, sizeLog2 := 8, poly := 1, cplRing := 1 })])).map (fun t => ((t.ring 0 0).pi, (t.ring 0 0).dbSeq)) = some (4, 1) := by
  decide +kernel

/-- An empty queue leaves the block as it is, and the front of the queue is the command that runs. -/
theorem test_idle : step State.reset = .next State.reset := rfl
theorem test_reset_memory : State.reset.mem.wf = true := by decide

/-! ### Facts for the witnesses -/

theorem oscHz_ge : 38000000 ≤ oscHz := by unfold oscHz clampN; omega
theorem oscHz_le : oscHz ≤ 42000000 := by unfold oscHz clampN; omega

/-- Ten seconds after power-on, Shroud's oscillator has counted from 380 to 420 million cycles. -/
theorem cyc_eq {s : State} (h : s.mc = 18000000000) : s.cyc = 10 * oscHz := by unfold State.cyc; rw [h]; omega
theorem cyc_ge {s : State} (h : s.mc = 18000000000) : 380000000 ≤ s.cyc := by have := oscHz_ge; rw [cyc_eq h]; omega
theorem cyc_le {s : State} (h : s.mc = 18000000000) : s.cyc ≤ 420000000 := by have := oscHz_le; rw [cyc_eq h]; omega

theorem sha3_length (m : Bytes) : (sha3 m).length = 32 := by simp [sha3, le, List.range_succ]

theorem slice_zeros (n off m : Nat) (h : off + m ≤ n) : slice (zeros n) off m = zeros m := by
  have h1 : min m (n - off) = m := by omega
  simp [slice, zeros, List.drop_replicate, List.take_replicate, h1]

theorem leaf0_reaches : leafReaches img0 rep0 (zeros 8400) leafAt0 = true := by
  have hx : leafAt0 = { tensor := 0, leaf := 0, off := 64 } := by decide +kernel
  have hd : tnsDepth img0 0 = 0 := by decide +kernel
  have hz : slice (zeros 8400) 64 4096 = zeros 4096 := slice_zeros _ _ _ (by decide)
  have hl : (zeros (mrkEntry img0 0 + 32)).length = mrkEntry img0 0 + 32 := by simp [zeros]
  have hr : slice rep0 (mrkEntry img0 0 + 32) 32 = root0 := by
    unfold slice rep0
    rw [List.drop_left' hl, List.take_of_length_le (by simp [root0, sha3_length])]
  rw [hx]
  simp only [leafReaches, reportRoot, hd, hz, hr, List.range_zero, List.foldl_nil, root0, beq_self_eq_true]

/-- Every bank is powered in `running`. -/
theorem no_bank_missing {s : State} (h : s.rst.on = List.range 132) (c : Cfg) : s.banksMissing c = [] := by
  simp [State.banksMissing, h]; omega

/-- A time counted from cycle 0 has run out ten seconds after power-on, and one counted from later than that has not begun. -/
theorem cyc_passed {s : State} {x k : Nat} (h : s.mc = 18000000000) (hx : x = 0) (hk : k ≤ 380000000) : s.cyc - x ≥ k := by
  have := cyc_ge h; omega
theorem cyc_before {s : State} {x k : Nat} (h : s.mc = 18000000000) (hx : x = 1000000000000) : s.cyc - x ≤ k := by
  have := cyc_le h; omega
theorem lost_after (l : StaySide) {s : State} (h : s.mc = 18000000000) (h1 : l.live = true) (h2 : l.lost = false)
    (h3 : l.lastAt = 0) : l.isLost s.cyc = true := by
  have := cyc_ge h
  simp [StaySide.isLost, h1, h2, h3]; omega
theorem trusted_now (h : Shroud) (k lim p : Nat) (hc : k ≤ 420000000) (hl : 0 < lim)
    (hs : h.slots = [(5, { bound := true, prv := 1, hbAt := some 1000000000000 })]) (hp : p = 0) :
    h.trusted k lim (fun t => bitAt t.prv p) = true := by
  subst hp
  have : k - 1000000000000 = 0 := by omega
  simp [Shroud.trusted, hs, this, bitAt, cycMs]; omega

theorem pv_permit : (pvS { st := .lsOn, hsPin := true, hsOnAt := some 1000000000000 }).shr.pvPermit
    ((pvS { st := .lsOn, hsPin := true, hsOnAt := some 1000000000000 }).advance 0).cyc 0 = true := by
  have h : (pvS { st := .lsOn, hsPin := true, hsOnAt := some 1000000000000 }).shr.pvTrusted
      ((pvS { st := .lsOn, hsPin := true, hsOnAt := some 1000000000000 }).advance 0).cyc 0 = true :=
    trusted_now _ _ _ _ (cyc_le (by decide +kernel)) (by decide +kernel) rfl rfl
  simp only [Shroud.pvPermit, h, Bool.or_true, Bool.and_true]
  decide +kernel

theorem tooth_due (h : Shroud) {cyc : Nat} (h1 : h.cfgActive = true) (h2 : h.tpEn 0 = true) (h3 : h.pulsing = [])
    (h4 : h.pulseAt = []) (h5 : h.tpFrom = 0) : h.pulseOwed cyc 0 = true := by
  have := Nat.div_mul_le_self cyc h.tpPeriod
  simp [Shroud.pulseOwed, Shroud.pulseDue, h1, h2, h3, h4, h5, this]

/-- Shadow sections of zeros, as one image emits them. -/
def shadow0 : ShadowOut := { grid := zeros 65536, objects := zeros 8192, temporal := zeros 320 }
def shadowS (out : ShadowOut) : State :=
  let w : Watch := { cmpW with cmpStart := some 18000000000 }
  let s := repS (wchS (mdlS { code := 3, active := some (fill [(38, 1, 7)] 64), out := out }) w) 2
  { s with vrd := { s.vrd with comparing := some 0 } }
theorem ofLe_zeros (n : Nat) : ofLe (zeros n) = 0 := by
  induction n with
  | zero => rfl
  | succ n ih =>
    have h : zeros (n + 1) = 0 :: zeros n := rfl
    rw [h]
    simp [ofLe, ih]
theorem rd_zeros (n off m : Nat) : rd (zeros n) off m = 0 := by
  have h : slice (zeros n) off m = zeros (min m (n - off)) := by
    simp [slice, zeros, List.drop_replicate, List.take_replicate]
  rw [rd, h, ofLe_zeros]
theorem intact_of {x : Sections} (h1 : x.grid.length = 65536) (h2 : x.grid.any (fun c => fld c.toNat 0 2 == 3) = false)
    (h3 : x.objects.length = 8192) (h4 : ∀ i, (objAt x.objects i).damaged = false) (h5 : x.temporal.length = 320)
    (h6 : rd x.temporal 256 1 = 0) : x.damaged = false := by
  simp [Sections.damaged, h1, h2, h3, h4, h5, h6]
theorem shadow0_intact : ({ grid := zeros 65536, objects := zeros 8192, temporal := zeros 320 } : Sections).damaged = false := by
  refine intact_of List.length_replicate ?_ List.length_replicate (fun i => ?_) List.length_replicate (rd_zeros _ _ _)
  · rw [List.any_eq_false]
    intro x hx
    rw [List.eq_of_mem_replicate hx]
    decide
  · dsimp only
    simp [Obj.damaged, objAt, rd_zeros, bitAt]
theorem shadowS_sections (mask : Nat) (h0 : (shadowS shadow0).emitter mask 0 = some 0) (h1 : (shadowS shadow0).emitter mask 1 = some 0)
    (h2 : (shadowS shadow0).emitter mask 2 = some 0) :
    (shadowS shadow0).sections mask = { grid := zeros 65536, objects := zeros 8192, temporal := zeros 320 } := by
  unfold State.sections
  extract_lets get
  have hg : ∀ e f, (shadowS shadow0).emitter mask e = some 0 → get e f = f shadow0 := by
    intro e f h
    simp only [get, h]
    rfl
  rw [hg 0 _ h0, hg 1 _ h1, hg 2 _ h2]
  rfl
theorem shadowS_intact : ((shadowS shadow0).sections ((shadowS shadow0).watch 0).modelMask).damaged = false := by
  rw [shadowS_sections _ (by decide +kernel) (by decide +kernel) (by decide +kernel)]
  exact shadow0_intact

/-! ### Signed images

The spec takes verification from FIPS 204 and the model leaves it open (Config.mldsaVerify), so no signature can be shown to
hold: the witnesses below take as a hypothesis that it answers yes. -/

/-- Verification answers yes. -/
def Verifies : Prop := ∀ k m g : Bytes, Config.mldsaVerify k m g = true

theorem sigValid_of (hv : Verifies) {k : Bytes} {b : Bytes} {n : Nat} (h : n + 2420 ≤ b.length) : sigValid (some k) b n = true := by
  simp only [sigValid, Option.elim, hv _ _ _, Bool.and_true, decide_eq_true_eq]; exact h

/-- An integrator key in flash; the device is not DEPLOYED yet. -/
def keyS (s : State) : State := { s with nvm := { s.nvm with ikey := some (zeros 1312) } }
theorem integKey_of {s : State} {k : Bytes} (hl : s.life ≤ 2) (hk : s.nvm.ikey = some k) (h : k.length = 1312) : s.integKey = some k := by
  simp [State.integKey, State.ikeyHash, hk, hl, h]
theorem keyS_key {s : State} (h : (keyS s).life ≤ 2) : (keyS s).integKey = some (zeros 1312) :=
  integKey_of h rfl List.length_replicate

/-- The smallest plan: one step, nothing else. -/
def plan1 : Bytes := padTo 2804 (
  le 4 0x50414C43 ++ [1, 1] ++ le 2 256 ++ le 4 2804 ++ zeros 4 ++ zeros 72 ++ [1, 0, 0, 0] ++ le 4 256 ++ le 4 256 ++ le 4 256 ++ le 4 320 ++
  le 4 384 ++ zeros 144 ++ le 2 1 ++ zeros 14 ++ [0x20, 0, 0, 0] ++ le 2 0xFFFF ++ [0x14, 0] ++ zeros 24 ++ zeros 16)
def planS : State :=
  let s := runS hostC (lop 0x12 2804)
  keyS ({ s with cfg := { s.cfg with active := { cfgC with
      regs := [(0x2D1010, 0), (0x2D1014, 100), (0x2D1018, 0x303)] ++ cfgC.regs } } }.modPlan 0
    fun x => { x with active := some { img := plan1 } })
theorem judged_of {s : State} {p : Nat} {b w : Bytes} {a : Plan} (h1 : checkPlan b = .ok) (h2 : sigValid s.integKey b (planSigOff b) = true)
    (h3 : s.reusedPlan p b = some a) (h6 : wTag a.wimg = planTag b)
    (h4 : firstIdx (planLayers b) (layerMatches b a.wimg) = none) (h5 : s.planSpace p b none = none) :
    s.judgePlan p b w = .stored { img := b, wimg := a.wimg, digest := sha3 (b.take (planSigOff b)) } := by
  unfold State.judgePlan
  rw [h1]
  dsimp only
  rw [h2]
  simp only [h3, h6, h4, h5, Bool.not_true, Bool.false_eq_true, ne_eq, not_true_eq_false, if_false]
theorem plan1_judged (hv : Verifies) :
    planS.judgePlan 0 plan1 [] = .stored { img := plan1, wimg := [], digest := sha3 (plan1.take (planSigOff plan1)) } := by
  have h1 : checkPlan plan1 = .ok := by decide +kernel
  have h2 : sigValid planS.integKey plan1 (planSigOff plan1) = true := by
    rw [show planS.integKey = some (zeros 1312) from keyS_key (by decide +kernel)]
    exact sigValid_of hv (by decide +kernel)
  have h3 : planS.reusedPlan 0 plan1 = some { img := plan1 } := by decide +kernel
  exact judged_of h1 h2 h3 (by decide +kernel) (by decide +kernel) (by decide +kernel)

/-- A public key record, staged. -/
def kImg : Bytes := keyImage (zeros 1312) ++ zeros 2420
def keyStageS : State := keyS (runS hostC (lop 0x20 3796))
theorem kImg_accepted (hv : Verifies) : (keyStageS.advance 0).stageRefusal kImg false = 0 := by
  have h1 : imageFormatOk kImg = true := by decide +kernel
  have h2 : rd kImg 5 1 = 7 := by decide +kernel
  have hk : (keyStageS.advance 0).integKey = some (zeros 1312) :=
    integKey_of (by decide +kernel) (by rfl) List.length_replicate
  have h3 : (keyStageS.advance 0).imageKey kImg = some (zeros 1312) := by
    have : ¬ ((keyStageS.advance 0).life = 2 ∧ (keyStageS.advance 0).nvm.ikey = none) := by decide +kernel
    have h20 : rd kImg 20 1 = 0 := by decide +kernel
    unfold State.imageKey
    rw [h2, h20]
    simp only [this, hk, Nat.reduceEqDiff, ne_eq, not_true_eq_false, if_true, if_false]
  have h4 : sigValid (some (zeros 1312)) kImg (imageSigOff kImg) = true := sigValid_of hv (by decide +kernel)
  have h5 : (keyStageS.advance 0).kindRefusal kImg = 0 := by decide +kernel
  simp [State.stageRefusal, h1, h2, h3, h4, h5, slotBytes]

/-- A stored configuration: one section that sets the frame. -/
def cImg : Bytes := padTo 2744 (
  le 4 0x47434C43 ++ [1, 5] ++ le 2 256 ++ le 8 2744 ++ le 4 9 ++ le 4 0 ++ le 2 1 ++ zeros 2 ++ le 4 324 ++ zeros 224 ++
  zeros 4 ++ le 4 0x100 ++ le 4 320 ++ le 4 4 ++ zeros 48 ++ le 4 0x30064)
def bootBase : State := keyS { inStartUp with rst := { inStartUp.rst with opt := [1] } }
def recOf (d : Bytes) (o k : Nat) : CommitRecord := { ok := true, gen := 9, digest := d, optCrc := o, clampCrc := k }
theorem recOf_digest (d : Bytes) (o k : Nat) : (recOf d o k).digest = d := rfl
theorem recOf_optCrc (d : Bytes) (o k : Nat) : (recOf d o k).optCrc = o := rfl
theorem recOf_clampCrc (d : Bytes) (o k : Nat) : (recOf d o k).clampCrc = k := rfl
def cRec : CommitRecord := recOf (imageDigest cImg) bootBase.rst.optCrc (clampCrc (bootBase.checkImage cImg).2)
def bootS : State := { bootBase with nvm := { bootBase.nvm with
  slots := [(5, cImg)]
  records := [(5, cRec)] } }
theorem stored_of {s : State} {bank : Nat} {c : Cfg} {l : List Clamp} (h0 : (s.nvm.ranked 5).head? = some bank)
    (hi : s.imageOk bank 5 = true) (ho : (s.rst.opt != []) = true) (hx : (s.nvm.crec bank 5).optCrc = s.rst.optCrc)
    (hc : s.checkImage (s.nvm.slot bank 5) = (c, l)) (hr : clampCrc l = (s.nvm.crec bank 5).clampCrc) : s.storedConfig = some c := by
  unfold State.storedConfig
  split
  · rename_i h; rw [h0] at h; cases h
  · rename_i b h
    rw [h0] at h
    cases h
    extract_lets r
    have hp : (s.imageOk bank 5 && s.rst.opt != [] && r.optCrc == s.rst.optCrc) = true := by
      rw [hi, ho, show r.optCrc = s.rst.optCrc from hx]; simp
    refine (if_pos hp).trans ?_
    rw [hc]
    exact if_pos hr
theorem bootS_stored (hv : Verifies) : bootS.storedConfig = some (bootBase.checkImage cImg).1 := by
  have h0 : (bootS.nvm.ranked 5).head? = some 0 := by decide +kernel
  have hc : bootS.nvm.crec 0 5 = cRec := rfl
  have r1 : cRec.digest = imageDigest cImg := recOf_digest _ _ _
  have r2 : cRec.optCrc = bootBase.rst.optCrc := recOf_optCrc _ _ _
  have r3 : cRec.clampCrc = clampCrc (bootBase.checkImage cImg).2 := recOf_clampCrc _ _ _
  have hs : bootS.nvm.slot 0 5 = cImg := rfl
  have h1 : imageFormatOk cImg = true := by decide +kernel
  have h2 : rd cImg 5 1 = 5 := by decide +kernel
  have hk : bootS.integKey = some (zeros 1312) := integKey_of (by decide +kernel) rfl List.length_replicate
  have h3 : bootS.imageKey cImg = some (zeros 1312) := by simp [State.imageKey, h2, hk]
  have h4 : sigValid (some (zeros 1312)) cImg (imageSigOff cImg) = true := sigValid_of hv (by decide +kernel)
  have h5 : bootS.imageOk 0 5 = true := by simp only [State.imageOk, hs, hc, h1, h2, h3, h4, r1, beq_self_eq_true, Option.isSome_some,
    Bool.and_self]
  have h6 : bootS.rst.opt = [1] := rfl
  have h7 : bootS.rst.optCrc = bootBase.rst.optCrc := rfl
  have h8 : bootS.checkImage cImg = bootBase.checkImage cImg := by
    have ho : bootS.optOf cImg = bootBase.optOf cImg := rfl
    have ht : bootS.tdegCeil = bootBase.tdegCeil := rfl
    unfold State.checkImage; rw [ho, ht]
  exact stored_of h0 h5 rfl (by rw [hc, r2,
    h7]) ((hs ▸ h8 : bootS.checkImage (bootS.nvm.slot 0 5) = bootBase.checkImage cImg).trans (Prod.eta _).symm) (by rw [hc, r3])

theorem staged5_no_option {s : State} : (s.cfgOf staged5).option = [] := by
  have h : sectBytes staged5.image 2 = [] := by decide +kernel
  rw [State.cfgOf.eq_1, (s.checkImage_keeps staged5.image).2.2.2.2]
  exact h

theorem ofLe_lt (b : Bytes) : ofLe b < 256 ^ b.length := by
  induction b with
  | nil => simp [ofLe]
  | cons x r ih =>
    have := x.isLt
    simp only [ofLe, List.length_cons, Nat.pow_succ]
    omega
theorem le_ofLe (b : Bytes) : le b.length (ofLe b) = b := by
  induction b with
  | nil => rfl
  | cons x r ih =>
    have h1 : (x.toNat + 256 * ofLe r) / 256 = ofLe r := by have := x.isLt; omega
    have h2 : BitVec.ofNat 8 (x.toNat + 256 * ofLe r) = x := by
      apply BitVec.eq_of_toNat_eq
      have := x.isLt
      simp; omega
    simp only [ofLe, List.length_cons, le, h1, h2, ih]

/-- A device in RETURN whose fuses hold the hash of Nolind key 0. -/
def returnS : State := lifeS (0xFF + ofLe (sha3 (zeros 1312)) * 2 ^ 320) { running with nvm := { running.nvm with nkeys := [(0, zeros 1312)] } }
theorem returnS_fuses (h : Nat) (hh : h < 2 ^ 256) :
    lifeOf (0xFF + h * 2 ^ 320) = 4 ∧ fld (0xFF + h * 2 ^ 320) 320 256 = h ∧ fld (0xFF + h * 2 ^ 320) 832 2 = 0 := by
  refine ⟨?_, ?_, ?_⟩
  · have e : ∀ g, g < 5 → fld (0xFF + h * 2 ^ 320) (2 * g) 2 = if g < 4 then 3 else 0 := by
      intro g hg
      unfold fld
      have : g = 0 ∨ g = 1 ∨ g = 2 ∨ g = 3 ∨ g = 4 := by omega
      rcases this with rfl | rfl | rfl | rfl | rfl <;> simp <;> omega
    have l : (List.range 5).filter (fun g => fld (0xFF + h * 2 ^ 320) (2 * g) 2 != 0) = [0, 1, 2, 3] := by
      have c : (List.range 5).filter (fun g => fld (0xFF + h * 2 ^ 320) (2 * g) 2 != 0) = (List.range 5).filter (· < 4) := by
        refine List.filter_congr fun g hg => ?_
        rw [e g (List.mem_range.mp hg)]
        split <;> simp_all
      rw [c]; rfl
    unfold lifeOf; rw [l]; rfl
  · unfold fld; omega
  · unfold fld; omega
theorem returnS_authOk (hv : Verifies) : returnS.authOk = true ∧ returnS.life = 4 := by
  have hl : (sha3 (zeros 1312)).length = 32 := sha3_length _
  have hlt : ofLe (sha3 (zeros 1312)) < 2 ^ 256 := by
    have := ofLe_lt (sha3 (zeros 1312)); rw [hl] at this; omega
  obtain ⟨h1, h2, h3⟩ := returnS_fuses _ hlt
  have hlife : returnS.life = 4 := h1
  have hk : returnS.nolindKey 0 = some (zeros 1312) := by
    have hb : tget returnS.nvm.nkeys 0 = zeros 1312 := rfl
    have hf : fuseBytes returnS.nvm.shadow (320 + 256 * 0) 32 = sha3 (zeros 1312) := by
      have : returnS.nvm.shadow = 0xFF + ofLe (sha3 (zeros 1312)) * 2 ^ 320 := rfl
      rw [this]
      show le 32 (fld _ 320 256) = _
      rw [h2, ← hl, le_ofLe]
    have hr : bitAt (fld returnS.nvm.shadow 832 2) 0 = false := by
      have : returnS.nvm.shadow = 0xFF + ofLe (sha3 (zeros 1312)) * 2 ^ 320 := rfl
      rw [this, h3]; rfl
    unfold State.nolindKey
    rw [hb, hf, hr]
    exact if_pos ⟨by decide, List.length_replicate, rfl, rfl⟩
  refine ⟨?_, hlife⟩
  unfold State.authOk
  rw [hlife]
  simp [hk, hv _ _ _]
theorem returnS_on (hv : Verifies) : returnS.tackOn = true := by
  unfold State.tackOn
  rw [(returnS_authOk hv).2]
  decide +kernel

theorem slice_left (a b : Bytes) {off n : Nat} (h : off + n ≤ a.length) : slice (a ++ b) off n = slice a off n := by
  unfold slice
  rw [List.drop_append_of_le_length (by omega), List.take_append_of_le_length (by simp; omega)]
theorem slice_right (a b : Bytes) {off n : Nat} (h : a.length ≤ off) : slice (a ++ b) off n = slice b (off - a.length) n := by
  unfold slice
  rw [List.drop_append, List.drop_eq_nil_of_le h, List.nil_append]

/-- A golden set of one input of one page: header and entry, the entry's digest, and zeros; for a plan without layers. -/
def goldHead : Bytes := fill [(0, 4, 0x44474C43), (4, 1, 1), (5, 1, 4), (6, 2, 256), (8, 8, 84404), (56, 2, 1), (64, 8, 81984),
  (256, 8, 4096), (264, 4, 1), (272, 8, 8192), (280, 4, 73792)] 288
def goldSet0 : Bytes := goldHead ++ (sha3 (zeros 4096 ++ zeros 73792) ++ zeros 84084)
def goldPlanS : State :=
  keyS ({ runS hostC (lop 0x14 84404) with cfg := { active := { regs := [(0x140200, 4), (0x2D0084, 100), (0x134, 22000), (0x138, 26000),
      (0x2D1004, 100), (0x2D1008, 0x304)] } } }.modPlan 0 fun x => { x with active := some { img := [], digest := zeros 32 } })
theorem goldSet0_rd {off n : Nat} (h : off + n ≤ 288) : rd goldSet0 off n = rd goldHead off n := by
  unfold rd goldSet0
  rw [slice_left]
  exact h
theorem goldSet0_zeros {off n : Nat} (h : 320 ≤ off) (h2 : off + n ≤ 84404) : slice goldSet0 off n = zeros n := by
  have e : goldSet0 = (goldHead ++ sha3 (zeros 4096 ++ zeros 73792)) ++ zeros 84084 := (List.append_assoc _ _ _).symm
  have l : (goldHead ++ sha3 (zeros 4096 ++ zeros 73792)).length = 320 := by
    rw [List.length_append, sha3_length]; rfl
  rw [e, slice_right _ _ (by rw [l]; exact h), l]
  exact slice_zeros _ _ _ (by omega)
theorem goldSet0_digest : slice goldSet0 288 32 = sha3 (zeros 4096 ++ zeros 73792) := by
  unfold goldSet0
  rw [slice_right _ _ (by decide)]
  rw [show goldHead.length = 288 from rfl, slice_left _ _ (by have h := sha3_length (zeros 4096 ++ zeros 73792); omega)]
  unfold slice
  rw [Nat.sub_self, List.drop_zero, List.take_of_length_le (by have h := sha3_length (zeros 4096 ++ zeros 73792); omega)]
theorem goldSet0_length : goldSet0.length = 84404 := by
  unfold goldSet0
  rw [List.length_append, List.length_append, sha3_length]
  simp only [zeros, List.length_replicate]
  rfl
theorem goldSet0_format : goldFormatOk goldSet0 = true := by
  have hn : goldEntries goldSet0 = 1 := by unfold goldEntries; rw [goldSet0_rd (by decide)]; decide +kernel
  have hs : goldSigOff goldSet0 = 81984 := by unfold goldSigOff; rw [goldSet0_rd (by decide)]; decide +kernel
  have z : ∀ off n, off + n ≤ 288 → zeroAt goldSet0 off n = zeroAt goldHead off n := fun off n h => by
    unfold zeroAt goldSet0; rw [slice_left _ _ h]
  have i : gent goldSet0 0 0 8 = 4096 := by unfold gent; rw [goldSet0_rd (by decide)]; decide +kernel
  have x : gent goldSet0 0 16 8 = 8192 := by unfold gent; rw [goldSet0_rd (by decide)]; decide +kernel
  have k : gent goldSet0 0 8 4 = 1 := by unfold gent; rw [goldSet0_rd (by decide)]; decide +kernel
  have l : gent goldSet0 0 24 4 = 73792 := by unfold gent; rw [goldSet0_rd (by decide)]; decide +kernel
  have f : gent goldSet0 0 12 1 = 0 := by unfold gent; rw [goldSet0_rd (by decide)]; decide +kernel
  have p : gent goldSet0 0 28 4 = 0 := by unfold gent; rw [goldSet0_rd (by decide)]; decide +kernel
  unfold goldFormatOk
  extract_lets n
  rw [show n = 1 from hn]
  simp only [goldSet0_length, hs, goldSet0_rd (off := 0) (n := 4) (by decide), goldSet0_rd (off := 4) (n := 1) (by decide),
    goldSet0_rd (off := 5) (n := 1) (by decide), goldSet0_rd (off := 6) (n := 2) (by decide), goldSet0_rd (off := 8) (n := 8) (by decide),
    z 58 6 (by decide), z 72 184 (by decide), List.range_one, List.all_cons, List.all_nil, i, x, k, l, f, p,
    Nat.mul_zero, Nat.add_zero, Nat.mul_one, z 269 3 (by decide)]
  rw [goldSet0_zeros (by decide) (by decide), goldSet0_zeros (by decide) (by decide), goldSet0_digest]
  simp only [beq_self_eq_true, Bool.and_true]
  decide +kernel
theorem goldSet0_plan : goldPlanS.goldPlan 0 goldSet0 = some (true, { img := [], digest := zeros 32 }) := by
  have h1 : slice goldSet0 24 32 = zeros 32 := by
    unfold goldSet0; rw [slice_left _ _ (by decide)]; decide +kernel
  have h2 : rd goldSet0 16 8 = 0 := by rw [goldSet0_rd (by decide)]; decide +kernel
  unfold State.goldPlan
  rw [h1, h2]
  decide +kernel
theorem goldSet0_accepted (hv : Verifies) : goldPlanS.goldRefusal 0 goldSet0 = 0 := by
  have h1 : goldPlanS.cfg.active.goldPart 0 = 4 := by decide +kernel
  have hs : goldSigOff goldSet0 = 81984 := by unfold goldSigOff; rw [goldSet0_rd (by decide)]; decide +kernel
  have h2 : sigValid goldPlanS.integKey goldSet0 81984 = true := by
    rw [show goldPlanS.integKey = some (zeros 1312) from keyS_key (by decide +kernel)]
    exact sigValid_of hv (by have h := goldSet0_length; omega)
  have hn : goldEntries goldSet0 = 1 := by unfold goldEntries; rw [goldSet0_rd (by decide)]; decide +kernel
  have l : gent goldSet0 0 24 4 = 73792 := by unfold gent; rw [goldSet0_rd (by decide)]; decide +kernel
  have k : gent goldSet0 0 8 4 = 1 := by unfold gent; rw [goldSet0_rd (by decide)]; decide +kernel
  have e : mrkOff [] + 64 * planTensors [] - 256 = 73792 := by decide +kernel
  have hb : goldPlanS.cfg.active.goldTooBig 0 goldSet0 = false := by
    unfold Cfg.goldTooBig goldPages
    rw [hn, List.range_one, List.any_cons, List.any_nil, k]
    decide +kernel
  have hg : goldPlanS.cfg.active.gddrPages 4 = 100 := by decide +kernel
  have ha : (goldPlanS.gold 0).active.elim 0 pagesOf = 0 := by decide +kernel
  have hq : pagesOf goldSet0 = 21 := by rw [pagesOf, goldSet0_length]; rfl
  unfold State.goldRefusal
  simp only [h1, goldSet0_format, hs, h2, goldSet0_plan, hn, List.range_one, List.any_cons, List.any_nil, l, e, hb, hg, ha, hq,
    if_false, Bool.not_true, Bool.false_eq_true, bne_self_eq_false, Bool.or_false, Nat.reduceEqDiff, Nat.reduceAdd, Nat.reduceLT]

/-! ### For each statement, states and operands that meet the hypotheses of its clauses -/

theorem witness_StepRunsFrontCommand : ∃ (s : State), s.pending = [] :=
  ⟨running, by decide +kernel⟩

theorem witness_OnlyShroudsOwnEventsReachShroud : ∃ (c : Instr), reachesShroud c = false :=
  ⟨.frameTick 0, by decide +kernel⟩

theorem witness_SafeIsLeftOnlyThroughAReset : ∃ (c : Instr) (s t : State), s.glb.st = OpState.safe ∧ exec c s = Host.Outcome.next t :=
  ⟨.tackBadRequest 0 0, inState .safe, _, ⟨by decide, rfl⟩⟩

theorem witness_SafeLatchHoldsTheOutputsOff :
    (∃ (seq : Nat) (p : Bytes) (s : State), s.atStep 3 = true ∧ seq = s.shr.link.expect ∧ reservedOk 7 p = true) ∧
    (∃ (c : Instr) (s t : State), s.shr.safeLatch = true ∧ s.outputsOff ∧ exec c s = Host.Outcome.next t) :=
  ⟨⟨5, zeros 10, shS id, by decide +kernel⟩,
   ⟨.tackBadRequest 0 0, shS (fun h => { h with safeLatch := true }), _, ⟨by decide, ⟨fun _ => nofun, fun _ => ⟨nofun, nofun⟩⟩, rfl⟩⟩⟩

theorem witness_PowerComesAndGoes :
    (∃ (s : State) (src : Nat), src ≤ 2 ∧ s.rst.pf.since = none) ∧
    (∃ (s : State) (d : Nat), d < 132 ∧ s.rst.on.Nodup) :=
  ⟨⟨running, 0, by decide +kernel⟩,
   ⟨running, 5, by decide +kernel⟩⟩

theorem witness_SupplyAndClockSourcesRestart :
    (∃ (s : State), s.rst.restarting = false) ∧
    (∃ (s : State) (sys : PinDrive), s.rst.restarting = false ∧ sys ≠ PinDrive.high ∧ s.rst.pf.since = none) ∧
    (∃ (dt : Nat) (s : State) (w : Nat), s.rst.restarting = false ∧ s.rst.pf.since = some w ∧ s.mc + dt - w ≥ 10 * msMc) ∧
    (∃ (s : State), s.rst.restarting = false ∧ s.resettable = true ∧ s.atStep 3 = true) ∧
    (∃ (s : State) (w k : Nat), s.rst.restarting = false ∧ s.resettable = true ∧ s.atStep 3 = true ∧ 2 ≤ w ∧ s.atStep k = true) ∧
    (∃ (s : State) (k : Nat), s.rst.restarting = false ∧ s.resettable = true ∧ s.atStep 3 = true ∧ k ≠ 2 ∧ s.atStep k = true) ∧
    (∃ (dt : Nat) (s : State), s.rst.tripHold = true ∧ s.rst.tripAt + 1000 * msMc ≤ s.mc + dt) ∧
    (∃ (s : State), s.resettable = true ∧ s.atStep 3 = true) ∧
    (∃ (s : State) (w k : Nat), 2 ≤ w ∧ s.atStep k = false) :=
  ⟨⟨running, by decide +kernel⟩,
   ⟨running, .low, by decide +kernel⟩,
   ⟨0, warned, 5, by decide +kernel⟩,
   ⟨running, by decide +kernel⟩,
   ⟨running, 2, 3, by decide +kernel⟩,
   ⟨running, 3, by decide +kernel⟩,
   ⟨0, tripped, by decide +kernel⟩,
   ⟨running, by decide +kernel⟩,
   ⟨startingAt 1, 2, 5, by decide +kernel⟩⟩

theorem witness_InternalSourcesRestart :
    (∃ (s : State), s.rst.restarting = false ∧ s.resettable = true) ∧
    (∃ (s : State), s.rst.restarting = false ∧ s.resettable = true ∧ s.allOff = true ∧ (∀ (x : Nat × TrustSlot),
      x ∈ s.shr.slots → x.snd.bound = false)) ∧
    (∃ (dt : Nat) (s : State) (c : Nat), s.rst.restarting = false ∧ s.resettable = true ∧ s.allOff = true ∧ (∀ (x : Nat × TrustSlot),
      x ∈ s.shr.slots → x.snd.bound = false) ∧ s.cfg.fwCommitAt = some c ∧ c + 10 * msMc ≤ s.mc + dt ∧ s.fox.st ≠ FoxState.reset) ∧
    (∃ (dt : Nat) (s : State), s.rst.restarting = false ∧ s.resettable = true ∧ s.owl.s.live = true ∧ s.owl.s.st = OwlState.trap ∧
      (s.advance dt).owlCyc - s.owl.s.trapCyc ≥ s.hardCycles 0) ∧
    (∃ (dt : Nat) (s : State), s.rst.restarting = false ∧ s.resettable = true ∧ s.shr.link.isLost (s.advance dt).cyc = true) ∧
    (∃ (dt : Nat) (s : State), s.rst.restarting = false ∧ s.resettable = true ∧ s.tackOn = true ∧ s.tck.lastTag = none ∧ s.tck.retry = none ∧
      (s.advance dt).accessCause rowReset false = 0) :=
  ⟨⟨running, by decide +kernel⟩,
   ⟨running, by decide +kernel⟩,
   ⟨0, fwCommitted, 5, by decide +kernel⟩,
   ⟨0, owlTrapped, by decide +kernel⟩,
   ⟨0, shS id, ⟨by decide +kernel, by decide +kernel,
     lost_after _ (by decide +kernel) (by decide +kernel) (by decide +kernel) (by decide +kernel)⟩⟩,
   ⟨0, lifeS 0xF running, by decide +kernel⟩⟩

theorem witness_StepsAreReleasedInOrder :
    (∃ (dt k c : Nat) (pins : ResetPins) (good : List Nat) (s : State), 2 ≤ k ∧ k ≤ 10 ∧ s.rst.released = some (k - 1) ∧ s.rst.held = none ∧
      s.rst.pf.holding = false ∧ s.rst.tripHold = false ∧ s.life ≠ 5 ∧ s.rst.gap k * refMc ≤ s.mc + dt - s.rst.releasedAt ∧
      pins.sys = PinDrive.high ∧ pins.pwr = PinDrive.high ∧ (s.rst.waitRefclk = true → 1 ∈ good) ∧ k ∈ good ∧
      List.lookup k s.rst.condFrom = some c ∧ c + 256 * refMc ≤ s.mc + dt ∧ (k = 8 → msMc ≤ s.mc + dt - s.rst.resetOutAt)) ∧
    (∃ (dt k : Nat) (s : State), 2 ≤ k ∧ k ≤ 10 ∧ s.rst.held = none ∧ s.rst.released = some (k - 1) ∧ s.rst.tripHold = false ∧
      s.rst.pf.holding = false ∧ (s.advance dt).mayRelease k = false ∧ s.mc + dt - s.rst.releasedAt ≥ (s.rst.gap k + s.rst.cgTimeout) * refMc) :=
  ⟨⟨0, 3, 0, pinsHigh, [1, 2, 3], condS 3 0, by decide +kernel⟩,
   ⟨0, 2, startingAt 1, by decide +kernel⟩⟩

theorem witness_StartUpWipesTestsAndBoots :
    (∃ (s : State), s.mayBoot = true ∧ s.glb.st = OpState.startUp ∧ s.storedConfig = none) ∧
    (Verifies → ∃ (s : State) (c : Cfg), s.mayBoot = true ∧ s.glb.st = OpState.startUp ∧ s.storedConfig = some c ∧ s.lifePending = false ∧
      (∀ (b : Nat), b ∈ (s.nvm.ranked 5).head? → (s.nvm.crec b 5).clogSeq ≤ s.nvm.clogSeq)) ∧
    (∃ (s : State), s.life = 4 ∧ s.glb.st = OpState.startUp ∧ s.atStep 4 = true ∧ s.cfg.wiped = false) ∧
    (∃ (s : State), s.atStep 5 = true ∧ s.glb.booted = false ∧ s.glb.st = OpState.startUp) :=
  ⟨⟨inStartUp, by decide +kernel⟩,
   fun hv => ⟨bootS, (bootBase.checkImage cImg).1, ⟨by decide +kernel, by decide +kernel, bootS_stored hv, by decide +kernel, by decide +kernel⟩⟩,
   ⟨lifeS 0xFF inStartUp, by decide +kernel⟩,
   ⟨inStartUp, by decide +kernel⟩⟩

theorem witness_FramesAndConfigurationsBegin :
    (∃ (dt : Nat) (s : State), s.cfg.next = none ∧ (s.advance dt).tickDue = true) ∧
    (∃ (dt : Nat) (s : State) (c : Cfg), s.cfg.next = some c ∧ s.cfg.atRestart = false ∧ s.cfg.boundary ≤ (s.advance dt).tmb.now) ∧
    (∃ (dt : Nat) (s : State) (c : Cfg), s.cfg.next = some c ∧ s.cfg.atRestart = false ∧ (s.advance dt).tmb.now < s.cfg.boundary) :=
  ⟨⟨0, nowT running 160533333328, by decide +kernel⟩,
   ⟨0, cfgDue 160000000000, { cfg0 with gen := 9 }, by decide +kernel⟩,
   ⟨0, cfgDue 160000900000, { cfg0 with gen := 9 }, by decide +kernel⟩⟩

theorem witness_SlotEdgesFireOnce :
    (∃ (dt lanes : Nat) (s : State) (x : Nat × Instr), x ∈ [(0, Instr.dC dt), (1, Instr.dV dt lanes), (2, Instr.ingEnd dt), (3,
      Instr.shdStart dt), (4, Instr.shdEnd dt), (5, Instr.gldStart dt), (6, Instr.gldEnd dt), (7, Instr.slfStart dt), (8, Instr.slfEnd dt), (9,
      Instr.closeOut dt)] ∧ (s.advance dt).edgeDue x.fst = true) ∧
    (∃ (dt lanes : Nat) (s : State) (x : Nat × Instr), x ∈ [(0, Instr.dC dt), (1, Instr.dV dt lanes), (2, Instr.ingEnd dt), (3,
      Instr.shdStart dt), (4, Instr.shdEnd dt), (5, Instr.gldStart dt), (6, Instr.gldEnd dt), (7, Instr.slfStart dt), (8, Instr.slfEnd dt), (9,
      Instr.closeOut dt)] ∧ (s.advance dt).edgeDue x.fst = false) ∧
    (∃ (dt : Nat) (s : State), (s.advance dt).edgeDue 0 = true) ∧
    (∃ (dt : Nat) (s : State), (s.advance dt).edgeDue 1 = true) :=
  ⟨⟨0, 0, nowT running 160530000000, (0, .dC 0), by decide +kernel⟩,
   ⟨0, 0, running, (0, .dC 0), by decide +kernel⟩,
   ⟨0, nowT running 160530000000, by decide +kernel⟩,
   ⟨0, nowT running 160530000000, by decide +kernel⟩⟩

theorem witness_PartitionViolationsAndDieLink :
    (∃ (dt p target addr len : Nat) (write : Bool) (s : State), (s.advance dt).nocAllowed p target write addr len = true) ∧
    (∃ (dt p target addr len : Nat) (write : Bool) (s : State), (s.advance dt).nocAllowed p target write addr len = false) ∧
    (∃ (p : Nat) (s : State), s.cfg.active.prtSafety p = true) ∧
    (∃ (s : State), s.atStep 7 = true ∧ s.die.retraining = none) ∧
    (∃ (dt : Nat) (s : State) (t0 : Nat), s.die.retraining = some t0 ∧ s.mc + dt ≤ t0 + msMc) ∧
    (∃ (dt : Nat) (s : State) (t0 : Nat), s.die.retraining = some t0 ∧ t0 + msMc ≤ s.mc + dt) :=
  ⟨⟨0, 0, 0, 0, 4, false, running, by decide +kernel⟩,
   ⟨0, 5, 0, 0, 4, false, running, by decide +kernel⟩,
   ⟨2, running, by decide +kernel⟩,
   ⟨running, by decide +kernel⟩,
   ⟨0, retraining 18000000000, 18000000000, by decide +kernel⟩,
   ⟨0, retraining 17900000000, 17900000000, by decide +kernel⟩⟩

theorem witness_SyncsAreTakenOrMissed :
    (∃ (dt m domNs : Nat) (s : State), s.tmb.running = true ∧ s.portOn m = true ∧ s.tmb.role = 0 ∧ s.tmb.servo = Servo.locked ∧
      0 ≤ (domNs : Int) - s.tmb.epoch * 1000000000 ∧ (domNs : Int) - s.tmb.epoch * 1000000000 < (2 ^ 60 : Nat) ∧
      (16 * ((domNs : Int) - s.tmb.epoch * 1000000000) - (s.advance dt).tmb.now).natAbs ≤ 16 * s.stepNs) ∧
    (∃ (dt : Nat) (s : State) (l : Nat), s.tmb.servo = Servo.locked ∧ s.tmb.role ≠ 1 ∧ s.tmb.lastSample = some l ∧
      l + 3 * s.syncInterval ≤ (s.advance dt).tmb.now) ∧
    (∃ (dt : Nat) (s : State), s.tmb.servo = Servo.holdover ∧ s.tmb.syncLost = false ∧
      s.tmb.holdFrom + s.holdoverS * s16 ≤ (s.advance dt).tmb.now) ∧
    (∃ (s : State) (m gm : Nat), s.tmb.running = true ∧ s.portOn m = true ∧ s.tmb.role = 0 ∧ gm < 2 ^ 64 ∧ gm ≠ s.tmb.gm) :=
  ⟨⟨0, 0, 10000000000, running, by decide +kernel⟩,
   ⟨0, tmbS fun t => { t with lastSample := some 0 }, 0, by decide +kernel⟩,
   ⟨0, tmbS fun t => { t with servo := .holdover, now := 1000000000000 }, by decide +kernel⟩,
   ⟨running, 0, 5, by decide +kernel⟩⟩

theorem witness_PpsEdgesAndPulses :
    (∃ (dt : Nat) (s : State), s.tmb.running = true ∧ (∀ (l : Nat), s.tmb.ppsLast = some l → l + 900 * ms16 ≤ (s.advance dt).tmb.edgeTime)) ∧
    (∃ (dt : Nat) (s : State) (l : Nat), s.tmb.running = true ∧ s.tmb.ppsLast = some l ∧ (s.advance dt).tmb.edgeTime < l + 900 * ms16) ∧
    (∃ (dt fn p : Nat) (s : State), p < 8 ∧ s.ownsPulse fn p = true ∧ (s.advance dt).pulseDue p = true) ∧
    (∃ (dt fn p v : Nat) (s : State), p < 8 ∧ s.ownsPulse fn p = true ∧ (s.advance dt).pulseDue p = false ∧ fld v 0 2 = 1 ∧
      (s.advance dt).pulseErr { s.pulse p with mode := fld v 0 2, pol := bitAt v 2 } = 0) ∧
    (∃ (dt fn p v : Nat) (s : State), p < 8 ∧ s.ownsPulse fn p = true ∧ (s.advance dt).pulseDue p = false ∧
      (s.advance dt).pulseErr { s.pulse p with mode := fld v 0 2, pol := bitAt v 2 } ≠ 0) ∧
    (∃ (dt fn p : Nat) (s : State), p < 8 ∧ s.ownsPulse fn p = true ∧ (s.advance dt).pulseDue p = false) ∧
    (∃ (dt p : Nat) (s : State), p < 8 ∧ (s.advance dt).pulseDue p = true ∧ (s.pulse p).mode = 1) ∧
    (∃ (dt p : Nat) (s : State), p < 8 ∧ (s.pulse p).active = true ∧ (s.pulse p).endAt ≤ s.mc + dt) :=
  ⟨⟨0, running, ⟨by decide, fun _ h => nomatch h⟩⟩,
   ⟨0, tmbS fun t => { t with ppsLast := some 159990000000 }, 159990000000, by decide +kernel⟩,
   ⟨0, 0, 0, pulses, by decide +kernel⟩,
   ⟨0, 0, 1, 1, pulses, by decide +kernel⟩,
   ⟨0, 0, 1, 3, pulses, by decide +kernel⟩,
   ⟨0, 0, 1, pulses, by decide +kernel⟩,
   ⟨0, 0, pulses, by decide +kernel⟩,
   ⟨0, 2, pulses, by decide +kernel⟩⟩

theorem witness_ReportsGrowAndComplete :
    (∃ (dt i off : Nat) (data : Bytes) (s : State) (r : Report), i < 128 ∧ s.fr.ticking = true ∧ s.armed i = true ∧
      (s.slot i).rep.write ((s.advance dt).slotCtx i) off data false ((s.advance dt).past 0) (s.advance dt).tmb.now (s.mc + dt) = WriteFate.accept r) ∧
    (∃ (dt i : Nat) (s : State), (s.slot i).rep.code = 1 ∧ (s.slot i).rep.full = true ∧ (s.slot i).rep.abandoned = false ∧
      (s.advance dt).past 0 = false ∧ checkOk ((s.advance dt).slotCtx i) (s.slot i).rep.bytes (List.length (s.slot i).rep.bytes - 48) = true) ∧
    (∃ (dt i : Nat) (s : State), (s.slot i).rep.code = 1 ∧ (s.slot i).rep.full = true ∧ (s.slot i).rep.abandoned = false ∧
      (s.advance dt).past 0 = false ∧ checkOk ((s.advance dt).slotCtx i) (s.slot i).rep.bytes (List.length (s.slot i).rep.bytes - 48) = false) :=
  ⟨⟨0, 0, 0, magic, armS, { code := 1, bytes := magic, lastAt := some 18000000000 }, ⟨by decide +kernel, by decide +kernel, by decide +kernel,
    rfl⟩⟩,
   ⟨0, 0, reported false, by decide +kernel⟩,
   ⟨0, 0, reported true, by decide +kernel⟩⟩

theorem witness_StaleAndLateWritesAreDiscarded :
    (∃ (i : Nat) (s : State), i < 128 ∧ (s.armed i = false ∨ s.fr.ticking = false)) ∧
    (∃ (dt i : Nat) (s : State), i < 128 ∧ s.armed i = true ∧ s.fr.ticking = true ∧ (s.advance dt).past 0 = true) :=
  ⟨⟨0, running, by decide +kernel⟩,
   ⟨0, 0, nowT armS 160400000000, by decide +kernel⟩⟩

theorem witness_PortWAndGoldenWindows :
    (∃ (off : Nat) (data : Bytes), data ≠ [] ∧ (off + List.length data ≤ 4294967296 ∨ 8589934592 ≤ off ∧ off + List.length data ≤ 12884901888)) ∧
    (∃ (off n : Nat), 65536 < off + n ∧ ¬(65536 ≤ off ∧ off + n ≤ 131072) ∧ ¬(8589934592 ≤ off ∧ off + n ≤ 12884901888)) ∧
    (∃ (speed width : Nat), 1 ≤ speed ∧ speed ≤ 5 ∧ width ∈ [1, 2, 4, 8, 16]) ∧
    (∃ (speed width : Nat), (speed = 0 ∨ 5 < speed ∨ ¬width ∈ [1, 2, 4, 8, 16])) ∧
    (∃ (dt off : Nat) (s : State) (data : Bytes) (r : Report), (s.advance dt).goldPending = true ∧ (s.advance dt).past 5 = true ∧
      s.pw.gold.write (s.advance dt).goldCtx off data false ((s.advance dt).past 6) (s.advance dt).tmb.now (s.mc + dt) = WriteFate.accept r ∧
      (s.advance dt).goldUnequal r.bytes = false) ∧
    (∃ (dt off n : Nat) (s : State) (p : Nat) (g : Bytes), s.vrd.offered = some p ∧ (s.gold p).active = some g ∧
      (s.advance dt).goldPending = true ∧ (s.advance dt).inSlot 5 6 = true ∧ off + n ≤ goldPages g s.vrd.offeredEntry * 4096) ∧
    (∃ (dt : Nat) (s : State), (s.advance dt).goldPending = false) :=
  ⟨⟨0, [1], by decide +kernel⟩,
   ⟨0x1FFFF, 2, by decide +kernel⟩,
   ⟨5, 16, by decide +kernel⟩,
   ⟨0, 0, by decide +kernel⟩,
   ⟨0, 0, goldW, magic, { code := 1, bytes := magic, lastAt := some 18000000000 }, ⟨by decide +kernel, by decide +kernel, rfl, by decide +kernel⟩⟩,
   ⟨0, 0, 4, goldW, 0, goldImg, by decide +kernel⟩,
   ⟨0, running, by decide +kernel⟩⟩

theorem witness_OpeningsAreTakenWhilePosted :
    (∃ (dt : Nat) (s : State), s.aud.mbox.state = 1 ∧ (s.advance dt).past 1 = false) ∧
    (∃ (dt : Nat) (s : State), (s.advance dt).past 1 = false ∧ s.aud.mbox.state ≠ 2) ∧
    (∃ (dt off : Nat) (s : State), (s.advance dt).past 1 = false ∧ s.aud.mbox.state = 2 ∧ (∀ (c : Challenge),
      c ∈ s.aud.mbox.entries → ¬(c.openOff ≤ off ∧ off < c.openOff + c.openLen))) ∧
    (∃ (dt off : Nat) (data : Bytes) (s : State) (c : Challenge), (s.advance dt).past 1 = false ∧ s.aud.mbox.state = 2 ∧
      s.aud.mbox.entries = [c] ∧ c.status = 1 ∧ c.abandoned = false ∧ c.bytes = [] ∧ off = c.openOff ∧ data.length < c.openLen ∧ data ≠ [] ∧
      openingFail (s.advance dt) 0 { c with bytes := data, status := 2 } data = none) :=
  ⟨⟨0, mboxS 1 [], by decide +kernel⟩,
   ⟨0, mboxS 0 [], by decide +kernel⟩,
   ⟨0, 9000, mboxS 2 [openCh], by decide +kernel⟩,
   ⟨0, 0, [0x43, 0x4C, 0x50, 0x4F], mboxS 2 [openCh], openCh, by decide +kernel⟩⟩

theorem witness_EntropyAndLeaves :
    (∃ (s : State), s.aud.drbg.instantiated = true ∧ s.aud.drbg.testsFail = false) ∧
    (∃ (s : State), s.aud.drbg.testsFail = true) ∧
    (∃ (dt i k : Nat) (s : State) (c : Challenge) (pl : Plan) (x : LeafAt), s.chl i = some c ∧ (s.plan c.plan).active = some pl ∧
      (leafTable pl.img 64 (opened pl.img c.target c.row c.col))[k]? = some x ∧ (s.advance dt).chlOpen c = true ∧ c.abandoned = false ∧
      x.off + 4096 + 32 * tnsDepth pl.img x.tensor ≤ List.length c.bytes ∧ c.leaves.contains k = false ∧
      leafReaches pl.img (s.slot c.slot).rep.bytes c.bytes x = true) ∧
    (∃ (dt i k : Nat) (s : State) (c : Challenge) (pl : Plan) (x : LeafAt), s.chl i = some c ∧ (s.plan c.plan).active = some pl ∧
      (leafTable pl.img 64 (opened pl.img c.target c.row c.col))[k]? = some x ∧ (s.advance dt).chlOpen c = true ∧ c.abandoned = false ∧
      x.off + 4096 + 32 * tnsDepth pl.img x.tensor ≤ List.length c.bytes ∧ c.leaves.contains k = false ∧
      leafReaches pl.img (s.slot c.slot).rep.bytes c.bytes x = false) ∧
    (∃ (dt i k : Nat) (s : State) (c : Challenge) (pl : Plan) (x : LeafAt), s.chl i = some c ∧ (s.plan c.plan).active = some pl ∧
      (leafTable pl.img 64 (opened pl.img c.target c.row c.col))[k]? = some x ∧ (s.advance dt).chlOpen c = true ∧ c.abandoned = false ∧
      x.off + 4096 + 32 * tnsDepth pl.img x.tensor ≤ List.length c.bytes ∧ c.leaves.contains k = false ∧ s.aud.mbox.state = 2 ∧
      (∀ (b : Challenge), b ∈ List.take i s.aud.mbox.entries → b.weights = true ∨ 16 ≤ b.status)) :=
  ⟨⟨drbgS { instantiated := true }, by decide +kernel⟩,
   ⟨drbgS { testsFail := true }, by decide +kernel⟩,
   ⟨0, 0, 0, chlS rep0 (chl 2 (zeros 8400)), chl 2 (zeros 8400), { img := img0 }, leafAt0, ⟨by decide +kernel, by decide +kernel,
     by decide +kernel, by decide +kernel, by decide +kernel, by decide +kernel, by decide +kernel, leaf0_reaches⟩⟩,
   ⟨0, 0, 0, chlS [] (chl 2 (zeros 8400)), chl 2 (zeros 8400), { img := img0 }, leafAt0, by decide +kernel⟩,
   ⟨0, 0, 0, chlS [] (chl 2 (zeros 8400)), chl 2 (zeros 8400), { img := img0 }, leafAt0, by decide +kernel⟩⟩

theorem witness_EnginesComputeUnits :
    (∃ (dt e : Nat) (s : State) (u : SttUnit), e < 17 ∧ (s.eng e).st = EngState.service ∧ (s.eng e).busy = none ∧
      (s.advance dt).nextUnit = some u) ∧
    (∃ (dt e : Nat) (s : State) (i : Nat) (c : Challenge) (pl : Plan), (s.eng e).busy = some (SttUnit.tile i) ∧ s.chl i = some c ∧
      (s.plan c.plan).active = some pl ∧ c.status = 3 ∧ (s.advance dt).past 1 = false ∧
      tileFails pl.img pl.wimg c.bytes (leafTable pl.img 64 (opened pl.img c.target c.row c.col)) c.target c.row c.col = none) ∧
    (∃ (dt e : Nat) (s : State) (i : Nat) (c : Challenge) (pl : Plan), (s.eng e).busy = some (SttUnit.tile i) ∧ s.chl i = some c ∧
      (s.plan c.plan).active = some pl ∧ c.status = 3 ∧ (s.advance dt).past 1 = false ∧
      tileFails pl.img pl.wimg c.bytes (leafTable pl.img 64 (opened pl.img c.target c.row c.col)) c.target c.row c.col ≠ none) ∧
    (∃ (dt e p idx : Nat) (s : State) (pl : Plan) (b : Nat × Nat × Nat), (s.eng e).busy = some (SttUnit.block p idx) ∧
      (s.plan p).active = some pl ∧ (planBlocks pl.img)[idx]? = some b ∧ (s.plan p).running = true ∧ (s.advance dt).past 1 = false) :=
  ⟨⟨0, 0, chlS [] { chl 3 (zeros 8400) with weights := true }, .tile 0, by decide +kernel⟩,
   ⟨0, 0, engS (chlS [] (chl 3 (tileB false))) [(0, { busy := some (.tile 0) })], 0, chl 3 (tileB false), { img := img0 }, by decide +kernel⟩,
   ⟨0, 0, engS (chlS [] (chl 3 (tileB true))) [(0, { busy := some (.tile 0) })], 0, chl 3 (tileB true), { img := img0 }, by decide +kernel⟩,
   ⟨0, 0, 0, 0, (engS (chlS [] (chl 3 [])) [(0,
     { busy := some (.block 0 0) })]).modPlan 0 (fun y => { y with running := true, shares := [0], nextBlk := 1 }), { img := img0 }, (0, 0, 2048),
     by decide +kernel⟩⟩

theorem witness_FaultyEnginesAreIsolated :
    (∃ (e kind : Nat) (s : State) (sp : Nat) (got want : Int), s.glb.st ≠ OpState.degraded ∧ s.glb.repairs = [] ∧ e < 17 ∧ 1 ≤ kind ∧ kind ≤ 5 ∧
      (kind = 1 → got % 63 ≠ want % 63) ∧ (kind = 2 ∨ kind = 3 → got ≠ want) ∧ (s.eng e).st = EngState.service ∧ s.spareEng = some sp) ∧
    (∃ (s : State), s.glb.st ≠ OpState.degraded ∧ s.glb.repairs = []) ∧
    (∃ (s : State) (k : Nat), s.glb.st ≠ OpState.degraded ∧ s.glb.repairs = [] ∧ k < 8 ∧ s.aud.stt.sha3Retest.contains k = false ∧
      s.aud.stt.sha3Failed.contains k = false) :=
  ⟨⟨0, 1, engS running [(16, { st := .spare })], 16, 1, 2, by decide +kernel⟩,
   ⟨running, by decide +kernel⟩,
   ⟨running, 0, by decide +kernel⟩⟩

theorem witness_SensorsAndPasses :
    (∃ (dt r vc k : Nat) (lk : CsiLink) (s : State), s.csiOn r = true ∧ csiLanes lk = true ∧ s.csiSource r vc = some k ∧
      (s.advance dt).ingesting = true ∧ (s.source k).code = 0 ∧ (s.source k).started = false) ∧
    (∃ (dt r vc k : Nat) (lk : CsiLink) (payload : Bytes) (s : State), s.csiOn r = true ∧ csiLanes lk = true ∧ s.csiSource r vc = some k ∧
      (s.advance dt).ingesting = true ∧ (s.source k).code = 1 ∧ (s.source k).started = true ∧ (s.source k).ignoring = false ∧
      List.length payload = lineBytes (s.cfg.active.srcDt k) (s.cfg.active.srcWidth k) ∧ (s.source k).lines.length < s.cfg.active.srcLines k) ∧
    (∃ (dt r vc k : Nat) (lk : CsiLink) (s : State), s.csiOn r = true ∧ csiLanes lk = true ∧ s.csiSource r vc = some k ∧
      (s.advance dt).ingesting = true ∧ (s.source k).code = 1 ∧ (s.source k).started = true ∧ (s.source k).lines.length = s.cfg.active.srcLines k) ∧
    (∃ (dt r vc k : Nat) (lk : CsiLink) (s : State), s.csiOn r = true ∧ csiLanes lk = true ∧ s.csiSource r vc = some k ∧
      (s.advance dt).ingesting = true) ∧
    (∃ (dt ago k : Nat) (d : Datagram) (s s1 : State), d.mac < 4 ∧ s.atStep 9 = true ∧ (s.advance dt).macIn d = (s1, true) ∧
      s1.lidarSource d = some k ∧ s1.stampIn ago = true) ∧
    (∃ (dt m : Nat) (s : State), (s.advance dt).settleInputs.canStart m = true) ∧
    (∃ (dt m : Nat) (s : State), (s.model m).code = 2 ∧ (s.advance dt).past 4 = false ∧ s.die.retraining = none) ∧
    (∃ (m : Nat) (s : State), (s.model m).programming = true) :=
  ⟨⟨0, 0, 0, 0, lk1, srcS {}, by decide +kernel⟩,
   ⟨0, 0, 0, 0, lk1, zeros 4, srcS { code := 1, started := true }, by decide +kernel⟩,
   ⟨0, 0, 0, 0, lk1, srcS { code := 1, started := true, lines := [zeros 4, zeros 4] }, by decide +kernel⟩,
   ⟨0, 0, 0, 0, lk1, srcS {}, by decide +kernel⟩,
   ⟨0, 0, 1, lidarDg, bd, ((bd.advance 0).macIn lidarDg).1, ⟨by decide, by decide, rfl, by decide +kernel, by decide +kernel⟩⟩,
   ⟨0, 0, mdlS { active := some (zeros 256), code := 1 }, by decide +kernel⟩,
   ⟨0, 0, mdlS { active := some (zeros 256), code := 2 }, by decide +kernel⟩,
   ⟨0, mdlS { programming := true }, by decide +kernel⟩⟩

theorem witness_TilesAreCalibratedAndDrift :
    (∃ (t resid gain off : Nat) (s : State), t < 9 ∧ (s.tile t).calStep = CalStep.measuring ∧ s.bdg.calibrated = true ∧ resid ≤ s.calLimit ∧
      gain ≤ 100 ∧ off ≤ 16) ∧
    (∃ (t : Nat) (s : State), t < 9 ∧ (s.tile t).calStep = CalStep.programming ∧ (s.tile t).st = TileState.cal) ∧
    (∃ (t : Nat) (s : State), t < 9 ∧ s.atStep 7 = true ∧ s.bdg.calibrated = false) ∧
    (∃ (dt t mac : Nat) (ops : List RefOp) (s : State), t < 9 ∧ s.bdg.calibrated = true ∧ ops.length = 1024 ∧ s.programmed t mac = true ∧
      (s.advance dt).macroOps t mac < 1024 ∧ refLargest ops ≤ s.grossLimit * 2 ^ 10 ∧ refSum ops ≤ s.driftLimit * 2 ^ 20) ∧
    (∃ (t : Nat) (ops : List RefOp) (s : State) (n : Nat), t < 9 ∧ s.bdg.calibrated = true ∧ (s.tile t).st = TileState.active ∧
      (s.grossLimit * 2 ^ 10 < refLargest ops ∨ ops.length = 1024 ∧ s.driftLimit * 2 ^ 20 < refSum ops) ∧ s.glb.st ≠ OpState.degraded ∧
      s.glb.repairs = [] ∧ s.tileIn TileState.ready = some n) :=
  ⟨⟨8, 0, 0, 0, tileS { st := .cal, calStep := .measuring }, by decide +kernel⟩,
   ⟨8, tileS { st := .cal, calStep := .programming }, by decide +kernel⟩,
   ⟨0, bd, by decide +kernel⟩,
   ⟨0, 8, 0, List.replicate 1024 ([], []), tileS { st := .recal }, by decide +kernel⟩,
   ⟨0, [([], [1000000000])], tileS { st := .ready }, 8, by decide +kernel⟩⟩

theorem witness_ComparisonAndTrust :
    (∃ (dt c : Nat) (s : State), s.vrd.comparing = none ∧ (s.advance dt).cmpNext = some c) ∧
    (∃ (c : Nat) (s : State), s.vrd.comparing = some c) ∧
    (∃ (dt : Nat) (s : State), 100 * usMc ≤ s.mc + dt - s.vrd.hbAt) ∧
    (∃ (dt : Nat) (s : State), s.mc + dt - s.vrd.hbAt < 100 * usMc) :=
  ⟨⟨0, 0, repS (wchS (mdlS { code := 3 }) cmpW) 2, by decide +kernel⟩,
   ⟨0, { bd with vrd := { bd.vrd with comparing := some 0 } }, by decide +kernel⟩,
   ⟨0, running, by decide +kernel⟩,
   ⟨0, { running with vrd := { running.vrd with hbAt := 18000000000 } }, by decide +kernel⟩⟩

theorem witness_VerdictsFollowTheDecisionTable :
    (∃ (dt c : Nat) (s : State), s.vrd.comparing = some c ∧ (s.watch c).cmpCode = 1 ∧ (s.watch c).cmpStart ≠ none ∧
      (s.advance dt).past 1 = false ∧ (s.sections (s.watch c).modelMask).damaged = true) ∧
    (∃ (dt c : Nat) (s : State) (corr : Bytes) (b : Nat), s.vrd.comparing = some c ∧ (s.watch c).cmpCode = 1 ∧ (s.watch c).cmpStart ≠ none ∧
      (s.advance dt).past 1 = false ∧ (s.sections (s.watch c).modelMask).damaged = false ∧ s.corridor (s.watch c) = some (corr, b)) ∧
    (∃ (s : State), s.glb.st = OpState.safe) ∧
    (∃ (s : State) (c : Nat), s.glb.st ≠ OpState.safe ∧ Item.failed ∈ s.auditItems (s.watch c)) :=
  ⟨⟨0, 0, shadowS { grid := zeros 5 }, by decide +kernel⟩,
   ⟨0, 0, shadowS shadow0, [], 0, ⟨by decide +kernel, by decide +kernel, by decide +kernel, by decide +kernel, shadowS_intact, by decide +kernel⟩⟩,
   ⟨inState .safe, by decide +kernel⟩,
   ⟨repS (wchS bd { isOpen := true }) 0x10, 0, by decide +kernel⟩⟩

theorem witness_LedgerSamplesOnce :
    (∃ (dt c kind len : Nat) (counts : List Nat) (value : Bytes) (s : State), c < 3 ∧ (s.advance dt).reaches counts c = true ∧ 1 ≤ kind ∧
      kind ≤ 5 ∧ 1 ≤ len ∧ len ≤ 32 ∧ List.length value = len ∧ s.cor.entry (s.core c).ldgSeq = none ∧ s.cor.ledger.length < 2048) ∧
    (∃ (dt c kind len source addr : Nat) (counts : List Nat) (value : Bytes) (s : State) (e : LedgerEntry), c < 3 ∧
      (s.advance dt).reaches counts c = true ∧ 1 ≤ kind ∧ kind ≤ 5 ∧ 1 ≤ len ∧ len ≤ 32 ∧ List.length value = len ∧
      s.cor.entry (s.core c).ldgSeq = some e ∧ rd e.bytes 60 4 = crcK (List.take 60 e.bytes) ∧ rd e.bytes 4 1 = kind ∧ rd e.bytes 5 1 = len ∧
      rd e.bytes 6 2 = source ∧ rd e.bytes 16 8 = ((s.advance dt).retire counts).requestAddr c kind addr) ∧
    (∃ (dt c kind len : Nat) (counts : List Nat) (value : Bytes) (s : State) (e : LedgerEntry), c < 3 ∧ (s.advance dt).reaches counts c = true ∧
      1 ≤ kind ∧ kind ≤ 5 ∧ 1 ≤ len ∧ len ≤ 32 ∧ List.length value = len ∧ s.cor.entry (s.core c).ldgSeq = some e ∧
      rd e.bytes 60 4 ≠ crcK (List.take 60 e.bytes)) ∧
    (∃ (dt c kind len source : Nat) (counts : List Nat) (value : Bytes) (s : State) (e : LedgerEntry), c < 3 ∧
      (s.advance dt).reaches counts c = true ∧ 1 ≤ kind ∧ kind ≤ 5 ∧ 1 ≤ len ∧ len ≤ 32 ∧ List.length value = len ∧
      s.cor.entry (s.core c).ldgSeq = some e ∧ rd e.bytes 60 4 = crcK (List.take 60 e.bytes) ∧
      (rd e.bytes 4 1 ≠ kind ∨ rd e.bytes 5 1 ≠ len ∨ rd e.bytes 6 2 ≠ source)) :=
  ⟨⟨0, 0, 1, 2, [0, 0, 0], [7, 9], running, by decide +kernel⟩,
   ⟨0, 1, 2, 2, 5, 5, [0, 0, 0], [7, 9], corS (fun c => { c with ledger := [{ bytes := ent }], ldgSeq := 1 }), { bytes := ent }, by decide +kernel⟩,
   ⟨0, 1, 2, 2, [0, 0, 0], [7, 9], corS (fun c => { c with ledger := [{ bytes := zeros 64 }], ldgSeq := 1 }), { bytes := zeros 64 },
     by decide +kernel⟩,
   ⟨0, 1, 3, 2, 5, [0, 0, 0], [7, 9], corS (fun c => { c with ledger := [{ bytes := ent }], ldgSeq := 1 }), { bytes := ent }, by decide +kernel⟩⟩

theorem witness_CheckpointsAreVoted :
    (∃ (dt c : Nat) (counts : List Nat) (acts : List Action) (barrier : Bool) (given : Bytes) (s : State), c < 3 ∧ List.length given = 64 ∧
      rd given 60 4 = 0 ∧ (s.advance dt).reaches counts c = true ∧ ((s.advance dt).retire counts).closes c acts barrier = true ∧
      s.ckptOf (rd (((s.advance dt).retire counts).ckptBytes c acts barrier given) 0 8) c = none ∧ (∃ d, d < 3 ∧ d ≠ c ∧ (s.core d).votes = true ∧
      s.ckptOf (rd (((s.advance dt).retire counts).ckptBytes c acts barrier given) 0 8) d = none)) ∧
    (∃ (dt c : Nat) (counts : List Nat) (acts : List Action) (barrier : Bool) (given : Bytes) (s : State), c < 3 ∧ List.length given = 64 ∧
      rd given 60 4 = 0 ∧ (s.advance dt).reaches counts c = true ∧ ((s.advance dt).retire counts).closes c acts barrier = true ∧ s.voters = [0, 1,
      2] ∧
      s.ckptOf (rd (((s.advance dt).retire counts).ckptBytes c acts barrier given) 0 8) 0 = some (((s.advance dt).retire counts).ckptBytes c acts barrier given) ∧ s.ckptOf (rd (((s.advance dt).retire counts).ckptBytes c acts barrier given) 0 8) 1 = some (((s.advance dt).retire counts).ckptBytes c acts barrier given) ∧ s.ckptOf (rd (((s.advance dt).retire counts).ckptBytes c acts barrier given) 0 8) 2 = none ∧ rd (((s.advance dt).retire counts).ckptBytes c acts barrier given) 47 1 = 0 ∧ c = 2) ∧
    (∃ (dt c : Nat) (counts : List Nat) (acts : List Action) (barrier : Bool) (given : Bytes) (s : State) (x : CkptRecord) (rest : List CkptRecord), c < 3 ∧ List.length given = 64 ∧ rd given 60 4 = 0 ∧ (s.advance dt).reaches counts c = true ∧ ((s.advance dt).retire counts).closes c acts barrier = true ∧ s.voters = [0, 1] ∧ s.cor.records = x :: rest ∧ s.mc + dt - x.at_ ≥ 100 * usMc ∧ s.glb.st ≠ OpState.safe ∧ s.ckptOf (rd x.bytes 0 8) 0 = some x.bytes ∧ s.ckptOf (rd x.bytes 0 8) 1 = none) :=
  ⟨⟨0, 0, [0, 0, 0], [], true, zeros 64, running, by decide +kernel⟩,
   ⟨0, 2, [0, 0, 0], [], true, zeros 64, corS fun c => { c with records := [ckpt 0, ckpt 1] }, by decide +kernel⟩,
   ⟨0, 0, [0, 0, 0], [], true, zeros 64, corS (fun c => { c with records := [ckpt 0], cores := tset c.cores 2 { st := .failed, pos := 3 } }),
     ckpt 0, [], by decide +kernel⟩⟩

theorem witness_DegradedEndsAndCoresResume :
    (∃ (dt : Nat) (s : State), s.glb.st = OpState.degraded ∧ s.mc + dt - s.glb.tdegFrom ≥ s.glb.tdegS * 1000 * msMc) ∧
    (∃ (s : State), s.glb.st ≠ OpState.degraded) ∧
    (∃ (s : State) (m : Nat), (s.core 0).copying = true ∧ s.cor.source = some m ∧ m ≠ 0) :=
  ⟨⟨0, { running with glb := { running.glb with st := .degraded, tdegFrom := 0, tdegS := 1 } }, by decide +kernel⟩,
   ⟨running, by decide +kernel⟩,
   ⟨corS (fun c => { c with source := some 1, cores := tset c.cores 0 { copying := true, st := .resync, pos := 3 } }), 1, by decide +kernel⟩⟩

theorem witness_MemoryErrorsAreKeptAndSafe :
    (∃ (array unit line channel : Nat) (stored : Bytes), decodeStored array unit channel line stored = Decoded.clean) ∧
    (∃ (array unit line channel : Nat) (stored : Bytes) (w : List Nat) (n : Nat), array < 7 ∧
      decodeStored array unit channel line stored = Decoded.corrected w n ∧ (isSram array = false ∨ n = 1)) ∧
    (∃ (unit line channel : Nat) (stored : Bytes) (w : List Nat) (n : Nat), decodeStored 0 unit channel line stored = Decoded.corrected w n) ∧
    (∃ (ch n : Nat), ch < 4 ∧ 1 ≤ n ∧ n ≤ 3) ∧
    (∃ (dt array unit line channel : Nat) (stored : Bytes) (s : State), array < 4 ∧
      (decodeStored array unit channel line stored = Decoded.uncorrectable ∨ decodeStored array unit channel line stored = Decoded.address) ∧
      (s.advance dt).detected.contains (lineKey array unit line) = false ∧ s.cfg.active.owner array line = 0 ∧ s.glb.st ≠ OpState.safe) :=
  ⟨⟨0, 0, 5, 0, line5, by decide +kernel⟩,
   ⟨0, 0, 5, 0, bent 1, symbols line5, 1, by decide +kernel⟩,
   ⟨0, 5, 0, bent 1, symbols line5, 1, by decide +kernel⟩,
   ⟨0, 1, by decide +kernel⟩,
   ⟨0, 0, 0, 5, 0, bent 3, running, by decide +kernel⟩⟩

theorem witness_OwlPortsFollowTheToken :
    (∃ (dt i : Nat) (s : State), i < 2 ∧ (s.owlOf i).live = true ∧ (s.owlOf i).st = OwlState.boot ∧
      (s.mc + dt) / 8 < (s.owlOf i).startCyc + (s.owlOf i).period ∧ (s.owlOf i).locked = false) ∧
    (∃ (dt i v : Nat) (s : State), i < 2 ∧ (s.owlOf i).live = true ∧ (s.owlOf i).st = OwlState.boot ∧
      (s.mc + dt) / 8 < (s.owlOf i).startCyc + (s.owlOf i).period ∧ (s.owlOf i).armed = false ∧ v < 2 ^ 16 ∧ v = (s.owlOf i).token) ∧
    (∃ (dt i v : Nat) (s : State), i < 2 ∧ (s.owlOf i).live = true ∧ (s.owlOf i).st = OwlState.boot ∧
      (s.mc + dt) / 8 < (s.owlOf i).startCyc + (s.owlOf i).period ∧ (s.owlOf i).armed = true ∧ v < 2 ^ 16 ∧ v = (s.owlOf i).token ^^^ 65535 ∧
      (s.owlOf i).inBits = (s.owlOf i).reg) ∧
    (∃ (dt i v : Nat) (s : State), i < 2 ∧ (s.owlOf i).live = true ∧ (s.owlOf i).st = OwlState.boot ∧
      (s.mc + dt) / 8 < (s.owlOf i).startCyc + (s.owlOf i).period ∧ v < 16 ∧ bitAt (s.owlOf i).reg v = true ∧ bitAt (s.owlOf i).inBits v = false) :=
  ⟨⟨0, 0, owlBoot id, by decide +kernel⟩,
   ⟨0, 0, 0xACE1, owlBoot id, by decide +kernel⟩,
   ⟨0, 0, 0x531E, owlBoot fun x => { x with armed := true, reg := 6, inBits := 6 }, by decide +kernel⟩,
   ⟨0, 0, 0, owlBoot fun x => { x with reg := 3 }, by decide +kernel⟩⟩

theorem witness_OwlPeriodsAndFlash :
    (∃ (dt i : Nat) (s : State), i < 2 ∧ (s.owlOf i).live = true ∧ (s.owlOf i).st = OwlState.run ∧ (s.owlOf i).served = false ∧
      (s.mc + dt) / 8 < (s.owlOf i).startCyc + (s.owlOf i).period ∧ (s.owlOf i).startCyc + s.windowAt i ≤ (s.mc + dt) / 8) ∧
    (∃ (dt i : Nat) (s : State), i < 2 ∧ (s.owlOf i).live = true ∧ (s.owlOf i).st = OwlState.run ∧ (s.owlOf i).served = true ∧
      (s.owlOf i).startCyc + (s.owlOf i).period ≤ (s.mc + dt) / 8) ∧
    (∃ (dt i : Nat) (s : State), i < 2 ∧ (s.owlOf i).live = true ∧ (s.owlOf i).st = OwlState.run ∧ (s.owlOf i).served = false ∧
      (s.owlOf i).startCyc + (s.owlOf i).period ≤ (s.mc + dt) / 8) ∧
    (∃ (dt : Nat) (s : State), s.owl.flash.busyFrom = none ∧ s.owl.flash.mayStart = true ∧ s.owl.f.live = true ∧ s.owl.f.st = OwlState.run ∧
      (s.mc + dt) / 8 < s.owl.f.startCyc + s.owl.f.period) ∧
    (∃ (s : State) (b : Nat), s.owl.flash.busyFrom = some b ∧ s.owl.f.st = OwlState.suspended) ∧
    (∃ (dt : Nat) (s : State) (b : Nat), s.owl.flash.busyFrom = some b ∧ s.owl.f.st = OwlState.suspended ∧ s.mc + dt - b ≥ 250 * msMc) :=
  ⟨⟨0, 0, nowMc 19000000000 running, by decide +kernel⟩,
   ⟨0, 0, nowMc 20000000000 (owlS fun o => { o with s := { o.s with served := true } }), by decide +kernel⟩,
   ⟨0, 0, nowMc 20000000000 running, by decide +kernel⟩,
   ⟨0, running, by decide +kernel⟩,
   ⟨flashBusy, 5, by decide +kernel⟩,
   ⟨0, flashBusy, 5, by decide +kernel⟩⟩

theorem witness_SlicesAndTemperatures :
    (∃ (dt q e st : Nat) (s : State), s.owl.slf.run q = some (e, st) ∧ (s.advance dt).inSelfTest = false ∧ s.owl.slf.running = false ∧
      sliceEntry e = (1, 0)) ∧
    (∃ (dt q e st : Nat) (s : State) (sig : Nat), s.owl.slf.run q = some (e, st) ∧ (s.advance dt).inSelfTest = false ∧ s.owl.slf.running = false ∧
      sliceEntry e = (1, 0) ∧ sig ≠ sliceSig e) ∧
    (∃ (dt q e st : Nat) (s : State), s.owl.slf.run q = some (e, st) ∧ (s.advance dt).inSelfTest = false ∧ s.owl.slf.running = false ∧
      sliceEntry e = (1, 0) ∧ s.mc + dt - st > kindBudget 1 * usMc) ∧
    (∃ (dt q e st : Nat) (s : State) (d : Nat), s.owl.slf.run q = some (e, st) ∧ (s.advance dt).inSelfTest = false ∧ s.owl.slf.running = false ∧
      sliceEntry e = (1, 0) ∧ s.owl.slf.wrapped = some d) ∧
    (∃ (sensor : Nat) (s : State), s.atStep 5 = true ∧ sensor < 22) :=
  ⟨⟨0, 0, 0, 18000000000, owlS fun o => { o with slf := { o.slf with lRun := some (0, 18000000000) } }, by decide +kernel⟩,
   ⟨0, 0, 0, 5, owlS (fun o => { o with slf := { o.slf with lRun := some (0, 5) } }), sliceSig 0 + 1, ⟨by decide +kernel, by decide +kernel,
     by decide +kernel, by decide +kernel, Nat.succ_ne_self _⟩⟩,
   ⟨0, 0, 0, 5, owlS fun o => { o with slf := { o.slf with lRun := some (0, 5) } }, by decide +kernel⟩,
   ⟨0, 0, 0, 5, owlS (fun o => { o with slf := { o.slf with lRun := some (0, 5), wrapped := some 5 } }), 5, by decide +kernel⟩,
   ⟨0, running, by decide +kernel⟩⟩

theorem witness_ShroudTakesFramesInOrder :
    (∃ (seq : Nat) (s : State), s.atStep 3 = true ∧ seq = s.shr.link.expect) ∧
    (∃ (seq : Nat) (p : Bytes) (s : State), s.atStep 3 = true ∧ seq = s.shr.link.expect ∧ reservedOk 6 p = true) ∧
    (∃ (seq : Nat) (p : Bytes) (s : State), s.atStep 3 = true ∧ seq = s.shr.link.expect ∧ reservedOk 0 p = true) ∧
    (∃ (seq : Nat) (p : Bytes) (s : State), s.atStep 3 = true ∧ seq = s.shr.link.expect ∧ reservedOk 127 p = true) ∧
    (∃ (seq : Nat) (p : Bytes) (s : State), s.atStep 3 = true ∧ seq = s.shr.link.expect ∧ reservedOk 7 p = true) :=
  ⟨⟨5, shS id, by decide +kernel⟩,
   ⟨5, zeros 10, shS id, by decide +kernel⟩,
   ⟨5, zeros 10, shS id, by decide +kernel⟩,
   ⟨5, zeros 10, shS id, by decide +kernel⟩,
   ⟨5, zeros 10, shS id, by decide +kernel⟩⟩

theorem witness_TrustSlotsAndSectionFollowTheFrames :
    (∃ (seq : Nat) (p : Bytes) (s : State), s.atStep 3 = true ∧ seq = s.shr.link.expect ∧ fSlot p < 32 ∧ reservedOk 4 p = true ∧
      (tget s.shr.slots (fSlot p)).bound = false ∧ s.shr.bindable (fSout p) (fPrv p) = true) ∧
    (∃ (seq : Nat) (p : Bytes) (s : State), s.atStep 3 = true ∧ seq = s.shr.link.expect ∧ fSlot p < 32 ∧ reservedOk 5 p = true ∧
      (tget s.shr.slots (fSlot p)).bound = true ∧ (tget s.shr.slots (fSlot p)).context = fCtx p) ∧
    (∃ (seq : Nat) (p : Bytes) (s : State), s.atStep 3 = true ∧ seq = s.shr.link.expect ∧ fSlot p < 32 ∧ reservedOk 3 p = true ∧
      (tget s.shr.slots (fSlot p)).bound = true ∧ (tget s.shr.slots (fSlot p)).context = fCtx p ∧ (tget s.shr.slots (fSlot p)).sout = fSout p ∧
      (tget s.shr.slots (fSlot p)).prv = fPrv p) ∧
    (∃ (seq : Nat) (p : Bytes) (s : State), s.atStep 3 = true ∧ seq = s.shr.link.expect ∧ fSlot p < 32 ∧ reservedOk 8 p = true ∧
      List.length s.cfg.active.sioRaw = 2048 ∧ crcK (List.take 2044 s.cfg.active.sioRaw) = rd p 4 4 ∧ rd s.cfg.active.sioRaw 2044 4 = rd p 4 4) :=
  ⟨⟨5, [5, 0, 7, 0, 2, 0, 1, 0, 0, 0], shS id, by decide +kernel⟩,
   ⟨5, [5, 0, 7, 0, 0, 0, 0, 0, 0, 0], trustS, by decide +kernel⟩,
   ⟨5, [5, 0, 7, 0, 2, 0, 1, 0, 0, 0], trustS, by decide +kernel⟩,
   ⟨5, le 4 9 ++ le 4 (crcK (zeros 2044)) ++ [0, 0], sectionS, by decide +kernel⟩⟩

theorem witness_LDieTakesFramesInOrder :
    (∃ (seq : Nat) (s : State), s.atStep 3 = true ∧ seq = s.pch.link.expect) ∧
    (∃ (seq : Nat) (p : Bytes) (s : State), s.atStep 3 = true ∧ seq = s.pch.link.expect ∧ reservedOk 132 p = true ∧ rd p 0 1 = 8 ∧ rd p 1 1 = 0) ∧
    (∃ (seq : Nat) (p : Bytes) (s : State), s.atStep 3 = true ∧ seq = s.pch.link.expect ∧ reservedOk 133 p = true) :=
  ⟨⟨5, shS id, by decide +kernel⟩,
   ⟨5, [8, 0, 0, 0, 0, 0, 0, 0, 0, 0], shS id, by decide +kernel⟩,
   ⟨5, zeros 10, shS id, by decide +kernel⟩⟩

theorem witness_BadFramesAreRejectedAndLossIsSafe :
    (∃ (a b : Bytes) (s : State), s.atStep 3 = true ∧ lanesOk a b = false) ∧
    (∃ (dt : Nat) (s : State), s.pch.link.isLost (s.advance dt).cyc = true ∧ s.glb.st ≠ OpState.safe) :=
  ⟨⟨zeros 16, zeros 16, shS id, by decide +kernel⟩,
   ⟨0, shS id, ⟨lost_after _ (by decide +kernel) (by decide +kernel) (by decide +kernel) (by decide +kernel), by decide +kernel⟩⟩⟩

theorem witness_InputsAreFilteredAndTested :
    (∃ (dt i : Nat) (s : State), i < 32 ∧ (s.advance dt).frozen i = false) ∧
    (∃ (dt k : Nat) (s : State), s.shr.pulseOwed (s.advance dt).cyc k = true) ∧
    (∃ (dt i k before late : Nat) (s : State), s.shr.pulsing.contains k = true ∧
      (s.advance dt).cyc - (List.lookup k s.shr.pulseAt).getD 0 ≥ s.shr.tpWidth ∧ s.shr.tested k = [i] ∧ bitAt before i = true ∧
      bitAt late i = true) :=
  ⟨⟨0, 0, shS id, by decide +kernel⟩,
   ⟨0, 0, shS id, tooth_due _ (by decide +kernel) (by decide +kernel) rfl rfl rfl⟩,
   ⟨0, 0, 0, 1, 1, shS fun h => { h with pulsing := [0] }, ⟨by decide +kernel,
     cyc_passed (by decide +kernel) (by decide +kernel) (by decide +kernel), by decide +kernel, by decide +kernel, by decide +kernel⟩⟩⟩

theorem witness_DiscrepanciesAndLapsesAreSafe :
    (∃ (dt n x : Nat) (s : State), s.shr.units.contains n = true ∧ s.shr.compat = false ∧ (tget s.shr.fns n).discFrom = some x ∧
      (s.advance dt).cyc - x > (s.shr.fnCfg n).discMs * 40000 ∧ (tget s.shr.fns n).st ≠ FnState.fault) ∧
    (∃ (dt n x : Nat) (s : State), s.shr.units.contains n = true ∧ s.shr.compat = false ∧ (s.shr.fnCfg n).typ = 3 ∧
      (tget s.shr.fns n).st = FnState.stop ∧ (tget s.shr.fns n).handFrom = some x ∧ (s.advance dt).cyc - x ≥ 500 * 40000) ∧
    (∃ (dt n x : Nat) (s : State), s.shr.compat = false ∧ s.shr.cfgActive = true ∧ List.lookup n s.shr.discFrom = some x ∧
      (s.advance dt).cyc - x > s.shr.chDiscMs * 40000 ∧ s.glb.st ≠ OpState.safe) ∧
    (∃ (dt n lim x : Nat) (s : State), (tget s.shr.slots n).bound = true ∧ s.shr.slotLimit (tget s.shr.slots n) = some lim ∧
      (tget s.shr.slots n).hbAt = some x ∧ (tget s.shr.slots n).lapsed = false ∧ (s.advance dt).cyc - x ≥ cycMs lim) ∧
    (∃ (dt : Nat) (s : State), s.mc + dt - s.vrd.hbAt ≥ 100 * usMc) :=
  ⟨⟨0, 1, 0, discS, ⟨by decide +kernel, by decide +kernel, by decide +kernel,
    cyc_passed (by decide +kernel) (by decide +kernel) (by decide +kernel), by decide +kernel⟩⟩,
   ⟨0, 1, 0, discS, ⟨by decide +kernel, by decide +kernel, by decide +kernel, by decide +kernel, by decide +kernel,
     cyc_passed (by decide +kernel) (by decide +kernel) (by decide +kernel)⟩⟩,
   ⟨0, 2, 0, discS, ⟨by decide +kernel, by decide +kernel, by decide +kernel,
     cyc_passed (by decide +kernel) (by decide +kernel) (by decide +kernel), by decide +kernel⟩⟩,
   ⟨0, 5, 50, 0, shS fun h => { h with slots := [(5, { bound := true, sout := 2, prv := 1, hbAt := some 0, lapsed := false })] },
     ⟨by decide +kernel, by decide +kernel, by decide +kernel, by decide +kernel,
     cyc_passed (by decide +kernel) (by decide +kernel) (by decide +kernel)⟩⟩,
   ⟨0, running, by decide +kernel⟩⟩

theorem witness_OutputsFollowLinesAndTimers :
    (∃ (i : Nat), i < 16) ∧
    (∃ (i : Nat) (s : State), i < 16 ∧ (s.so i).st = SoState.on ∧ (s.so i).edm = false ∧ (s.so i).edmSeen0 = true ∧ s.shr.soEdmEn i = true ∧
      0 < s.shr.soMinOff i) ∧
    (∃ (dt i : Nat) (s : State), i < 16 ∧ (s.so i).edmTimer = true ∧ s.shr.soEdmEn i = true ∧ 0 < s.shr.soMinOff i ∧ (s.so i).st = SoState.on ∧
      (s.so i).edm = true ∧ (s.advance dt).cyc - (s.so i).onAt ≥ cycMs (s.shr.soEdmMs i)) ∧
    (∃ (dt i x : Nat) (s : State), i < 16 ∧ (s.so i).edmTimer = true ∧ s.shr.soEdmEn i = true ∧ 0 < s.shr.soMinOff i ∧
      (s.so i).st = SoState.shutdown ∧ (s.so i).edm = false ∧ (s.so i).offAt = some x ∧ (s.advance dt).cyc - x ≥ cycMs (s.shr.soEdmMs i)) ∧
    (∃ (dt i x : Nat) (s : State), i < 16 ∧ (s.so i).st = SoState.shutdown ∧ (s.so i).offAt = some x ∧ (s.so i).minOff = true ∧
      (s.advance dt).cyc - x ≥ cycMs (s.shr.soMinOff i) ∧ s.shr.edmOpen i = true ∧ bitAt s.shr.soutReq i = false) ∧
    (∃ (dt i x : Nat) (s : State), i < 4 ∧ (s.pv i).st = PvState.lsOn ∧ (s.pv i).hsPin = true ∧ (s.pv i).hsSense = false ∧
      (s.pv i).hsOnAt = some x ∧ (s.advance dt).cyc - x ≤ cycUs (s.shr.pvSenseUs i) ∧ s.shr.stateAllows = true ∧ bitAt s.shr.hsCmd i = true ∧
      s.shr.pvPermit (s.advance dt).cyc i = true) ∧
    (∃ (dt i x : Nat) (s : State), i < 4 ∧ (s.pv i).st = PvState.on ∧ (s.pv i).senseFrom = some x ∧
      (s.advance dt).cyc - x > cycUs (s.shr.pvSenseUs i) ∧ 0 < s.shr.pvMinOff i) ∧
    (∃ (dt i : Nat) (s : State), i < 4 ∧ (s.pv i).st = PvState.lsOn ∧ (s.pv i).hsPin = false ∧ (s.advance dt).cyc - (s.pv i).lsOnAt ≥ cycMs 10) :=
  ⟨⟨0, by decide +kernel⟩,
   ⟨0, soS { st := .on, edmSeen0 := true, edmTimer := true }, by decide +kernel⟩,
   ⟨0, 0, soS { st := .on, edm := true, edmTimer := true }, ⟨by decide +kernel, by decide +kernel, by decide +kernel, by decide +kernel,
     by decide +kernel, by decide +kernel, cyc_passed (by decide +kernel) (by decide +kernel) (by decide +kernel)⟩⟩,
   ⟨0, 0, 0, soS { st := .shutdown, offAt := some 0, edmTimer := true }, ⟨by decide +kernel, by decide +kernel, by decide +kernel,
     by decide +kernel, by decide +kernel, by decide +kernel, by decide +kernel,
     cyc_passed (by decide +kernel) (by decide +kernel) (by decide +kernel)⟩⟩,
   ⟨0, 0, 0, soS { st := .shutdown, offAt := some 0, minOff := true, edm := true }, ⟨by decide +kernel, by decide +kernel, by decide +kernel,
     by decide +kernel, cyc_passed (by decide +kernel) (by decide +kernel) (by decide +kernel), by decide +kernel, by decide +kernel⟩⟩,
   ⟨0, 0, 1000000000000, pvS { st := .lsOn, hsPin := true, hsOnAt := some 1000000000000 }, ⟨by decide +kernel, by decide +kernel,
     by decide +kernel, by decide +kernel, by decide +kernel, cyc_before (by decide +kernel) rfl, by decide +kernel, by decide +kernel, pv_permit⟩⟩,
   ⟨0, 0, 0, pvS { st := .on, senseFrom := some 0 }, ⟨by decide +kernel, by decide +kernel, by decide +kernel,
     cyc_passed (by decide +kernel) (by decide +kernel) (by decide +kernel), by decide +kernel⟩⟩,
   ⟨0, 0, pvS { st := .lsOn }, ⟨by decide +kernel, by decide +kernel, by decide +kernel,
     cyc_passed (by decide +kernel) (by decide +kernel) (by decide +kernel)⟩⟩⟩

theorem witness_TelegramsAreCheckedInOrder :
    (∃ (dt ago i : Nat) (d : Datagram) (s s1 : State), d.mac < 4 ∧ s.atStep 9 = true ∧ (s.advance dt).macIn d = (s1, true) ∧
      24 ≤ List.length d.payload ∧ fld (net d.payload 0 1) 4 4 = 1 ∧ net d.payload 2 2 ≤ 64 ∧ List.length d.payload = 24 + net d.payload 2 2 ∧
      s1.rxEntry (net d.payload 4 4) = some i ∧ s1.cfg.active.connFrer i = false ∧ s1.rxCode i d ((s.advance dt).tmb.now - ago) = 0) ∧
    (∃ (dt ago i : Nat) (d : Datagram) (s s1 : State) (code : Nat), d.mac < 4 ∧ s.atStep 9 = true ∧ (s.advance dt).macIn d = (s1, true) ∧
      24 ≤ List.length d.payload ∧ fld (net d.payload 0 1) 4 4 = 1 ∧ net d.payload 2 2 ≤ 64 ∧ List.length d.payload = 24 + net d.payload 2 2 ∧
      s1.rxEntry (net d.payload 4 4) = some i ∧ s1.cfg.active.connFrer i = false ∧ code ≠ 0 ∧
      s1.rxCode i d ((s.advance dt).tmb.now - ago) = code) :=
  ⟨⟨0, 0, 0, telDg tel, plS (conns 0), (((plS (conns 0)).advance 0).macIn (telDg tel)).1, ⟨by decide, by decide, rfl, by decide +kernel⟩⟩,
   ⟨0, 0, 0, telDg (tel.set 12 9), plS (conns 0), (((plS (conns 0)).advance 0).macIn (telDg (tel.set 12 9))).1, 4, ⟨by decide, by decide, rfl,
     by decide +kernel⟩⟩⟩

theorem witness_ConnectionsAndLinks :
    (∃ (dt i : Nat) (s : State), s.cfg.active.connValid i = true ∧ s.cfg.active.connRx i = true ∧ (s.conn i).st = RxState.live ∧
      s.mc + dt - (s.conn i).wdFrom ≥ s.cfg.active.connWdMs i * msMc) ∧
    (∃ (dt i x : Nat) (s : State), s.cfg.active.connValid i = true ∧ s.cfg.active.connRx i = false ∧ s.atStep 9 = true ∧
      (s.conn i).sentAt = some x ∧ s.timeValid = true ∧ s.mc + dt - x < s.cfg.active.connTxMs i * msMc) ∧
    (∃ (dt i x : Nat) (p : Bytes) (s : State), s.cfg.active.connValid i = true ∧ s.cfg.active.connRx i = false ∧ s.atStep 9 = true ∧
      (s.conn i).sentAt = some x ∧ s.timeValid = true ∧ s.mc + dt - x ≥ s.cfg.active.connTxMs i * msMc ∧ s.glb.st ≠ OpState.safe ∧
      s.cfg.active.connType i = 1 ∧ (s.conn i).lastPayload = some (1, p) ∧ (s.conn i).rebound = false) ∧
    (∃ (dt i x : Nat) (s : State), s.cfg.active.connValid i = true ∧ s.cfg.active.connRx i = false ∧ s.atStep 9 = true ∧
      (s.conn i).sentAt = some x ∧ s.timeValid = true ∧ s.mc + dt - x ≥ s.cfg.active.connTxMs i * msMc ∧ s.glb.st = OpState.safe) ∧
    (∃ (dt i x : Nat) (s : State), s.cfg.active.connValid i = true ∧ s.cfg.active.connRx i = false ∧ s.cfg.active.connType i = 3 ∧
      s.glb.st ≠ OpState.safe ∧ (s.conn i).sentAt = some x ∧ s.timeValid = true ∧ s.mc + dt - x ≥ msMc ∧ (s.conn i).lastPayload ≠ some (3,
      s.funcPayload)) ∧
    (∃ (dt i x : Nat) (s : State), s.cfg.active.connValid i = true ∧ s.cfg.active.connRx i = false ∧ s.cfg.active.connType i = 3 ∧
      s.glb.st ≠ OpState.safe ∧ (s.conn i).sentAt = some x ∧ s.timeValid = true ∧ (s.mc + dt - x < msMc ∨ (s.conn i).lastPayload = some (3,
      s.funcPayload))) ∧
    (∃ (dt i x : Nat) (s : State), s.cfg.active.connValid i = true ∧ s.cfg.active.connRx i = true ∧ (s.conn i).sentAt = some x ∧
      s.glb.st = OpState.safe ∧ s.mc + dt - x ≥ 100 * msMc) ∧
    (∃ (dt i x : Nat) (s : State), s.cfg.active.connValid i = true ∧ s.cfg.active.connRx i = true ∧ (s.conn i).sentAt = some x ∧
      (s.glb.st ≠ OpState.safe ∨ s.mc + dt - x < 100 * msMc)) ∧
    (∃ (m speed : Nat) (s : State), s.atStep 9 = true ∧ s.speedOk m speed = false) ∧
    (∃ (status : Nat) (s : State), s.atStep 9 = true ∧ 5 < status) ∧
    (∃ (m speed : Nat) (s : State), s.atStep 9 = true ∧ m < 4 ∧ s.speedOk m speed = true) ∧
    (∃ (m status : Nat) (s : State), s.atStep 9 = true ∧ m < 2 ∧ status ≤ 5) :=
  ⟨⟨0, 0, plS (conns 0), by decide +kernel⟩,
   ⟨0, 1, 18000000000, plS (conns 18000000000), by decide +kernel⟩,
   ⟨0, 2, 0, [1, 2], plS (conns 0), by decide +kernel⟩,
   ⟨0, 1, 0, plSafe, by decide +kernel⟩,
   ⟨0, 1, 0, plS (conns 0), by decide +kernel⟩,
   ⟨0, 1, 18000000000, plS (conns 18000000000), by decide +kernel⟩,
   ⟨0, 0, 0, plSafe, by decide +kernel⟩,
   ⟨0, 0, 0, plS (conns 0), by decide +kernel⟩,
   ⟨0, 5, running, by decide +kernel⟩,
   ⟨6, running, by decide +kernel⟩,
   ⟨0, 4, running, by decide +kernel⟩,
   ⟨0, 3, running, by decide +kernel⟩⟩

theorem witness_RingsAreEnabledDisabledAndReset :
    (∃ (fn v : Nat) (s : State), s.hostOn fn = true ∧ s.hasRing fn (s.selRing fn) = true ∧ bitAt v 0 = true ∧
      (s.ring fn (s.selRing fn)).enable = false ∧ s.setupErr fn ((s.ring fn (s.selRing fn)).writeCtl v) = 0 ∧
      (s.ring fn (s.selRing fn)).gapCount = 0) ∧
    (∃ (fn v : Nat) (s : State), s.hostOn fn = true ∧ s.hasRing fn (s.selRing fn) = true ∧ bitAt v 0 = true ∧
      (s.ring fn (s.selRing fn)).enable = false ∧ s.setupErr fn ((s.ring fn (s.selRing fn)).writeCtl v) ≠ 0) ∧
    (∃ (fn v : Nat) (s : State), s.hostOn fn = true ∧ s.hasRing fn (s.selRing fn) = true ∧ bitAt v 0 = false ∧
      (s.ring fn (s.selRing fn)).enable = true ∧ (s.ring fn (s.selRing fn)).kind = 1 ∧ s.ringBound fn (s.selRing fn) = true) ∧
    (∃ (fn v : Nat) (s : State), s.hostOn fn = true ∧ s.hasRing fn (s.selRing fn) = true ∧ bitAt v 0 = false ∧
      (s.ring fn (s.selRing fn)).enable = true ∧ ((s.ring fn (s.selRing fn)).kind = 1 → s.ringBound fn (s.selRing fn) = false)) ∧
    (∃ (fn : Nat) (s : State), s.hostOn fn = true) :=
  ⟨⟨0, 53, hostS (fun h => { h with ringSel := 2 }) [(2, fun g => { g with enable := false })], by decide +kernel⟩,
   ⟨0, 1, hostS (fun h => { h with ringSel := 2 }) [(2, fun g => { g with enable := false })], by decide +kernel⟩,
   ⟨0, 0, hostS (fun h => { h with ringSel := 1 }) [], by decide +kernel⟩,
   ⟨0, 0, hostS (fun h => { h with ringSel := 2 }) [], by decide +kernel⟩,
   ⟨0, running, by decide +kernel⟩⟩

theorem witness_DoorbellsMoveTheIndex :
    (∃ (fn r index seq : Nat) (s : State), s.hostOn fn = true ∧ r < 16384 ∧ index < 2 ^ 32 ∧ seq < 2 ^ 32 ∧ s.hasRing fn r = true ∧
      (s.ring fn r).enable = true ∧ seq = ((s.ring fn r).dbSeq + 1) % 2 ^ 32 ∧ (s.ring fn r).indexOk index = true) ∧
    (∃ (fn r index seq : Nat) (s : State), s.hostOn fn = true ∧ r < 16384 ∧ index < 2 ^ 32 ∧ seq < 2 ^ 32 ∧ s.dbCause fn r index seq ≠ 0) :=
  ⟨⟨0, 0, 0, 1, running, by decide +kernel⟩,
   ⟨0, 0, 0, 0, running, by decide +kernel⟩⟩

theorem witness_DescriptorsAreFetchedAndChecked :
    (∃ (fn r : Nat) (bytes : Bytes) (s : State), s.hostOn fn = true ∧ s.canFetch fn r = true ∧ List.length bytes = 64 ∧ (∀ (x : Nat × Nat),
      x ∈ (s.ring fn r).outstanding → x.fst ≠ (s.ring fn r).ci) ∧ s.descCheckOk fn r (s.ring fn r).ci bytes = true) ∧
    (∃ (fn r : Nat) (bytes : Bytes) (s : State), s.hostOn fn = true ∧ s.canFetch fn r = true ∧ List.length bytes = 64 ∧ (∀ (x : Nat × Nat),
      x ∈ (s.ring fn r).outstanding → x.fst ≠ (s.ring fn r).ci) ∧ s.descCheckOk fn r (s.ring fn r).ci bytes = false) ∧
    (∃ (fn r : Nat) (bytes : Bytes) (s : State), s.hostOn fn = true ∧ s.canFetch fn r = true ∧ List.length bytes = 64 ∧ (∀ (x : Nat × Nat),
      x ∈ (s.ring fn r).outstanding → x.fst ≠ (s.ring fn r).ci)) :=
  ⟨⟨0, 0, descB true, hostS id [(0, fun g => { g with pi := 1 })], by decide +kernel⟩,
   ⟨0, 0, descB false, hostS id [(0, fun g => { g with pi := 1 })], by decide +kernel⟩,
   ⟨0, 0, descB true, hostS id [(0, fun g => { g with pi := 1 })], by decide +kernel⟩⟩

theorem witness_RecordsReachTheirRing :
    (∃ (fn r : Nat) (s : State) (h : Held) (rest : List Held), s.canWrite fn r = true ∧ (s.ring fn r).held = h :: rest) ∧
    (∃ (fn r : Nat) (s : State), s.canWrite fn r = false) ∧
    (∃ (fn r : Nat) (s : State), s.canWrite fn r = true ∧ (s.ring fn r).kind = 1 ∧ (s.ring fn r).gapCount ≠ 0 ∧ (s.ring fn r).held = []) ∧
    (∃ (fn r : Nat) (s : State) (n : Nat), s.canWrite fn r = true ∧ (s.ring fn r).kind = 2 ∧ (s.ring fn r).skipFirst ≠ 0 ∧ s.tenantOf fn = some n) ∧
    (∃ (dt fn r : Nat) (s : State) (q : RingIrq), (s.ring fn r).irqNow = q ∧ (s.ring fn r).enable = true ∧ (s.ring fn r).kind ≠ 0 ∧
      q.irqEn = true ∧ q.modTime ≠ 0 ∧ (s.ring fn r).unannounced ≠ 0 ∧ s.mc + dt - (s.ring fn r).firstAt ≥ q.modTime * usMc) ∧
    (∃ (fn r : Nat) (s : State), s.hostOn fn = true ∧ r < 16384) :=
  ⟨⟨0, 1, hostS id [(1, fun g => { g with held := [{ bytes := [1] }] })], { bytes := [1] }, [], by decide +kernel⟩,
   ⟨0, 9, running, by decide +kernel⟩,
   ⟨0, 1, hostS id [(1, fun g => { g with gapCount := 2 })], by decide +kernel⟩,
   ⟨0, 2, hostS id [(2, fun g => { g with skipFirst := 2, skipLast := 3 })], 0, by decide +kernel⟩,
   ⟨0, 0, 2, hostS id [(2, fun g => { g with irqNow := { irqEn := true, modTime := 5 }, unannounced := 1, firstAt := 0 })],
     { irqEn := true, modTime := 5 }, by decide +kernel⟩,
   ⟨0, 0, running, by decide +kernel⟩⟩

theorem witness_RegisterAccessesFollowTheirRules :
    (∃ (fn off : Nat) (s : State) (data : Bytes), s.hostOn fn = true ∧ s.tenantOf fn = none ∧ accessOk off (List.length data) = true) ∧
    (∃ (fn : Nat) (s : State) (n : Nat), s.hostOn fn = true ∧ s.tenantOf fn = some n) ∧
    (∃ (fn off : Nat) (s : State) (data : Bytes), s.hostOn fn = true ∧ accessOk off (List.length data) = false) ∧
    (∃ (fn off : Nat) (s : State) (size : Nat), s.hostOn fn = true ∧ accessOk off size = false) ∧
    (∃ (fn off : Nat) (s : State), s.hostOn fn = true ∧ off % 4 = 0 ∧ isLower off = true) ∧
    (∃ (fn off : Nat) (s : State), s.hostOn fn = true ∧ off % 4 = 0 ∧ isLower off = true ∧ isLower (off + 4) = false) ∧
    (∃ (fn off : Nat) (s : State) (size : Nat), s.hostOn fn = true ∧ off + size ≤ 131072) ∧
    (∃ (fn : Nat) (s : State), s.hostOn fn = true) :=
  ⟨⟨0, 0, { running with cfg := {} }, [1, 2, 3, 4], by decide +kernel⟩,
   ⟨0, running, 0, by decide +kernel⟩,
   ⟨0, 1, running, [1], by decide +kernel⟩,
   ⟨0, 1, running, 3, by decide +kernel⟩,
   ⟨0, 0x1108, running, by decide +kernel⟩,
   ⟨0, 0x1108, running, by decide +kernel⟩,
   ⟨0, 0, running, 8, by decide +kernel⟩,
   ⟨0, running, by decide +kernel⟩⟩

theorem witness_ShortOpcodesAnswer :
    (∃ (n : Nat) (d : Desc) (s : State), s.taking d 0 n) ∧
    (∃ (n : Nat) (d : Desc) (s : State), s.taking d 49 n ∧ rd d.fields 8 1 = 3) ∧
    (∃ (n : Nat) (d : Desc) (s : State), s.taking d 49 n ∧ rd d.fields 8 1 = 2) ∧
    (∃ (n : Nat) (d : Desc) (s : State), s.taking d 49 n ∧ rd d.fields 8 1 = 1 ∧
      ((s.watch (rd d.fields 10 2)).isOpen = false ∨ (s.watch (rd d.fields 10 2)).tenant = n)) ∧
    (∃ (n : Nat) (d : Desc) (s : State), s.taking d 49 n ∧ rd d.fields 8 1 = 1 ∧ (s.watch (rd d.fields 10 2)).isOpen = true ∧
      (s.watch (rd d.fields 10 2)).tenant ≠ n) :=
  ⟨⟨0, desc 0 0 [], fetchedS hostC (desc 0 0 []), by unfold State.taking; decide +kernel⟩,
   ⟨0, desc 0 0x31 [(8, 1, 3)], fetchedS hostC (desc 0 0x31 [(8, 1, 3)]), by unfold State.taking; decide +kernel⟩,
   ⟨0, desc 0 0x31 [(8, 1, 2)], fetchedS hostC (desc 0 0x31 [(8, 1, 2)]), by unfold State.taking; decide +kernel⟩,
   ⟨0, desc 0 0x31 [(8, 1, 1)], fetchedS hostC (desc 0 0x31 [(8, 1, 1)]), by unfold State.taking; decide +kernel⟩,
   ⟨0, desc 0 0x31 [(8, 1, 1)], fetchedS (openedS { tenant := 1 }) (desc 0 0x31 [(8, 1, 1)]), by unfold State.taking; decide +kernel⟩⟩

theorem witness_WatchesOpenAndClose :
    (∃ (n : Nat) (s : State) (d : Desc), s.taking d 1 n ∧ (s.watch (rd d.fields 8 2)).isOpen = false ∧ (∀ (o : Opening),
      o ∈ s.hst.openings → o.context ≠ rd d.fields 8 2)) ∧
    (∃ (n : Nat) (s : State) (d : Desc), s.taking d 1 n ∧ (s.watch (rd d.fields 8 2)).isOpen = true ∧ (s.watch (rd d.fields 8 2)).tenant = n) ∧
    (∃ (s : State) (fn r : Nat) (o : Opening) (bytes : Bytes),
      List.find? (fun o => o.fn == fn && o.ring == r && o.slot.isNone) s.hst.openings = some o ∧ List.length bytes = 128) ∧
    (∃ (s : State) (fn r : Nat) (o : Opening) (bytes : Bytes),
      List.find? (fun o => o.fn == fn && o.ring == r && o.slot.isNone) s.hst.openings = some o ∧ List.length bytes = 128 ∧
      crcK (List.take 124 bytes) ≠ rd bytes 124 4) ∧
    (∃ (n : Nat) (s : State) (fn r : Nat) (o : Opening) (bytes : Bytes) (map : Nat) (b : Bytes),
      List.find? (fun o => o.fn == fn && o.ring == r && o.slot.isNone) s.hst.openings = some o ∧ List.length bytes = 128 ∧
      crcK (List.take 124 bytes) = rd bytes 124 4 ∧
      clampParam (List.foldl (fun a m => max a ((Option.map bFloor (s.model m).active).getD 0)) 0 (bitList 4 (rd bytes 1 1))) bytes = (map, b) ∧
      s.tenantOf o.fn = some n ∧ s.tenAux n = false ∧ s.pbOwned n b = true ∧ s.openRefusal o n b = 0 ∧ pbOutputs b = false) ∧
    (∃ (n : Nat) (s : State) (d : Desc), s.taking d 2 n ∧ (s.watch (rd d.fields 8 2)).isOpen = true ∧ (s.watch (rd d.fields 8 2)).tenant = n) ∧
    (∃ (n : Nat) (s : State) (d : Desc), s.taking d 2 n ∧ (s.watch (rd d.fields 8 2)).isOpen = false) :=
  ⟨⟨0, fetchedS hostC (desc 0 1 [(16, 8, 64)]), desc 0 1 [(16, 8, 64)], by unfold State.taking; decide +kernel⟩,
   ⟨0, fetchedS (openedS {}) (desc 0 1 [(16, 8, 64)]), desc 0 1 [(16, 8, 64)], by unfold State.taking; decide +kernel⟩,
   ⟨openingS, 0, 0, opening0, paramBlock, by decide +kernel⟩,
   ⟨openingS, 0, 0, opening0, paramBlock.set 3 9, by decide +kernel⟩,
   ⟨0, openingS, 0, 0, opening0, paramBlock, 0, (clampParam 0 paramBlock).2, by decide +kernel⟩,
   ⟨0, fetchedS (openedS {}) (desc 0 2 []), desc 0 2 [], by unfold State.taking; decide +kernel⟩,
   ⟨0, fetchedS hostC (desc 0 2 []), desc 0 2 [], by unfold State.taking; decide +kernel⟩⟩

theorem witness_EscalationsClearAndCorridorsWait :
    (∃ (n : Nat) (d : Desc) (s : State), (s.watch (rd d.fields 8 2)).isOpen = true ∧ (s.watch (rd d.fields 8 2)).tenant = n ∧ s.taking d 3 n ∧
      (s.watch (rd d.fields 8 2)).esc = Esc.escalated) ∧
    (∃ (n : Nat) (d : Desc) (s : State), (s.watch (rd d.fields 8 2)).isOpen = true ∧ (s.watch (rd d.fields 8 2)).tenant = n ∧ s.taking d 3 n ∧
      (s.watch (rd d.fields 8 2)).esc = Esc.normal) ∧
    (∃ (n : Nat) (d : Desc) (s : State), (s.watch (rd d.fields 8 2)).isOpen = true ∧ (s.watch (rd d.fields 8 2)).tenant = n ∧ s.taking d 3 n ∧
      (s.watch (rd d.fields 8 2)).esc = Esc.clearing) ∧
    (∃ (dt n : Nat) (d : Desc) (s : State), (s.watch (rd d.fields 8 2)).isOpen = true ∧ (s.watch (rd d.fields 8 2)).tenant = n ∧ s.taking d 4 n ∧
      (s.advance dt).announceRefusal (rd d.fields 8 2) (rd d.fields 10 6) ≠ 0) ∧
    (∃ (dt n : Nat) (d : Desc) (s : State), (s.watch (rd d.fields 8 2)).isOpen = true ∧ (s.watch (rd d.fields 8 2)).tenant = n ∧ s.taking d 4 n ∧
      (s.advance dt).announceRefusal (rd d.fields 8 2) (rd d.fields 10 6) = 0 ∧ d.clamps ≠ 0) ∧
    (∃ (dt n : Nat) (d : Desc) (s : State) (k : Nat), (s.watch (rd d.fields 8 2)).isOpen = true ∧ (s.watch (rd d.fields 8 2)).tenant = n ∧
      s.taking d 4 n ∧ (s.advance dt).announceRefusal (rd d.fields 8 2) (rd d.fields 10 6) = 0 ∧ d.clamps = 0 ∧
      s.framesAhead (rd d.fields 10 6) = some k) :=
  ⟨⟨0, desc 0 3 [], fetchedS (openedS { esc := .escalated }) (desc 0 3 []), by unfold State.taking; decide +kernel⟩,
   ⟨0, desc 0 3 [], fetchedS (openedS {}) (desc 0 3 []), by unfold State.taking; decide +kernel⟩,
   ⟨0, desc 0 3 [], fetchedS (openedS { esc := .clearing }) (desc 0 3 []), by unfold State.taking; decide +kernel⟩,
   ⟨0, 0, desc 0 4 [(10, 6, 900), (17, 1, 1)], fetchedS (openedS {}) (desc 0 4 [(10, 6, 900), (17, 1, 1)]), by unfold State.taking; decide +kernel⟩,
   ⟨0, 0, desc 0 4 [(10, 6, 301), (16, 1, 0)], fetchedS (openedS {}) (desc 0 4 [(10, 6, 301), (16, 1, 0)]), by unfold State.taking; decide +kernel⟩,
   ⟨0, 0, desc 0 4 [(10, 6, 301), (17, 1, 1)], fetchedS (openedS {}) (desc 0 4 [(10, 6, 301), (17, 1, 1)]), 1,
     by unfold State.taking; decide +kernel⟩⟩

theorem witness_LongOperationsRunInOrder :
    (∃ (dt n : Nat) (s : State) (d : Desc) (op : Nat) (c : Instr) (x : LongOp), s.taking d op n ∧ s.tenAux n = false ∧
      (s.hfn d.fn).longRun = some x ∧ (op = 16 ∧ c = Instr.modelStage dt ∧ rd d.fields 8 1 < 4 ∧ s.cfg.active.mValid (rd d.fields 8 1) = true ∧
      s.modelTenant (rd d.fields 8 1) = n ∧ (s.model (rd d.fields 8 1)).switchAt = none ∨ op = 18 ∧ c = Instr.planStage dt ∧
      rd d.fields 8 1 < 16 ∧ s.cfg.active.plnValid (rd d.fields 8 1) = true ∧ s.cfg.active.plnTenant (rd d.fields 8 1) = n ∧
      (s.plan (rd d.fields 8 1)).switchAt = none ∨ op = 32 ∧ c = Instr.configStage dt ∨ op = 33 ∧ c = Instr.configCommit dt ∧
      modeOnly d.fields = false ∨ op = 33 ∧ c = Instr.configCommitModeOnly dt ∧ modeOnly d.fields = true ∨ op = 48 ∧ c = Instr.evidenceRead dt)) ∧
    (∃ (n : Nat) (s : State) (d : Desc) (x : LongOp), s.taking d 20 n ∧ s.tenAux n = false ∧ (s.hfn d.fn).longRun = some x ∧
      goldSet d.fields = true ∧ (s.watch (rd d.fields 8 2)).tenant = n ∧
      s.scheduleRefusal { fn := d.fn, ring := d.ring, index := d.index, op := 20, clamps := d.clamps, bytes := d.fields, tenant := n } = 0) ∧
    (∃ (s : State) (fn : Nat) (o : LongOp) (rest : List LongOp), (s.hfn fn).longRun = none ∧ (s.hfn fn).longQ = o :: rest ∧ o.fn = fn ∧ o.op = 48) ∧
    (∃ (s : State) (fn : Nat) (o : LongOp) (rest : List LongOp), (s.hfn fn).longRun = none ∧ (s.hfn fn).longQ = o :: rest ∧ o.fn = fn ∧
      (o.op = 16 ∧ s.cfg.active.mValid (rd o.bytes 8 1) = true ∧ (s.model (rd o.bytes 8 1)).switchAt = none ∨ o.op = 18 ∧
      s.cfg.active.plnValid (rd o.bytes 8 1) = true ∧ (s.plan (rd o.bytes 8 1)).switchAt = none ∨ o.op = 20)) ∧
    (∃ (s : State) (fn : Nat) (o : LongOp) (rest : List LongOp), (s.hfn fn).longRun = none ∧ (s.hfn fn).longQ = o :: rest ∧ o.fn = fn ∧
      o.op = 16 ∧ s.cfg.active.mValid (rd o.bytes 8 1) = true ∧ (s.model (rd o.bytes 8 1)).switchAt ≠ none) ∧
    (∃ (s : State) (fn : Nat) (o : LongOp) (rest : List LongOp), (s.hfn fn).longRun = none ∧ (s.hfn fn).longQ = o :: rest ∧ o.fn = fn ∧
      o.op = 18 ∧ s.cfg.active.plnValid (rd o.bytes 8 1) = true ∧ (s.plan (rd o.bytes 8 1)).switchAt ≠ none) ∧
    (∃ (n : Nat) (s : State) (d : Desc), s.taking d 16 n ∧ s.tenAux n = true ∧ n < 8) ∧
    (∃ (n : Nat) (s : State) (d : Desc), s.nextTake = some d ∧ opcodeOf d.bytes = 32 ∧ s.tenantOf d.fn = some n ∧ n < 8 ∧ s.tenAux n = false ∧
      s.glb.st = OpState.safe ∧ (s.hfn d.fn).longRun = none ∧ (s.hfn d.fn).longQ = []) :=
  ⟨⟨0, 0, fetchedS (busyS (openedS {})) (desc 0 0x10 [(24, 8, 2676)]), desc 0 0x10 [(24, 8, 2676)], 0x10, .modelStage 0, { fn := 0, op := 0x30 },
    by unfold State.taking; decide +kernel⟩,
   ⟨0, fetchedS (busyS (openedS {})) (desc 0 0x14 [(12, 1, 1), (24, 8, 2676)]), desc 0 0x14 [(12, 1, 1), (24, 8, 2676)], { fn := 0, op := 0x30 },
     by unfold State.taking; decide +kernel⟩,
   ⟨hostC.setHfn 0 { longQ := [lop 0x30 4] }, 0, lop 0x30 4, [], by decide +kernel⟩,
   ⟨hostC.setHfn 0 { longQ := [lop 0x14 4] }, 0, lop 0x14 4, [], by decide +kernel⟩,
   ⟨(modelS.modModel 0 fun x => { x with switchAt := some 5 }).setHfn 0 { longQ := [lop 0x10 4] }, 0, lop 0x10 4, [], by decide +kernel⟩,
   ⟨(hostC.modPlan 0 fun x => { x with switchAt := some 5 }).setHfn 0 { longQ := [lop 0x12 4] }, 0, lop 0x12 4, [], by decide +kernel⟩,
   ⟨1, fetchedS hostC (desc 4 0x10 [(24, 8, 2676)]), desc 4 0x10 [(24, 8, 2676)], by unfold State.taking; decide +kernel⟩,
   ⟨0, fetchedS { hostC with glb := { hostC.glb with st := .safe } } (desc 0 0x20 [(24, 8, 2676)]), desc 0 0x20 [(24, 8, 2676)], by decide +kernel⟩⟩

theorem witness_FetchedImagesAreJudged :
    (∃ (fn : Nat) (o : LongOp) (image : Bytes) (s : State), s.running fn o.op = some o ∧ o.fn = fn ∧ List.length image = rd o.bytes 24 8 ∧
      o.op = 16) ∧
    (Verifies → ∃ (fn : Nat) (o : LongOp) (image : Bytes) (s : State), s.running fn o.op = some o ∧ o.fn = fn ∧
      List.length image = rd o.bytes 24 8 ∧ o.op = 16 ∧ s.cfg.active.mValid (rd o.bytes 8 1) = true ∧ bTablesFail image = none ∧
      (bFit s.cfg.active (rd o.bytes 8 1) (s.masterUsed s.cfg.active (rd o.bytes 8 1)) image).reason = 0 ∧ bWeightsOk image = true ∧
      sigValid s.integKey image (bSigOff image) = true) ∧
    (∃ (fn : Nat) (o : LongOp) (image : Bytes) (s : State), s.running fn o.op = some o ∧ o.fn = fn ∧ List.length image = rd o.bytes 24 8 ∧
      o.op = 16 ∧ s.cfg.active.mValid (rd o.bytes 8 1) = true ∧ bTablesFail image = none ∧
      (bFit s.cfg.active (rd o.bytes 8 1) (s.masterUsed s.cfg.active (rd o.bytes 8 1)) image).reason = 0 ∧ bWeightsOk image = true ∧
      sigValid s.integKey image (bSigOff image) = false) ∧
    (Verifies → ∃ (fn : Nat) (o : LongOp) (image wimage : Bytes) (s : State) (pl : Plan), s.running fn o.op = some o ∧ o.fn = fn ∧
      List.length image = rd o.bytes 24 8 ∧ o.op = 18 ∧ s.cfg.active.plnValid (rd o.bytes 8 1) = true ∧
      (List.length wimage = rd o.bytes 40 8 ∨ (s.reusedPlan (rd o.bytes 8 1) image).isSome = true) ∧
      s.judgePlan (rd o.bytes 8 1) image wimage = StageEnd.stored pl) ∧
    (Verifies → ∃ (fn : Nat) (o : LongOp) (image : Bytes) (s : State), s.running fn o.op = some o ∧ o.fn = fn ∧
      List.length image = rd o.bytes 24 8 ∧ o.op = 20 ∧ s.goldRefusal o.slot image = 0) ∧
    (∃ (fn : Nat) (o : LongOp) (image : Bytes) (s : State), s.running fn o.op = some o ∧ o.fn = fn ∧ List.length image = rd o.bytes 24 8 ∧
      o.op = 48) :=
  ⟨⟨0, lop 0x10 4, zeros 4, runS hostC (lop 0x10 4), by decide +kernel⟩,
   fun hv => ⟨0, lop 0x10 6516, badgerImg, keyS (runS modelS (lop 0x10 6516)), ⟨by decide +kernel, by decide +kernel, by decide +kernel,
     by decide +kernel, by decide +kernel, by decide +kernel, by decide +kernel, by decide +kernel,
     (keyS_key (s := runS modelS (lop 0x10 6516)) (by decide +kernel)).symm ▸ sigValid_of hv (by decide +kernel)⟩⟩,
   ⟨0, lop 0x10 6516, badgerImg, runS modelS (lop 0x10 6516), by decide +kernel⟩,
   fun hv => ⟨0, lop 0x12 2804, plan1, [], planS, { img := plan1, wimg := [], digest := sha3 (plan1.take (planSigOff plan1)) },
     ⟨by decide +kernel, by decide +kernel, by decide +kernel, by decide +kernel, by decide +kernel, by decide +kernel, plan1_judged hv⟩⟩,
   fun hv => ⟨0, lop 0x14 84404, goldSet0, goldPlanS, ⟨by decide +kernel, rfl, goldSet0_length.trans (by decide +kernel), rfl,
     goldSet0_accepted hv⟩⟩,
   ⟨0, lop 0x30 4, zeros 4, runS hostC (lop 0x30 4), by decide +kernel⟩⟩

theorem witness_SwitchesWaitForTheirFrame :
    (∃ (n : Nat) (d : Desc) (s : State), s.tenAux n = false ∧ n < 8 ∧ s.taking d 17 n ∧ rd d.fields 8 1 < 4 ∧
      s.cfg.active.mValid (rd d.fields 8 1) = true ∧ s.modelTenant (rd d.fields 8 1) = n ∧
      s.modelSwitchRefusal (rd d.fields 8 1) (rd d.fields 16 8) = 0) ∧
    (∃ (n : Nat) (d : Desc) (s : State), s.tenAux n = false ∧ n < 8 ∧ s.taking d 17 n ∧ rd d.fields 8 1 < 4 ∧
      s.cfg.active.mValid (rd d.fields 8 1) = true ∧ s.modelTenant (rd d.fields 8 1) = n ∧
      s.modelSwitchRefusal (rd d.fields 8 1) (rd d.fields 16 8) ≠ 0) ∧
    (∃ (n : Nat) (d : Desc) (s : State), s.tenAux n = false ∧ n < 8 ∧ s.taking d 19 n ∧ rd d.fields 8 1 < 16 ∧
      s.cfg.active.plnValid (rd d.fields 8 1) = true ∧ s.cfg.active.plnTenant (rd d.fields 8 1) = n ∧
      s.planSwitchRefusal (rd d.fields 8 1) (rd d.fields 16 8) = (0, 0)) ∧
    (∃ (n : Nat) (d : Desc) (s : State), s.tenAux n = false ∧ n < 8 ∧ s.taking d 19 n ∧ rd d.fields 8 1 < 16 ∧
      s.cfg.active.plnValid (rd d.fields 8 1) = true ∧ s.cfg.active.plnTenant (rd d.fields 8 1) = n ∧
      (s.planSwitchRefusal (rd d.fields 8 1) (rd d.fields 16 8)).fst ≠ 0) ∧
    (∃ (n : Nat) (d : Desc) (s : State), s.tenAux n = false ∧ n < 8 ∧ s.taking d 20 n ∧ goldSet d.fields = false ∧
      (s.watch (rd d.fields 8 2)).tenant = n ∧
      s.scheduleRefusal { fn := d.fn, ring := d.ring, index := d.index, op := 20, clamps := d.clamps, bytes := d.fields, tenant := n } = 0) :=
  ⟨⟨0, desc 0 0x11 [(16, 8, 302)], fetchedS (modelS.modModel 0 fun x => { x with staged := some badgerImg }) (desc 0 0x11 [(16, 8, 302)]),
    by unfold State.taking; decide +kernel⟩,
   ⟨0, desc 0 0x11 [(16, 8, 302)], fetchedS hostC (desc 0 0x11 [(16, 8, 302)]), by unfold State.taking; decide +kernel⟩,
   ⟨0, desc 0 0x13 [(16, 8, 302)], fetchedS (hostC.modPlan 0 fun x => { x with staged := some { img := zeros 512 } }) (desc 0 0x13 [(16, 8,
     302)]), by unfold State.taking; decide +kernel⟩,
   ⟨0, desc 0 0x13 [(16, 8, 302)], fetchedS hostC (desc 0 0x13 [(16, 8, 302)]), by unfold State.taking; decide +kernel⟩,
   ⟨0, desc 0 0x14 [], fetchedS (openedS {}) (desc 0 0x14 []), by unfold State.taking; decide +kernel⟩⟩

theorem witness_ConfigurationsAreStagedAndCommitted :
    (∃ (dt fn : Nat) (o : LongOp) (image : Bytes) (flash : Bool) (s : State), o.fn = fn ∧ s.running fn 32 = some o ∧
      List.length image = rd o.bytes 24 8 ∧ (s.advance dt).stageRefusal image flash ≠ 0) ∧
    (Verifies → ∃ (dt fn : Nat) (o : LongOp) (image : Bytes) (flash : Bool) (s : State), o.fn = fn ∧ s.running fn 32 = some o ∧
      List.length image = rd o.bytes 24 8 ∧ (s.advance dt).stageRefusal image flash = 0) ∧
    (∃ (fn : Nat) (o : LongOp) (s : State) (rest : List LongOp), o.fn = fn ∧ (s.hfn fn).longRun = none ∧ (s.hfn fn).longQ = o :: rest ∧
      o.op = 33 ∧ o.clamps = 0 ∧ s.mayStart o = true ∧ s.pwLocked = false ∧ s.pwOk (slice o.bytes 16 32) = false) ∧
    (∃ (dt fn : Nat) (o : LongOp) (s : State) (st : Staged), o.fn = fn ∧ s.running fn 33 = some o ∧ s.stagedBy (slice o.bytes 48 16) = some st ∧
      st.kind = 5 ∧ (s.advance dt).banksMissing ((s.advance dt).cfgOf st) = []) ∧
    (∃ (dt fn : Nat) (o : LongOp) (s : State) (st : Staged), o.fn = fn ∧ s.running fn 33 = some o ∧ s.stagedBy (slice o.bytes 48 16) = some st ∧
      st.kind = 5 ∧ (s.advance dt).banksMissing ((s.advance dt).cfgOf st) = [] ∧ s.acting = OpState.maintenance ∧ rd o.bytes 8 1 = 0 ∧
      ((s.advance dt).cfgOf st).option = []) :=
  ⟨⟨0, 0, lop 0x20 4, zeros 4, true, runS hostC (lop 0x20 4), by decide +kernel⟩,
   fun hv => ⟨0, 0, lop 0x20 3796, kImg, false, keyStageS, ⟨rfl, by decide +kernel, by decide +kernel, kImg_accepted hv⟩⟩,
   ⟨0, lop 0x21 0, hostC.setHfn 0 { longQ := [lop 0x21 0] }, [], by decide +kernel⟩,
   ⟨0, 0, lop 0x21 0, commitS .running, staged5, ⟨by decide +kernel, by decide +kernel, by decide +kernel, by decide +kernel,
     no_bank_missing (by decide +kernel) _⟩⟩,
   ⟨0, 0, lop 0x21 0, commitS .maintenance, staged5, ⟨by decide +kernel, by decide +kernel, by decide +kernel, by decide +kernel,
     no_bank_missing (by decide +kernel) _, by decide +kernel, by decide +kernel, staged5_no_option⟩⟩⟩

theorem witness_FoxServesItsInterfaces :
    (∃ (s : State), s.foxRuns = true ∧ s.mgmtEn = true) ∧
    (∃ (s : State) (ip : Bytes), s.foxRuns = true ∧ s.mgmtEn = true ∧ ip ≠ s.mgmtIp) ∧
    (∃ (dt : Nat) (s : State), s.foxRuns = true ∧ s.mgmtEn = true ∧ s.telemMs ≠ 0 ∧ s.fox.telemAt + s.telemMs * msMc ≤ s.mc + dt) ∧
    (∃ (s : State), s.foxRuns = false) ∧
    (∃ (dt : Nat) (s : State) (ops : Nat) (l : List Evidence) (e : Evidence), s.foxRuns = true ∧ s.logReady = true ∧
      s.fox.archAt + 1000 * msMc ≤ s.mc + dt ∧ 128 ≤ ops ∧
      List.take 4096 (List.filter (fun e => decide (s.nvm.archNewest < e.seq)) s.log.records) = l ∧ l.getLast? = some e) ∧
    (∃ (s : State) (fn n : Nat), s.hostOn fn = true ∧ s.tenantOf fn = some n ∧ s.foxUp = true ∧ (s.quote fn).busy = false) ∧
    (∃ (s : State) (fn n : Nat), s.hostOn fn = true ∧ s.tenantOf fn = some n ∧ s.foxUp = true ∧ (s.quote fn).busy = true ∧ s.foxRuns = true) :=
  ⟨⟨foxS id, by decide +kernel⟩,
   ⟨foxS id, [1], by decide +kernel⟩,
   ⟨0, foxS id, by decide +kernel⟩,
   ⟨foxS fun x => { x with st := .reset }, by decide +kernel⟩,
   ⟨0, { foxS id with log := { records := [{ seq := 5 }], nextSeq := 6 } }, 128, [{ seq := 5 }], { seq := 5 }, by decide +kernel⟩,
   ⟨running, 0, 0, by decide +kernel⟩,
   ⟨foxS (fun x => { x with quotes := [(0, { busy := true })] }), 0, 0, by decide +kernel⟩⟩

theorem witness_TackAnswersAndAuthenticates :
    (∃ (tag : Nat) (s : State), s.tackOn = true ∧ s.tck.lastTag = some (tag % 16)) ∧
    (∃ (tag : Nat) (s : State), s.tackOn = true ∧ s.tck.lastTag ≠ some (tag % 16) ∧ s.tck.retry = none ∧ s.life < 5) ∧
    (∃ (tag : Nat) (s : State) (addr : Nat), s.tackOn = true ∧ s.tck.lastTag ≠ some (tag % 16) ∧ s.tck.retry = none ∧ s.life < 5 ∧
      (s.life = 3 ∨ s.life = 4) ∧ addr < 6) ∧
    (∃ (tag : Nat) (s : State) (addr : Nat), s.tackOn = true ∧ s.tck.lastTag ≠ some (tag % 16) ∧ s.tck.retry = none ∧ s.life < 5 ∧
      (s.life = 3 ∨ s.life = 4) ∧ addr < 303) ∧
    (Verifies → ∃ (tag : Nat) (s : State), s.tackOn = true ∧ s.tck.lastTag ≠ some (tag % 16) ∧ s.tck.retry = none ∧ s.life < 5 ∧
      (s.life = 3 ∨ s.life = 4) ∧ s.authOk = true) ∧
    (∃ (tag : Nat) (s : State), s.tackOn = true ∧ s.tck.lastTag ≠ some (tag % 16) ∧ s.tck.retry = none ∧ s.life < 5 ∧ (s.life = 3 ∨ s.life = 4) ∧
      s.authOk = false) ∧
    (∃ (tag : Nat) (s : State), s.tackOn = true ∧ s.tck.lastTag ≠ some (tag % 16) ∧ s.tck.retry = none ∧ s.life < 5 ∧ s.life = 0) ∧
    (∃ (s : State) (kind : Nat), s.tackOn = true ∧ kind < 2) :=
  ⟨⟨1, tckS (fun t => { t with lastTag := some 1 }) running, by decide +kernel⟩,
   ⟨0, running, by decide +kernel⟩,
   ⟨0, lifeS 0x3F running, 0, by decide +kernel⟩,
   ⟨0, lifeS 0x3F running, 0, by decide +kernel⟩,
   fun hv => ⟨0, returnS, ⟨returnS_on hv, by decide +kernel, rfl, (returnS_authOk hv).2 ▸ by decide, Or.inr (returnS_authOk hv).2,
     (returnS_authOk hv).1⟩⟩,
   ⟨0, lifeS 0x3F running, by decide +kernel⟩,
   ⟨0, lifeS 0 running, by decide +kernel⟩,
   ⟨running, 0, by decide +kernel⟩⟩

theorem witness_TackReadsWritesAndBlows :
    (∃ (tag addr : Nat) (s : State) (k : Nat), s.tackOn = true ∧ s.tck.lastTag ≠ some (tag % 16) ∧ s.tck.retry = none ∧ s.life = 1 ∧ s.memWf ∧
      1 ≤ k ∧ k ≤ 3 ∧ addr % 8 = 0 ∧ spaceHas k addr = true ∧ s.lineOn k (addr / 64) = true ∧ s.lineBad k (addr / 64) = false) ∧
    (∃ (tag addr : Nat) (s : State) (k : Nat), s.tackOn = true ∧ s.tck.lastTag ≠ some (tag % 16) ∧ s.tck.retry = none ∧ s.life = 1 ∧ s.memWf ∧
      1 ≤ k ∧ k ≤ 3 ∧ addr % 8 = 0 ∧ spaceHas k addr = true ∧ s.lineOn k (addr / 64) = true ∧ s.lineBad k (addr / 64) = false ∧
      s.inReport k addr = none ∧ s.deviceStores k addr = false) ∧
    (∃ (tag : Nat) (s : State) (k : Nat), s.tackOn = true ∧ s.tck.lastTag ≠ some (tag % 16) ∧ s.tck.retry = none ∧ s.life = 1 ∧ s.memWf ∧ 8 ≤ k) ∧
    (∃ (tag addr data : Nat) (s : State), s.tackOn = true ∧ s.tck.lastTag ≠ some (tag % 16) ∧ s.tck.retry = none ∧ s.life = 1 ∧ s.memWf ∧
      addr % 64 = 0 ∧ addr < 4096 ∧ s.fuseAllowed addr data = true) ∧
    (∃ (tag addr data : Nat) (s : State), s.tackOn = true ∧ s.tck.lastTag ≠ some (tag % 16) ∧ s.tck.retry = none ∧ s.life = 1 ∧ s.memWf ∧
      addr % 64 = 0 ∧ addr < 4096 ∧ s.fuseAllowed addr data = false) ∧
    (∃ (tag addr : Nat) (s : State), s.tackOn = true ∧ s.tck.lastTag ≠ some (tag % 16) ∧ s.tck.retry = none ∧ s.life = 1 ∧ s.memWf ∧
      addr / 2 ^ 24 % 256 < kindUnits (addr / 2 ^ 32 % 256)) :=
  ⟨⟨0, 0, running, 1, by unfold State.memWf; decide +kernel⟩,
   ⟨0, 0, running, 1, by unfold State.memWf; decide +kernel⟩,
   ⟨0, running, 8, by unfold State.memWf; decide +kernel⟩,
   ⟨0, 64, 1, running, by unfold State.memWf; decide +kernel⟩,
   ⟨0, 0, 4, running, by unfold State.memWf; decide +kernel⟩,
   ⟨0, 4294967296, running, by unfold State.memWf; decide +kernel⟩⟩

theorem witness_TackHaltsStepsAndBreaks :
    (∃ (tag : Nat) (s : State), s.tackOn = true ∧ s.tck.lastTag ≠ some (tag % 16) ∧ s.tck.retry = none ∧ s.life = 1 ∧
      (s.glb.st = OpState.startUp ∨ s.glb.st = OpState.maintenance)) ∧
    (∃ (tag : Nat) (s : State), s.tackOn = true ∧ s.tck.lastTag ≠ some (tag % 16) ∧ s.tck.retry = none ∧ s.life = 1 ∧
      (s.glb.st = OpState.startUp ∨ s.glb.st = OpState.maintenance) ∧ s.tck.haltCores = true) ∧
    (∃ (tag : Nat) (s : State), s.tackOn = true ∧ s.tck.lastTag ≠ some (tag % 16) ∧ s.tck.retry = none ∧ s.life = 1 ∧ s.glb.st ≠ OpState.startUp ∧
      s.glb.st ≠ OpState.maintenance) ∧
    (∃ (tag : Nat) (s : State), s.tackOn = true ∧ s.tck.lastTag ≠ some (tag % 16) ∧ s.tck.retry = none ∧ s.life = 1) ∧
    (∃ (tag : Nat) (s : State) (n : Nat), s.tackOn = true ∧ s.tck.lastTag ≠ some (tag % 16) ∧ s.tck.retry = none ∧ s.life = 1 ∧ n < 4 ∧
      tget s.tck.bps n ≠ 0 ∧ s.tck.haltCores = false ∧ s.atStep 5 = true) ∧
    (∃ (tag : Nat) (s : State), s.tackOn = true ∧ s.tck.lastTag ≠ some (tag % 16) ∧ s.tck.retry = none ∧ s.life = 1 ∧ s.tck.haltCores = true) :=
  ⟨⟨0, inState .maintenance, by decide +kernel⟩,
   ⟨0, tckS (fun t => { t with haltCores := true }) (inState .maintenance), by decide +kernel⟩,
   ⟨0, running, by decide +kernel⟩,
   ⟨0, running, by decide +kernel⟩,
   ⟨0, tckS (fun t => { t with bps := [(0, 77)] }) running, 0, by decide +kernel⟩,
   ⟨0, tckS (fun t => { t with haltCores := true }) running, by decide +kernel⟩⟩

theorem witness_BoundaryScanLeavesTheDeviceAlone : ∃ (dt : Nat) (cap din : List Nat) (d : Bool) (s : State) (c : Instr), s.tackOn = true ∧
  (c = Instr.bypass dt d ∨ c = Instr.idcode dt ∨ c = Instr.samplePreload dt cap din ∨ c = Instr.extest dt cap din ∨ c = Instr.clamp dt d ∨ c = Instr.highz dt d) :=
  ⟨0, [], [], true, running, .idcode 0, by decide +kernel⟩

end Sys2Proof.Tests
end

section
/-! What leaves the operating state alone: `glb_<operation>` says it of one operation of the model, file by file.
Where it holds by computation the proof is `id rfl`, which keeps the lemma usable for simp where it discharges the hypothesis of
another lemma; a bare `rfl` would not. -/

namespace Sys2Proof.Machine

/-- SAFE with a cause. -/
def safeAt (k : Nat) (g : Glb) : Prop := g.st = .safe ∧ g.cause = k

@[simp] theorem glb_ite (c : Prop) [Decidable c] (a b : State) : (if c then a else b).glb = if c then a.glb else b.glb := by
  split <;> rfl

/-- A fold of operations that each leave the operating state alone does so too. -/
theorem glb_foldl {α : Type} (f : State → α → State) (hf : ∀ q x, (f q x).glb = q.glb) (l : List α) (s : State) :
    (l.foldl f s).glb = s.glb := by
  induction l generalizing s with
  | nil => rfl
  | cons x l ih => exact (ih _).trans (hf s x)

@[simp] theorem safeAt_ite (k : Nat) (x y : Glb) (c : Prop) [Decidable c] (hx : safeAt k x) (hy : safeAt k y) :
    safeAt k (if c then x else y) := by split <;> assumption

/-- A fold of operations that each keep SAFE and its cause does so too. -/
theorem safe_foldl {α : Type} {k : Nat} (f : State → α → State)
    (hf : ∀ q x, safeAt k q.glb → safeAt k (f q x).glb) (l : List α) (s : State) (h : safeAt k s.glb) :
    safeAt k (l.foldl f s).glb := by
  induction l generalizing s with
  | nil => exact h
  | cons x l ih => exact ih _ (hf s x h)


/-! ### Ops -/

@[simp] theorem glb_signal (s : State) (fn v : Nat) : (s.signal fn v).glb = s.glb := by simp [State.signal]
@[simp] theorem glb_sendPending (s : State) (fn : Nat) : (s.sendPending fn).glb = s.glb := by simp [State.sendPending, glb_foldl]
@[simp] theorem glb_ringMessage (s : State) (fn r : Nat) : (s.ringMessage fn r).glb = s.glb := by simp [State.ringMessage]
@[simp] theorem glb_ringWritten (s : State) (fn r : Nat) (urgentRecord : Bool) : (s.ringWritten fn r urgentRecord).glb = s.glb := by
  simp [State.ringWritten]
@[simp] theorem glb_writeBack (s : State) (fn r i : Nat) : (s.writeBack fn r i).glb = s.glb := id rfl
@[simp] theorem glb_putRecord (s : State) (fn r : Nat) (b : Bytes) (urgentRecord : Bool) :
    (s.putRecord fn r b urgentRecord).glb = s.glb := by
  simp [State.putRecord]
@[simp] theorem glb_hostRead (s : State) (fn addr len : Nat) : (s.hostRead fn addr len).glb = s.glb := id rfl
@[simp] theorem glb_ringGap (s : State) (fn r : Nat) : (s.ringGap fn r).glb = s.glb := by unfold State.ringGap; split <;> simp
@[simp] theorem glb_copyTo (s : State) (fn r : Nat) (e : Evidence) : (s.copyTo fn r e).glb = s.glb := by simp [State.copyTo]
@[simp] theorem glb_logRecord (s : State) (kind tenant sev ctx : Nat) (payload : Bytes) :
    (s.logRecord kind tenant sev ctx payload).glb = s.glb := by
  simp [State.logRecord, glb_foldl]
@[simp] theorem glb_evidence (s : State) (kind tenant sev ctx : Nat) (payload : Bytes) :
    (s.evidence kind tenant sev ctx payload).glb = s.glb := by
  simp [State.evidence]
@[simp] theorem glb_evDev (s : State) (kind sev : Nat) (payload : Bytes) : (s.evDev kind sev payload).glb = s.glb := by simp [State.evDev]
@[simp] theorem glb_discardVerdict (s : State) (fn r frame : Nat) : (s.discardVerdict fn r frame).glb = s.glb := by
  unfold State.discardVerdict; split <;> simp
@[simp] theorem glb_mergeNotice (s : State) (fn r : Nat) (b : Bytes) : (s.mergeNotice fn r b).glb = s.glb := id rfl
@[simp] theorem glb_dropHeld (s : State) (fn r : Nat) : (s.dropHeld fn r).glb = s.glb := by simp [State.dropHeld, glb_foldl]
@[simp] theorem glb_writeNotice (s : State) (fn r : Nat) : (s.writeNotice fn r).glb = s.glb := by simp [State.writeNotice]
@[simp] theorem glb_writeHeld (s : State) (fn r : Nat) : (s.writeHeld fn r).glb = s.glb := by
  unfold State.writeHeld; dsimp only; (repeat' split) <;> simp
@[simp] theorem glb_holdNotice (s : State) (fn r : Nat) : (s.holdNotice fn r).glb = s.glb := by simp [State.holdNotice]
@[simp] theorem glb_postVerdict (s : State) (fn r frame : Nat) (b : Bytes) (urgentRecord : Bool) :
    (s.postVerdict fn r frame b urgentRecord).glb = s.glb := by
  simp [State.postVerdict]
@[simp] theorem glb_release (s : State) (fn r : Nat) : (s.release fn r).glb = s.glb := id rfl
@[simp] theorem glb_complete (s : State) (fn ring index : Nat) (c : Cpl) : (s.complete fn ring index c).glb = s.glb := by
  unfold State.complete; split <;> simp
@[simp] theorem glb_writeWaiting (s : State) (fn r : Nat) : (s.writeWaiting fn r).glb = s.glb := by simp [State.writeWaiting, glb_foldl]

/-! ### StayOps -/

@[simp] theorem glb_toShroud (s : State) (typ : Nat) (payload : Bytes) : (s.toShroud typ payload).glb = s.glb := id rfl
@[simp] theorem glb_fromShroud (s : State) (typ : Nat) (payload : Bytes) : (s.fromShroud typ payload).glb = s.glb := id rfl
@[simp] theorem glb_shroudFault (s : State) (code index mask : Nat) : (s.shroudFault code index mask).glb = s.glb := id rfl
@[simp] theorem glb_sendStateFrame (s : State) : (s.sendStateFrame).glb = s.glb := id rfl

/-! ### TelegramOps -/

@[simp] theorem glb_sendTelegram (s : State) (i typ : Nat) (safeFlag : Bool) (payload : Bytes) :
    (s.sendTelegram i typ safeFlag payload).glb = s.glb := by
  simp [State.sendTelegram, glb_foldl]
@[simp] theorem glb_sendSafe (s : State) (cause i : Nat) : (s.sendSafe cause i).glb = s.glb := by simp [State.sendSafe]
@[simp] theorem glb_sendVerdict (s : State) (i : Nat) : (s.sendVerdict i).glb = s.glb := by simp [State.sendVerdict]

/-! ### VerdictOps -/

@[simp] theorem glb_issue (s : State) (c code issueTime : Nat) : (s.issue c code issueTime).glb = s.glb := by simp [State.issue, glb_foldl]

/-! ### StateOps -/

@[simp] theorem glb_abortLong (s : State) (report : Bool) (o : LongOp) : (s.abortLong report o).glb = s.glb := by
  unfold State.abortLong; (repeat' split) <;> simp
@[simp] theorem glb_abortOps (s : State) (fn : Nat) (report : Bool) (keep : LongOp → Bool) : (s.abortOps fn report keep).glb = s.glb := by
  simp [State.abortOps, glb_foldl]

/-! ### FrameOps -/

@[simp] theorem glb_switchOff (s : State) (d : Nat) : (s.switchOff d).glb = s.glb := by simp [State.switchOff]
@[simp] theorem glb_switchOn (s : State) (d : Nat) : (s.switchOn d).glb = s.glb := by simp [State.switchOn]
@[simp] theorem glb_requestRetest (s : State) (k : Nat) : (s.requestRetest k).glb = s.glb := by simp [State.requestRetest]
@[simp] theorem glb_abandoned (s : State) (block slot count tenant : Nat) : (s.abandoned block slot count tenant).glb = s.glb := by
  simp [State.abandoned]

/-! ### Golden -/

@[simp] theorem glb_goldOutcome (s : State) (p oc : Nat) : (s.goldOutcome p oc).glb = s.glb := by simp [State.goldOutcome, glb_foldl]

/-! ### Report -/

@[simp] theorem glb_initCtx (s : State) (k stream seq off poly : Nat) : (s.initCtx k stream seq off poly).glb = s.glb := id rfl
@[simp] theorem glb_loadCtx (s : State) (k : Nat) : (s.loadCtx k).glb = s.glb := by unfold State.loadCtx; split <;> simp
@[simp] theorem glb_foldCtx (s : State) (k : Nat) (cov : Bytes) (n : Nat) : (s.foldCtx k cov n).glb = s.glb := by
  unfold State.foldCtx; dsimp only; (repeat' split) <;> simp
@[simp] theorem glb_reportRecord (s : State) (slot tenant code off : Nat) : (s.reportRecord slot tenant code off).glb = s.glb := by
  simp [State.reportRecord]
@[simp] theorem glb_failCtx (s : State) (k : Nat) : (s.failCtx k).glb = s.glb := id rfl
@[simp] theorem glb_failReport (s : State) (i code off : Nat) (r : Report) : (s.failReport i code off r).glb = s.glb := by
  simp [State.failReport]
@[simp] theorem glb_staleWrite (s : State) (i : Nat) : (s.staleWrite i).glb = s.glb := id rfl
@[simp] theorem glb_lateWrite (s : State) (i : Nat) : (s.lateWrite i).glb = s.glb := id rfl
@[simp] theorem glb_countPoison (s : State) (poisoned : Bool) : (s.countPoison poisoned).glb = s.glb := by simp [State.countPoison]
@[simp] theorem glb_slotWrite (s : State) (i off : Nat) (data : Bytes) (poisoned : Bool) :
    (s.slotWrite i off data poisoned).glb = s.glb := by
  unfold State.slotWrite; dsimp only; (repeat' split) <;> simp
@[simp] theorem glb_reportBusy (s : State) (i : Nat) (b : Bytes) : (s.reportBusy i b).glb = s.glb := by
  unfold State.reportBusy; split <;> simp
@[simp] theorem glb_slotComplete (s : State) (i : Nat) : (s.slotComplete i).glb = s.glb := by simp [State.slotComplete]
@[simp] theorem glb_slotDeadline (s : State) (i : Nat) : (s.slotDeadline i).glb = s.glb := by simp [State.slotDeadline]
@[simp] theorem glb_slotTick (s : State) (last i : Nat) : (s.slotTick last i).glb = s.glb := by simp [State.slotTick]
@[simp] theorem glb_goldFail (s : State) (code off : Nat) (r : Report) : (s.goldFail code off r).glb = s.glb := by
  unfold State.goldFail; split <;> simp
@[simp] theorem glb_goldWrite (s : State) (off : Nat) (data : Bytes) (poisoned : Bool) : (s.goldWrite off data poisoned).glb = s.glb := by
  unfold State.goldWrite; dsimp only; (repeat' split) <;> simp
@[simp] theorem glb_goldComplete (s : State) : (s.goldComplete).glb = s.glb := by unfold State.goldComplete; split <;> simp
@[simp] theorem glb_gldStart (s : State) : (s.gldStart).glb = s.glb := by unfold State.gldStart; split <;> simp
@[simp] theorem glb_gldEnd (s : State) : (s.gldEnd).glb = s.glb := by unfold State.gldEnd; dsimp only; (repeat' split) <;> simp

/-! ### StoatOps -/

@[simp] theorem glb_redivide (s : State) (p : Nat) : (s.redivide p).glb = s.glb := by unfold State.redivide; split <;> simp
@[simp] theorem glb_auditStart (s : State) (p : Nat) : (s.auditStart p).glb = s.glb := by
  unfold State.auditStart; dsimp only; (repeat' split) <;> simp
@[simp] theorem glb_takeComparison (s : State) (p l prof : Nat) (c : Comparison) : (s.takeComparison p l prof c).glb = s.glb := by
  simp [State.takeComparison]
@[simp] theorem glb_auditShareEnd (s : State) (p total : Nat) : (s.auditShareEnd p total).glb = s.glb := by simp [State.auditShareEnd]
@[simp] theorem glb_auditBlock (s : State) (p idx : Nat) : (s.auditBlock p idx).glb = s.glb := by
  unfold State.auditBlock; dsimp only; (repeat' split) <;> simp [glb_foldl]
@[simp] theorem glb_auditWeightError (s : State) (p idx : Nat) : (s.auditWeightError p idx).glb = s.glb := by
  unfold State.auditWeightError; dsimp only; (repeat' split) <;> simp
@[simp] theorem glb_auditEnd (s : State) (p : Nat) : (s.auditEnd p).glb = s.glb := by simp [State.auditEnd]
@[simp] theorem glb_itemsTick (s : State) (p : Nat) : (s.itemsTick p).glb = s.glb := id rfl
@[simp] theorem glb_auditTick (s : State) (p : Nat) : (s.auditTick p).glb = s.glb := by unfold State.auditTick; split <;> simp
@[simp] theorem glb_activatePlan (s : State) (p : Nat) : (s.activatePlan p).glb = s.glb := by unfold State.activatePlan; split <;> simp
@[simp] theorem glb_challengeStart (s : State) (p : Nat) : (s.challengeStart p).glb = s.glb := id rfl
@[simp] theorem glb_drawTarget (s : State) (img : Bytes) (p t : Nat) : (s.drawTarget img p t).glb = s.glb := id rfl
@[simp] theorem glb_drawAll (s : State) : s.drawAll.glb = s.glb := by
  unfold State.drawAll; dsimp only
  refine (glb_foldl _ (fun q p => ?_) _ _).trans rfl
  split
  · split <;> simp [glb_foldl]
  · rfl
@[simp] theorem glb_mailboxPosted (s : State) : s.mailboxPosted.glb = s.glb := by
  unfold State.mailboxPosted; dsimp only
  exact (glb_foldl _ (fun q x => glb_initCtx ..) _ _).trans rfl
@[simp] theorem glb_failChallenge (s : State) (i code leaf row col acc dev : Nat) :
    (s.failChallenge i code leaf row col acc dev).glb = s.glb := by
  unfold State.failChallenge; split <;> simp
@[simp] theorem glb_failPlain (s : State) (i code : Nat) : (s.failPlain i code).glb = s.glb := by simp [State.failPlain]
@[simp] theorem glb_openingStale (s : State) : (s.openingStale).glb = s.glb := id rfl
@[simp] theorem glb_openingWrite (s : State) (off : Nat) (data : Bytes) (poisoned : Bool) :
    (s.openingWrite off data poisoned).glb = s.glb := by
  unfold State.openingWrite; dsimp only; (repeat' split) <;> simp
@[simp] theorem glb_leafVerify (s : State) (i k : Nat) : (s.leafVerify i k).glb = s.glb := by
  unfold State.leafVerify; dsimp only; (repeat' split) <;> simp
@[simp] theorem glb_challengePass (s : State) (p : Nat) : (s.challengePass p).glb = s.glb := by simp [State.challengePass]
@[simp] theorem glb_tileDone (s : State) (i : Nat) : (s.tileDone i).glb = s.glb := by
  unfold State.tileDone; dsimp only; (repeat' split) <;> simp
@[simp] theorem glb_challengeEnd (s : State) : (s.challengeEnd).glb = s.glb := by simp [State.challengeEnd, glb_foldl]
@[simp] theorem glb_mailboxTick (s : State) : (s.mailboxTick).glb = s.glb := id rfl
@[simp] theorem glb_dispatch (s : State) (e : Nat) : (s.dispatch e).glb = s.glb := by unfold State.dispatch; (repeat' split) <;> simp
@[simp] theorem glb_dropUnits (s : State) : (s.dropUnits).glb = s.glb := id rfl
@[simp] theorem glb_engineRecord (s : State) (e kind col : Nat) : (s.engineRecord e kind col).glb = s.glb := by simp [State.engineRecord]
@[simp] theorem glb_repeatUnit (s : State) (e : Nat) : (s.repeatUnit e).glb = s.glb := by unfold State.repeatUnit; split <;> simp
@[simp] theorem glb_useSpare (s : State) (sp : Nat) : (s.useSpare sp).glb = s.glb := id rfl
@[simp] theorem glb_countFault (s : State) (e kind col : Nat) : (s.countFault e kind col).glb = s.glb := id rfl

/-! ### ResetOps -/

@[simp] theorem glb_resetFox (s : State) (source : Nat) : (s.resetFox source).glb = s.glb := by simp [State.resetFox]

/-! ### Reset -/

@[simp] theorem glb_loadOption (s : State) : (s.loadOption).glb = s.glb := by simp [State.loadOption]
@[simp] theorem glb_interrupt (s : State) (k : Nat) : (s.interrupt k).glb = s.glb := id rfl
@[simp] theorem glb_domainRecord (s : State) (d event : Nat) : (s.domainRecord d event).glb = s.glb := by simp [State.domainRecord]

/-! ### SafetyFns -/

@[simp] theorem glb_settleOutputs (s : State) : (s.settleOutputs).glb = s.glb := by simp [State.settleOutputs, glb_foldl]
@[simp] theorem glb_refusedRecord (s : State) (n : Nat) (l : List (Nat × Nat)) : (s.refusedRecord n l).glb = s.glb := by
  unfold State.refusedRecord; split <;> simp
@[simp] theorem glb_hchSet (s : State) (n : Nat) (r : Fn × Bool) : (s.hchSet n r).glb = s.glb := by simp [State.hchSet]
@[simp] theorem glb_pchSet (s : State) (n : Nat) (r : Fn × Bool) : (s.pchSet n r).glb = s.glb := by simp [State.pchSet]
@[simp] theorem glb_hchEval (s : State) : (s.hchEval).glb = s.glb := by simp [State.hchEval, glb_foldl]
@[simp] theorem glb_pchEval (s : State) : (s.pchEval).glb = s.glb := by simp [State.pchEval, glb_foldl]
@[simp] theorem glb_hchReset (s : State) (i t : Nat) : (s.hchReset i t).glb = s.glb := by simp [State.hchReset, glb_foldl]
@[simp] theorem glb_pchReset (s : State) (i t : Nat) : (s.pchReset i t).glb = s.glb := by simp [State.pchReset, glb_foldl]

/-! ### ShroudLink -/

@[simp] theorem glb_stateDue (s : State) : (s.stateDue).glb = s.glb := by simp [State.stateDue]
@[simp] theorem glb_lDieSends (s : State) : (s.lDieSends).glb = s.glb := by simp [State.lDieSends]
@[simp] theorem glb_shroudSends (s : State) : (s.shroudSends).glb = s.glb := by simp [State.shroudSends]
@[simp] theorem glb_shroudRejects (s : State) : (s.shroudRejects).glb = s.glb := by simp [State.shroudRejects]
@[simp] theorem glb_lDieRejects (s : State) : (s.lDieRejects).glb = s.glb := by simp [State.lDieRejects]
@[simp] theorem glb_takePchFunc (s : State) : (s.takePchFunc).glb = s.glb := id rfl
@[simp] theorem glb_refuseRising (s : State) (req : Nat) : (s.refuseRising req).glb = s.glb := by simp [State.refuseRising, glb_foldl]
@[simp] theorem glb_takePchOut (s : State) (r : Nat × Nat × Nat) : (s.takePchOut r).glb = s.glb := by simp [State.takePchOut]
@[simp] theorem glb_heartbeatRecord (s : State) (slot event ctx : Nat) : (s.heartbeatRecord slot event ctx).glb = s.glb := by
  simp [State.heartbeatRecord]
@[simp] theorem glb_heartbeatLapses (s : State) (n : Nat) : (s.heartbeatLapses n).glb = s.glb := by
  unfold State.heartbeatLapses; dsimp only; (repeat' split) <;> simp
@[simp] theorem glb_takeHeartbeat (s : State) (p : Bytes) : (s.takeHeartbeat p).glb = s.glb := by simp [State.takeHeartbeat]
@[simp] theorem glb_takeBind (s : State) (p : Bytes) : (s.takeBind p).glb = s.glb := by simp [State.takeBind]
@[simp] theorem glb_takeUnbind (s : State) (p : Bytes) : (s.takeUnbind p).glb = s.glb := by simp [State.takeUnbind]
@[simp] theorem glb_takeState (s : State) (p : Bytes) : (s.takeState p).glb = s.glb := id rfl
@[simp] theorem glb_takeSafe (s : State) : (s.takeSafe).glb = s.glb := id rfl
@[simp] theorem glb_setShr (s : State) (h : Shroud) : (s.setShr h).glb = s.glb := id rfl
@[simp] theorem glb_takeCfg (s : State) (p : Bytes) : (s.takeCfg p).glb = s.glb := by simp [State.takeCfg]
@[simp] theorem glb_pchSample (s : State) (raw i : Nat) : (s.pchSample raw i).glb = s.glb := by
  unfold State.pchSample; dsimp only; (repeat' split) <;> simp
@[simp] theorem glb_takeInputs (s : State) (raw filt : Nat) : (s.takeInputs raw filt).glb = s.glb := by simp [State.takeInputs, glb_foldl]
@[simp] theorem glb_adopt (s : State) : (s.adopt).glb = s.glb := by simp [State.adopt, glb_foldl]
@[simp] theorem glb_takeHch (s : State) : (s.takeHch).glb = s.glb := by simp [State.takeHch]
@[simp] theorem glb_takeOutputs (s : State) : (s.takeOutputs).glb = s.glb := id rfl
@[simp] theorem glb_channelRecord (s : State) (n : Nat) : (s.channelRecord n).glb = s.glb := by simp [State.channelRecord]

/-! ### ShroudEvents -/

@[simp] theorem glb_filterFlips (s : State) (i : Nat) : (s.filterFlips i).glb = s.glb := by
  unfold State.filterFlips; dsimp only; (repeat' split) <;> simp
@[simp] theorem glb_hchXs (s : State) (xs : List Nat) : (s.hchXs xs).glb = s.glb := by simp [State.hchXs, glb_foldl]
@[simp] theorem glb_pchXs (s : State) (xs : List Nat) : (s.pchXs xs).glb = s.glb := by simp [State.pchXs, glb_foldl]
@[simp] theorem glb_pulseEnds (s : State) (k before late : Nat) : (s.pulseEnds k before late).glb = s.glb := by simp [State.pulseEnds]
@[simp] theorem glb_pchDisc (s : State) (n : Nat) : (s.pchDisc n).glb = s.glb := by
  unfold State.pchDisc; dsimp only; (repeat' split) <;> simp
@[simp] theorem glb_hchDisc (s : State) (n : Nat) : (s.hchDisc n).glb = s.glb := by
  unfold State.hchDisc; dsimp only; (repeat' split) <;> simp
@[simp] theorem glb_discTimeout (s : State) (pch : Bool) (n : Nat) : (s.discTimeout pch n).glb = s.glb := by simp [State.discTimeout]
@[simp] theorem glb_handTimeout (s : State) (pch : Bool) (n : Nat) : (s.handTimeout pch n).glb = s.glb := by
  unfold State.handTimeout; dsimp only; (repeat' split) <;> simp
@[simp] theorem glb_lockSo (s : State) (o code : Nat) : (s.lockSo o code).glb = s.glb := id rfl
@[simp] theorem glb_edmChanges (s : State) (o : Nat) : (s.edmChanges o).glb = s.glb := by simp [State.edmChanges]
@[simp] theorem glb_edmExpires (s : State) (o : Nat) : (s.edmExpires o).glb = s.glb := by
  unfold State.edmExpires; dsimp only; (repeat' split) <;> simp
@[simp] theorem glb_lockPv (s : State) (p code : Nat) : (s.lockPv p code).glb = s.glb := id rfl
@[simp] theorem glb_minOffExpires (s : State) (prv : Bool) (i : Nat) : (s.minOffExpires prv i).glb = s.glb := by
  unfold State.minOffExpires; dsimp only; (repeat' split) <;> simp
@[simp] theorem glb_senseChanges (s : State) (p : Nat) (high : Bool) : (s.senseChanges p high).glb = s.glb := by simp [State.senseChanges]
@[simp] theorem glb_senseExpires (s : State) (p : Nat) : (s.senseExpires p).glb = s.glb := by
  unfold State.senseExpires; dsimp only; (repeat' split) <;> simp
@[simp] theorem glb_hsTimeout (s : State) (p : Nat) : (s.hsTimeout p).glb = s.glb := by simp [State.hsTimeout]

/-! ### Plibex -/

@[simp] theorem glb_sfDrop (s : State) (d : Datagram) (f : Nat) : (s.sfDrop d f).glb = s.glb := id rfl
@[simp] theorem glb_metered (s : State) (d : Datagram) (f k : Nat) (o : Option Meter) : (s.metered d f k o).1.glb = s.glb := by
  unfold State.metered; split <;> simp
@[simp] theorem glb_meterFrame (s : State) (d : Datagram) (f k : Nat) : (s.meterFrame d f k).1.glb = s.glb := by simp [State.meterFrame]
@[simp] theorem glb_police (s : State) (d : Datagram) : (s.police d).1.glb = s.glb := by unfold State.police; (repeat' split) <;> simp
@[simp] theorem glb_rejectRx (s : State) (i code seq : Nat) : (s.rejectRx i code seq).glb = s.glb := by simp [State.rejectRx]
@[simp] theorem glb_acceptRx (s : State) (i : Nat) (b : Bytes) (t : Nat) : (s.acceptRx i b t).glb = s.glb := by simp [State.acceptRx]
@[simp] theorem glb_plibexIn (s : State) (d : Datagram) (t : Nat) : (s.plibexIn d t).glb = s.glb := by
  unfold State.plibexIn; dsimp only; (repeat' split) <;> simp
@[simp] theorem glb_macIn (s : State) (d : Datagram) : (s.macIn d).1.glb = s.glb := by unfold State.macIn; split <;> simp
@[simp] theorem glb_plibexRx (s : State) (d : Datagram) (ago : Nat) : (s.plibexRx d ago).glb = s.glb := by simp [State.plibexRx]
@[simp] theorem glb_txLate (s : State) (i typ lateUs : Nat) : (s.txLate i typ lateUs).glb = s.glb := by simp [State.txLate]
@[simp] theorem glb_periodic (s : State) (i : Nat) : (s.periodic i).glb = s.glb := by
  unfold State.periodic; dsimp only; (repeat' split) <;> simp
@[simp] theorem glb_leftAfter (s old : State) (i typ due : Nat) : (s.leftAfter old i typ due).glb = s.glb := by simp [State.leftAfter]

/-! ### BadgerOps -/

@[simp] theorem glb_settleInput (s : State) (m : Nat) : (s.settleInput m).glb = s.glb := by
  unfold State.settleInput; dsimp only; (repeat' split) <;> simp
@[simp] theorem glb_settleInputs (s : State) : (s.settleInputs).glb = s.glb := by simp [State.settleInputs, glb_foldl]
@[simp] theorem glb_noteOps (s : State) (t mac n : Nat) : (s.noteOps t mac n).glb = s.glb := id rfl
@[simp] theorem glb_noteLayers (s : State) (m n : Nat) : (s.noteLayers m n).glb = s.glb := by
  unfold State.noteLayers; dsimp only
  refine glb_foldl _ (fun q x => ?_) _ _
  split
  · rfl
  · exact glb_foldl _ (fun _ _ => glb_foldl _ (fun _ _ => glb_noteOps ..) _ _) _ _
@[simp] theorem glb_stopPass (s : State) (m : Nat) : (s.stopPass m).1.glb = s.glb := by simp [State.stopPass]
@[simp] theorem glb_abandonRole (s : State) (r : Nat) (noTile : Bool) : (s.abandonRole r noTile).glb = s.glb := by
  simp [State.abandonRole, glb_foldl]
@[simp] theorem glb_passStart (s : State) (m : Nat) : (s.passStart m).glb = s.glb := id rfl
@[simp] theorem glb_passDone (s : State) (m : Nat) : (s.passDone m).glb = s.glb := by simp [State.passDone]
@[simp] theorem glb_slotShdEnd (s : State) (m : Nat) : (s.slotShdEnd m).glb = s.glb := by
  unfold State.slotShdEnd; dsimp only; (repeat' split) <;> simp
@[simp] theorem glb_shdEnd (s : State) : (s.shdEnd).glb = s.glb := by simp [State.shdEnd, glb_foldl]
@[simp] theorem glb_raiseThresholds (s : State) (m : Nat) (b : Bytes) : (s.raiseThresholds m b).glb = s.glb := by
  simp [State.raiseThresholds, glb_foldl]
@[simp] theorem glb_activateModel (s : State) (m : Nat) : (s.activateModel m).glb = s.glb := by
  unfold State.activateModel; dsimp only; (repeat' split) <;> simp
@[simp] theorem glb_modelSwitches (s : State) : s.modelSwitches.glb = s.glb := by
  unfold State.modelSwitches
  refine glb_foldl _ (fun q m => ?_) _ _
  split <;> simp
@[simp] theorem glb_modelTick (s : State) (last m : Nat) : (s.modelTick last m).glb = s.glb := id rfl
@[simp] theorem glb_modCsi (s : State) (r : Nat) (f : CsiRx → CsiRx) : (s.modCsi r f).glb = s.glb := id rfl
@[simp] theorem glb_csiEcc2 (s : State) (r vc : Nat) : (s.csiEcc2 r vc).glb = s.glb := by unfold State.csiEcc2; split <;> simp
@[simp] theorem glb_ingEnd (s : State) : (s.ingEnd).glb = s.glb := by simp [State.ingEnd, glb_foldl]
@[simp] theorem glb_tileRecord (s : State) (t macro_ kind resid : Nat) : (s.tileRecord t macro_ kind resid).glb = s.glb := by
  simp [State.tileRecord]
@[simp] theorem glb_tileFailed (s : State) (t : Nat) : (s.tileFailed t).glb = s.glb := by simp [State.tileFailed]
@[simp] theorem glb_tileReadyAs (s : State) (t : Nat) (role : Option Nat) : (s.tileReadyAs t role).glb = s.glb := by
  unfold State.tileReadyAs; split <;> simp
@[simp] theorem glb_blockMean (s : State) (t mean : Nat) : (s.blockMean t mean).glb = s.glb := id rfl
@[simp] theorem glb_rotate (s : State) : (s.rotate).glb = s.glb := by unfold State.rotate; split <;> simp
@[simp] theorem glb_startupTile (s : State) (t resid : Nat) (coefs : List Nat) (pass : Bool) :
    (s.startupTile t resid coefs pass).glb = s.glb := by
  simp [State.startupTile]
@[simp] theorem glb_startupCal (s : State) (mask : Nat) (resids : List Nat) (coefs : List Coefs) :
    (s.startupCal mask resids coefs).glb = s.glb := by
  unfold State.startupCal; dsimp only; (repeat' split) <;> simp [glb_foldl]

/-! ### Cores -/

@[simp] theorem glb_startCores (s : State) : (s.startCores).glb = s.glb := id rfl
@[simp] theorem glb_holdAll (s : State) : (s.holdAll).glb = s.glb := id rfl
@[simp] theorem glb_retire (s : State) (counts : List Nat) : (s.retire counts).glb = s.glb := by simp [State.retire, glb_foldl]
@[simp] theorem glb_coreRecord (s : State) (c : Nat) : (s.coreRecord c).glb = s.glb := by simp [State.coreRecord]
@[simp] theorem glb_pruneLedger (s : State) : (s.pruneLedger).glb = s.glb := id rfl
@[simp] theorem glb_consume (s : State) (c : Nat) (value : Bytes) : (s.consume c value).glb = s.glb := id rfl
@[simp] theorem glb_sample (s : State) (c kind len source addr : Nat) (value : Bytes) :
    (s.sample c kind len source addr value).glb = s.glb := by
  simp [State.sample]
@[simp] theorem glb_ledgerRequest (s : State) (c : Nat) (counts : List Nat) (kind len source addr : Nat) (value : Bytes) (bad : Bool) :
    (s.ledgerRequest c counts kind len source addr value bad).glb = s.glb := by
  unfold State.ledgerRequest; dsimp only; (repeat' split) <;> simp
@[simp] theorem glb_dropPosition (s : State) (c : Nat) : (s.dropPosition c).glb = s.glb := by simp [State.dropPosition, glb_foldl]
@[simp] theorem glb_holdCore (s : State) (c : Nat) (st : CoreState) : (s.holdCore c st).glb = s.glb := by simp [State.holdCore]
@[simp] theorem glb_ledgerRecord (s : State) (sev : Nat) (maj : List Nat) (n flag : Nat) : (s.ledgerRecord sev maj n flag).glb = s.glb := by
  simp [State.ledgerRecord]
@[simp] theorem glb_discardFrom (s : State) (maj : List Nat) (n : Nat) : (s.discardFrom maj n).glb = s.glb := by
  simp [State.discardFrom, glb_foldl]
@[simp] theorem glb_releaseBank (s : State) (n c : Nat) : (s.releaseBank n c).glb = s.glb := by simp [State.releaseBank, glb_foldl]
@[simp] theorem glb_freeBanks (s : State) (n : Nat) : (s.freeBanks n).glb = s.glb := by simp [State.freeBanks, glb_foldl]
@[simp] theorem glb_startCopy (s : State) : (s.startCopy).glb = s.glb := by unfold State.startCopy; split <;> simp
@[simp] theorem glb_closeBank (s : State) (c : Nat) (actions : List Sys2Proof.Action) : (s.closeBank c actions).glb = s.glb := id rfl
@[simp] theorem glb_copyDone (s : State) : (s.copyDone).glb = s.glb := by unfold State.copyDone; split <;> simp
@[simp] theorem glb_coreTest (s : State) (c : Nat) : (s.coreTest c).glb = s.glb := by simp [State.coreTest]

/-! ### Comparator -/

@[simp] theorem glb_noCorridor (s : State) (c : Nat) : (s.noCorridor c).glb = s.glb := id rfl
@[simp] theorem glb_settleCorridor (s : State) (c : Nat) : (s.settleCorridor c).glb = s.glb := by simp [State.settleCorridor]
@[simp] theorem glb_cmpStart (s : State) (c : Nat) : (s.cmpStart c).glb = s.glb := id rfl
@[simp] theorem glb_cmpFinish (s : State) (c : Nat) : (s.cmpFinish c).glb = s.glb := by
  unfold State.cmpFinish; dsimp only; (repeat' split) <;> simp
@[simp] theorem glb_cmpEnd (s : State) (c : Nat) : (s.cmpEnd c).glb = s.glb := by simp [State.cmpEnd]
@[simp] theorem glb_cmpTick (s : State) (c : Nat) : (s.cmpTick c).glb = s.glb := id rfl

/-! ### VerdictUnit -/

@[simp] theorem glb_escalate (s : State) (c under : Nat) : (s.escalate c under).glb = s.glb := by simp [State.escalate]
@[simp] theorem glb_laneRecord (s : State) (l event : Nat) : (s.laneRecord l event).glb = s.glb := by simp [State.laneRecord]
@[simp] theorem glb_laneReinit (s : State) : (s.laneReinit).glb = s.glb := id rfl
@[simp] theorem glb_verdictOf (s : State) (x : Nat × Nat) : (s.verdictOf x).glb = s.glb := by simp [State.verdictOf, glb_foldl]
@[simp] theorem glb_goldActivate (s : State) (p : Nat) : (s.goldActivate p).glb = s.glb := by
  unfold State.goldActivate; dsimp only; (repeat' split) <;> simp
@[simp] theorem glb_goldTick (s : State) : (s.goldTick).glb = s.glb := by
  unfold State.goldTick; dsimp only; (repeat' split) <;> simp [glb_foldl]
@[simp] theorem glb_ageCheck (s : State) (c : Nat) : (s.ageCheck c).glb = s.glb := by simp [State.ageCheck, glb_foldl]
@[simp] theorem glb_heartbeat (s : State) (c : Nat) : (s.heartbeat c).glb = s.glb := by simp [State.heartbeat]

/-! ### SelfTest -/

@[simp] theorem glb_isolateCvu (s : State) (u : Nat) : (s.isolateCvu u).glb = s.glb := id rfl
@[simp] theorem glb_returnCvu (s : State) (u : Nat) : (s.returnCvu u).glb = s.glb := id rfl
@[simp] theorem glb_sliceBegins (s : State) (e : Nat) : (s.sliceBegins e).glb = s.glb := by unfold State.sliceBegins; split <;> simp
@[simp] theorem glb_startL (s : State) (e : Nat) : (s.startL e).glb = s.glb := by simp [State.startL]
@[simp] theorem glb_advancePointer (s : State) : (s.advancePointer).glb = s.glb := by simp [State.advancePointer]
@[simp] theorem glb_roundNext (l : List Nat) (s : State) : (State.roundNext l s).glb = s.glb := by
  induction l generalizing s with
  | nil => simp [State.roundNext]
  | cons e r ih => simp [State.roundNext, ih]
@[simp] theorem glb_postpone (s : State) (reason : Nat) : (s.postpone reason).glb = s.glb := by simp [State.postpone]
@[simp] theorem glb_startRound (s : State) : (s.startRound).glb = s.glb := by simp [State.startRound]
@[simp] theorem glb_nextL (l : List Nat) (s : State) : (State.nextL l s).glb = s.glb := by
  induction l generalizing s with
  | nil => simp [State.nextL]
  | cons k r ih => unfold State.nextL; split <;> simp [ih]
@[simp] theorem glb_nextA (s : State) : (s.nextA).glb = s.glb := by unfold State.nextA; split <;> simp
@[simp] theorem glb_nextC (s : State) : (s.nextC).glb = s.glb := by unfold State.nextC; split <;> simp
@[simp] theorem glb_slfStart (s : State) : (s.slfStart).glb = s.glb := by simp [State.slfStart]
@[simp] theorem glb_slfEnd (s : State) : (s.slfEnd).glb = s.glb := id rfl
@[simp] theorem glb_sliceFail (s : State) (e sig : Nat) : (s.sliceFail e sig).glb = s.glb := by simp [State.sliceFail]
@[simp] theorem glb_sliceNext (s : State) (q : Nat) : (s.sliceNext q).glb = s.glb := by simp [State.sliceNext]
@[simp] theorem glb_rotationRecord (s : State) (frames mcs : Nat) (late : Bool) : (s.rotationRecord frames mcs late).glb = s.glb := by
  simp [State.rotationRecord]

/-! ### Protect -/

@[simp] theorem glb_exhausted (s : State) (array bank line : Nat) : (s.exhausted array bank line).glb = s.glb := by simp [State.exhausted]
@[simp] theorem glb_repairRow (s : State) (array line : Nat) : (s.repairRow array line).glb = s.glb := by simp [State.repairRow]
@[simp] theorem glb_keepRaw (s : State) (array unit line : Nat) (stored : Bytes) : (s.keepRaw array unit line stored).glb = s.glb := id rfl
@[simp] theorem glb_correct (s : State) (array unit line channel symbols : Nat) (stored data : Bytes) (scrub : Bool) :
    (s.correct array unit line channel symbols stored data scrub).glb = s.glb := by
  unfold State.correct; dsimp only; (repeat' split) <;> simp
@[simp] theorem glb_imageBad (s : State) (p : Nat) : (s.imageBad p).glb = s.glb := id rfl
@[simp] theorem glb_invalidate (s : State) (q : Nat) (d : Detect) : (s.invalidate q d).glb = s.glb := by simp [State.invalidate, glb_foldl]
@[simp] theorem glb_imagesHit (s : State) (q : Nat) : (s.imagesHit q).glb = s.glb := by
  unfold State.imagesHit
  exact (glb_foldl _ (fun r p => by simp) _ _).trans rfl

/-! ### ConfigOps -/

@[simp] theorem glb_armTick (s : State) (t : Nat) : (s.armTick t).glb = s.glb := by simp [State.armTick]
@[simp] theorem glb_rateFrom (s : State) (b : Nat) : (s.rateFrom b).glb = s.glb := by simp [State.rateFrom]
@[simp] theorem glb_remapConns (s : State) (old : Cfg) : (s.remapConns old).glb = s.glb := by simp [State.remapConns, glb_foldl]
@[simp] theorem glb_rebindSlots (s : State) : (s.rebindSlots).glb = s.glb := by simp [State.rebindSlots, glb_foldl]
@[simp] theorem glb_disarmMoved (s : State) (old : Cfg) : (s.disarmMoved old).glb = s.glb := by simp [State.disarmMoved, glb_foldl]
@[simp] theorem glb_trimBanks (s : State) : (s.trimBanks).glb = s.glb := by simp [State.trimBanks, glb_foldl]
@[simp] theorem glb_powerBanks (s : State) (c : Cfg) : (s.powerBanks c).glb = s.glb := by simp [State.powerBanks, glb_foldl]
@[simp] theorem glb_sendCfgFrame (s : State) (old : Cfg) : (s.sendCfgFrame old).glb = s.glb := by simp [State.sendCfgFrame]
@[simp] theorem glb_takeConfig (s : State) (c : Cfg) (b : Nat) : (s.takeConfig c b).glb = s.glb := by simp [State.takeConfig, glb_foldl]
@[simp] theorem glb_activateDue (s : State) : (s.activateDue).glb = s.glb := by unfold State.activateDue; split <;> simp

/-! ### HostOps -/

@[simp] theorem glb_enableRing (s : State) (fn r v : Nat) : (s.enableRing fn r v).glb = s.glb := by simp [State.enableRing]
@[simp] theorem glb_disableNow (s : State) (fn r : Nat) : (s.disableNow fn r).glb = s.glb := by simp [State.disableNow]
@[simp] theorem glb_disableRing (s : State) (fn r v : Nat) : (s.disableRing fn r v).glb = s.glb := by simp [State.disableRing]
@[simp] theorem glb_writeRingCtl (s : State) (fn v : Nat) : (s.writeRingCtl fn v).glb = s.glb := by simp [State.writeRingCtl]
@[simp] theorem glb_rejectDb (s : State) (fn r cause index seq : Nat) : (s.rejectDb fn r cause index seq).glb = s.glb := by
  unfold State.rejectDb; split <;> simp
@[simp] theorem glb_doorbell (s : State) (fn r index seq : Nat) : (s.doorbell fn r index seq).glb = s.glb := by simp [State.doorbell]
@[simp] theorem glb_doorbells (s : State) (fn r : Nat) (l : List Bytes) : (s.doorbells fn r l).glb = s.glb := by
  induction l generalizing s r with
  | nil => rfl
  | cons w l ih => simp [State.doorbells, ih]
@[simp] theorem glb_doorbellWrite (s : State) (fn off : Nat) (data : Bytes) : (s.doorbellWrite fn off data).glb = s.glb := by
  simp [State.doorbellWrite]
@[simp] theorem glb_fetched (s : State) (fn r : Nat) : (s.fetched fn r).glb = s.glb := by simp [State.fetched]
@[simp] theorem glb_checkFailed (s : State) (fn r i : Nat) (b : Bytes) : (s.checkFailed fn r i b).glb = s.glb := by
  unfold State.checkFailed; split <;> simp
@[simp] theorem glb_descFetch (s : State) (fn r : Nat) (bytes : Bytes) (ok : Bool) : (s.descFetch fn r bytes ok).glb = s.glb := by
  simp [State.descFetch]
@[simp] theorem glb_answer (t : Taken) (s : State) (status result detail : Nat) (data : Bytes) :
    (Taken.answer t s status result detail data).glb = s.glb := by
  simp [Taken.answer]
@[simp] theorem glb_stop (t : Taken) (s : State) (status : Nat) : (Taken.stop t s status).glb = s.glb := by simp [Taken.stop]
@[simp] theorem glb_refuse (t : Taken) (s : State) (result : Nat) : (Taken.refuse t s result).glb = s.glb := by simp [Taken.refuse]
@[simp] theorem glb_done (t : Taken) (s : State) (result : Nat) (data : Bytes) : (Taken.done t s result data).glb = s.glb := by
  simp [Taken.done]

/-! ### Rings -/

@[simp] theorem glb_resetFn (s : State) (fn : Nat) : (s.resetFn fn).glb = s.glb := by simp [State.resetFn, glb_foldl]

/-! ### Staging -/

@[simp] theorem glb_enqueue (t : Taken) (s : State) (slot : Nat) : (Taken.enqueue t s slot).glb = s.glb := id rfl
@[simp] theorem glb_finish (o : LongOp) (s : State) (status result detail : Nat) (data : Bytes) :
    (LongOp.finish o s status result detail data).glb = s.glb := by
  simp [LongOp.finish]
@[simp] theorem LongOp.glb_done (o : LongOp) (s : State) (result detail : Nat) (data : Bytes) :
    (o.done s result detail data).glb = s.glb := by
  simp [LongOp.done]
@[simp] theorem LongOp.glb_refuse (o : LongOp) (s : State) (result detail : Nat) : (o.refuse s result detail).glb = s.glb := by
  simp [LongOp.refuse]
@[simp] theorem glb_planCode (s : State) (p code layer : Nat) : (s.planCode p code layer).glb = s.glb := id rfl
@[simp] theorem glb_planStage (s : State) (t : Taken) : (s.planStage t).glb = s.glb := by simp [State.planStage]
@[simp] theorem glb_planStaged (s : State) (o : LongOp) (b w : Bytes) : (s.planStaged o b w).glb = s.glb := by
  unfold State.planStaged; dsimp only; (repeat' split) <;> simp
@[simp] theorem glb_planSwitch (s : State) (t : Taken) : (s.planSwitch t).glb = s.glb := by simp [State.planSwitch]
@[simp] theorem glb_modelCode (s : State) (m code layer : Nat) : (s.modelCode m code layer).glb = s.glb := id rfl
@[simp] theorem glb_modelStage (s : State) (t : Taken) : (s.modelStage t).glb = s.glb := by simp [State.modelStage]
@[simp] theorem glb_modelStaged (s : State) (o : LongOp) (b : Bytes) : (s.modelStaged o b).glb = s.glb := by
  unfold State.modelStaged; dsimp only; (repeat' split) <;> simp
@[simp] theorem glb_modelSwitch (s : State) (t : Taken) : (s.modelSwitch t).glb = s.glb := by simp [State.modelSwitch]
@[simp] theorem glb_goldCode (s : State) (p code : Nat) : (s.goldCode p code).glb = s.glb := id rfl
@[simp] theorem glb_goldStaged (s : State) (o : LongOp) (g : Bytes) : (s.goldStaged o g).glb = s.glb := by
  unfold State.goldStaged; dsimp only; (repeat' split) <;> simp
@[simp] theorem glb_goldSchedule (s : State) (t : Taken) : (s.goldSchedule t).glb = s.glb := by
  unfold State.goldSchedule; dsimp only; (repeat' split) <;> simp

/-! ### Commit -/

@[simp] theorem glb_freshNonce (s : State) : (s.freshNonce).glb = s.glb := by simp [State.freshNonce]
@[simp] theorem glb_clog (s : State) (tenant kind flags field : Nat) (old new : Bytes) (gen : Nat) :
    (s.clog tenant kind flags field old new gen).glb = s.glb := id rfl
@[simp] theorem glb_clogConfig (s : State) (tenant : Nat) (old new : Cfg) (clamps : List Clamp) :
    (s.clogConfig tenant old new clamps).glb = s.glb := by
  simp [State.clogConfig, glb_foldl]
@[simp] theorem LongOp.glb_staged (o : LongOp) (s : State) (code kind safety other : Nat) (id : Bytes) :
    (o.staged s code kind safety other id).glb = s.glb := by
  simp [LongOp.staged]
@[simp] theorem glb_storeStaged (s : State) (b : Bytes) (clamps : List Clamp) : (s.storeStaged b clamps).glb = s.glb := by
  simp [State.storeStaged]
@[simp] theorem glb_configStaged (s : State) (o : LongOp) (b : Bytes) (flash : Bool) : (s.configStaged o b flash).glb = s.glb := by
  simp [State.configStaged]
@[simp] theorem glb_stageStart (s : State) (o : LongOp) : (s.stageStart o).glb = s.glb := by simp [State.stageStart]
@[simp] theorem glb_pwFail (s : State) (tenant : Nat) : (s.pwFail tenant).glb = s.glb := by simp [State.pwFail]
@[simp] theorem LongOp.glb_committed (o : LongOp) (s : State) (code detail kind gen : Nat) :
    (o.committed s code detail kind gen).glb = s.glb := by
  simp [LongOp.committed]
@[simp] theorem glb_commitBegin (s : State) (o : LongOp) (st : Staged) : (s.commitBegin o st).glb = s.glb := by simp [State.commitBegin]
@[simp] theorem glb_planReason (s : State) (c : Cfg) : (s.planReason c).glb = s.glb := by unfold State.planReason; split <;> simp
@[simp] theorem glb_writeRecord (s : State) (o : LongOp) (st : Staged) (gen clogSeq : Nat) :
    (s.writeRecord o st gen clogSeq).glb = s.glb := id rfl
@[simp] theorem glb_newPassword (s : State) (tenant : Nat) (b : Bytes) : (s.newPassword tenant b).glb = s.glb := by simp [State.newPassword]
@[simp] theorem glb_writeOption (s : State) (b : Bytes) : (s.writeOption b).glb = s.glb := by simp [State.writeOption]
@[simp] theorem glb_schedule (s : State) (c : Cfg) : (s.schedule c).2.glb = s.glb := by
  unfold State.schedule; dsimp only; (repeat' split) <;> simp
@[simp] theorem glb_writeCommit (s : State) (o : LongOp) (st : Staged) : (s.writeCommit o st).glb = s.glb := by simp [State.writeCommit]
@[simp] theorem glb_commitLife (s : State) (o : LongOp) (st : Staged) : (s.commitLife o st).glb = s.glb := by simp [State.commitLife]

/-! ### Frame -/

@[simp] theorem glb_firePulse (s : State) (p : Nat) : (s.firePulse p).glb = s.glb := by simp [State.firePulse]
@[simp] theorem glb_pulsesTick (s : State) : (s.pulsesTick).glb = s.glb := by simp [State.pulsesTick, glb_foldl]
@[simp] theorem glb_newFrame (s : State) : (s.newFrame).glb = s.glb := id rfl
@[simp] theorem glb_planSwitches (s : State) : s.planSwitches.glb = s.glb := by
  unfold State.planSwitches
  refine glb_foldl _ (fun q p => ?_) _ _
  split <;> simp
@[simp] theorem glb_frameTick (s : State) : s.frameTick.glb = s.glb := by simp [State.frameTick, glb_foldl]
@[simp] theorem glb_atDc (s : State) : (s.atDc).glb = s.glb := by simp [State.atDc, glb_foldl]
@[simp] theorem glb_closeOut (s : State) : (s.closeOut).glb = s.glb := by simp [State.closeOut, glb_foldl]
@[simp] theorem glb_markStepped (s : State) : (s.markStepped).glb = s.glb := by simp [State.markStepped]

/-! ### TimeBase -/

@[simp] theorem glb_acquired (s : State) : (s.acquired).glb = s.glb := by simp [State.acquired]
@[simp] theorem glb_fireFirst (s : State) (p : Nat) : (s.fireFirst p).glb = s.glb := by simp [State.fireFirst]
@[simp] theorem glb_pulseArm (s : State) (p v : Nat) : (s.pulseArm p v).glb = s.glb := by simp [State.pulseArm]

/-! ### Boot -/

@[simp] theorem glb_flushPending (s : State) : (s.flushPending).glb = s.glb := by simp [State.flushPending, glb_foldl]
@[simp] theorem glb_evLater (s : State) (kind sev : Nat) (payload : Bytes) : (s.evLater kind sev payload).glb = s.glb := by
  simp [State.evLater]
@[simp] theorem glb_bootSelect (s : State) (k bank : Nat) (fallback : Bool) : (s.bootSelect k bank fallback).glb = s.glb := by
  simp [State.bootSelect]
@[simp] theorem glb_startFox (s : State) : (s.startFox).glb = s.glb := by
  unfold State.startFox; dsimp only; (repeat' split) <;> simp
@[simp] theorem glb_startTime (s : State) : (s.startTime).glb = s.glb := by simp [State.startTime]
@[simp] theorem glb_startMain (s : State) : (s.startMain).glb = s.glb := by simp [State.startMain]
@[simp] theorem glb_foxAgain (s : State) : (s.foxAgain).glb = s.glb := by simp [State.foxAgain]
@[simp] theorem glb_wipe (s : State) : (s.wipe).glb = s.glb := by simp [State.wipe]

/-! ### Owl -/

@[simp] theorem glb_owlTrap (s : State) (i event : Nat) : (s.owlTrap i event).glb = s.glb := by simp [State.owlTrap]
@[simp] theorem glb_owlNext (s : State) (i : Nat) : (s.owlNext i).glb = s.glb := by simp [State.owlNext]
@[simp] theorem glb_owlRoll (s : State) (i : Nat) : (s.owlRoll i).glb = s.glb := by
  unfold State.owlRoll; dsimp only; (repeat' split) <;> simp
@[simp] theorem glb_owlGood (s : State) (i : Nat) : (s.owlGood i).glb = s.glb := by simp [State.owlGood]
@[simp] theorem glb_owlRefused (s : State) (i : Nat) : (s.owlRefused i).glb = s.glb := by simp [State.owlRefused]
@[simp] theorem glb_owlJudge (s : State) (i : Nat) : (s.owlJudge i).glb = s.glb := by simp [State.owlJudge]
@[simp] theorem glb_owlService (s : State) (i v : Nat) : (s.owlService i v).glb = s.glb := by simp [State.owlService]
@[simp] theorem glb_owlCheckIn (s : State) (i v : Nat) : (s.owlCheckIn i v).glb = s.glb := by simp [State.owlCheckIn]
@[simp] theorem glb_suspendRecord (s : State) (event us : Nat) : (s.suspendRecord event us).glb = s.glb := by simp [State.suspendRecord]
@[simp] theorem glb_flashBusy (s : State) : (s.flashBusy).glb = s.glb := by simp [State.flashBusy]
@[simp] theorem glb_flashIdle (s : State) : (s.flashIdle).glb = s.glb := by unfold State.flashIdle; split <;> simp

/-! ### Watch -/

@[simp] theorem Opening.glb_finish (o : Opening) (s : State) (status result : Nat) : (o.finish s status result).glb = s.glb := by
  simp [Opening.finish]

/-! ### Fox -/

@[simp] theorem glb_archiveRecord (s : State) (event first last : Nat) : (s.archiveRecord event first last).glb = s.glb := by
  simp [State.archiveRecord]
@[simp] theorem glb_archive (s : State) (ops : Nat) : (s.archive ops).glb = s.glb := by
  unfold State.archive; dsimp only; (repeat' split) <;> simp
@[simp] theorem glb_thermalRecord (s : State) (sensor level : Nat) (t : Int) : (s.thermalRecord sensor level t).glb = s.glb := by
  simp [State.thermalRecord]
@[simp] theorem glb_warnDie (s : State) (d : Nat) : (s.warnDie d).glb = s.glb := by unfold State.warnDie; split <;> simp

/-! ### LongOps -/

@[simp] theorem glb_fetchImage (s : State) (o : LongOp) : (s.fetchImage o).glb = s.glb := id rfl
@[simp] theorem glb_planStart (s : State) (o : LongOp) : (s.planStart o).glb = s.glb := by simp [State.planStart]
@[simp] theorem glb_modelStart (s : State) (o : LongOp) : (s.modelStart o).glb = s.glb := by simp [State.modelStart]

@[simp] theorem glb_evidenceRead (s : State) (o : LongOp) : (s.evidenceRead o).glb = s.glb := by
  simp [State.evidenceRead, glb_foldl]

/-! ### PortW -/

@[simp] theorem glb_wCpl (s : State) (st : CplStatus) (data : Bytes) (parts : List Nat) : (s.wCpl st data parts).glb = s.glb := id rfl
@[simp] theorem glb_wAbort (s : State) : (s.wAbort).glb = s.glb := id rfl
@[simp] theorem glb_goldRead (s : State) (off n : Nat) : (s.goldRead off n).glb = s.glb := by
  unfold State.goldRead; (repeat' split) <;> simp
@[simp] theorem glb_wRead (s : State) (off n : Nat) : (s.wRead off n).glb = s.glb := by simp [State.wRead]
@[simp] theorem glb_wWrite (s : State) (off : Nat) (data : Bytes) (poisoned : Bool) : (s.wWrite off data poisoned).glb = s.glb := by
  simp [State.wWrite]
@[simp] theorem glb_wConfigRead (s : State) (off : Nat) : (s.wConfigRead off).glb = s.glb := by
  unfold State.wConfigRead; dsimp only; (repeat' split) <;> simp
@[simp] theorem glb_wConfigWrite (s : State) (off v : Nat) : (s.wConfigWrite off v).glb = s.glb := by simp [State.wConfigWrite]

/-! ### HostRegs -/

@[simp] theorem glb_writeBar0 (s : State) (fn o v : Nat) : (s.writeBar0 fn o v).glb = s.glb := by simp [State.writeBar0]
@[simp] theorem glb_writeMsix (s : State) (fn w v : Nat) : (s.writeMsix fn w v).glb = s.glb := by simp [State.writeMsix]
@[simp] theorem glb_writeWords (s : State) (fn bar o : Nat) (l : List Bytes) : (s.writeWords fn bar o l).glb = s.glb := by
  induction l generalizing s o with
  | nil => rfl
  | cons b l ih => simp [State.writeWords, ih]
@[simp] theorem glb_accessRecord (s : State) (fn : Nat) (write : Bool) (off size : Nat) :
    (s.accessRecord fn write off size).glb = s.glb := by
  simp [State.accessRecord]
@[simp] theorem glb_hostCpl (s : State) (fn : Nat) (st : CplStatus) (data : Bytes) : (s.hostCpl fn st data).glb = s.glb := id rfl
@[simp] theorem glb_readWord (s : State) (fn off : Nat) : (s.readWord fn off).glb = s.glb := by simp [State.readWord]

/-! ### Tack -/

@[simp] theorem glb_tackSend (s : State) (tag : Nat) (a : TackAns) : (s.tackSend tag a).glb = s.glb := by
  unfold State.tackSend; split <;> simp

@[simp] theorem glb_memWord (s : State) (t addr : Nat) : (s.memWord t addr).1.glb = s.glb := by
  unfold State.memWord; dsimp only; (repeat' split) <;> simp

@[simp] theorem glb_freshPcs (s : State) (target : Nat) : (s.freshPcs target).glb = s.glb := by simp [State.freshPcs]
@[simp] theorem glb_setHalt (s : State) (target : Nat) (on : Bool) : (s.setHalt target on).glb = s.glb := id rfl
@[simp] theorem glb_meetFore (s : State) (target : Nat) : (s.meetFore target).glb = s.glb := by simp [State.meetFore]
@[simp] theorem glb_resume (s : State) (target : Nat) : (s.resume target).glb = s.glb := id rfl
@[simp] theorem glb_tackStep (s : State) (target : Nat) : (s.tackStep target).glb = s.glb := by simp [State.tackStep, glb_foldl]
@[simp] theorem glb_breakHit (s : State) (target n : Nat) : (s.breakHit target n).glb = s.glb := by simp [State.breakHit]
@[simp] theorem glb_statusPc (s : State) (target : Nat) : (s.statusPc target).1.glb = s.glb := by
  unfold State.statusPc; dsimp only; (repeat' split) <;> simp

/-! ### Scan -/

@[simp] theorem glb_scanBypass (s : State) (ir : Nat) (din driving highz : Bool) : (s.scanBypass ir din driving highz).glb = s.glb := id rfl
@[simp] theorem glb_scanBoundary (s : State) (ir : Nat) (cap din : List Nat) (driving : Bool) :
    (s.scanBoundary ir cap din driving).glb = s.glb := id rfl

/-! ### Stoat -/

@[simp] theorem glb_unitEnds (s : State) (e : Nat) : (s.unitEnds e).glb = s.glb := id rfl

end Sys2Proof.Machine
end

section
/-! What can change the operating state, in SAFE: `safe_<operation>` says of one operation that SAFE and its cause stay (R44). -/

namespace Sys2Proof.Machine

/-! ### The operating states -/

@[simp] theorem glb_repairBegins (s : State) (n : Nat) :
    (s.repairBegins n).glb = { s.glb with repairs := insNat n s.glb.repairs } := id rfl
@[simp] theorem glb_repairEnds (s : State) (n : Nat) : (s.repairEnds n).glb = { s.glb with repairs := s.glb.repairs.erase n } := id rfl

/-- Repairs that begin or end leave SAFE and its cause as they are. -/
@[simp] theorem safeAt_repairs (k : Nat) (g : Glb) (l : List Nat) : safeAt k { g with repairs := l } ↔ safeAt k g := Iff.rfl

section
variable {k : Nat} {s : State} (h : safeAt k s.glb)
include h

theorem acting_safe : s.acting = .safe := by simp [State.acting, h.1]

/-- A move that only another acting state makes does not happen in SAFE. -/
theorem safe_unless {x : State} {p : Prop} [Decidable p] (hp : p → s.acting ≠ .safe) : safeAt k (if p then x else s).glb := by
  rw [if_neg fun q => hp q (acting_safe h)]
  exact h

@[simp] theorem safe_enterSafe (cause : Nat) : safeAt k (s.enterSafe cause).glb := by simp [State.enterSafe, h.1, h]
@[simp] theorem safe_singleFault (cause : Nat) : safeAt k (s.singleFault cause).glb := by simp [State.singleFault, h.1, h]
@[simp] theorem safe_exitDegraded (cause : Nat) : safeAt k (s.exitDegraded cause).glb := by simp [State.exitDegraded, h.1, h]

/-! ### Stoat -/

@[simp] theorem safe_engineFailed (e : Nat) : safeAt k (s.engineFailed e).glb := by simp [State.engineFailed, h]

@[simp] theorem safe_engineTestFail (e : Nat) : safeAt k (s.engineTestFail e).glb := by
  unfold State.engineTestFail; dsimp only; (repeat' split) <;> simp [h]

@[simp] theorem safe_engineFault (e kind col : Nat) : safeAt k (s.engineFault e kind col).glb := by
  unfold State.engineFault; dsimp only
  split
  case h_5 =>
    split
    · simp [h]
    · split
      · simp [h]
      · simp [h.1, h]
  all_goals simp [h]

@[simp] theorem safe_engineSlice (e : Nat) (pass : Bool) : safeAt k (s.engineSlice e pass).glb := by
  unfold State.engineSlice; (repeat' split) <;> simp [h]

@[simp] theorem safe_sha3Mismatch (n : Nat) : safeAt k (s.sha3Mismatch n).glb := by
  unfold State.sha3Mismatch; dsimp only; (repeat' split) <;> simp [h]

@[simp] theorem safe_sha3Slice (n : Nat) (pass : Bool) : safeAt k (s.sha3Slice n pass).glb := by
  unfold State.sha3Slice; dsimp only; split <;> simp [h]

/-! ### The Stay link -/

theorem safe_onShroud {act : State → State} (hact : ∀ q, safeAt k q.glb → safeAt k (act q).glb) (typ seq : Nat) (p : Bytes) :
    safeAt k (s.onShroud typ seq p act).glb := by
  unfold State.onShroud; dsimp only
  split
  · exact h
  · split
    · simpa using hact _ (by exact h)
    · simpa using h

theorem safe_onLDie {act : State → State} (hact : ∀ q, safeAt k q.glb → safeAt k (act q).glb) (typ seq : Nat) (p : Bytes) :
    safeAt k (s.onLDie typ seq p act).glb := by
  unfold State.onLDie; dsimp only
  split
  · exact h
  · split
    · simpa using hact _ (by exact h)
    · simpa using h

@[simp] theorem safe_takeFault (p : Bytes) : safeAt k (s.takeFault p).glb := by
  unfold State.takeFault; dsimp only; (repeat' split) <;> simp [h]

@[simp] theorem safe_channelDiscrepancy (shroud : Bool) (n : Nat) : safeAt k (s.channelDiscrepancy shroud n).glb := by
  unfold State.channelDiscrepancy; dsimp only; (repeat' split) <;> simp [h]

/-! ### Badger -/

@[simp] theorem safe_endSwap (t : Nat) : safeAt k (s.endSwap t).glb := by
  unfold State.endSwap; split <;> simp [h]

@[simp] theorem safe_calFail (t mac kind resid : Nat) : safeAt k (s.calFail t mac kind resid).glb := by
  unfold State.calFail; dsimp only; split <;> simp [h]

@[simp] theorem safe_calPass (t : Nat) : safeAt k (s.calPass t).glb := by
  unfold State.calPass; dsimp only; (repeat' split) <;> simp [h]

@[simp] theorem safe_tileSlice (t : Nat) (pass : Bool) : safeAt k (s.tileSlice t pass).glb := by
  unfold State.tileSlice; (repeat' split) <;> simp [h]

@[simp] theorem safe_driftActive (t : Nat) : safeAt k (s.driftActive t).glb := by
  unfold State.driftActive; dsimp only
  split
  · simp [h]
  · split <;> simp [h]

@[simp] theorem safe_driftFailure (t mac kind resid : Nat) : safeAt k (s.driftFailure t mac kind resid).glb := by
  unfold State.driftFailure; dsimp only; (repeat' split) <;> simp [h]

@[simp] theorem safe_refBlock (t mac : Nat) (ops : List RefOp) : safeAt k (s.refBlock t mac ops).glb := by
  unfold State.refBlock; dsimp only; (repeat' split) <;> simp [h]

/-! ### The control cores -/

@[simp] theorem safe_dissent (c kind ckpt fields pc : Nat) : safeAt k (s.dissent c kind ckpt fields pc).glb := by
  unfold State.dissent; dsimp only
  split
  · simp [h]
  · split
    · simp [h]
    · simp only [h.1, if_true]
      split <;> simp [h]
  · simp [h]

@[simp] theorem safe_oddOut (n : Nat) (d : Decision) : safeAt k (s.oddOut n d).glb := by
  unfold State.oddOut; split <;> simp [h]

@[simp] theorem safe_accepted (n : Nat) (d : Decision) : safeAt k (s.accepted n d).glb := by
  have h1 : ∀ o : Option Nat, safeAt k (o.elim s fun c => s.releaseBank n c).glb := by rintro (_ | c) <;> simp [h]
  unfold State.accepted; dsimp only
  split
  · refine safe_foldl _ (fun q c hq => ?_) _ _ (by simpa using h1 _)
    simp [hq]
  · simpa using h1 _

@[simp] theorem safe_react (n : Nat) (d : Decision) : safeAt k (s.react n d).glb := by
  unfold State.react; dsimp only
  split
  · split <;> simp [h]
  · simpa using safe_oddOut (safe_accepted (by simpa using h) _ _) _ _
  · simpa using safe_oddOut (by simpa using safe_accepted (by simpa using h) n d) n d
  · simp [h]
  · simp [h]

@[simp] theorem safe_vote (n : Nat) (a b : Option Nat) (banks : Bool) : safeAt k (s.vote n a b banks).glb := by
  unfold State.vote; simp [h]

@[simp] theorem safe_recordIn (c : Nat) (r : Bytes) (a b : Option Nat) (banks : Bool) : safeAt k (s.recordIn c r a b banks).glb := by
  unfold State.recordIn; (repeat' split) <;> simp [h]

@[simp] theorem safe_checkpoint (c : Nat) (counts : List Nat) (actions : List Action) (barrier : Bool) (given : Bytes) (a b : Option Nat)
    (banks : Bool) : safeAt k (s.checkpoint c counts actions barrier given a b banks).glb := by
  simp [State.checkpoint, h]

@[simp] theorem safe_voteTimeout (a b : Option Nat) (banks : Bool) : safeAt k (s.voteTimeout a b banks).glb := by
  unfold State.voteTimeout; (repeat' split) <;> simp [h]

@[simp] theorem safe_coreSlice (c : Nat) (pass : Bool) : safeAt k (s.coreSlice c pass).glb := by
  unfold State.coreSlice
  split
  · exact h
  · split
    · simp [h]
    · simp [h]

/-! ### The verdict unit -/

@[simp] theorem safe_laneEvent (ev : Nat) : safeAt k (s.laneEvent ev).glb := by simp [State.laneEvent, h.1, h]

@[simp] theorem safe_laneSlice (l : Nat) (pass : Bool) : safeAt k (s.laneSlice l pass).glb := by
  unfold State.laneSlice
  split
  · dsimp only; split <;> simp [h]
  · split <;> simp [h]
  · exact h

@[simp] theorem safe_issueAll (lanes : Nat) : safeAt k (s.issueAll lanes).glb := by
  simp [State.issueAll, glb_foldl, h]

/-! ### Slices -/

@[simp] theorem safe_bankSlice (b : Nat) (pass : Bool) (rows : Nat) : safeAt k (s.bankSlice b pass rows).glb := by
  unfold State.bankSlice; dsimp only; (repeat' split) <;> simp [h]

@[simp] theorem safe_cvuSlice (u : Nat) (pass : Bool) : safeAt k (s.cvuSlice u pass).glb := by simp [State.cvuSlice, h]

@[simp] theorem safe_sliceOutcome (e : Nat) (pass : Bool) (rows : Nat) : safeAt k (s.sliceOutcome e pass rows).glb := by
  unfold State.sliceOutcome; (repeat' split) <;> simp [h]

@[simp] theorem safe_sliceEnds (q sig : Nat) (pass : Bool) (rows : Nat) : safeAt k (s.sliceEnds q sig pass rows).glb := by
  unfold State.sliceEnds
  split
  · exact h
  · simp [h]

/-! ### Memory -/

@[simp] theorem safe_auxError (array unit line : Nat) (clean : Bool) : safeAt k (s.auxError array unit line clean).glb := by
  simp [State.auxError, h.1, h]

@[simp] theorem safe_ueReact (array unit line q : Nat) (d : Detect) (clean : Bool) :
    safeAt k (s.ueReact array unit line q d clean).glb := by
  unfold State.ueReact; dsimp only; (repeat' split) <;> simp [h]

@[simp] theorem safe_uncorrectableNew (array unit line channel : Nat) (address : Bool) (d : Detect) (clean : Bool) :
    safeAt k (s.uncorrectableNew array unit line channel address d clean).glb := by
  unfold State.uncorrectableNew; dsimp only; (repeat' split) <;> simp [h]

@[simp] theorem safe_uncorrectable (array unit line channel : Nat) (address : Bool) (d : Detect) (clean : Bool) :
    safeAt k (s.uncorrectable array unit line channel address d clean).glb := by
  simp [State.uncorrectable, h]

@[simp] theorem safe_lineRead (array unit line channel : Nat) (stored : Bytes) (d : Detect) (clean : Bool) :
    safeAt k (s.lineRead array unit line channel stored d clean).glb := by
  unfold State.lineRead; dsimp only; split <;> simp [h]

/-! ### Commits -/

theorem safe_onOpcode {mine : Nat → Bytes → Bool} {owner : State → Taken → Bool} {act : State → Taken → State}
    (hact : ∀ q t, safeAt k q.glb → safeAt k (act q t).glb) : safeAt k (s.onOpcode mine owner act).glb := by
  unfold State.onOpcode; dsimp only
  split
  · exact h
  · (repeat' split) <;> simp [h, hact]

@[simp] theorem safe_selectMaintenance : s.selectMaintenance = s := by simp [State.selectMaintenance, acting_safe h]

@[simp] theorem safe_commitMode (o : LongOp) : safeAt k (s.commitMode o).glb := by
  unfold State.commitMode
  simp [safe_selectMaintenance h, acting_safe h, h]

@[simp] theorem safe_commitStart (o : LongOp) : safeAt k (s.commitStart o).glb := by
  unfold State.commitStart; dsimp only; (repeat' split) <;> simp [h]

@[simp] theorem safe_commitModeOf (o : LongOp) : s.commitModeOf o = s := by
  simp [State.commitModeOf, safe_selectMaintenance h, acting_safe h]

@[simp] theorem safe_commitEnds (o : LongOp) (gen code : Nat) : safeAt k (s.commitEnds o gen code).glb := by
  simp [State.commitEnds, acting_safe h, h]

@[simp] theorem safe_commitConfig (o : LongOp) (st : Staged) : safeAt k (s.commitConfig o st).glb := by
  have h1 : safeAt k (s.writeCommit o st).glb := by simpa using h
  unfold State.commitConfig
  refine safe_commitEnds ?_ _ _ _
  rw [safe_selectMaintenance h1, ite_self, glb_schedule]
  exact h1

@[simp] theorem safe_commitFirmware (o : LongOp) (st : Staged) : safeAt k (s.commitFirmware o st).glb := by
  unfold State.commitFirmware; dsimp only
  rw [safe_commitModeOf (k := k) (by simpa using h)]
  split <;> simp [h]

@[simp] theorem safe_commitKey (o : LongOp) (st : Staged) : safeAt k (s.commitKey o st).glb := by
  have hmode : ∀ q : State, safeAt k q.glb → safeAt k (o.committed (q.commitModeOf o) 4 0 7 0).glb := fun q hq => by
    simpa [safe_commitModeOf hq] using hq
  exact hmode _ (by simp [h])

@[simp] theorem safe_commitDone (o : LongOp) (ok : Bool) : safeAt k (s.commitDone o ok).glb := by
  unfold State.commitDone; dsimp only; (repeat' split) <;> simp [h]

/-! ### Frame and time base -/

@[simp] theorem safe_atDv (lanes : Nat) : safeAt k (s.atDv lanes).glb := safe_issueAll (by simp [glb_foldl, h]) _

@[simp] theorem safe_fireEdge (e lanes : Nat) : safeAt k (s.fireEdge e lanes).glb := by
  unfold State.fireEdge; dsimp only; split <;> simp [h]

@[simp] theorem safe_fire (x : Firing) : safeAt k (s.fire x).glb := by
  unfold State.fire; dsimp only; split <;> simp [h]

end

theorem safe_edgesBefore {k : Nat} (t n : Nat) {s : State} (h : safeAt k s.glb) : safeAt k (s.edgesBefore t n).glb := by
  induction n generalizing s with
  | zero => exact h
  | succ n ih =>
    unfold State.edgesBefore
    split
    · split
      · exact ih (safe_fireEdge h _ _)
      · exact h
    · exact h

theorem safe_fireDue {k : Nat} (n : Nat) {s : State} (h : safeAt k s.glb) : safeAt k (State.fireDue n s).glb := by
  induction n generalizing s with
  | zero => exact h
  | succ n ih =>
    unfold State.fireDue
    split
    · exact h
    · exact ih (safe_fire (by exact h) _)

section
variable {k : Nat} {s : State} (h : safeAt k s.glb)
include h

@[simp] theorem safe_edgeCommand (e lanes : Nat) : safeAt k (s.edgeCommand e lanes).glb := by
  unfold State.edgeCommand
  split
  · exact safe_fireEdge (safe_edgesBefore _ _ h) _ _
  · exact h

@[simp] theorem safe_stepTime (m : Int) : safeAt k (s.stepTime m).glb := by
  unfold State.stepTime; dsimp only
  split
  · split
    · exact safe_fireDue 64 (by simpa using h)
    · rw [glb_markStepped]
      exact safe_fireDue 64 (by simpa using h)
  · simpa using h

@[simp] theorem safe_lockedSample (e : Int) (tau : Nat) : safeAt k (s.lockedSample e tau).glb := by
  unfold State.lockedSample; dsimp only; (repeat' split) <;> simp [h]

@[simp] theorem safe_acquireSample (e : Int) : safeAt k (s.acquireSample e).glb := by
  unfold State.acquireSample; dsimp only; (repeat' split) <;> simp [h]

@[simp] theorem safe_takeSample (e : Int) : safeAt k (s.takeSample e).glb := by
  unfold State.takeSample; dsimp only
  simp only [State.modTmb_fields]
  split
  · simp [h]
  · simp [h]
  · split <;> simp [h]
  · simp [h]

@[simp] theorem safe_sync (m domNs : Nat) : safeAt k (s.sync m domNs).glb := by
  unfold State.sync; dsimp only; (repeat' split) <;> simp [h]

@[simp] theorem safe_ppsAcquire (t : Nat) (first : Bool) : safeAt k (s.ppsAcquire t first).glb := by
  unfold State.ppsAcquire; dsimp only; (repeat' split) <;> simp [h]

@[simp] theorem safe_ppsEdge : safeAt k s.ppsEdge.glb := by
  unfold State.ppsEdge; dsimp only; (repeat' split) <;> simp [h]

/-! ### Release of steps -/

@[simp] theorem safe_startFirmware : safeAt k s.startFirmware.glb := by
  unfold State.startFirmware; dsimp only; (repeat' split) <;> simp [h]

@[simp] theorem safe_checkTable : safeAt k s.checkTable.glb := by
  unfold State.checkTable; dsimp only; split <;> simp [h]

@[simp] theorem safe_stepStarts (n : Nat) : safeAt k (s.stepStarts n).glb := by
  unfold State.stepStarts
  split
  · simp [h]
  · simp [h]
  · simp [h]
  · exact safe_checkTable (safe_startFirmware (by simpa using h))
  · exact h
  · exact h

@[simp] theorem safe_releaseStep (n : Nat) : safeAt k (s.releaseStep n).glb := safe_stepStarts (by exact h) _

/-! ### Watches -/

@[simp] theorem safe_accept (o : Opening) : safeAt k (o.accept s).glb := by
  unfold Opening.accept; dsimp only
  rw [Opening.glb_finish]
  exact safe_unless (by split <;> simp [glb_foldl, h]) fun ha => by rw [ha]; decide

@[simp] theorem safe_judge (o : Opening) (b : Bytes) : safeAt k (o.judge s b).glb := by
  unfold Opening.judge; dsimp only; (repeat' split) <;> simp [h]

@[simp] theorem safe_ackBind (p : Bytes) : safeAt k (s.ackBind p).glb := by
  unfold State.ackBind; (repeat' split) <;> simp [h]

@[simp] theorem safe_ackCfg (p : Bytes) : safeAt k (s.ackCfg p).glb := by
  unfold State.ackCfg; dsimp only; (repeat' split) <;> simp [h]

@[simp] theorem safe_closeCtx (c : Nat) : safeAt k (s.closeCtx c).glb := by
  unfold State.closeCtx; dsimp only
  exact safe_unless (by split <;> simp [glb_foldl, h]) fun ha => by rw [ha.2]; decide

@[simp] theorem safe_readTemp (n temp : Nat) : safeAt k (s.readTemp n temp).glb := by
  unfold State.readTemp; dsimp only; (repeat' split) <;> simp [h]

/-! ### Long operations -/

@[simp] theorem safe_startWork (o : LongOp) : safeAt k (s.startWork o).glb := by
  unfold State.startWork; (repeat' split) <;> simp [h]

@[simp] theorem safe_startNext (fn : Nat) : safeAt k (s.startNext fn).glb := by
  unfold State.startNext; dsimp only; (repeat' split) <;> simp [h]

theorem safe_beginLong {mine : Nat → Bytes → Bool} {owner : State → Taken → Bool} {act : State → Taken → State}
    (hact : ∀ q t, (act q t).glb = q.glb) : safeAt k (s.beginLong mine owner act).glb :=
  safe_onOpcode h fun q t hq => safe_startNext (by rwa [hact]) _

theorem safe_endLong {fn op : Nat} {act : State → LongOp → State} (hact : ∀ q o, safeAt k q.glb → safeAt k (act q o).glb) :
    safeAt k (s.endLong fn op act).glb := by
  unfold State.endLong
  split
  · exact hact _ _ h
  · exact h

theorem safe_endFetch {fn op : Nat} {ok : Bool} {image : Bytes} {act : State → LongOp → State}
    (hact : ∀ q o, (act q o).glb = q.glb) : safeAt k (s.endFetch fn op ok image act).glb :=
  safe_endLong h fun q o hq => by (repeat' split) <;> simp [hact, hq]

/-! ### Tack -/

theorem safe_tack {tag : Nat} {run : State → State × TackAns} (hrun : safeAt k (run s).1.glb) : safeAt k (s.tack tag run).glb := by
  unfold State.tack; dsimp only; (repeat' split) <;> simp [h, hrun]

theorem safe_tackCmd {tag : Nat} {r : AccessRow} {op : Bool} {run : State → State × TackAns} (hrun : safeAt k (run s).1.glb) :
    safeAt k (s.tackCmd tag r op run).glb :=
  safe_tack h (by dsimp only; split <;> assumption)

theorem safe_tackTarget {tag target : Nat} {run : State → State} (hrun : safeAt k (run s).glb) :
    safeAt k (s.tackTarget tag target run).glb :=
  safe_tackCmd h (by dsimp only; split <;> assumption)

theorem safe_tackAccess {tag space addr : Nat} {done : Bool} {run : State → State × TackAns} (hrun : safeAt k (run s).1.glb) :
    safeAt k (s.tackAccess tag space addr done run).1.glb := by
  unfold State.tackAccess; dsimp only; (repeat' split) <;> simp [h, hrun]

@[simp] theorem safe_tackUe (t line : Nat) : safeAt k (s.tackUe t line).glb := by simp [State.tackUe, h]

@[simp] theorem safe_tackRead (space addr : Nat) : safeAt k (s.tackRead space addr).1.glb := by
  unfold State.tackRead; dsimp only; (repeat' split) <;> simp [h]

@[simp] theorem safe_tackWrite (space addr data : Nat) : safeAt k (s.tackWrite space addr data).1.glb := by
  unfold State.tackWrite; dsimp only; (repeat' split) <;> simp [h]

end

end Sys2Proof.Machine
end

section
/-! The commands that keep SAFE and its cause: `safe_exec<Command>` says it of one command, file by file. -/

namespace Sys2Proof.Machine

/-- A command leaves SAFE and its cause as they are. -/
def staysSafe (k : Nat) : Host.Outcome State Fault Refusal → Prop
  | .next t => safeAt k t.glb
  | _ => True

@[simp] theorem staysSafe_next (k : Nat) (t : State) : staysSafe k (.next t) ↔ safeAt k t.glb := Iff.rfl

section
variable {k : Nat} {s : State} (h : safeAt k s.glb)
include h

/-! ### Reset -/

@[simp] theorem safe_execHold (dt j cond : Nat) : staysSafe k (execHold dt j cond s) := by simp [execHold, h]
@[simp] theorem safe_execDomainPowerGoodTimeout (dt d : Nat) : staysSafe k (execDomainPowerGoodTimeout dt d s) := by
  simp [execDomainPowerGoodTimeout, h]
@[simp] theorem safe_execThermalTripHoldEnd (dt : Nat) : staysSafe k (execThermalTripHoldEnd dt s) := by
  simp [execThermalTripHoldEnd, h]

/-! ### ShroudLink -/

@[simp] theorem safe_execPchFunc (dt seq : Nat) : staysSafe k (execPchFunc dt seq s) :=
  safe_onShroud (s := s.advance dt) h (fun q hq => by simp [hq]) ..
@[simp] theorem safe_execPchOut (dt seq : Nat) : staysSafe k (execPchOut dt seq s) :=
  safe_onShroud (s := s.advance dt) h (fun q hq => by simp [hq]) ..
@[simp] theorem safe_execHeartbeat (dt seq : Nat) (payload : Bytes) : staysSafe k (execHeartbeat dt seq payload s) :=
  safe_onShroud (s := s.advance dt) h (fun q hq => by simp [hq]) ..
@[simp] theorem safe_execBind (dt seq : Nat) (payload : Bytes) : staysSafe k (execBind dt seq payload s) :=
  safe_onShroud (s := s.advance dt) h (fun q hq => by simp [hq]) ..
@[simp] theorem safe_execUnbind (dt seq : Nat) (payload : Bytes) : staysSafe k (execUnbind dt seq payload s) :=
  safe_onShroud (s := s.advance dt) h (fun q hq => by simp [hq]) ..
@[simp] theorem safe_execStayState (dt seq : Nat) (payload : Bytes) : staysSafe k (execStayState dt seq payload s) :=
  safe_onShroud (s := s.advance dt) h (fun q hq => by simp [hq]) ..
@[simp] theorem safe_execStaySafe (dt seq : Nat) (payload : Bytes) : staysSafe k (execStaySafe dt seq payload s) :=
  safe_onShroud (s := s.advance dt) h (fun q hq => by simp [hq]) ..
@[simp] theorem safe_execCfg (dt seq : Nat) (payload : Bytes) : staysSafe k (execCfg dt seq payload s) :=
  safe_onShroud (s := s.advance dt) h (fun q hq => by simp [hq]) ..
@[simp] theorem safe_execNak (dt : Nat) (atShroud : Bool) (seq : Nat) (payload : Bytes) :
    staysSafe k (execNak dt atShroud seq payload s) := by
  have hadv : safeAt k (s.advance dt).glb := h
  unfold execNak; dsimp only
  rw [staysSafe_next]
  split
  · exact safe_onShroud hadv (fun q hq => by rwa [glb_foldl _ fun _ _ => by simp]) ..
  · exact safe_onLDie hadv (fun q hq => by rwa [glb_foldl _ fun _ _ => by simp]) ..
@[simp] theorem safe_execIdle (dt : Nat) (atShroud : Bool) (seq : Nat) (payload : Bytes) :
    staysSafe k (execIdle dt atShroud seq payload s) := by
  cases atShroud
  · exact safe_onLDie (s := s.advance dt) h (fun q hq => hq) ..
  · exact safe_onShroud (s := s.advance dt) h (fun q hq => hq) ..
@[simp] theorem safe_execStayFrameReject (dt : Nat) (atShroud : Bool) (typ : Nat) (payload lane0 lane1 : Bytes) :
    staysSafe k (execStayFrameReject dt atShroud typ payload lane0 lane1 s) := by
  simp [execStayFrameReject, h]
@[simp] theorem safe_execInputs (dt seq raw : Nat) : staysSafe k (execInputs dt seq raw s) := by
  have hadv : safeAt k (s.advance dt).glb := h
  unfold execInputs; dsimp only
  rw [staysSafe_next]
  exact safe_onLDie (by exact hadv) (fun q hq => by simp [hq]) ..
@[simp] theorem safe_execHch (dt seq : Nat) : staysSafe k (execHch dt seq s) :=
  safe_onLDie (s := s.advance dt) h (fun q hq => by simp [hq]) ..
@[simp] theorem safe_execOutputs (dt seq : Nat) : staysSafe k (execOutputs dt seq s) :=
  safe_onLDie (s := s.advance dt) h (fun q hq => by simp [hq]) ..
@[simp] theorem safe_execStayFault (dt seq : Nat) (payload : Bytes) : staysSafe k (execStayFault dt seq payload s) :=
  safe_onLDie (s := s.advance dt) h (fun q hq => by simp [hq]) ..
@[simp] theorem safe_execStayLinkLossLDie (dt : Nat) : staysSafe k (execStayLinkLossLDie dt s) := by simp [execStayLinkLossLDie, h]

/-! ### ShroudEvents -/

@[simp] theorem safe_execFilteredInputChange (dt i : Nat) : staysSafe k (execFilteredInputChange dt i s) := by
  simp [execFilteredInputChange, h]
@[simp] theorem safe_execTestPulseStart (dt j : Nat) : staysSafe k (execTestPulseStart dt j s) := by simp [execTestPulseStart, h]
@[simp] theorem safe_execTestPulseEnd (dt j before late : Nat) : staysSafe k (execTestPulseEnd dt j before late s) := by
  simp [execTestPulseEnd, h]
@[simp] theorem safe_execDiscrepancyTimeout (dt : Nat) (pch : Bool) (n : Nat) : staysSafe k (execDiscrepancyTimeout dt pch n s) := by
  simp [execDiscrepancyTimeout, h]
@[simp] theorem safe_execTwohandTimeout (dt : Nat) (pch : Bool) (n : Nat) : staysSafe k (execTwohandTimeout dt pch n s) := by
  simp [execTwohandTimeout, h]
@[simp] theorem safe_execChannelDiscrepancy (dt : Nat) (shroud : Bool) (n : Nat) :
    staysSafe k (execChannelDiscrepancy dt shroud n s) := by
  simp [execChannelDiscrepancy, h]
@[simp] theorem safe_execEdmChange (dt o : Nat) : staysSafe k (execEdmChange dt o s) := by simp [execEdmChange, h]
@[simp] theorem safe_execEdmMsExpiry (dt o : Nat) : staysSafe k (execEdmMsExpiry dt o s) := by simp [execEdmMsExpiry, h]
@[simp] theorem safe_execMinOffExpiry (dt : Nat) (prv : Bool) (i : Nat) : staysSafe k (execMinOffExpiry dt prv i s) := by
  simp [execMinOffExpiry, h]
@[simp] theorem safe_execSenseChange (dt p : Nat) (high : Bool) : staysSafe k (execSenseChange dt p high s) := by
  simp [execSenseChange, h]
@[simp] theorem safe_execSenseUsExpiry (dt p : Nat) : staysSafe k (execSenseUsExpiry dt p s) := by simp [execSenseUsExpiry, h]
@[simp] theorem safe_execHsCommandTimeout (dt p : Nat) : staysSafe k (execHsCommandTimeout dt p s) := by simp [execHsCommandTimeout, h]
@[simp] theorem safe_execHeartbeatLapse (dt n : Nat) : staysSafe k (execHeartbeatLapse dt n s) := by simp [execHeartbeatLapse, h]

/-! ### Plibex -/

@[simp] theorem safe_execPlibexRx (dt : Nat) (d : Datagram) (ago : Nat) : staysSafe k (execPlibexRx dt d ago s) := by
  simp [execPlibexRx, h]
@[simp] theorem safe_execRxWatchdogExpiry (dt i : Nat) : staysSafe k (execRxWatchdogExpiry dt i s) := by simp [execRxWatchdogExpiry, h]
@[simp] theorem safe_execTxPeriod (dt i : Nat) : staysSafe k (execTxPeriod dt i s) := by
  unfold execTxPeriod; dsimp only; (repeat' split) <;> simp [h]
@[simp] theorem safe_execFuncStateSend (dt i : Nat) : staysSafe k (execFuncStateSend dt i s) := by simp [execFuncStateSend, h]
@[simp] theorem safe_execSafeStateRepeat (dt i : Nat) : staysSafe k (execSafeStateRepeat dt i s) := by simp [execSafeStateRepeat, h]
@[simp] theorem safe_execLink (dt m : Nat) (up : Bool) (speed : Nat) : staysSafe k (execLink dt m up speed s) := by simp [execLink, h]
@[simp] theorem safe_execPreempt (dt m status : Nat) : staysSafe k (execPreempt dt m status s) := by simp [execPreempt, h]

/-! ### Badger -/

@[simp] theorem safe_execCsiFrameStart (dt r vc ecc : Nat) (line : Bool) (lk : CsiLink) :
    staysSafe k (execCsiFrameStart dt r vc ecc line lk s) := by
  unfold execCsiFrameStart; dsimp only; (repeat' split) <;> simp [h]
@[simp] theorem safe_execCsiLongPacket (dt r vc ecc ty : Nat) (payload : Bytes) (crc : Nat) (lk : CsiLink) :
    staysSafe k (execCsiLongPacket dt r vc ecc ty payload crc lk s) := by
  unfold execCsiLongPacket; dsimp only; (repeat' split) <;> simp [h]
@[simp] theorem safe_execCsiFrameEnd (dt r vc ecc : Nat) (line : Bool) (lk : CsiLink) :
    staysSafe k (execCsiFrameEnd dt r vc ecc line lk s) := by
  unfold execCsiFrameEnd; dsimp only; (repeat' split) <;> simp [h]
@[simp] theorem safe_execLidarDatagram (dt : Nat) (d : Datagram) (ago : Nat) : staysSafe k (execLidarDatagram dt d ago s) := by
  unfold execLidarDatagram; dsimp only; (repeat' split) <;> simp [h]
@[simp] theorem safe_execShadowPassStart (dt m : Nat) : staysSafe k (execShadowPassStart dt m s) := by simp [execShadowPassStart, h]
@[simp] theorem safe_execShadowPassDone (dt m : Nat) : staysSafe k (execShadowPassDone dt m s) := by simp [execShadowPassDone, h]
@[simp] theorem safe_execModelProgrammed (dt m : Nat) : staysSafe k (execModelProgrammed dt m s) := by simp [execModelProgrammed, h]
@[simp] theorem safe_execDriftFailure (dt t mac : Nat) (ops : List RefOp) : staysSafe k (execDriftFailure dt t mac ops s) := by
  simp [execDriftFailure, h]
@[simp] theorem safe_execReferenceOperations (dt t mac : Nat) (ops : List RefOp) :
    staysSafe k (execReferenceOperations dt t mac ops s) := by
  simp [execReferenceOperations, h]
@[simp] theorem safe_execCalibrationMeasured (dt t mac resid gain off : Nat) (coefs : Coefs) :
    staysSafe k (execCalibrationMeasured dt t mac resid gain off coefs s) := by
  unfold execCalibrationMeasured; dsimp only; split <;> simp [h]
@[simp] theorem safe_execTileReady (dt t : Nat) (ok : Bool) (mac : Nat) : staysSafe k (execTileReady dt t ok mac s) := by
  unfold execTileReady; dsimp only; split <;> simp [h]
@[simp] theorem safe_execStartupCalibrationDone (dt mask : Nat) (resids : List Nat) (coefs : List Coefs) :
    staysSafe k (execStartupCalibrationDone dt mask resids coefs s) := by
  simp [execStartupCalibrationDone, h]
@[simp] theorem safe_execDieLinkNeedsRetraining (dt : Nat) : staysSafe k (execDieLinkNeedsRetraining dt s) := by
  simp [execDieLinkNeedsRetraining, h]
@[simp] theorem safe_execDieLinkRetrain (dt : Nat) : staysSafe k (execDieLinkRetrain dt s) := by
  unfold execDieLinkRetrain; dsimp only; (repeat' split) <;> simp [h]
@[simp] theorem safe_execDieLinkRetrainTimeout (dt : Nat) : staysSafe k (execDieLinkRetrainTimeout dt s) := by
  unfold execDieLinkRetrainTimeout; dsimp only; split <;> simp [h]

/-! ### Cores -/

@[simp] theorem safe_execLedgerRequest (dt c : Nat) (counts : List Nat) (kind len source addr : Nat) (value : Bytes) (bad : Bool) :
    staysSafe k (execLedgerRequest dt c counts kind len source addr value bad s) := by
  simp [execLedgerRequest, h]
@[simp] theorem safe_execCheckpoint (dt c : Nat) (counts : List Nat) (actions : List Sys2Proof.Action) (barrier : Bool)
    (given : Bytes) (a b : Option Nat) (banks : Bool) :
    staysSafe k (execCheckpoint dt c counts actions barrier given a b banks s) := by
  simp [execCheckpoint, h]
@[simp] theorem safe_execVoteTimeout (dt : Nat) (a b : Option Nat) (banks : Bool) : staysSafe k (execVoteTimeout dt a b banks s) := by
  simp [execVoteTimeout, h]
@[simp] theorem safe_execResyncCopyDone (dt : Nat) : staysSafe k (execResyncCopyDone dt s) := by simp [execResyncCopyDone, h]
@[simp] theorem safe_execTdegExpiry (dt : Nat) : staysSafe k (execTdegExpiry dt s) := by simp [execTdegExpiry, h]
@[simp] theorem safe_execInjectionTest (dt passed first us : Nat) : staysSafe k (execInjectionTest dt passed first us s) := by
  simp [execInjectionTest, h.1, h]

/-! ### VerdictUnit -/

@[simp] theorem safe_execComparisonStart (dt c : Nat) : staysSafe k (execComparisonStart dt c s) := by simp [execComparisonStart, h]
@[simp] theorem safe_execComparisonDone (dt : Nat) : staysSafe k (execComparisonDone dt s) := by
  unfold execComparisonDone; dsimp only; split <;> simp [h]
@[simp] theorem safe_execAgeMonitor (dt : Nat) : staysSafe k (execAgeMonitor dt s) := by simp [execAgeMonitor, glb_foldl, h]
@[simp] theorem safe_execTrustHeartbeat (dt : Nat) : staysSafe k (execTrustHeartbeat dt s) := by
  unfold execTrustHeartbeat; dsimp only; (repeat' split) <;> simp [h, glb_foldl]

/-! ### SelfTest -/

@[simp] theorem safe_execSliceDone (dt q sig rows : Nat) : staysSafe k (execSliceDone dt q sig rows s) := by
  unfold execSliceDone; dsimp only; split <;> simp [h]
@[simp] theorem safe_execSliceTimeout (dt q : Nat) : staysSafe k (execSliceTimeout dt q s) := by
  unfold execSliceTimeout; dsimp only; split <;> simp [h]
@[simp] theorem safe_execRotation (dt : Nat) : staysSafe k (execRotation dt s) := by unfold execRotation; dsimp only; split <;> simp [h]

/-! ### Protect -/

@[simp] theorem safe_execCorrected (dt array unit line channel : Nat) (stored : Bytes) (scrub : Bool) :
    staysSafe k (execCorrected dt array unit line channel stored scrub s) := by
  simp [execCorrected, h]
@[simp] theorem safe_execUncorrectable (dt array unit line channel : Nat) (stored : Bytes) (use a b : Nat) (clean : Bool) :
    staysSafe k (execUncorrectable dt array unit line channel stored use a b clean s) := by
  simp [execUncorrectable, h]
@[simp] theorem safe_execEdc (dt ch line lines n : Nat) (write clean : Bool) : staysSafe k (execEdc dt ch line lines n write clean s) := by
  unfold execEdc; dsimp only
  split
  · split
    · exact safe_foldl _ (fun q x hq => safe_uncorrectable hq ..) _ _ (by simp [h])
    · simp [h]
  · exact h
@[simp] theorem safe_execScrubLate (dt array ms : Nat) : staysSafe k (execScrubLate dt array ms s) := by simp [execScrubLate, h]
@[simp] theorem safe_execNocDenied (dt p target initiator : Nat) (write : Bool) (address len : Nat) :
    staysSafe k (execNocDenied dt p target initiator write address len s) := by
  simp [execNocDenied, h]
@[simp] theorem safe_execBwShort (dt p target : Nat) : staysSafe k (execBwShort dt p target s) := by simp [execBwShort, h]

/-! ### Rings -/

@[simp] theorem safe_execRingEnable (dt fn v : Nat) : staysSafe k (execRingEnable dt fn v s) := by simp [execRingEnable, h]
@[simp] theorem safe_execRingDisable (dt fn v : Nat) : staysSafe k (execRingDisable dt fn v s) := by simp [execRingDisable, h]
@[simp] theorem safe_execDoorbell (dt fn off : Nat) (data : Bytes) : staysSafe k (execDoorbell dt fn off data s) := by
  simp [execDoorbell, h]
@[simp] theorem safe_execDescriptorFetch (dt fn r : Nat) (bytes : Bytes) (ok : Bool) :
    staysSafe k (execDescriptorFetch dt fn r bytes ok s) := by
  simp [execDescriptorFetch, h]
@[simp] theorem safe_execBusMasterEnable (dt fn : Nat) (on msixOn msixMask : Bool) (mps mrrs : Nat) :
    staysSafe k (execBusMasterEnable dt fn on msixOn msixMask mps mrrs s) := by
  unfold execBusMasterEnable; dsimp only; (repeat' split) <;> simp [h, glb_foldl]
@[simp] theorem safe_execIrqModerationTimeout (dt fn r : Nat) : staysSafe k (execIrqModerationTimeout dt fn r s) := by
  simp [execIrqModerationTimeout, h]
@[simp] theorem safe_execHeldRecordWrite (dt fn r : Nat) : staysSafe k (execHeldRecordWrite dt fn r s) := by
  simp [execHeldRecordWrite, h]
@[simp] theorem safe_execLostNotice (dt fn r : Nat) : staysSafe k (execLostNotice dt fn r s) := by simp [execLostNotice, h]
@[simp] theorem safe_execRingGap (dt fn r : Nat) : staysSafe k (execRingGap dt fn r s) := by simp [execRingGap, h]
@[simp] theorem safe_execFunctionReset (dt fn kind speed width : Nat) : staysSafe k (execFunctionReset dt fn kind speed width s) := by
  simp [execFunctionReset, h]

/-! ### Staging -/

@[simp] theorem safe_execPlanSwitch (dt : Nat) : staysSafe k (execPlanSwitch dt s) :=
  safe_onOpcode (s := s.advance dt) h fun q t hq => by simp [hq]
@[simp] theorem safe_execModelSwitch (dt : Nat) : staysSafe k (execModelSwitch dt s) :=
  safe_onOpcode (s := s.advance dt) h fun q t hq => by simp [hq]
@[simp] theorem safe_execGoldenSchedule (dt : Nat) : staysSafe k (execGoldenSchedule dt s) :=
  safe_onOpcode (s := s.advance dt) h fun q t hq => by simp [hq]

/-! ### Frame -/

@[simp] theorem safe_execFrameTick (dt : Nat) : staysSafe k (execFrameTick dt s) := by
  have hedges : ∀ n, safeAt k ((s.advance dt).edgesBefore n 10).glb := fun n => safe_edgesBefore n _ (by simp [h])
  simp only [execFrameTick, staysSafe_next, glb_ite, glb_frameTick, glb_activateDue, ite_self]
  split
  · exact hedges _
  · simp [h]
@[simp] theorem safe_execDC (dt : Nat) : staysSafe k (execDC dt s) := by simp [execDC, h]
@[simp] theorem safe_execDV (dt lanes : Nat) : staysSafe k (execDV dt lanes s) := by simp [execDV, h]
@[simp] theorem safe_execIngEnd (dt : Nat) : staysSafe k (execIngEnd dt s) := by simp [execIngEnd, h]
@[simp] theorem safe_execShdStart (dt : Nat) : staysSafe k (execShdStart dt s) := by simp [execShdStart, h]
@[simp] theorem safe_execShdEnd (dt : Nat) : staysSafe k (execShdEnd dt s) := by simp [execShdEnd, h]
@[simp] theorem safe_execGldStart (dt : Nat) : staysSafe k (execGldStart dt s) := by simp [execGldStart, h]
@[simp] theorem safe_execGldEnd (dt : Nat) : staysSafe k (execGldEnd dt s) := by simp [execGldEnd, h]
@[simp] theorem safe_execSlfStart (dt : Nat) : staysSafe k (execSlfStart dt s) := by simp [execSlfStart, h]
@[simp] theorem safe_execSlfEnd (dt : Nat) : staysSafe k (execSlfEnd dt s) := by simp [execSlfEnd, h]
@[simp] theorem safe_execCloseOut (dt : Nat) : staysSafe k (execCloseOut dt s) := by simp [execCloseOut, h]
@[simp] theorem safe_execConfigActivate (dt : Nat) : staysSafe k (execConfigActivate dt s) := by simp [execConfigActivate, h]

/-! ### TimeBase -/

@[simp] theorem safe_execSync (dt m domNs : Nat) : staysSafe k (execSync dt m domNs s) := by simp [execSync, h]
@[simp] theorem safe_execPpsInEdge (dt : Nat) : staysSafe k (execPpsInEdge dt s) := by simp [execPpsInEdge, h]
@[simp] theorem safe_execSyncTimeout (dt : Nat) : staysSafe k (execSyncTimeout dt s) := by simp [execSyncTimeout, h]
@[simp] theorem safe_execHoldoverExpiry (dt : Nat) : staysSafe k (execHoldoverExpiry dt s) := by simp [execHoldoverExpiry, h]
@[simp] theorem safe_execGmChange (dt m gm : Nat) : staysSafe k (execGmChange dt m gm s) := by simp [execGmChange, h]
@[simp] theorem safe_execPulseArm (dt fn p v : Nat) : staysSafe k (execPulseArm dt fn p v s) := by simp [execPulseArm, h]
@[simp] theorem safe_execPulseDisarm (dt fn p v : Nat) : staysSafe k (execPulseDisarm dt fn p v s) := by simp [execPulseDisarm, h]
@[simp] theorem safe_execPulseFire (dt p : Nat) : staysSafe k (execPulseFire dt p s) := by simp [execPulseFire, h]
@[simp] theorem safe_execPulseEnd (dt p : Nat) : staysSafe k (execPulseEnd dt p s) := by simp [execPulseEnd, h]

/-! ### Boot -/

@[simp] theorem safe_execDomainRelease (dt j : Nat) (pins : ResetPins) (good : List Nat) :
    staysSafe k (execDomainRelease dt j pins good s) := by
  simp [execDomainRelease, h]
@[simp] theorem safe_execBootComplete (dt : Nat) : staysSafe k (execBootComplete dt s) := by
  unfold execBootComplete; dsimp only
  exact safe_unless (s := s.advance dt) h fun hboot ha => by simp [State.mayBoot, ha] at hboot
@[simp] theorem safe_execReturnWipe (dt : Nat) : staysSafe k (execReturnWipe dt s) := by simp [execReturnWipe, h]

/-! ### Owl -/

@[simp] theorem safe_execOwlSetup (dt i v : Nat) : staysSafe k (execOwlSetup dt i v s) := by simp [execOwlSetup, h]
@[simp] theorem safe_execOwlServiceWrite (dt i v : Nat) : staysSafe k (execOwlServiceWrite dt i v s) := by simp [execOwlServiceWrite, h]
@[simp] theorem safe_execOwlCheckIn (dt i v : Nat) : staysSafe k (execOwlCheckIn dt i v s) := by simp [execOwlCheckIn, h]
@[simp] theorem safe_execOwlWindowOpen (dt i : Nat) : staysSafe k (execOwlWindowOpen dt i s) := by simp [execOwlWindowOpen, h]
@[simp] theorem safe_execOwlPeriodStart (dt i : Nat) : staysSafe k (execOwlPeriodStart dt i s) := by simp [execOwlPeriodStart, h]
@[simp] theorem safe_execOwlExpiry (dt i : Nat) : staysSafe k (execOwlExpiry dt i s) := by simp [execOwlExpiry, h]
@[simp] theorem safe_execOwlSuspend (dt : Nat) : staysSafe k (execOwlSuspend dt s) := by simp [execOwlSuspend, h]
@[simp] theorem safe_execOwlResume (dt : Nat) : staysSafe k (execOwlResume dt s) := by simp [execOwlResume, h]
@[simp] theorem safe_execFlashOperationTimeout (dt : Nat) : staysSafe k (execFlashOperationTimeout dt s) := by
  unfold execFlashOperationTimeout; dsimp only; split <;> simp [h]

/-! ### Watch -/

@[simp] theorem safe_execNop (dt : Nat) : staysSafe k (execNop dt s) := safe_onOpcode (s := s.advance dt) h fun q t hq => by simp [hq]
@[simp] theorem safe_execWatchOpen (dt : Nat) : staysSafe k (execWatchOpen dt s) :=
  safe_onOpcode (s := s.advance dt) h fun q t hq => by (repeat' split) <;> simp [hq]
@[simp] theorem safe_execWatchParameterBlockRead (dt fn r : Nat) (bytes : Bytes) (ok : Bool) :
    staysSafe k (execWatchParameterBlockRead dt fn r bytes ok s) := by
  unfold execWatchParameterBlockRead; dsimp only; (repeat' split) <;> simp [h]
@[simp] theorem safe_execAck (dt seq : Nat) (payload : Bytes) : staysSafe k (execAck dt seq payload s) :=
  safe_onLDie (s := s.advance dt) h (fun q hq => by (repeat' split) <;> simp [hq]) ..
@[simp] theorem safe_execWatchClose (dt : Nat) : staysSafe k (execWatchClose dt s) :=
  safe_onOpcode (s := s.advance dt) h fun q t hq => by (repeat' split) <;> simp [hq]
@[simp] theorem safe_execWatchClear (dt : Nat) : staysSafe k (execWatchClear dt s) :=
  safe_onOpcode (s := s.advance dt) h fun q t hq => by (repeat' split) <;> simp [hq]
@[simp] theorem safe_execFrameAnnounce (dt : Nat) : staysSafe k (execFrameAnnounce dt s) :=
  safe_onOpcode (s := s.advance dt) h fun q t hq => by dsimp only; (repeat' split) <;> simp [hq]
@[simp] theorem safe_execQueryContext (dt : Nat) : staysSafe k (execQueryContext dt s) :=
  safe_onOpcode (s := s.advance dt) h fun q t hq => by simp [hq]
@[simp] theorem safe_execQueryFrame (dt : Nat) : staysSafe k (execQueryFrame dt s) :=
  safe_onOpcode (s := s.advance dt) h fun q t hq => by simp [hq]
@[simp] theorem safe_execQueryDevice (dt : Nat) : staysSafe k (execQueryDevice dt s) :=
  safe_onOpcode (s := s.advance dt) h fun q t hq => by simp [hq]

/-! ### Fox -/

@[simp] theorem safe_execArchive (dt ops : Nat) : staysSafe k (execArchive dt ops s) := by simp [execArchive, h]
@[simp] theorem safe_execTelemetry (dt : Nat) : staysSafe k (execTelemetry dt s) := by simp [execTelemetry, h]
@[simp] theorem safe_execMgmtRequest (dt m vlan kind : Nat) (ip data : Bytes) :
    staysSafe k (execMgmtRequest dt m vlan kind ip data s) := by
  simp [execMgmtRequest, h]
@[simp] theorem safe_execFoxQuoteGo (dt fn : Nat) : staysSafe k (execFoxQuoteGo dt fn s) := by simp [execFoxQuoteGo, h]
@[simp] theorem safe_execQuoteReady (dt fn : Nat) : staysSafe k (execQuoteReady dt fn s) := by simp [execQuoteReady, h]
@[simp] theorem safe_execThermal (dt sensor temp : Nat) : staysSafe k (execThermal dt sensor temp s) := by simp [execThermal, h]

/-! ### LongOps -/

@[simp] theorem safe_execLongOperationStart (dt fn : Nat) : staysSafe k (execLongOperationStart dt fn s) := by
  simp [execLongOperationStart, h]
@[simp] theorem safe_execModelStage (dt : Nat) : staysSafe k (execModelStage dt s) :=
  safe_beginLong (s := s.advance dt) h fun q t => by simp
@[simp] theorem safe_execModelStageDone (dt fn : Nat) (ok : Bool) (image : Bytes) : staysSafe k (execModelStageDone dt fn ok image s) :=
  safe_endFetch (s := s.advance dt) h fun q o => by simp
@[simp] theorem safe_execPlanStage (dt : Nat) : staysSafe k (execPlanStage dt s) :=
  safe_beginLong (s := s.advance dt) h fun q t => by simp
@[simp] theorem safe_execPlanStageDone (dt fn : Nat) (ok : Bool) (image wimage : Bytes) :
    staysSafe k (execPlanStageDone dt fn ok image wimage s) :=
  safe_endFetch (s := s.advance dt) h fun q o => by simp
@[simp] theorem safe_execGoldenScheduleSet (dt : Nat) : staysSafe k (execGoldenScheduleSet dt s) :=
  safe_beginLong (s := s.advance dt) h fun q t => by simp
@[simp] theorem safe_execGoldenScheduleDone (dt fn : Nat) (ok : Bool) (image : Bytes) :
    staysSafe k (execGoldenScheduleDone dt fn ok image s) :=
  safe_endLong (s := s.advance dt) h fun q o hq => by (repeat' split) <;> simp [hq]
@[simp] theorem safe_execConfigStage (dt : Nat) : staysSafe k (execConfigStage dt s) :=
  safe_beginLong (s := s.advance dt) h fun q t => by simp
@[simp] theorem safe_execConfigStageDone (dt fn : Nat) (ok : Bool) (image : Bytes) (flash : Bool) :
    staysSafe k (execConfigStageDone dt fn ok image flash s) :=
  safe_endFetch (s := s.advance dt) h fun q o => by simp
@[simp] theorem safe_execConfigCommit (dt : Nat) : staysSafe k (execConfigCommit dt s) :=
  safe_beginLong (s := s.advance dt) h fun q t => by simp
@[simp] theorem safe_execConfigCommitModeOnly (dt : Nat) : staysSafe k (execConfigCommitModeOnly dt s) :=
  safe_beginLong (s := s.advance dt) h fun q t => by simp
@[simp] theorem safe_execConfigCommitDone (dt fn : Nat) (ok : Bool) : staysSafe k (execConfigCommitDone dt fn ok s) :=
  safe_endLong (s := s.advance dt) h fun q o hq => by simp [hq]
@[simp] theorem safe_execEvidenceRead (dt : Nat) : staysSafe k (execEvidenceRead dt s) :=
  safe_beginLong (s := s.advance dt) h fun q t => by simp
@[simp] theorem safe_execEvidenceReadDone (dt fn : Nat) : staysSafe k (execEvidenceReadDone dt fn s) :=
  safe_endLong (s := s.advance dt) h fun q o hq => by simp [hq]

/-! ### PortW -/

@[simp] theorem safe_execReportWindowWrite (dt slot off : Nat) (data : Bytes) (poisoned : Bool) :
    staysSafe k (execReportWindowWrite dt slot off data poisoned s) := by
  simp [execReportWindowWrite, h]
@[simp] theorem safe_execReportComplete (dt : Nat) (golden : Bool) (slot : Nat) :
    staysSafe k (execReportComplete dt golden slot s) := by
  simp [execReportComplete, h]
@[simp] theorem safe_execGoldenReportWrite (dt off : Nat) (data : Bytes) (poisoned : Bool) :
    staysSafe k (execGoldenReportWrite dt off data poisoned s) := by
  simp [execGoldenReportWrite, h]
@[simp] theorem safe_execOpeningWrite (dt off : Nat) (data : Bytes) (poisoned : Bool) :
    staysSafe k (execOpeningWrite dt off data poisoned s) := by
  simp [execOpeningWrite, h]
@[simp] theorem safe_execGoldenInputRead (dt off n : Nat) : staysSafe k (execGoldenInputRead dt off n s) := by
  simp [execGoldenInputRead, h]
@[simp] theorem safe_execPortWInvalidWrite (dt kind off : Nat) (data : Bytes) (poisoned : Bool) :
    staysSafe k (execPortWInvalidWrite dt kind off data poisoned s) := by
  simp [execPortWInvalidWrite, h]
@[simp] theorem safe_execPortWInvalidRead (dt kind off n : Nat) : staysSafe k (execPortWInvalidRead dt kind off n s) := by
  simp [execPortWInvalidRead, h]
@[simp] theorem safe_execPortWLinkDown (dt : Nat) : staysSafe k (execPortWLinkDown dt s) := by simp [execPortWLinkDown, h]
@[simp] theorem safe_execWportLink (dt speed width : Nat) : staysSafe k (execWportLink dt speed width s) := by simp [execWportLink, h]

/-! ### HostRegs -/

@[simp] theorem safe_execRegisterWrite (dt fn bar off : Nat) (data : Bytes) : staysSafe k (execRegisterWrite dt fn bar off data s) := by
  simp [execRegisterWrite, h]
@[simp] theorem safe_execLowerWordRead (dt fn off : Nat) : staysSafe k (execLowerWordRead dt fn off s) := by simp [execLowerWordRead, h]
@[simp] theorem safe_execBar0Access (dt fn kind bar off size : Nat) : staysSafe k (execBar0Access dt fn kind bar off size s) := by
  simp [execBar0Access, h]

/-! ### Tack -/

@[simp] theorem safe_execTackId (dt tag : Nat) : staysSafe k (execTackId dt tag s) := safe_tackCmd (s := s.advance dt) h (by exact h)
@[simp] theorem safe_execAuthRead (dt tag addr : Nat) : staysSafe k (execAuthRead dt tag addr s) :=
  safe_tackCmd (s := s.advance dt) h (by split <;> exact h)
@[simp] theorem safe_execAuthWrite (dt tag addr data : Nat) : staysSafe k (execAuthWrite dt tag addr data s) :=
  safe_tackCmd (s := s.advance dt) h (by split <;> exact h)
@[simp] theorem safe_execAuthDone (dt tag : Nat) : staysSafe k (execAuthDone dt tag s) :=
  safe_tackCmd (s := s.advance dt) h (by split <;> simp [h])
@[simp] theorem safe_execTackRead (dt target tag addr : Nat) (done : Bool) : staysSafe k (execTackRead dt target tag addr done s) := by
  have hadv : safeAt k (s.advance dt).glb := h
  exact safe_tackCmd hadv (safe_tackAccess hadv (safe_tackRead hadv ..))
@[simp] theorem safe_execTackWrite (dt target tag addr data : Nat) (done : Bool) :
    staysSafe k (execTackWrite dt target tag addr data done s) := by
  have hadv : safeAt k (s.advance dt).glb := h
  exact safe_tackCmd hadv (safe_tackAccess hadv (safe_tackWrite hadv ..))
@[simp] theorem safe_execHalt (dt target tag : Nat) : staysSafe k (execHalt dt target tag s) :=
  safe_tackTarget (s := s.advance dt) h (by split <;> simp [h])
@[simp] theorem safe_execResume (dt target tag : Nat) : staysSafe k (execResume dt target tag s) :=
  safe_tackTarget (s := s.advance dt) h (by simp [h])
@[simp] theorem safe_execTackStep (dt target tag : Nat) : staysSafe k (execTackStep dt target tag s) :=
  safe_tackTarget (s := s.advance dt) h (by simp [h])
@[simp] theorem safe_execBpSet (dt target tag addr : Nat) : staysSafe k (execBpSet dt target tag addr s) :=
  safe_tackTarget (s := s.advance dt) h (by exact h)
@[simp] theorem safe_execBpClear (dt target tag addr : Nat) : staysSafe k (execBpClear dt target tag addr s) :=
  safe_tackTarget (s := s.advance dt) h (by exact h)
@[simp] theorem safe_execBreakpointHit (dt target n : Nat) : staysSafe k (execBreakpointHit dt target n s) := by
  simp [execBreakpointHit, h]
@[simp] theorem safe_execTackStatus (dt target tag : Nat) : staysSafe k (execTackStatus dt target tag s) :=
  safe_tackCmd (s := s.advance dt) h (by split <;> simp [h])
@[simp] theorem safe_execFuse (dt tag addr data : Nat) : staysSafe k (execFuse dt tag addr data s) :=
  safe_tackCmd (s := s.advance dt) h (by (repeat' split) <;> exact h)
@[simp] theorem safe_execTest (dt tag addr data : Nat) : staysSafe k (execTest dt tag addr data s) :=
  safe_tackCmd (s := s.advance dt) h (by split <;> simp [h])
@[simp] theorem safe_execTackBadRequest (dt kind : Nat) : staysSafe k (execTackBadRequest dt kind s) := by simp [execTackBadRequest, h]

/-! ### Scan -/

@[simp] theorem safe_execBypass (dt : Nat) (din : Bool) : staysSafe k (execBypass dt din s) := by simp [execBypass, h]
@[simp] theorem safe_execIdcode (dt : Nat) : staysSafe k (execIdcode dt s) := by simp [execIdcode, h]
@[simp] theorem safe_execSamplePreload (dt : Nat) (cap din : List Nat) : staysSafe k (execSamplePreload dt cap din s) := by
  simp [execSamplePreload, h]
@[simp] theorem safe_execExtest (dt : Nat) (cap din : List Nat) : staysSafe k (execExtest dt cap din s) := by simp [execExtest, h]
@[simp] theorem safe_execClamp (dt : Nat) (din : Bool) : staysSafe k (execClamp dt din s) := by simp [execClamp, h]
@[simp] theorem safe_execHighz (dt : Nat) (din : Bool) : staysSafe k (execHighz dt din s) := by simp [execHighz, h]

/-! ### Stoat -/

@[simp] theorem safe_execMailboxPosted (dt : Nat) : staysSafe k (execMailboxPosted dt s) := by simp [execMailboxPosted, h]
@[simp] theorem safe_execLeafVerify (dt i j : Nat) : staysSafe k (execLeafVerify dt i j s) := by simp [execLeafVerify, h]
@[simp] theorem safe_execSha3Mismatch (dt j : Nat) : staysSafe k (execSha3Mismatch dt j s) := by simp [execSha3Mismatch, h]
@[simp] theorem safe_execChallengeWeightsInPlace (dt i : Nat) : staysSafe k (execChallengeWeightsInPlace dt i s) := by
  unfold execChallengeWeightsInPlace; dsimp only; split <;> simp [h]
@[simp] theorem safe_execUnitDispatch (dt e : Nat) : staysSafe k (execUnitDispatch dt e s) := by simp [execUnitDispatch, h]
@[simp] theorem safe_execAuditBlockDone (dt e : Nat) : staysSafe k (execAuditBlockDone dt e s) := by
  unfold execAuditBlockDone; dsimp only; split <;> simp [h]
@[simp] theorem safe_execChallengeTileDone (dt e : Nat) : staysSafe k (execChallengeTileDone dt e s) := by
  unfold execChallengeTileDone; dsimp only; split <;> simp [h]
@[simp] theorem safe_execEngineFault (dt e kind col : Nat) (got want : Int) :
    staysSafe k (execEngineFault dt e kind col got want s) := by
  simp [execEngineFault, h]
@[simp] theorem safe_execDrbgReseed (dt : Nat) : staysSafe k (execDrbgReseed dt s) := by simp [execDrbgReseed, h]
@[simp] theorem safe_execEntropyHealthFailure (dt : Nat) (failing : Bool) : staysSafe k (execEntropyHealthFailure dt failing s) := by
  simp [execEntropyHealthFailure, h]

end

end Sys2Proof.Machine
end

section
/-! The commands that reset, and the way out of SAFE (R44). -/

namespace Sys2Proof.Machine

/-- A reset has brought the operating state back to START_UP, with RESET_OUT_N low (R44). -/
def backAtReset (t : State) : Prop := t.glb = {} ∧ t.rst.resetOutN = false

/-- SAFE with its cause, or the state after a reset. -/
def safeOrReset (k : Nat) (t : State) : Prop := safeAt k t.glb ∨ backAtReset t

/-- A command leaves SAFE only through a reset. -/
def leftByReset (k : Nat) : Host.Outcome State Fault Refusal → Prop
  | .next t => safeOrReset k t
  | _ => True

@[simp] theorem leftByReset_next (k : Nat) (t : State) : leftByReset k (.next t) ↔ safeOrReset k t := Iff.rfl

theorem staysSafe.leftByReset {k : Nat} {o : Host.Outcome State Fault Refusal} (ho : staysSafe k o) : leftByReset k o :=
  match o, ho with
  | .next _, h => .inl h
  | .fault _, _ => trivial
  | .refused _, _ => trivial

@[simp] theorem backAtReset_restart (s : State) (k source : Nat) (b : Bool) : backAtReset (s.restart k source b) := ⟨rfl, rfl⟩

@[simp] theorem backAtReset_powerOn (s : State) : backAtReset s.powerOn := ⟨rfl, rfl⟩

@[simp] theorem backAtReset_powerFail (s : State) (src : Nat) : backAtReset (s.powerFail src) := ⟨rfl, rfl⟩

@[simp] theorem safeOrReset_ite (k : Nat) (c : Prop) [Decidable c] (x y : State) (hx : safeOrReset k x) (hy : safeOrReset k y) :
    safeOrReset k (if c then x else y) := by
  split <;> assumption

theorem backAtReset.safeOrReset {t : State} (ht : backAtReset t) (k : Nat) : safeOrReset k t := .inr ht

theorem reset_execPowerOn (k dt : Nat) (pins : ResetPins) (s : State) : leftByReset k (execPowerOn dt pins s) :=
  .inr (backAtReset_powerOn (s.advance dt))

section
variable {k : Nat} {s : State} (h : safeAt k s.glb)
include h

theorem safeOrReset_of_safe : safeOrReset k s := .inl h

theorem safeOrReset_resetSource (j source : Nat) : safeOrReset k (s.resetSource j source) :=
  safeOrReset_ite _ _ _ _ ((backAtReset_restart ..).safeOrReset k) (safeOrReset_of_safe h)

theorem safeOrReset_foxRequest : safeOrReset k s.foxRequest :=
  safeOrReset_ite _ _ _ _ (safeOrReset_resetSource h ..) (safeOrReset_of_safe h)

theorem reset_execSysReset (dt : Nat) (sys : PinDrive) : leftByReset k (execSysReset dt sys s) := by
  unfold execSysReset; dsimp only
  rw [leftByReset_next]
  split
  · exact .inl h
  · split
    · exact .inr (backAtReset_restart ..)
    · exact .inl h

theorem reset_execClockFault (dt which step : Nat) : leftByReset k (execClockFault dt which step s) := by
  have hint : ∀ n, safeAt k ((s.advance dt).interrupt n).glb := fun n => by simp [h]
  unfold execClockFault; dsimp only
  rw [leftByReset_next]
  split
  · split
    · exact .inr ⟨rfl, rfl⟩
    · exact .inl (hint 1)
  · refine safeOrReset_ite _ _ _ _ ?_ ?_
    · exact .inl (by split <;> simp [h])
    · exact safeOrReset_ite _ _ _ _ (safeOrReset_resetSource (hint step) ..) (.inl (hint step))

theorem reset_execPowerGoodFailure (dt step : Nat) : leftByReset k (execPowerGoodFailure dt step s) :=
  safeOrReset_ite _ _ _ _ (safeOrReset_resetSource (by simp [h]) ..) (.inl (by simp [h]))

theorem reset_execThermalTrip (dt : Nat) : leftByReset k (execThermalTrip dt s) :=
  safeOrReset_ite _ _ _ _ (.inr ⟨rfl, rfl⟩) (.inl h)

theorem reset_execFoxSoftwareRequest (dt : Nat) : leftByReset k (execFoxSoftwareRequest dt s) :=
  safeOrReset_foxRequest (s := s.advance dt) h

theorem reset_execPowerFailWarning (dt src : Nat) : leftByReset k (execPowerFailWarning dt src s) :=
  safeOrReset_ite _ _ _ _ (.inr (backAtReset_powerFail ..)) (.inl h)

theorem reset_execBrownout (dt : Nat) : leftByReset k (execBrownout dt s) := by
  unfold execBrownout; dsimp only
  rw [leftByReset_next]
  split
  · exact safeOrReset_ite _ _ _ _ (.inr ⟨rfl, rfl⟩) (.inl h)
  · exact .inl h

theorem reset_execSafetyFwActivate (dt : Nat) : leftByReset k (execSafetyFwActivate dt s) :=
  safeOrReset_ite _ _ _ _ (safeOrReset_foxRequest (by exact h)) (.inl h)

theorem reset_execOwlHardTimer (dt i : Nat) : leftByReset k (execOwlHardTimer dt i s) := by
  unfold execOwlHardTimer; dsimp only
  rw [leftByReset_next]
  refine safeOrReset_ite _ _ _ _ (safeOrReset_ite _ _ _ _ ?_ (safeOrReset_ite _ _ _ _ ?_ ?_)) ?_
  · exact safeOrReset_resetSource (s := s.advance dt) h ..
  · exact .inl (by simp [h])
  · exact .inl h
  · exact .inl h

theorem reset_execStayLinkLossShroud (dt : Nat) : leftByReset k (execStayLinkLossShroud dt s) :=
  safeOrReset_ite _ _ _ _ (.inr (backAtReset_restart ..)) (.inl h)

theorem reset_execTackReset (dt tag : Nat) : leftByReset k (execTackReset dt tag s) := by
  have hcmd : safeAt k ((s.advance dt).tackCmd tag rowReset false fun q => (q, .accept)).glb :=
    safe_tackCmd (s := s.advance dt) h h
  exact safeOrReset_ite _ _ _ _ (safeOrReset_resetSource hcmd ..) (.inl hcmd)

/-- Every command (R44). -/
theorem leftByReset_exec (c : Instr) : leftByReset k (exec c s) := by
  cases c with
  | powerOn dt pins => exact reset_execPowerOn ..
  | sysReset dt sys => exact reset_execSysReset h ..
  | clockFault dt which step => exact reset_execClockFault h ..
  | powerGoodFailure dt step => exact reset_execPowerGoodFailure h ..
  | thermalTrip dt => exact reset_execThermalTrip h ..
  | foxSoftwareRequest dt => exact reset_execFoxSoftwareRequest h ..
  | powerFailWarning dt src => exact reset_execPowerFailWarning h ..
  | brownout dt => exact reset_execBrownout h ..
  | safetyFwActivate dt => exact reset_execSafetyFwActivate h ..
  | owlHardTimer dt i => exact reset_execOwlHardTimer h ..
  | stayLinkLossShroud dt => exact reset_execStayLinkLossShroud h ..
  | tackReset dt tag => exact reset_execTackReset h ..
  | _ => exact staysSafe.leftByReset (by simp [exec, h])

end

/-- Settles O5: every command keeps SAFE and its cause, except the twelve that restart the device. -/
theorem safeIsLeftOnlyThroughAReset : Obligations.SafeIsLeftOnlyThroughAReset := by
  intro c s t hs hc
  have hleft := leftByReset_exec (k := s.glb.cause) ⟨hs, rfl⟩ c
  rw [hc] at hleft
  exact hleft

end Sys2Proof.Machine
end

section
/-! What the writing of an evidence record sends and logs. -/

namespace Sys2Proof.Machine

@[simp] theorem log_ite (c : Prop) [Decidable c] (a b : State) : (if c then a else b).log = if c then a.log else b.log := by
  split <;> rfl

@[simp] theorem log_signal (s : State) (fn v : Nat) : (s.signal fn v).log = s.log := by simp [State.signal]
@[simp] theorem log_ringWritten (s : State) (fn r : Nat) (u : Bool) : (s.ringWritten fn r u).log = s.log := by
  simp [State.ringWritten, State.ringMessage]
@[simp] theorem log_putRecord (s : State) (fn r : Nat) (b : Bytes) (u : Bool) : (s.putRecord fn r b u).log = s.log := by
  simp [State.putRecord, State.writeBack]
@[simp] theorem log_ringGap (s : State) (fn r : Nat) : (s.ringGap fn r).log = s.log := by
  unfold State.ringGap; split <;> simp
@[simp] theorem log_copyTo (s : State) (fn r : Nat) (e : Evidence) : (s.copyTo fn r e).log = s.log := by
  simp [State.copyTo]

theorem log_copies (e : Evidence) (l : List (Nat × Nat)) (s : State) :
    (l.foldl (fun q (fn, r) => q.copyTo fn r e) s).log = s.log := by
  induction l generalizing s with
  | nil => rfl
  | cons x l ih => exact (ih _).trans (log_copyTo ..)

theorem Log.mem_push (l : Log) (e : Evidence) : e ∈ (l.push e).records := by
  unfold Log.push; dsimp only; split <;> simp

/-- What is written is the next record of the log (R451). -/
theorem recorded_evDev (s : State) (kind sev : Nat) (payload : Bytes) :
    s.recorded (s.evDev kind sev payload) kind sev payload := by
  intro hlog
  simp only [State.evDev, State.evidence, hlog, if_true, State.logRecord, log_copies]
  exact ⟨_, Log.mem_push _ _, rfl, rfl, rfl, rfl, rfl⟩

/-! What has been sent is not taken back. -/

section
variable {s : State} {x : Out} (h : x ∈ s.out)
include h

theorem mem_out_signal (fn v : Nat) : x ∈ (s.signal fn v).out := by
  unfold State.signal; dsimp only; (repeat' split) <;> simp [h]

theorem mem_out_ringWritten (fn r : Nat) (u : Bool) : x ∈ (s.ringWritten fn r u).out := by
  unfold State.ringWritten State.ringMessage; dsimp only; (repeat' split) <;> simp [mem_out_signal, h]

theorem mem_out_putRecord (fn r : Nat) (b : Bytes) (u : Bool) : x ∈ (s.putRecord fn r b u).out :=
  mem_out_ringWritten (List.mem_append_left _ (List.mem_append_left _ h)) ..

theorem mem_out_ringGap (fn r : Nat) : x ∈ (s.ringGap fn r).out := by
  unfold State.ringGap; dsimp only; (repeat' split) <;> simp [mem_out_putRecord, h]

theorem mem_out_copyTo (fn r : Nat) (e : Evidence) : x ∈ (s.copyTo fn r e).out := by
  have hg := mem_out_ringGap h fn r
  unfold State.copyTo; dsimp only; split <;> simp [mem_out_putRecord, hg]

theorem mem_out_copies (e : Evidence) (l : List (Nat × Nat)) :
    x ∈ (l.foldl (fun q (fn, r) => q.copyTo fn r e) s).out := by
  induction l generalizing s with
  | nil => exact h
  | cons y l ih => exact ih (mem_out_copyTo h ..)

theorem mem_out_evDev (kind sev : Nat) (payload : Bytes) : x ∈ (s.evDev kind sev payload).out := by
  unfold State.evDev State.evidence State.logRecord
  split
  · refine mem_out_copies ?_ _ _
    exact h
  · exact h

end

end Sys2Proof.Machine
end

section
/-! What entering SAFE does to the operating state, the die link and the L die's end of the Stay link. -/

namespace Sys2Proof.Machine

@[simp] theorem quiet_discardVerdict (s : State) (fn r frame : Nat) : (s.discardVerdict fn r frame).quiet = s.quiet := by
  unfold State.discardVerdict; dsimp only; split <;> simp

@[simp] theorem quiet_writeNotice (s : State) (fn r : Nat) : (s.writeNotice fn r).quiet = s.quiet := by
  unfold State.writeNotice; dsimp only; split <;> simp

@[simp] theorem quiet_holdNotice (s : State) (fn r : Nat) : (s.holdNotice fn r).quiet = s.quiet := by
  unfold State.holdNotice; dsimp only; split <;> simp

@[simp] theorem quiet_postVerdict (s : State) (fn r frame : Nat) (b : Bytes) (u : Bool) :
    (s.postVerdict fn r frame b u).quiet = s.quiet := by
  unfold State.postVerdict; dsimp only; (repeat' split) <;> simp

@[simp] theorem quiet_abortLong (s : State) (report : Bool) (o : LongOp) : (s.abortLong report o).quiet = s.quiet := by
  unfold State.abortLong; dsimp only; (repeat' split) <;> simp

@[simp] theorem quiet_abortOps (s : State) (fn : Nat) (report : Bool) (keep : LongOp → Bool) :
    (s.abortOps fn report keep).quiet = s.quiet := by
  simp [State.abortOps, quiet_foldl]

/-- The operating state, the die link, and whether the L die takes the Stay link as lost. -/
def State.linksAndState (s : State) : Glb × DieLink × Bool := (s.glb, s.die, s.pch.link.lost)

theorem linksAndState_of_quiet {s t : State} (h : t.quiet = s.quiet) : t.linksAndState = s.linksAndState := by
  simp only [State.linksAndState, quiet_glb h, quiet_die h, quiet_pch h]

theorem linksAndState_foldl {α : Type} (f : State → α → State) (hf : ∀ q x, (f q x).linksAndState = q.linksAndState)
    (l : List α) (s : State) : (l.foldl f s).linksAndState = s.linksAndState := by
  induction l generalizing s with
  | nil => rfl
  | cons x l ih => exact (ih _).trans (hf s x)

@[simp] theorem linksAndState_toShroud (s : State) (typ : Nat) (p : Bytes) : (s.toShroud typ p).linksAndState = s.linksAndState :=
  id rfl

@[simp] theorem linksAndState_stateChanged (s : State) : s.stateChanged.linksAndState = s.linksAndState :=
  (linksAndState_foldl _ (fun q fn => by
    split
    · exact linksAndState_of_quiet (quiet_signal ..)
    · rfl) ..).trans (linksAndState_toShroud ..)

@[simp] theorem linksAndState_stateRecord (s : State) (sev : Nat) : (s.stateRecord sev).linksAndState = s.linksAndState :=
  linksAndState_of_quiet (quiet_evDev ..)

@[simp] theorem linksAndState_shiftWindow (s : State) (c : Nat) : (s.shiftWindow c).linksAndState = s.linksAndState := by
  unfold State.shiftWindow; split <;> rfl

@[simp] theorem linksAndState_sendTelegram (s : State) (i typ : Nat) (f : Bool) (p : Bytes) :
    (s.sendTelegram i typ f p).linksAndState = s.linksAndState := by
  unfold State.sendTelegram; dsimp only
  split
  · rfl
  · refine (linksAndState_foldl _ (fun q m => ?_) ..).trans rfl
    rfl

@[simp] theorem linksAndState_postVerdict (s : State) (fn r frame : Nat) (b : Bytes) (u : Bool) :
    (s.postVerdict fn r frame b u).linksAndState = s.linksAndState := linksAndState_of_quiet (quiet_postVerdict ..)

@[simp] theorem linksAndState_issue (s : State) (c code t : Nat) : (s.issue c code t).linksAndState = s.linksAndState := by
  unfold State.issue; dsimp only
  split
  · exact (linksAndState_postVerdict ..).trans rfl
  · exact (linksAndState_foldl _ (fun _ _ => linksAndState_sendTelegram ..) ..).trans ((linksAndState_postVerdict ..).trans rfl)

@[simp] theorem linksAndState_sendSafeAll (s : State) (cause : Nat) : (s.sendSafeAll cause).linksAndState = s.linksAndState :=
  linksAndState_foldl _ (fun _ _ => linksAndState_sendTelegram ..) ..

/-- Outside SAFE, entering it sets the state and the cause, and leaves both links as they are (R42, R44). -/
theorem linksAndState_enterSafe {s : State} (hs : s.glb.st ≠ .safe) (cause : Nat) : (s.enterSafe cause).linksAndState =
    ({ s.glb with st := .safe, prior := .startUp, cause := cause, repairs := [] }, s.die, s.pch.link.lost) := by
  rw [State.enterSafe, if_neg hs]; dsimp only
  rw [linksAndState_foldl _ fun q fn => linksAndState_of_quiet (quiet_abortOps ..), linksAndState_sendSafeAll,
    linksAndState_foldl _ (fun q c => by simp), linksAndState_stateRecord, linksAndState_stateChanged, linksAndState_toShroud]
  rfl

theorem enterSafe_of_safe {s : State} (hs : s.glb.st = .safe) (cause : Nat) : s.enterSafe cause = s := by
  simp [State.enterSafe, hs]

@[simp] theorem st_enterSafe (s : State) (cause : Nat) : (s.enterSafe cause).glb.st = .safe := by
  by_cases hs : s.glb.st = .safe
  · rw [enterSafe_of_safe hs, hs]
  · exact congrArg (·.1.st) (linksAndState_enterSafe hs cause)

theorem cause_enterSafe {s : State} (hs : s.glb.st ≠ .safe) (cause : Nat) : (s.enterSafe cause).glb.cause = cause :=
  congrArg (·.1.cause) (linksAndState_enterSafe hs cause)

@[simp] theorem die_enterSafe (s : State) (cause : Nat) : (s.enterSafe cause).die = s.die := by
  by_cases hs : s.glb.st = .safe
  · rw [enterSafe_of_safe hs]
  · exact congrArg (·.2.1) (linksAndState_enterSafe hs cause)

@[simp] theorem lost_enterSafe (s : State) (cause : Nat) : (s.enterSafe cause).pch.link.lost = s.pch.link.lost := by
  by_cases hs : s.glb.st = .safe
  · rw [enterSafe_of_safe hs]
  · exact congrArg (·.2.2) (linksAndState_enterSafe hs cause)

end Sys2Proof.Machine
end

section
/-! Partitions, the die link and the Stay link: what their faults do. -/

namespace Sys2Proof.Machine

/-! ### Partitions and the die link -/

theorem nocDenied_permitted {s : State} {dt p target addr len : Nat} {write : Bool}
    (hok : (s.advance dt).nocAllowed p target write addr len = true) (init : Nat) :
    exec (.nocDenied dt p target init write addr len) s = .next (s.advance dt) := by
  simp [exec, execNocDenied, hok]

theorem nocDenied_refused {s : State} {dt p target addr len : Nat} {write : Bool}
    (hno : (s.advance dt).nocAllowed p target write addr len = false) (init : Nat) :
    ∃ t, exec (.nocDenied dt p target init write addr len) s = .next t ∧ .nocError init addr ∈ t.out ∧
      s.recorded t 0x0102 1 (le 1 p ++ le 1 target ++ le 2 init ++ zeros 4 ++ le 8 addr) ∧
      t.quiet = { (s.advance dt).quiet with prt := { s.prt with denied := tinc s.prt.denied 16 (p % 64) } } := by
  refine ⟨_, by simp only [exec, execNocDenied, hno, Bool.false_eq_true, if_false]; rfl, ?_, ?_, ?_⟩
  · simp [State.emit]
  · exact fun hlog => recorded_evDev _ _ _ _ hlog
  · rw [quiet_emit, quiet_evDev]
    rfl

theorem bwShort_safety {s : State} {p : Nat} (hsafety : s.cfg.active.prtSafety p = true) (dt target : Nat) :
    ∃ t, exec (.bwShort dt p target) s = .next t ∧ s.recorded t 0x0103 1 (le 1 p ++ le 1 target) ∧
      t.quiet = { (s.advance dt).quiet with prt := { s.prt with short := tinc s.prt.short 16 p } } := by
  refine ⟨_, by simp only [exec, execBwShort, State.advance_fields, hsafety, if_true]; rfl, ?_, ?_⟩
  · exact fun hlog => recorded_evDev _ _ _ _ hlog
  · rw [quiet_evDev]
    rfl

theorem dieLinkNeedsRetraining_starts {s : State} (hup : s.atStep 7 = true) (hidle : s.die.retraining = none) (dt : Nat) :
    exec (.dieLinkNeedsRetraining dt) s =
      .next { s.advance dt with die := { s.die with retraining := some (s.mc + dt) } } := by
  have hstep : (s.advance dt).atStep 7 = true := hup
  simp [exec, execDieLinkNeedsRetraining, hstep, hidle]

/-- A retraining that ends in time: the fifth within a second brings SAFE (R23). -/
theorem dieLinkRetrain_inTime {s : State} {dt t0 : Nat} (hrun : s.die.retraining = some t0) (htime : s.mc + dt ≤ t0 + msMc) :
    exec (.dieLinkRetrain dt) s =
      let s1 := { s.advance dt with die := { retraining := none, recent := s.die.count (s.mc + dt) } }
      .next (if 4 < (s.die.count (s.mc + dt)).length then s1.enterSafe 0x16 else s1) := by
  simp [exec, execDieLinkRetrain, hrun, htime]

theorem dieLinkRetrainTimeout_late {s : State} {dt t0 : Nat} (hrun : s.die.retraining = some t0) (htime : t0 + msMc ≤ s.mc + dt) :
    exec (.dieLinkRetrainTimeout dt) s = .next ((s.advance dt).enterSafe 0x16) := by
  simp [exec, execDieLinkRetrainTimeout, hrun, htime]

/-- Settles O14: the records come from `recorded_evDev`, SAFE and its cause from `linksAndState_enterSafe`. -/
theorem partitionViolationsAndDieLink : Obligations.PartitionViolationsAndDieLink := by
  refine ⟨fun dt p target init addr len write s => ⟨fun hok => nocDenied_permitted hok init, fun hno => nocDenied_refused hno init,
    fun hsafety => bwShort_safety hsafety dt target⟩, fun dt s => ⟨fun hup hidle => ?_, fun t0 hrun htime => ?_,
    fun t0 hrun htime => ?_⟩⟩
  · exact ⟨_, dieLinkNeedsRetraining_starts hup hidle dt, rfl⟩
  · refine ⟨_, dieLinkRetrain_inTime hrun htime, ?_, fun hfew => ?_, fun hmany => ?_⟩
    · split <;> simp
    · rw [if_neg (by omega)]
      rfl
    · rw [if_pos hmany]
      exact ⟨st_enterSafe .., fun hs => cause_enterSafe (by exact hs) _⟩
  · exact ⟨_, dieLinkRetrainTimeout_late hrun htime, st_enterSafe .., fun hs => cause_enterSafe (by exact hs) _⟩

/-! ### Frames of the Stay link -/

/-- A frame with lane copies that disagree is rejected, with its number noted as sent by the L die (R25, R507). -/
theorem stayFrameReject_lanes {s : State} {a b : Bytes} (hup : s.atStep 3 = true) (hlanes : lanesOk a b = false)
    (dt typ : Nat) (p : Bytes) : exec (.stayFrameReject dt true typ p a b) s =
      .next (({ s.advance dt with pch := { s.pch with
        link := s.pch.link.noteSent { typ, seq := s.pch.link.nextSeq, payload := p } (s.mc + dt) } }).shroudRejects) := by
  have hstep : (s.advance dt).atStep 3 = true := hup
  simp [exec, execStayFrameReject, hstep, hlanes]

/-- A rejection counts, and keeps what the next frame and the next NAK are made of. -/
@[simp] theorem StaySide.reject_fields (l : StaySide) (cyc : Nat) : (l.reject cyc).1.rejected = inc 16 l.rejected ∧
    (l.reject cyc).1.lastSeq = l.lastSeq ∧ (l.reject cyc).1.nextSeq = l.nextSeq ∧ (l.reject cyc).1.expect = l.expect := by
  unfold StaySide.reject StaySide.expect; dsimp only; split <;> simp

/-- The first frame rejected after an accepted one is answered with a NAK (R507). -/
theorem StaySide.reject_first {l : StaySide} (hfirst : l.nakSent = false) (cyc : Nat) : (l.reject cyc).2 = true := by
  simp [StaySide.reject, hfirst]

theorem shr_shroudRejects (s : State) : s.shroudRejects.shr = { s.shr with link := (s.shr.link.reject s.cyc).1 } := by
  unfold State.shroudRejects; dsimp only
  split
  · rw [quiet_shr (quiet_evDev ..)]
    rfl
  · rfl

theorem nak_mem_shroudRejects {s : State} (hfirst : s.shr.link.nakSent = false) :
    .fromShroud 0x7F s.shr.link.nextSeq (padTo 10 (le 1 s.shr.link.expect)) ∈ s.shroudRejects.out := by
  unfold State.shroudRejects; dsimp only
  rw [if_pos (StaySide.reject_first hfirst _)]
  exact mem_out_evDev (by simp [State.emit]) ..

theorem stayLinkLossLDie_lost {s : State} {dt : Nat} (hlost : s.pch.link.isLost (s.advance dt).cyc = true) :
    exec (.stayLinkLossLDie dt) s =
      .next ((({ s.advance dt with pch := { s.pch with link := { s.pch.link with lost := true } } }).evDev 0x0806 3
        (le 1 0 ++ le 1 1 ++ le 1 s.pch.link.lastSeq)).enterSafe 0x15) := by
  simp [exec, execStayLinkLossLDie, hlost]

/-- Settles O38: what a rejection does to the link is `StaySide.reject_fields`; the loss goes through `enterSafe`. -/
theorem badFramesAreRejectedAndLossIsSafe : Obligations.BadFramesAreRejectedAndLossIsSafe := by
  refine fun dt typ p a b s => ⟨fun hup hlanes => ?_, fun hlost hs => ?_⟩
  · refine ⟨_, stayFrameReject_lanes hup hlanes dt typ p, ?_, ?_, fun hfirst => nak_mem_shroudRejects (by exact hfirst), ?_, ?_, ?_⟩
    · simp [shr_shroudRejects]
    · simp [shr_shroudRejects]
    · simp [shr_shroudRejects]
    · simp [shr_shroudRejects]
    · simp
  · refine ⟨_, stayLinkLossLDie_lost hlost, st_enterSafe .., cause_enterSafe ?_ _, ?_⟩
    · rwa [quiet_glb (quiet_evDev ..)]
    · rw [lost_enterSafe, quiet_pch (quiet_evDev ..)]

end Sys2Proof.Machine
end

section
/-! Writes to the window of a report slot that are discarded (R121, R138). -/

namespace Sys2Proof.Machine

theorem exec_reportWindowWrite {i : Nat} (hi : i < 128) (dt off : Nat) (data : Bytes) (poisoned : Bool) (s : State) :
    exec (.reportWindowWrite dt i off data poisoned) s = .next ((s.advance dt).slotWrite i off data poisoned) := by
  simp [exec, execReportWindowWrite, hi]

theorem slotWrite_unarmed {s : State} {i : Nat} (h : s.armed i = false ∨ s.fr.ticking = false) (off : Nat) (data : Bytes)
    (poisoned : Bool) : s.slotWrite i off data poisoned = (s.staleWrite i).countPoison poisoned := by
  have hclosed : (!(s.fr.ticking && s.armed i)) = true := by rcases h with h | h <;> simp [h]
  rw [State.slotWrite, if_pos hclosed]

theorem slotWrite_afterDc {s : State} {i : Nat} (harmed : s.armed i = true) (htick : s.fr.ticking = true)
    (hlate : s.past 0 = true) (off : Nat) (data : Bytes) (poisoned : Bool) :
    s.slotWrite i off data poisoned = (s.lateWrite i).countPoison poisoned := by
  simp [State.slotWrite, Report.write, harmed, htick, hlate]

@[simp] theorem slot_countPoison (s : State) (poisoned : Bool) (j : Nat) : (s.countPoison poisoned).slot j = s.slot j := by
  unfold State.countPoison; split <;> rfl

/-- A discarded write changes the registers of its own slot, and otherwise at most the count of poisoned TLPs. -/
theorem modSlot_countPoison_fields (s : State) (i : Nat) (f : Slot → Slot) (poisoned : Bool) :
    ((s.modSlot i f).countPoison poisoned).slot i = f (s.slot i) ∧
    (∀ j, j ≠ i → ((s.modSlot i f).countPoison poisoned).slot j = s.slot j) ∧
    { (s.modSlot i f).countPoison poisoned with pw := {} } = { s with pw := {} } := by
  refine ⟨by simp, fun j hj => by simp [State.modSlot_slot_ne _ _ _ hj], ?_⟩
  unfold State.countPoison; split <;> rfl

/-- Settles O18: neither write reaches the report, and each is counted in its slot. -/
theorem staleAndLateWritesAreDiscarded : Obligations.StaleAndLateWritesAreDiscarded := by
  refine fun dt i off data poisoned s hi => ⟨fun hclosed => ?_, fun harmed htick hlate => ?_⟩
  · have hwrite := slotWrite_unarmed (s := s.advance dt) hclosed off data poisoned
    obtain ⟨hself, hother, hrest⟩ :=
      modSlot_countPoison_fields (s.advance dt) i (fun x => { x with stale := inc 16 x.stale }) poisoned
    exact ⟨_, (exec_reportWindowWrite hi ..).trans (congrArg _ hwrite), (congrArg Slot.stale hself :),
      (congrArg Slot.lateWrite hself :), (congrArg Slot.rep hself :), hother, hrest⟩
  · have hwrite := slotWrite_afterDc (s := s.advance dt) harmed htick hlate off data poisoned
    obtain ⟨hself, hother, hrest⟩ :=
      modSlot_countPoison_fields (s.advance dt) i (fun x => { x with lateWrite := inc 16 x.lateWrite }) poisoned
    exact ⟨_, (exec_reportWindowWrite hi ..).trans (congrArg _ hwrite), (congrArg Slot.lateWrite hself :),
      (congrArg Slot.stale hself :), (congrArg Slot.rep hself :), hother, hrest⟩

end Sys2Proof.Machine
end

section
/-! Port W: accesses outside the windows, the link, and the windows of the golden test (R107 to R110, R114 to R116, R140, R388). -/

namespace Sys2Proof.Machine

/-! ### Accesses outside the windows -/

/-- A write that touches no window is counted (R114). -/
theorem wWrite_outside {s : State} {off : Nat} {data : Bytes} (hne : data ≠ [])
    (hoff : off + data.length ≤ 0x100000000 ∨ (0x200000000 ≤ off ∧ off + data.length ≤ 0x300000000)) :
    s.wWrite off data false = { s with pw := { s.pw with roWrites := inc 16 s.pw.roWrites } } := by
  have hlen : 0 < data.length := List.length_pos_iff.mpr hne
  have hopening : ¬ (0x100000000 ≤ off ∧ off + data.length ≤ 0x200000000) := by omega
  have hgolden : ¬ (0x300000000 ≤ off ∧ off + data.length ≤ 0x310000000) := by omega
  have hslots : ¬ (0x800000000 ≤ off ∧ off + data.length ≤ 0x1000000000 ∧ off % 2 ^ 28 + data.length ≤ 2 ^ 28) := by omega
  simp only [State.wWrite, hopening, hgolden, hslots, if_false, Bool.false_eq_true]

/-- A read that no readable region holds is aborted (R115). -/
theorem wRead_outside {s : State} {off n : Nat} (hpage : 0x10000 < off + n) (hmailbox : ¬ (0x10000 ≤ off ∧ off + n ≤ 0x20000))
    (hgolden : ¬ (0x200000000 ≤ off ∧ off + n ≤ 0x300000000)) : s.wRead off n = s.wAbort := by
  rw [State.wRead, if_neg (by omega), if_neg hmailbox, if_neg hgolden]

/-- Bus Master Enable is not written (R108). -/
theorem wConfigWrite_busMaster (s : State) (v : Nat) : bitAt (s.wConfigWrite 4 v).pw.command 2 = false := by
  have hbit : (v % 65536 - v / 4 % 2 * 4) / 2 ^ 2 % 2 ≠ 1 := by omega
  simpa [State.wConfigWrite, bitAt] using hbit

theorem wConfigRead_fields (s : State) (off : Nat) : (s.wConfigRead off).pw.cpl.status = .success ∧
    (s.wConfigRead off).pw.cpl.data.length = 4 ∧ { s.wConfigRead off with pw := s.pw, free := s.free } = s := by
  unfold State.wConfigRead; dsimp only
  refine ⟨rfl, rfl, ?_⟩
  split <;> rfl

/-! ### The link goes down, or enters L0 (R109, R110) -/

theorem Report.abandon_begun {r : Report} (h : r.code = 1) : r.abandon.abandoned = true := by
  simp [Report.abandon, h]

theorem portWLinkDown_slot (s : State) (i : Nat) : tget (tmap (fun x : Slot => { x with rep := x.rep.abandon }) s.pw.slots) i =
    { s.slot i with rep := (s.slot i).rep.abandon } :=
  tget_tmap_of rfl ..

theorem wportLink_reserved {speed width : Nat} (h : speed = 0 ∨ 5 < speed ∨ width ∉ [1, 2, 4, 8, 16]) (dt : Nat) (s : State) :
    exec (.wportLink dt speed width) s = .next (s.advance dt) := by
  have hc : speed = 0 ∨ 5 < speed ∨ ([1, 2, 4, 8, 16].contains width) = false := by
    simpa only [List.contains_eq_mem, decide_eq_false_iff_not] using h
  simp only [exec, execWportLink, if_pos hc]

theorem wportLink_taken {speed width : Nat} (h1 : 1 ≤ speed) (h5 : speed ≤ 5) (hw : width ∈ [1, 2, 4, 8, 16]) (dt : Nat) (s : State) :
    exec (.wportLink dt speed width) s =
      let s1 := { s.advance dt with pw := { s.pw with speed := speed, width := width, up := true } }
      .next (if speed = 5 ∧ width = 16 then s1 else s1.evDev 0x0202 0 (le 1 speed ++ le 1 width)) := by
  have hc : ¬ (speed = 0 ∨ 5 < speed ∨ ([1, 2, 4, 8, 16].contains width) = false) := by
    rw [List.contains_eq_mem, decide_eq_false_iff_not]
    rintro (h | h | h)
    · omega
    · omega
    · exact h hw
  simp only [exec, execWportLink, if_neg hc]
  rfl

/-! ### The check-value units leave the reports alone -/

theorem loadCtx_rest (s : State) (k : Nat) : { s.loadCtx k with pw := s.pw, free := s.free } = s := by
  unfold State.loadCtx; split <;> rfl

theorem loadCtx_reports (s : State) (k : Nat) : (s.loadCtx k).pw.slots = s.pw.slots ∧ (s.loadCtx k).pw.goldSlot = s.pw.goldSlot := by
  unfold State.loadCtx; split <;> exact ⟨rfl, rfl⟩

theorem foldCtx_rest (s : State) (k : Nat) (cov : Bytes) (n : Nat) : { s.foldCtx k cov n with pw := s.pw, free := s.free } = s := by
  unfold State.foldCtx; dsimp only; split <;> exact loadCtx_rest s k

theorem foldCtx_reports (s : State) (k : Nat) (cov : Bytes) (n : Nat) :
    (s.foldCtx k cov n).pw.slots = s.pw.slots ∧ (s.foldCtx k cov n).pw.goldSlot = s.pw.goldSlot := by
  unfold State.foldCtx; dsimp only; split <;> exact loadCtx_reports s k

/-- What the golden report is compared with does not depend on the check-value units. -/
theorem goldUnequal_foldCtx (s : State) (k : Nat) (cov : Bytes) (n : Nat) (r : Report) (b : Bytes) :
    ({ s.foldCtx k cov n with pw := { (s.foldCtx k cov n).pw with gold := r } }).goldUnequal b = s.goldUnequal b := by
  have hrest := foldCtx_rest s k cov n
  have hvrd : (s.foldCtx k cov n).vrd = s.vrd := (congrArg State.vrd hrest :)
  have haud : (s.foldCtx k cov n).aud = s.aud := (congrArg State.aud hrest :)
  have hcfg : (s.foldCtx k cov n).cfg = s.cfg := (congrArg State.cfg hrest :)
  simp only [State.goldUnequal, State.slotPlan, State.planOf, State.plan, State.gold, hvrd, haud, hcfg, (foldCtx_reports s k cov n).2]

/-! ### The golden windows -/

/-- A write that the rules accept, with no difference from the expected bytes: it is folded and appended (R140, R390). -/
theorem goldWrite_accept {s : State} {off : Nat} {data : Bytes} {r : Report} (hpending : s.goldPending = true) (hstart : s.past 5 = true)
    (hwrite : s.pw.gold.write s.goldCtx off data false (s.past 6) s.tmb.now s.mc = .accept r) (hequal : s.goldUnequal r.bytes = false) :
    let q := s.foldCtx 128 (coveredPart r s.pw.gold.bytes.length) data.length
    s.goldWrite off data false = { q with pw := { q.pw with gold := r } } := by
  simp only [State.goldWrite, hpending, hstart, hwrite, goldUnequal_foldCtx, hequal, Bool.true_or, Bool.and_self, Bool.not_true,
    Bool.false_and, Bool.false_eq_true, if_false]
  split <;> rfl

theorem goldRead_pending {s : State} {p off n : Nat} {g : Bytes} (hoffered : s.vrd.offered = some p) (hset : (s.gold p).active = some g)
    (hpending : s.goldPending = true) (hslot : s.inSlot 5 6 = true) (hin : off + n ≤ goldPages g s.vrd.offeredEntry * 4096) :
    s.goldRead off n = s.wCpl .success (slice g (gent g s.vrd.offeredEntry 0 8 + off) n) (readParts off n) := by
  simp only [State.goldRead, hpending, hslot, hoffered, hset, if_pos hin, Bool.and_self, if_true]

theorem goldRead_idle {s : State} (hidle : s.goldPending = false) (off n : Nat) : s.goldRead off n = s.wAbort := by
  simp only [State.goldRead, hidle, Bool.false_and, Bool.false_eq_true, if_false]

/-- Settles O19: the accesses outside the windows, the link, then the golden windows. -/
theorem portWAndGoldenWindows : Obligations.PortWAndGoldenWindows := by
  refine ⟨fun dt s => ⟨fun off data hne hoff => ?_, fun off n hpage hmailbox hgolden => ?_, fun off data poisoned => ?_,
    fun data poisoned => ?_, fun off n => ?_, ?_, fun speed width h1 h5 hw => ?_, fun speed width h => wportLink_reserved h dt s⟩,
    fun dt off n s => ⟨fun data r hpending hstart hwrite hequal => ?_, fun p g hoffered hset hpending hslot hin => ?_,
      fun hidle => ?_⟩⟩
  · exact ⟨_, rfl, wWrite_outside (s := s.advance dt) hne hoff⟩
  · exact ⟨_, rfl, wRead_outside (s := s.advance dt) hpage hmailbox hgolden⟩
  · exact ⟨_, rfl, rfl⟩
  · exact ⟨_, rfl, wConfigWrite_busMaster .., rfl⟩
  · exact ⟨_, rfl, wConfigRead_fields (s.advance dt) off⟩
  · refine ⟨_, rfl, rfl, rfl, fun i hbegun => ?_, rfl, rfl, rfl⟩
    exact (congrArg (·.rep.abandoned) (portWLinkDown_slot s i)).trans (Report.abandon_begun hbegun)
  · refine ⟨_, wportLink_taken h1 h5 hw dt s, ?_, fun hs hw => ?_, fun hlow => ?_⟩
    · split
      · rfl
      · rw [quiet_evDev]
        rfl
    · rw [if_pos ⟨hs, hw⟩]
      rfl
    · rw [if_neg (by omega)]
      exact fun hlog => recorded_evDev _ _ _ _ hlog
  · have hrest := foldCtx_rest (s.advance dt) 128 (coveredPart r s.pw.gold.bytes.length) data.length
    have hslots := (foldCtx_reports (s.advance dt) 128 (coveredPart r s.pw.gold.bytes.length) data.length).1
    refine ⟨(s.advance dt).goldWrite off data false, rfl, ?_⟩
    rw [goldWrite_accept hpending hstart hwrite hequal]
    exact ⟨rfl, fun j => congrArg (tget · j) hslots, (congrArg State.vrd hrest :), (congrArg State.log hrest :),
      (congrArg State.shr hrest :)⟩
  · exact ⟨_, rfl, goldRead_pending (s := s.advance dt) hoffered hset hpending hslot hin⟩
  · exact ⟨_, rfl, goldRead_idle (s := s.advance dt) hidle off n⟩

end Sys2Proof.Machine
end

section
/-! A report slot that is armed before its D_c and no longer when D_c fires (R119, R137): the table of contexts may list a
context twice, and the statement on slot edges does not exclude it. -/

namespace Sys2Proof.Machine

/-- Context 0 is listed at its reset value, which is what a read of it gives, and once more as open, which arms report slot 0.
The frame's D_v, at 1 µs, lies before its D_c, at 2 µs, and both have come. -/
def contextListedTwice : State :=
  { vrd := { ctxs := [(0, {}), (0, { isOpen := true })] }, cfg := { active := { regs := [(0x3C1000, 1)] } },
    fr := { ticking := true, edges := [2, 1] }, tmb := { now := 2 * us16 } }

theorem edgeDue_contextListedTwice : (contextListedTwice.advance 0).edgeDue 0 = true := by decide

theorem armed_contextListedTwice : contextListedTwice.armed 0 = true ∧ (contextListedTwice.slot 0).rep.code = 0 := by decide

/-- D_v fires before D_c: it writes context 0 back at its reset value, which takes both entries off the table. At D_c the slot is
not armed, and its report stays as it is. -/
theorem dC_contextListedTwice : (((contextListedTwice.advance 0).edgeCommand 0 0).slot 0).rep.code = 0 := by decide +kernel

/-- Refutes O13: in `contextListedTwice` slot 0 is armed and has no report, and D_c does not make it INCOMPLETE. -/
theorem not_slotEdgesFireOnce : ¬ Obligations.SlotEdgesFireOnce := by
  rintro ⟨-, hclose⟩
  obtain ⟨t, hrun, hincomplete⟩ := (hclose 0 0 contextListedTwice).1 edgeDue_contextListedTwice
  have ht : (contextListedTwice.advance 0).edgeCommand 0 0 = t := Host.Outcome.next.inj hrun
  have hcode := hincomplete 0 (by decide) (.inl armed_contextListedTwice)
  rw [← ht, dC_contextListedTwice] at hcode
  exact absurd hcode (by decide)

end Sys2Proof.Machine
end

section
/-! What entering SAFE leaves of the memories: all of it. -/

namespace Sys2Proof.Machine

theorem mem_foldl {α : Type} (f : State → α → State) (hf : ∀ q x, (f q x).mem = q.mem) (l : List α) (s : State) :
    (l.foldl f s).mem = s.mem := by
  induction l generalizing s with
  | nil => rfl
  | cons x l ih => exact (ih _).trans (hf s x)

@[simp] theorem mem_evDev (s : State) (kind sev : Nat) (payload : Bytes) : (s.evDev kind sev payload).mem = s.mem :=
  quiet_mem (quiet_evDev ..)

@[simp] theorem mem_stateChanged (s : State) : s.stateChanged.mem = s.mem :=
  (mem_foldl _ (fun q fn => by
    split
    · exact quiet_mem (quiet_signal ..)
    · rfl) ..).trans rfl

@[simp] theorem mem_sendTelegram (s : State) (i typ : Nat) (safe : Bool) (payload : Bytes) :
    (s.sendTelegram i typ safe payload).mem = s.mem := by
  unfold State.sendTelegram; dsimp only
  split
  · rfl
  · refine (mem_foldl _ (fun q m => ?_) ..).trans rfl
    rfl

@[simp] theorem mem_shiftWindow (s : State) (c : Nat) : (s.shiftWindow c).mem = s.mem := by
  unfold State.shiftWindow; split <;> rfl

@[simp] theorem mem_issue (s : State) (c code t : Nat) : (s.issue c code t).mem = s.mem := by
  have hpost : ∀ (q : State) fn r frame b u, (q.postVerdict fn r frame b u).mem = q.mem := fun _ _ _ _ _ _ =>
    quiet_mem (quiet_postVerdict ..)
  unfold State.issue; dsimp only
  split
  · exact (hpost ..).trans rfl
  · exact (mem_foldl _ (fun _ _ => mem_sendTelegram ..) ..).trans ((hpost ..).trans rfl)

@[simp] theorem mem_sendSafeAll (s : State) (cause : Nat) : (s.sendSafeAll cause).mem = s.mem :=
  mem_foldl _ (fun _ _ => mem_sendTelegram ..) ..

@[simp] theorem mem_enterSafe (s : State) (cause : Nat) : (s.enterSafe cause).mem = s.mem := by
  unfold State.enterSafe; dsimp only
  split
  · rfl
  · rw [mem_foldl _ fun q fn => quiet_mem (quiet_abortOps ..), mem_sendSafeAll, mem_foldl _ (fun q c => by simp),
      State.stateRecord, mem_evDev, mem_stateChanged]
    rfl

end Sys2Proof.Machine
end

section
/-! What the reading of damaged lines does to the memories (R631, R640, R642, R648). -/

namespace Sys2Proof.Machine

/-! ### Contents and registers -/

/-- What the memories hold: the bytes, the lines kept as bad, and the stored bytes found in error. -/
def Memory.contents (m : Memory) : List Host.Cell × List Nat × Tbl Bytes := (m.cells, m.bad, m.raw)

theorem fields_of_contents {m : Memory} {x : List Host.Cell × List Nat × Tbl Bytes} (h : m.contents = x) :
    m.cells = x.1 ∧ m.bad = x.2.1 ∧ m.raw = x.2.2 :=
  h ▸ ⟨rfl, rfl, rfl⟩

/-- ARRAY and LINE of MEM_LAST_UE, and MEM_UE (R653). -/
def Memory.ueShown (m : Memory) : Nat × Nat × Tbl Nat := (m.lastArray, m.lastLine, m.ue)

theorem mem_insNat_self (k : Nat) (l : List Nat) : k ∈ insNat k l := by
  induction l with
  | nil => simp [insNat]
  | cons j l ih =>
    unfold insNat
    split
    · simp
    · split <;> simp [*]

/-- Only the low n bytes count. -/
theorem le_add_mul (n v k : Nat) : le n (v + k * 256 ^ n) = le n v := by
  induction n generalizing v with
  | zero => rfl
  | succ n ih =>
    have hlow : v + k * 256 ^ (n + 1) = v + 256 * (k * 256 ^ n) := by ring
    rw [hlow, le, le, Nat.add_mul_div_left _ _ (by decide), ih]
    congr 1
    exact BitVec.eq_of_toNat_eq (by simp [Nat.add_mul_mod_self_left])

theorem tget_tinc_self (t : Tbl Nat) (w k : Nat) : tget (tinc t w k) k = inc w (tget t k) := tget_tset_self ..

theorem writeN_eq (b : Bytes) (k : Nat) (m : Memory) : m.writeN k b = { m with cells := (m.writeN k b).cells } := by
  induction b generalizing k m with
  | nil => rfl
  | cons x b ih =>
    rw [Memory.writeN, ih]
    rfl

/-- The bytes written do not depend on what else the memory is. -/
theorem writeN_cells_congr (b : Bytes) (k : Nat) {m m' : Memory} (h : m'.cells = m.cells) :
    (m'.writeN k b).cells = (m.writeN k b).cells := by
  induction b generalizing k m m' with
  | nil => exact h
  | cons x b ih => exact ih _ (congrArg (cellPut k x) h)

/-- A line of a target that is written whole is a bad line no more (R634). -/
theorem contents_rewrite {array : Nat} (ht : array < 4) (m : Memory) (unit line : Nat) (data : Bytes) :
    (m.rewrite array unit line data).contents = ((m.writeN (cellKey array (line * 64)) data).cells,
      m.bad.erase (lineKey array unit line), m.raw.filter (·.1 != lineKey array unit line)) := by
  simp only [Memory.rewrite, if_pos ht]
  rw [writeN_eq]
  exact congrArg (·, _, _) (writeN_cells_congr _ _ rfl)

theorem ueShown_rewrite (m : Memory) (array unit line : Nat) (data : Bytes) :
    (m.rewrite array unit line data).ueShown = m.ueShown := by
  unfold Memory.rewrite; dsimp only
  split
  · rw [writeN_eq]
    rfl
  · rfl

theorem isSram_iff_of_target {array : Nat} (ht : array < 4) : isSram array = true ↔ array ≠ 0 := by
  simp only [isSram, Bool.or_eq_true, beq_iff_eq]
  omega

/-! ### Corrected lines -/

@[simp] theorem contents_countCe (m : Memory) (array : Nat) : (m.countCe array).contents = m.contents := by
  unfold Memory.countCe; split <;> rfl

theorem ce_countCe {array : Nat} (ht : array < 4) (m : Memory) : (m.countCe array).ce = tinc m.ce 16 array := by
  rw [Memory.countCe, if_pos ht]

theorem quiet_evDevUnless (c : Bool) (s : State) (kind sev : Nat) (payload : Bytes) :
    (if c then s else s.evDev kind sev payload).quiet = s.quiet := by
  split
  · rfl
  · exact quiet_evDev ..

/-- The memory after a correction, before it is counted: the scrub writes the line back, another read keeps its stored bytes
(R640). -/
def Memory.afterCorrection (m : Memory) (array unit line : Nat) (stored data : Bytes) (scrub : Bool) : Memory :=
  if scrub then m.rewrite array unit line data else { m with raw := tset m.raw (lineKey array unit line) stored }

theorem modMem_afterCorrection (s : State) (array unit line : Nat) (stored data : Bytes) (scrub : Bool) :
    (if scrub then s.modMem fun m => m.rewrite array unit line data else s.keepRaw array unit line stored) =
      s.modMem fun m => m.afterCorrection array unit line stored data scrub := by
  cases scrub <;> rfl

/-- A line is corrected whose row is not repaired (R649): the correction is counted, and what else changes are records. -/
theorem correct_withoutRepair {array n : Nat} {scrub : Bool} (harray : array < 7)
    (hrepair : isSram array = false ∨ (n = 1 ∧ scrub = false)) (s : State) (unit line channel : Nat) (stored data : Bytes) :
    ∃ m : Memory, (s.correct array unit line channel n stored data scrub).quiet = { s with mem := m }.quiet ∧
      m.contents = (s.mem.afterCorrection array unit line stored data scrub).contents ∧
      (array < 4 → m.ce = tinc (s.mem.afterCorrection array unit line stored data scrub).ce 16 array) := by
  have htcm : array ≠ 7 := by omega
  simp only [State.correct, if_neg htcm, modMem_afterCorrection]
  split
  next hrow =>
    rcases hrepair with hrow' | ⟨rfl, rfl⟩
    · simp [hrow'] at hrow
    · simp at hrow
  next =>
    rw [quiet_evDevUnless]
    split
    · exact ⟨_, rfl, contents_countCe .., fun ht => ce_countCe ht _⟩
    · split
      · exact ⟨_, rfl, contents_countCe .., fun ht => ce_countCe ht _⟩
      · exact ⟨_, rfl, contents_countCe .., fun ht => ce_countCe ht _⟩

theorem lineRead_clean {array unit line channel : Nat} {stored : Bytes} (h : decodeStored array unit channel line stored = .clean)
    (s : State) (d : Detect) (clean : Bool) : s.lineRead array unit line channel stored d clean = s := by
  simp only [State.lineRead, h]

theorem exec_corrected {array unit line channel n : Nat} {stored : Bytes} {w : List Nat} (harray : array < 7)
    (h : decodeStored array unit channel line stored = .corrected w n) (dt : Nat) (scrub : Bool) (s : State) :
    exec (.corrected dt array unit line channel stored scrub) s =
      .next ((s.advance dt).correct array unit line channel n stored (ofSymbols (w.take 64)) scrub) := by
  have htcm : array ≠ 7 := by omega
  simp only [exec, execCorrected, if_pos harray.le, State.lineRead, h, dataLen, if_neg htcm]
  cases scrub <;> rfl

theorem exec_corrected_clean {array unit line channel : Nat} {stored : Bytes}
    (h : decodeStored array unit channel line stored = .clean) (dt : Nat) (scrub : Bool) (s : State) :
    exec (.corrected dt array unit line channel stored scrub) s = .next (s.advance dt) := by
  simp only [exec, execCorrected, lineRead_clean h, ite_self]

/-- A line that a read corrects keeps its data (R631, R640). -/
theorem exec_corrected_read {array unit line channel n : Nat} {stored : Bytes} {w : List Nat} (harray : array < 7)
    (h : decodeStored array unit channel line stored = .corrected w n) (hrepair : isSram array = false ∨ n = 1)
    (dt : Nat) (s : State) :
    ∃ t, exec (.corrected dt array unit line channel stored false) s = .next t ∧ t.mem.cells = s.mem.cells ∧
      t.mem.bad = s.mem.bad ∧ tget t.mem.raw (lineKey array unit line) = stored ∧
      (array < 4 → tget t.mem.ce array = inc 16 (tget s.mem.ce array)) ∧
      { t.quiet with mem := {}, cor := {} } = { (s.advance dt).quiet with mem := {}, cor := {} } := by
  obtain ⟨m, hquiet, hcontents, hce⟩ := correct_withoutRepair harray (hrepair.imp_right fun hn => ⟨hn, rfl⟩) (s.advance dt)
    unit line channel stored (ofSymbols (w.take 64))
  obtain ⟨hcells, hbad, hraw⟩ := fields_of_contents hcontents
  refine ⟨_, exec_corrected harray h .., ?_⟩
  rw [quiet_mem hquiet]
  refine ⟨hcells, hbad, ?_, fun ht => ?_, ?_⟩
  · rw [hraw]
    exact tget_tset_self ..
  · rw [hce ht]
    exact tget_tinc_self ..
  · exact congrArg (fun q : State => { q with mem := {}, cor := {} }) hquiet

/-- The scrub writes the corrected line back (R640). -/
theorem exec_corrected_scrub {unit line channel n : Nat} {stored : Bytes} {w : List Nat}
    (h : decodeStored 0 unit channel line stored = .corrected w n) (dt : Nat) (s : State) :
    ∃ t, exec (.corrected dt 0 unit line channel stored true) s = .next t ∧
      t.mem.cells = (s.mem.writeN (cellKey 0 (line * 64)) (ofSymbols (w.take 64))).cells ∧
      t.mem.raw.lookup (lineKey 0 unit line) = none := by
  obtain ⟨m, hquiet, hcontents, -⟩ := correct_withoutRepair (array := 0) (n := n) (scrub := true) (by decide) (.inl rfl)
    (s.advance dt) unit line channel stored (ofSymbols (w.take 64))
  rw [Memory.afterCorrection, if_pos rfl, contents_rewrite (by decide)] at hcontents
  obtain ⟨hcells, -, hraw⟩ := fields_of_contents hcontents
  refine ⟨_, exec_corrected (by decide) h .., ?_⟩
  rw [quiet_mem hquiet]
  exact ⟨hcells, hraw ▸ lookup_filter_ne_self ..⟩

/-! ### Bursts and the scrub -/

/-- A burst that is repeated successfully (R637). -/
theorem exec_edc_repeated {ch n : Nat} (hch : ch < 4) (h1 : 1 ≤ n) (h3 : n ≤ 3) (dt line lines : Nat)
    (write clean : Bool) (s : State) :
    ∃ t, exec (.edc dt ch line lines n write clean) s = .next t ∧
      (tget t.mem.gddr ch).edcRetry = sat 16 ((tget s.mem.gddr ch).edcRetry + n) ∧ t.mem.cells = s.mem.cells ∧
      t.mem.bad = s.mem.bad ∧ { t.quiet with mem := {} } = { (s.advance dt).quiet with mem := {} } := by
  have hrange : 1 ≤ n ∧ n ≤ 4 ∧ ch < 4 := by omega
  have hfinal : n ≠ 4 := by omega
  refine ⟨_, by simp only [exec, execEdc, if_pos hrange, hfinal, false_and, if_false]; rfl, ?_⟩
  rw [mem_evDev, quiet_evDev]
  exact ⟨congrArg Gddr.edcRetry (tget_tset_self ..), rfl, rfl, rfl⟩

theorem exec_scrubLate (dt array ms : Nat) (s : State) : ∃ t, exec (.scrubLate dt array ms) s = .next t ∧
    s.recorded t 0x0B06 1 (le 1 array ++ zeros 3 ++ le 4 ms) ∧
    t.quiet = { (s.advance dt).quiet with mem := { s.mem with late := inc 8 s.mem.late } } := by
  refine ⟨_, rfl, fun hlog => recorded_evDev _ _ _ _ hlog, ?_⟩
  rw [quiet_evDev]
  rfl

/-! ### Uncorrectable lines -/

/-- The line number in an address word has 48 bits, fewer than in a line's key: one key, one address word (R630). -/
theorem decodeStored_of_lineKey {array unit line l : Nat} (ht : array < 4) (hkey : lineKey array 0 l = lineKey array unit line)
    (channel : Nat) (stored : Bytes) : decodeStored array 0 0 l stored = decodeStored array unit channel line stored := by
  have hline : l = line + unit * 2 ^ 56 := by unfold lineKey at hkey; omega
  have haddr : storedAddress array 0 0 l = storedAddress array unit channel line := by
    have htcm : array ≠ 7 := by omega
    have hunit : ¬ (array = 4 ∨ array = 5) := by omega
    have hle : le 6 l = le 6 line := by
      rw [hline, show unit * 2 ^ 56 = unit * 256 * 256 ^ 6 by ring, le_add_mul]
    simp only [storedAddress, lineAddress, if_neg htcm, if_neg hunit, hle]
  simp only [decodeStored, haddr]

/-- A copy of the line with key k does not correct it (R648). -/
def Memory.copiedAsIs (m : Memory) (array k : Nat) : Prop :=
  ∀ l b w n, lineKey array 0 l = k → m.raw.lookup k = some b → decodeStored array 0 0 l b ≠ .corrected w n

/-- The line with key k is kept as bad, and a copy does not correct it. -/
def Memory.staysBad (m : Memory) (array k : Nat) : Prop := k ∈ m.bad ∧ m.copiedAsIs array k

theorem staysBad_copyLine {m : Memory} {array k : Nat} (ht : array < 4) (h : m.staysBad array k) (l : Nat) :
    (m.copyLine array l).staysBad array k := by
  obtain ⟨hbad, hcopy⟩ := h
  unfold Memory.copyLine
  split
  next w n hfound =>
    obtain ⟨b, hraw, hdec⟩ := Option.map_eq_some_iff.mp hfound
    have hne : k ≠ lineKey array 0 l := by
      rintro rfl
      exact hcopy l b w n rfl hraw hdec
    obtain ⟨-, hbad', hraw'⟩ := fields_of_contents (contents_rewrite ht m 0 l (ofSymbols (w.take 64)))
    simp only [Memory.staysBad, Memory.copiedAsIs, hbad', hraw', lookup_filter_ne hne]
    exact ⟨(List.mem_erase_of_ne hne).mpr hbad, hcopy⟩
  next => exact ⟨hbad, hcopy⟩

theorem staysBad_copyRow {m : Memory} {array k : Nat} (ht : array < 4) (h : m.staysBad array k) (line : Nat) :
    (m.copyRow array line).staysBad array k :=
  List.foldlRecOn (motive := fun q : Memory => q.staysBad array k) _ _ h fun _ hq _ _ => staysBad_copyLine ht hq _

theorem ueShown_copyLine (m : Memory) (array l : Nat) : (m.copyLine array l).ueShown = m.ueShown := by
  unfold Memory.copyLine
  split
  · exact ueShown_rewrite ..
  · rfl

theorem ueShown_copyRow (m : Memory) (array line : Nat) : (m.copyRow array line).ueShown = m.ueShown :=
  List.foldlRecOn (motive := fun q : Memory => q.ueShown = m.ueShown) _ _ rfl fun q hq _ _ => (ueShown_copyLine q ..).trans hq

theorem staysBad_repairRow {s : State} {array k : Nat} (ht : array < 4) (h : s.mem.staysBad array k) (line : Nat) :
    (s.repairRow array line).mem.staysBad array k := by
  unfold State.repairRow; dsimp only
  split
  · rwa [State.exhausted, mem_evDev]
  · rw [mem_evDev]
    refine staysBad_copyRow (m := (s.modBank _ _).mem) ht ?_ line
    exact h

theorem ueShown_repairRow (s : State) (array line : Nat) : (s.repairRow array line).mem.ueShown = s.mem.ueShown := by
  unfold State.repairRow; dsimp only
  split
  · rw [State.exhausted, mem_evDev]
  · rw [mem_evDev]
    exact ueShown_copyRow (s.modBank _ _).mem array line

@[simp] theorem mem_imagesHit (s : State) (q : Nat) : (s.imagesHit q).mem = s.mem :=
  (mem_foldl _ (fun r p => by split <;> rfl) ..).trans rfl

/-- A line of a target is kept as bad, shown in MEM_LAST_UE, counted and recorded: what comes before the reaction to an
uncorrectable error (R642, R656). -/
def State.noteUe (s : State) (array unit line channel : Nat) (address : Bool) (d : Detect) : State :=
  let q := s.cfg.active.owner array line
  let s1 := if address then s.modMem fun m => { m with addrErr := inc 32 m.addrErr } else s
  let s2 := s1.modMem fun m => { m with
    bad := insNat (lineKey array unit line) m.bad, ue := tinc m.ue 16 array
    lastArray := array, lastUnit := unit, lastPart := q, lastScrub := d.use == 0, lastAddress := address
    lastLine := line, lastTime := s.tmb.now }
  let s3 := if isSram array then s2.modBank (lineBank array line) fun x => { x with ue := inc 16 x.ue }
    else s2.modMem fun m => { m with gddr := tmod m.gddr (channel % 4) fun g => { g with ue := inc 32 g.ue } }
  s3.evDev 0x0B02 (s.ueSeverity array q d) (le 1 array ++ le 1 unit ++ le 1 q ++ le 1 (b2n (d.use == 0)) ++ le 1 (b2n address) ++
    zeros 3 ++ le 8 line)

theorem noteUe_fields (s : State) (array unit line channel : Nat) (address : Bool) (d : Detect) :
    (s.noteUe array unit line channel address d).glb = s.glb ∧
    (s.noteUe array unit line channel address d).mem.contents =
      (s.mem.cells, insNat (lineKey array unit line) s.mem.bad, s.mem.raw) ∧
    (s.noteUe array unit line channel address d).mem.ueShown = (array, line, tinc s.mem.ue 16 array) := by
  unfold State.noteUe; dsimp only
  rw [quiet_glb (quiet_evDev ..), mem_evDev]
  cases address with
  | false => split <;> exact ⟨rfl, rfl, rfl⟩
  | true => split <;> exact ⟨rfl, rfl, rfl⟩

/-- A read finds a line of the device's own partition uncorrectable: SAFE; then the row is repaired, where it is one of SRAM
(R642, R649). -/
theorem uncorrectableNew_own {s : State} {array line : Nat} (ht : array < 4) (howner : s.cfg.active.owner array line = 0)
    (unit channel : Nat) (address clean : Bool) :
    s.uncorrectableNew array unit line channel address { use := 1 } clean =
      let q := (s.noteUe array unit line channel address { use := 1 }).enterSafe 0x17
      if isSram array then q.repairRow array line else q.imagesHit 0 := by
  have htcm : array ≠ 7 := by omega
  have hstoat : array ≠ 4 := by omega
  have hbadger : array ≠ 5 := by omega
  have hcount : ∀ m : Memory, m.countUe array = { m with ue := tinc m.ue 16 array } := fun m => by rw [Memory.countUe, if_pos ht]
  have hreact : ∀ q : State, q.ueReact array unit line 0 { use := 1 } clean = q.enterSafe 0x17 := fun q => by
    simp [State.ueReact, htcm, hstoat, hbadger]
  simp only [State.uncorrectableNew, State.noteUe, if_pos ht, if_neg htcm, howner, hcount, hreact]
  split
  next hsram =>
    rw [if_neg fun h => (isSram_iff_of_target ht).mp hsram h.1]
  next hsram =>
    have h0 : array = 0 := by simpa [isSram_iff_of_target ht] using hsram
    subst h0
    simp

/-- So it is kept as bad and shown, and a copy of its row does not correct it. -/
theorem uncorrectableNew_own_result {s : State} {array unit line : Nat} (ht : array < 4)
    (howner : s.cfg.active.owner array line = 0) (hs : s.glb.st ≠ .safe)
    (hcopy : s.mem.copiedAsIs array (lineKey array unit line)) (channel : Nat) (address clean : Bool) :
    let t := s.uncorrectableNew array unit line channel address { use := 1 } clean
    t.glb.st = .safe ∧ t.glb.cause = 0x17 ∧ t.mem.staysBad array (lineKey array unit line) ∧
      t.mem.ueShown = (array, line, tinc s.mem.ue 16 array) ∧ (array = 0 → t.mem.cells = s.mem.cells) := by
  obtain ⟨hglb, hcontents, hshown⟩ := noteUe_fields s array unit line channel address { use := 1 }
  obtain ⟨hcells, hbad, hkept⟩ := fields_of_contents hcontents
  have hcause := cause_enterSafe (s := s.noteUe array unit line channel address { use := 1 }) (by rwa [hglb]) 0x17
  have hstays : (s.noteUe array unit line channel address { use := 1 }).mem.staysBad array (lineKey array unit line) := by
    rw [Memory.staysBad, Memory.copiedAsIs, hbad, hkept]
    exact ⟨mem_insNat_self .., hcopy⟩
  rw [uncorrectableNew_own ht howner]
  dsimp only
  split
  next hsram =>
    refine ⟨by simp, by simpa using hcause, staysBad_repairRow ht (by simpa using hstays) line, ?_, fun h0 => ?_⟩
    · rw [ueShown_repairRow, mem_enterSafe, hshown]
    · exact absurd h0 ((isSram_iff_of_target ht).mp hsram)
  next =>
    exact ⟨by simp, by simpa using hcause, by simpa using hstays, by simpa using hshown, fun _ => by simpa using hcells⟩

/-- A line's stored bytes are found in error, in the present main clock. -/
def State.foundBad (s : State) (array unit line : Nat) (stored : Bytes) : State :=
  (s.keepRaw array unit line stored).modMem fun m =>
    { m with detAt := s.mc, detLines := insNat (lineKey array unit line) s.detected }

section
variable {array unit line channel : Nat} {stored : Bytes} (ht : array < 4)
  (hdec : decodeStored array unit channel line stored = .uncorrectable ∨ decodeStored array unit channel line stored = .address)
include ht hdec

theorem lineRead_uncorrectable (s : State) (d : Detect) (clean : Bool) : ∃ address,
    s.lineRead array unit line channel stored d clean =
      (s.keepRaw array unit line stored).uncorrectable array unit line channel address d clean := by
  have htcm : array ≠ 7 := by omega
  rcases hdec with h | h
  · exact ⟨false, by simp only [State.lineRead, h, if_neg htcm]⟩
  · exact ⟨true, by simp only [State.lineRead, h, if_neg htcm]⟩

theorem exec_uncorrectable {s : State} {dt : Nat} (hnew : (s.advance dt).detected.contains (lineKey array unit line) = false)
    (use a b : Nat) (clean : Bool) : ∃ address, exec (.uncorrectable dt array unit line channel stored use a b clean) s =
      .next (((s.advance dt).foundBad array unit line stored).uncorrectableNew array unit line channel address { use, a, b }
        clean) := by
  have harray : array ≤ 7 := by omega
  have hnotYet : ¬ ((s.advance dt).keepRaw array unit line stored).detected.contains (lineKey array unit line) = true :=
    ne_true_of_eq_false hnew
  obtain ⟨address, hread⟩ := lineRead_uncorrectable ht hdec (s.advance dt) { use, a, b } clean
  refine ⟨address, ?_⟩
  simp only [exec, execUncorrectable, if_pos harray, hread, State.uncorrectable, if_neg hnotYet]
  rfl

theorem copiedAsIs_foundBad (s : State) :
    (s.foundBad array unit line stored).mem.copiedAsIs array (lineKey array unit line) := by
  intro l b w n hkey hlookup
  have hb : b = stored := by
    rw [← tget_tset_self s.mem.raw (lineKey array unit line) stored]
    exact (congrArg (·.getD default) hlookup.symm :)
  rw [hb, decodeStored_of_lineKey ht hkey channel]
  rcases hdec with h | h <;> simp [h]

end

/-- Settles O31: a correction without a row repair is `correct_withoutRepair`; an uncorrectable line of partition 0 is
`uncorrectableNew_own_result`, where the row's repair copies the line as it is. -/
theorem memoryErrorsAreKeptAndSafe : Obligations.MemoryErrorsAreKeptAndSafe := by
  refine ⟨fun dt array unit line channel stored s => ⟨fun scrub h => exec_corrected_clean h dt scrub s,
    fun w n harray h hrepair => exec_corrected_read harray h hrepair dt s, fun w n h => exec_corrected_scrub h dt s,
    fun ch n lines w clean hch h1 h3 => exec_edc_repeated hch h1 h3 dt line lines w clean s,
    fun ms => exec_scrubLate dt array ms s⟩,
    fun dt array unit line channel stored s ht hdec hnew howner hs => ?_⟩
  obtain ⟨address, hexec⟩ := exec_uncorrectable ht hdec hnew 1 0 0 false
  obtain ⟨hsafe, hcause, ⟨hbad, -⟩, hshown, hcells⟩ := uncorrectableNew_own_result
    (s := (s.advance dt).foundBad array unit line stored) ht howner hs (copiedAsIs_foundBad ht hdec _) channel address false
  simp only [Memory.ueShown, Prod.mk.injEq] at hshown
  obtain ⟨hlast, hline, hue⟩ := hshown
  refine ⟨_, hexec, hsafe, hcause, hbad, hline, hlast, hcells, ?_⟩
  rw [hue]
  exact tget_tinc_self ..

end Sys2Proof.Machine
end

section
/-! The Owls in RUN (R703, R715, R716), and the flash side of Owl-F (R722 to R725). -/

namespace Sys2Proof.Machine

/-! ### One Owl of the two -/

@[simp] theorem owlOf_advance (s : State) (dt i : Nat) : (s.advance dt).owlOf i = s.owlOf i := rfl
@[simp] theorem owlCyc_advance (s : State) (dt : Nat) : (s.advance dt).owlCyc = (s.mc + dt) / 8 := rfl
@[simp] theorem windowAt_advance (s : State) (dt i : Nat) : (s.advance dt).windowAt i = s.windowAt i := rfl

@[simp] theorem owlOf_modOwl_self (s : State) (i : Nat) (f : Owl → Owl) : (s.modOwl i f).owlOf i = f (s.owlOf i) := by
  by_cases hi : i = 0 <;> simp [State.modOwl, State.owlOf, hi]

/-- A change of one Owl stays within the Owls. -/
theorem modOwl_outside (s : State) (i : Nat) (f : Owl → Owl) : { s.modOwl i f with owl := {} } = { s with owl := {} } := by
  unfold State.modOwl; split <;> rfl

/-! ### Periods -/

theorem owlRoll_within {s : State} {i : Nat} (hcyc : s.owlCyc < (s.owlOf i).startCyc + (s.owlOf i).period) :
    s.owlRoll i = s := by
  simp [State.owlRoll, hcyc]

/-- A period in RUN that is over without a good service is a trap with event 8 (R715). -/
theorem owlRoll_expired {s : State} {i : Nat} (hlive : (s.owlOf i).live = true) (hrun : (s.owlOf i).st = .run)
    (hserved : (s.owlOf i).served = false) (hover : (s.owlOf i).startCyc + (s.owlOf i).period ≤ s.owlCyc) :
    s.owlRoll i = s.owlTrap i 8 := by
  simp [State.owlRoll, hlive, hrun, hserved, Nat.not_lt.mpr hover]

theorem owlTrap_owlOf (s : State) (i event : Nat) : (s.owlTrap i event).owlOf i =
    { s.owlOf i with st := .trap, lastEvent := event, trapCyc := s.owlCyc, nmi := if i = 0 then [0, 1, 2] else [3] } :=
  owlOf_modOwl_self ..

/-- A trap leaves its capture for the black box, and the operating state and Shroud alone (R716, R720). -/
theorem owlTrap_elsewhere (s : State) (i event : Nat) : i ∈ (s.owlTrap i event).nvm.capPending ∧
    (s.owlTrap i event).glb = s.glb ∧ (s.owlTrap i event).shr = s.shr :=
  ⟨mem_insNat_self .., glb_owlTrap .., by simp [State.owlTrap, State.fresh]⟩

section
variable {s : State} {dt i : Nat} (hrun : (s.owlOf i).st = .run)
include hrun

theorem exec_owlWindowOpen_due (hserved : (s.owlOf i).served = false)
    (hwithin : (s.mc + dt) / 8 < (s.owlOf i).startCyc + (s.owlOf i).period)
    (hdue : (s.owlOf i).startCyc + s.windowAt i ≤ (s.mc + dt) / 8) :
    exec (.owlWindowOpen dt i) s = .next ((s.advance dt).modOwl i fun y => { y with windowOpen := true }) := by
  have hroll : (s.advance dt).owlRoll i = s.advance dt := owlRoll_within hwithin
  simp [exec, execOwlWindowOpen, hroll, hrun, hserved, hdue]

variable (hlive : (s.owlOf i).live = true) (hover : (s.owlOf i).startCyc + (s.owlOf i).period ≤ (s.mc + dt) / 8)
include hlive hover

theorem exec_owlPeriodStart_served (hserved : (s.owlOf i).served = true) :
    exec (.owlPeriodStart dt i) s = .next ((s.advance dt).owlNext i) := by
  simp [exec, execOwlPeriodStart, hlive, hrun, hserved, hover]

theorem exec_owlExpiry_unserved (hserved : (s.owlOf i).served = false) :
    exec (.owlExpiry dt i) s = .next ((s.advance dt).owlTrap i 8) := by
  have hroll : (s.advance dt).owlRoll i = (s.advance dt).owlTrap i 8 := owlRoll_expired hlive hrun hserved hover
  simp [exec, execOwlExpiry, hroll]

end

/-! ### The flash side of Owl-F -/

@[simp] theorem quiet_suspendRecord (s : State) (event us : Nat) : (s.suspendRecord event us).quiet = s.quiet := quiet_evDev ..

theorem owl_and_rest_of_quiet {s t : State} {o : Owls} (h : t.quiet = { s.quiet with owl := o }) :
    t.owl = o ∧ { t.quiet with owl := {} } = { s.quiet with owl := {} } :=
  ⟨(congrArg State.owl h :), congrArg (fun q : State => { q with owl := {} }) h⟩

/-- Owl-F suspended by a flash operation (R722). -/
def Owl.suspended (x : Owl) : Owl := { x with st := .suspended, prior := x.st, suspends := inc 16 x.suspends }

/-- Owl-F after a flash operation that ends at an Owl cycle and local time (R724). -/
def Owl.resumed (x : Owl) (cyc time : Nat) : Owl :=
  { x with st := x.prior, prior := .boot, startCyc := cyc, startTime := time, served := false, windowOpen := x.prior == .boot }

theorem quiet_flashBusy_run {s : State} (hidle : s.owl.flash.busyFrom = none) (hmay : s.owl.flash.mayStart = true)
    (hlive : s.owl.f.live = true) (hrun : s.owl.f.st = .run) : s.flashBusy.quiet = { s.quiet with
      owl := { s.owl with f := s.owl.f.suspended, flash := { s.owl.flash with busyFrom := some s.mc } } } := by
  rw [State.flashBusy, if_neg (by simp [hidle, hmay])]; dsimp only
  rw [if_pos ⟨hlive, .inr hrun⟩, quiet_suspendRecord]
  rfl

theorem quiet_flashIdle_suspended {s : State} {b : Nat} (hbusy : s.owl.flash.busyFrom = some b)
    (hsusp : s.owl.f.st = .suspended) : s.flashIdle.quiet = { s.quiet with
      owl := { s.owl with f := s.owl.f.resumed s.owlCyc s.tmb.now, flash := { busyFrom := none, mayStart := false } } } := by
  simp only [State.flashIdle, hbusy, hsusp, if_true, quiet_suspendRecord]
  rfl

theorem exec_owlSuspend_within {s : State} {dt : Nat} (hwithin : (s.mc + dt) / 8 < s.owl.f.startCyc + s.owl.f.period) :
    exec (.owlSuspend dt) s = .next (s.advance dt).flashBusy := by
  have hroll : (s.advance dt).owlRoll 1 = s.advance dt := owlRoll_within hwithin
  simp [exec, execOwlSuspend, hroll]

/-- An operation of 250 ms is ended as one that ends by itself, after a record of its own (R723). -/
theorem exec_flashOperationTimeout_late {s : State} {dt b : Nat} (hbusy : s.owl.flash.busyFrom = some b)
    (hlate : 250 * msMc ≤ s.mc + dt - b) : exec (.flashOperationTimeout dt) s =
      .next ((s.advance dt).suspendRecord 2 ((s.mc + dt - b) / usMc)).flashIdle := by
  simp [exec, execFlashOperationTimeout, hbusy, hlate]

/-- Settles O33: the periods are `owlRoll` and `owlNext`; a flash operation that ends, by itself or late, is
`quiet_flashIdle_suspended`. -/
theorem owlPeriodsAndFlash : Obligations.OwlPeriodsAndFlash := by
  refine ⟨fun dt i s _ hlive hrun => ⟨fun hserved hwithin hdue => ?_, fun hserved hover => ?_, fun hserved hover => ?_⟩,
    fun dt s => ⟨fun hidle hmay hlive hrun hwithin => ?_, fun b hbusy hsusp => ⟨?_, fun hlate => ?_⟩⟩⟩
  · refine ⟨_, exec_owlWindowOpen_due hrun hserved hwithin hdue, ?_, modOwl_outside ..⟩
    rw [owlOf_modOwl_self]
  · refine ⟨_, exec_owlPeriodStart_served hrun hlive hover hserved, ?_, ?_, ?_, modOwl_outside ..⟩ <;>
      simp [State.owlNext, Owl.next]
  · obtain ⟨hcap, hglb, hshr⟩ := owlTrap_elsewhere (s.advance dt) i 8
    refine ⟨_, exec_owlExpiry_unserved hrun hlive hover hserved, ?_, ?_, ?_, hcap, hglb, hshr⟩ <;> rw [owlTrap_owlOf]
    rfl
  · obtain ⟨howl, hrest⟩ := owl_and_rest_of_quiet (quiet_flashBusy_run (s := s.advance dt) hidle hmay hlive hrun)
    refine ⟨_, exec_owlSuspend_within hwithin, ?_, ?_, ?_, hrest⟩ <;> rw [howl] <;> rfl
  · obtain ⟨howl, hrest⟩ := owl_and_rest_of_quiet (quiet_flashIdle_suspended (s := s.advance dt) hbusy hsusp)
    refine ⟨_, rfl, ?_, ?_, ?_, ?_, ?_, ?_, ?_, hrest⟩ <;> rw [howl] <;> rfl
  · have hrecord := quiet_suspendRecord (s.advance dt) 2 ((s.mc + dt - b) / usMc)
    have hsame : (State.suspendRecord _ _ _).owl = s.owl := (quiet_owl hrecord :)
    obtain ⟨howl, hrest⟩ := owl_and_rest_of_quiet (quiet_flashIdle_suspended (by rwa [hsame]) (by rwa [hsame]))
    refine ⟨_, exec_flashOperationTimeout_late hbusy hlate, ?_, ?_, by rw [hrest, hrecord]⟩ <;> rw [howl]
    exact congrArg (·.f.prior) hsame

end Sys2Proof.Machine
end

section
/-! The queue, the clock, the fuses, the memories and the die Shroud under every command: the laws `held_`, `keeps_` and
`frees_` of the single commands put together. -/

namespace Sys2Proof.Machine

/-- The command that ends in o runs to a next state; the queue stays, the clock has moved by the command's own time, no blown
fuse is lost, and the memories keep their canonical form. -/
def RunsFreeing (s : State) (o : Host.Outcome State Fault Refusal) : Prop :=
  ∃ dt t, o = .next t ∧ freedTo (s.advance dt).held t.held

/-- And Shroud stays as it is. -/
def RunsHolding (s : State) (o : Host.Outcome State Fault Refusal) : Prop :=
  ∃ dt t, o = .next t ∧ heldTo (s.advance dt).held t.held

theorem RunsHolding.of_held {s : State} {o : Host.Outcome State Fault Refusal} {dt : Nat}
    (h : ∃ t, o = .next t ∧ t.held = (s.advance dt).held) : RunsHolding s o := by
  obtain ⟨t, ho, ht⟩ := h
  exact ⟨dt, t, ho, ht ▸ heldTo_refl _⟩

theorem RunsHolding.freeing {s : State} {o : Host.Outcome State Fault Refusal} (h : RunsHolding s o) : RunsFreeing s o := by
  obtain ⟨dt, t, ho, ht⟩ := h
  exact ⟨dt, t, ho, ht.1⟩

/-- Every command that is none of Shroud's own events (R18, R20). -/
theorem exec_runsHolding {c : Instr} (hc : reachesShroud c = false) (s : State) : RunsHolding s (exec c s) := by
  cases c with
  | domainRelease => exact .of_held (held_execDomainRelease ..)
  | hold => exact .of_held (held_execHold ..)
  | domainPowerGoodTimeout => exact .of_held (held_execDomainPowerGoodTimeout ..)
  | thermalTripHoldEnd => exact .of_held (held_execThermalTripHoldEnd ..)
  | returnWipe => exact ⟨_, keeps_execReturnWipe ..⟩
  | injectionTest => exact ⟨_, keeps_execInjectionTest ..⟩
  | bootComplete => exact ⟨_, keeps_execBootComplete ..⟩
  | startupCalibrationDone => exact .of_held (held_execStartupCalibrationDone ..)
  | frameTick => exact ⟨_, keeps_execFrameTick ..⟩
  | dC => exact .of_held (held_execDC ..)
  | mailboxPosted => exact .of_held (held_execMailboxPosted ..)
  | dV => exact .of_held (held_execDV ..)
  | ingEnd => exact .of_held (held_execIngEnd ..)
  | shdStart => exact .of_held (held_execShdStart ..)
  | shdEnd => exact .of_held (held_execShdEnd ..)
  | gldStart => exact .of_held (held_execGldStart ..)
  | gldEnd => exact .of_held (held_execGldEnd ..)
  | slfStart => exact .of_held (held_execSlfStart ..)
  | slfEnd => exact .of_held (held_execSlfEnd ..)
  | closeOut => exact .of_held (held_execCloseOut ..)
  | configActivate => exact ⟨_, keeps_execConfigActivate ..⟩
  | sync => exact ⟨_, keeps_execSync ..⟩
  | ppsInEdge => exact ⟨_, keeps_execPpsInEdge ..⟩
  | syncTimeout => exact .of_held (held_execSyncTimeout ..)
  | holdoverExpiry => exact .of_held (held_execHoldoverExpiry ..)
  | gmChange => exact .of_held (held_execGmChange ..)
  | pulseArm => exact .of_held (held_execPulseArm ..)
  | pulseDisarm => exact .of_held (held_execPulseDisarm ..)
  | pulseFire => exact .of_held (held_execPulseFire ..)
  | pulseEnd => exact .of_held (held_execPulseEnd ..)
  | reportWindowWrite => exact .of_held (held_execReportWindowWrite ..)
  | reportComplete => exact .of_held (held_execReportComplete ..)
  | goldenReportWrite => exact .of_held (held_execGoldenReportWrite ..)
  | openingWrite => exact .of_held (held_execOpeningWrite ..)
  | goldenInputRead => exact .of_held (held_execGoldenInputRead ..)
  | portWInvalidWrite => exact .of_held (held_execPortWInvalidWrite ..)
  | portWInvalidRead => exact .of_held (held_execPortWInvalidRead ..)
  | portWLinkDown => exact .of_held (held_execPortWLinkDown ..)
  | wportLink => exact .of_held (held_execWportLink ..)
  | leafVerify => exact .of_held (held_execLeafVerify ..)
  | sha3Mismatch => exact .of_held (held_execSha3Mismatch ..)
  | challengeWeightsInPlace => exact .of_held (held_execChallengeWeightsInPlace ..)
  | unitDispatch => exact .of_held (held_execUnitDispatch ..)
  | auditBlockDone => exact .of_held (held_execAuditBlockDone ..)
  | challengeTileDone => exact .of_held (held_execChallengeTileDone ..)
  | engineFault => exact .of_held (held_execEngineFault ..)
  | drbgReseed => exact .of_held (held_execDrbgReseed ..)
  | entropyHealthFailure => exact .of_held (held_execEntropyHealthFailure ..)
  | csiFrameStart => exact .of_held (held_execCsiFrameStart ..)
  | csiLongPacket => exact .of_held (held_execCsiLongPacket ..)
  | csiFrameEnd => exact .of_held (held_execCsiFrameEnd ..)
  | lidarDatagram => exact .of_held (held_execLidarDatagram ..)
  | shadowPassStart => exact .of_held (held_execShadowPassStart ..)
  | shadowPassDone => exact .of_held (held_execShadowPassDone ..)
  | modelProgrammed => exact .of_held (held_execModelProgrammed ..)
  | driftFailure => exact .of_held (held_execDriftFailure ..)
  | referenceOperations => exact .of_held (held_execReferenceOperations ..)
  | calibrationMeasured => exact .of_held (held_execCalibrationMeasured ..)
  | tileReady => exact .of_held (held_execTileReady ..)
  | dieLinkRetrain => exact .of_held (held_execDieLinkRetrain ..)
  | dieLinkRetrainTimeout => exact .of_held (held_execDieLinkRetrainTimeout ..)
  | comparisonStart => exact .of_held (held_execComparisonStart ..)
  | comparisonDone => exact .of_held (held_execComparisonDone ..)
  | ageMonitor => exact .of_held (held_execAgeMonitor ..)
  | trustHeartbeat => exact .of_held (held_execTrustHeartbeat ..)
  | tdegExpiry => exact .of_held (held_execTdegExpiry ..)
  | ledgerRequest => exact .of_held (held_execLedgerRequest ..)
  | checkpoint => exact .of_held (held_execCheckpoint ..)
  | voteTimeout => exact .of_held (held_execVoteTimeout ..)
  | resyncCopyDone => exact .of_held (held_execResyncCopyDone ..)
  | owlSetup => exact .of_held (held_execOwlSetup ..)
  | owlServiceWrite => exact .of_held (held_execOwlServiceWrite ..)
  | owlCheckIn => exact .of_held (held_execOwlCheckIn ..)
  | owlWindowOpen => exact .of_held (held_execOwlWindowOpen ..)
  | owlExpiry => exact .of_held (held_execOwlExpiry ..)
  | owlSuspend => exact .of_held (held_execOwlSuspend ..)
  | owlResume => exact .of_held (held_execOwlResume ..)
  | flashOperationTimeout => exact .of_held (held_execFlashOperationTimeout ..)
  | sliceDone => exact .of_held (held_execSliceDone ..)
  | sliceTimeout => exact .of_held (held_execSliceTimeout ..)
  | rotation => exact .of_held (held_execRotation ..)
  | corrected => exact ⟨_, keeps_execCorrected ..⟩
  | uncorrectable => exact ⟨_, keeps_execUncorrectable ..⟩
  | edc => exact ⟨_, keeps_execEdc ..⟩
  | scrubLate => exact .of_held (held_execScrubLate ..)
  | nocDenied => exact .of_held (held_execNocDenied ..)
  | bwShort => exact .of_held (held_execBwShort ..)
  | thermal => exact .of_held (held_execThermal ..)
  | stayLinkLossLDie => exact .of_held (held_execStayLinkLossLDie ..)
  | plibexRx => exact .of_held (held_execPlibexRx ..)
  | rxWatchdogExpiry => exact .of_held (held_execRxWatchdogExpiry ..)
  | txPeriod => exact .of_held (held_execTxPeriod ..)
  | funcStateSend => exact .of_held (held_execFuncStateSend ..)
  | safeStateRepeat => exact .of_held (held_execSafeStateRepeat ..)
  | link => exact .of_held (held_execLink ..)
  | preempt => exact .of_held (held_execPreempt ..)
  | mgmtRequest => exact .of_held (held_execMgmtRequest ..)
  | telemetry => exact .of_held (held_execTelemetry ..)
  | archive => exact .of_held (held_execArchive ..)
  | foxQuoteGo => exact .of_held (held_execFoxQuoteGo ..)
  | quoteReady => exact .of_held (held_execQuoteReady ..)
  | doorbell => exact .of_held (held_execDoorbell ..)
  | descriptorFetch => exact .of_held (held_execDescriptorFetch ..)
  | ringEnable => exact .of_held (held_execRingEnable ..)
  | ringDisable => exact .of_held (held_execRingDisable ..)
  | registerWrite => exact .of_held (held_execRegisterWrite ..)
  | bar0Access => exact .of_held (held_execBar0Access ..)
  | functionReset => exact ⟨_, keeps_execFunctionReset ..⟩
  | irqModerationTimeout => exact .of_held (held_execIrqModerationTimeout ..)
  | heldRecordWrite => exact .of_held (held_execHeldRecordWrite ..)
  | lostNotice => exact .of_held (held_execLostNotice ..)
  | ringGap => exact .of_held (held_execRingGap ..)
  | nop => exact .of_held (held_execNop ..)
  | watchOpen => exact .of_held (held_execWatchOpen ..)
  | watchParameterBlockRead => exact .of_held (held_execWatchParameterBlockRead ..)
  | watchClose => exact .of_held (held_execWatchClose ..)
  | watchClear => exact .of_held (held_execWatchClear ..)
  | frameAnnounce => exact .of_held (held_execFrameAnnounce ..)
  | modelStage => exact ⟨_, keeps_execModelStage ..⟩
  | modelStageDone => exact .of_held (held_execModelStageDone ..)
  | modelSwitch => exact .of_held (held_execModelSwitch ..)
  | planStage => exact ⟨_, keeps_execPlanStage ..⟩
  | planStageDone => exact .of_held (held_execPlanStageDone ..)
  | planSwitch => exact .of_held (held_execPlanSwitch ..)
  | goldenSchedule => exact .of_held (held_execGoldenSchedule ..)
  | goldenScheduleSet => exact ⟨_, keeps_execGoldenScheduleSet ..⟩
  | goldenScheduleDone => exact .of_held (held_execGoldenScheduleDone ..)
  | configStage => exact ⟨_, keeps_execConfigStage ..⟩
  | configStageDone => exact .of_held (held_execConfigStageDone ..)
  | configCommit => exact ⟨_, keeps_execConfigCommit ..⟩
  | configCommitModeOnly => exact ⟨_, keeps_execConfigCommitModeOnly ..⟩
  | configCommitDone => exact ⟨_, keeps_execConfigCommitDone ..⟩
  | evidenceRead => exact ⟨_, keeps_execEvidenceRead ..⟩
  | evidenceReadDone => exact .of_held (held_execEvidenceReadDone ..)
  | longOperationStart => exact ⟨_, keeps_execLongOperationStart ..⟩
  | queryContext => exact .of_held (held_execQueryContext ..)
  | queryFrame => exact .of_held (held_execQueryFrame ..)
  | queryDevice => exact .of_held (held_execQueryDevice ..)
  | tackId => exact .of_held (held_execTackId ..)
  | authRead => exact .of_held (held_execAuthRead ..)
  | authWrite => exact .of_held (held_execAuthWrite ..)
  | authDone => exact .of_held (held_execAuthDone ..)
  | tackRead => exact ⟨_, keeps_execTackRead ..⟩
  | tackWrite => exact ⟨_, keeps_execTackWrite ..⟩
  | halt => exact .of_held (held_execHalt ..)
  | resume => exact .of_held (held_execResume ..)
  | tackStep => exact .of_held (held_execTackStep ..)
  | bpSet => exact .of_held (held_execBpSet ..)
  | bpClear => exact .of_held (held_execBpClear ..)
  | breakpointHit => exact .of_held (held_execBreakpointHit ..)
  | tackStatus => exact .of_held (held_execTackStatus ..)
  | fuse => exact ⟨_, keeps_execFuse ..⟩
  | test dt tag addr data => exact .of_held (held_execTest dt tag addr data s)
  | tackBadRequest => exact .of_held (held_execTackBadRequest ..)
  | bypass => exact .of_held (held_execBypass ..)
  | idcode => exact .of_held (held_execIdcode ..)
  | samplePreload => exact .of_held (held_execSamplePreload ..)
  | extest => exact .of_held (held_execExtest ..)
  | clamp => exact .of_held (held_execClamp ..)
  | highz => exact .of_held (held_execHighz ..)
  | dieLinkNeedsRetraining => exact .of_held (held_execDieLinkNeedsRetraining ..)
  | owlPeriodStart => exact .of_held (held_execOwlPeriodStart ..)
  | busMasterEnable => exact .of_held (held_execBusMasterEnable ..)
  | lowerWordRead => exact .of_held (held_execLowerWordRead ..)
  | _ => exact Bool.noConfusion hc

/-- Every command. -/
theorem exec_runsFreeing (c : Instr) (s : State) : RunsFreeing s (exec c s) := by
  cases c with
  | powerOn => exact ⟨_, frees_execPowerOn ..⟩
  | sysReset => exact ⟨_, frees_execSysReset ..⟩
  | clockFault => exact ⟨_, frees_execClockFault ..⟩
  | powerGoodFailure => exact ⟨_, frees_execPowerGoodFailure ..⟩
  | thermalTrip => exact ⟨_, frees_execThermalTrip ..⟩
  | foxSoftwareRequest => exact ⟨_, frees_execFoxSoftwareRequest ..⟩
  | powerFailWarning => exact ⟨_, frees_execPowerFailWarning ..⟩
  | brownout => exact ⟨_, frees_execBrownout ..⟩
  | safetyFwActivate => exact ⟨_, frees_execSafetyFwActivate ..⟩
  | owlHardTimer => exact ⟨_, frees_execOwlHardTimer ..⟩
  | pchFunc => exact ⟨_, frees_execPchFunc ..⟩
  | pchOut => exact ⟨_, frees_execPchOut ..⟩
  | heartbeat => exact ⟨_, frees_execHeartbeat ..⟩
  | bind => exact ⟨_, frees_execBind ..⟩
  | unbind => exact ⟨_, frees_execUnbind ..⟩
  | stayState => exact ⟨_, frees_execStayState ..⟩
  | staySafe => exact ⟨_, frees_execStaySafe ..⟩
  | cfg => exact ⟨_, frees_execCfg ..⟩
  | nak => exact ⟨_, frees_execNak ..⟩
  | inputs => exact ⟨_, frees_execInputs ..⟩
  | hch => exact ⟨_, frees_execHch ..⟩
  | outputs => exact ⟨_, frees_execOutputs ..⟩
  | ack => exact ⟨_, frees_execAck ..⟩
  | stayFault => exact ⟨_, frees_execStayFault ..⟩
  | stayFrameReject => exact ⟨_, frees_execStayFrameReject ..⟩
  | stayLinkLossShroud => exact ⟨_, frees_execStayLinkLossShroud ..⟩
  | filteredInputChange => exact ⟨_, frees_execFilteredInputChange ..⟩
  | testPulseStart => exact ⟨_, frees_execTestPulseStart ..⟩
  | testPulseEnd => exact ⟨_, frees_execTestPulseEnd ..⟩
  | discrepancyTimeout => exact ⟨_, frees_execDiscrepancyTimeout ..⟩
  | twohandTimeout => exact ⟨_, frees_execTwohandTimeout ..⟩
  | channelDiscrepancy => exact ⟨_, frees_execChannelDiscrepancy ..⟩
  | edmChange => exact ⟨_, frees_execEdmChange ..⟩
  | edmMsExpiry => exact ⟨_, frees_execEdmMsExpiry ..⟩
  | minOffExpiry => exact ⟨_, frees_execMinOffExpiry ..⟩
  | senseChange => exact ⟨_, frees_execSenseChange ..⟩
  | senseUsExpiry => exact ⟨_, frees_execSenseUsExpiry ..⟩
  | hsCommandTimeout => exact ⟨_, frees_execHsCommandTimeout ..⟩
  | heartbeatLapse => exact ⟨_, frees_execHeartbeatLapse ..⟩
  | tackReset => exact ⟨_, frees_execTackReset ..⟩
  | idle => exact ⟨_, frees_execIdle ..⟩
  | _ => exact (exec_runsHolding rfl s).freeing

/-- Settles O1: by the definition of `step`. -/
theorem stepRunsFrontCommand : Obligations.StepRunsFrontCommand := by
  refine ⟨fun c s => rfl, fun s hs => ?_⟩
  rw [step, hs]

/-- Settles O2: every clause is a field of the state after reset. -/
theorem resetIsStartUpWithNothingOn : Obligations.ResetIsStartUpWithNothingOn := by
  have hso : ∀ o, State.reset.so o = {} := fun o => rfl
  have hpv : ∀ p, State.reset.pv p = {} := fun p => rfl
  refine ⟨reset_mem_wf, ⟨fun o => ?_, fun p => ?_⟩, rfl, rfl, rfl, rfl, rfl, rfl, rfl, rfl, fun fn r => rfl, rfl⟩
  · rw [hso]
    decide
  · rw [hpv]
    decide

/-- Settles O3: an empty queue idles, and a command's own effects are bounded by `exec_runsFreeing`. -/
theorem everyStepKeepsQueueClockFusesAndMemory : Obligations.EveryStepKeepsQueueClockFusesAndMemory := by
  intro s
  cases hq : s.pending with
  | nil => exact ⟨s, by rw [step, hq], hq, Nat.le_refl _, Nat.or_self _, id⟩
  | cons c rest =>
    obtain ⟨dt, t, hrun, hpending, hclock, hfuses, hcells⟩ := exec_runsFreeing c { s with pending := rest }
    have hmc : t.mc = s.mc + dt := hclock
    exact ⟨t, by rw [step, hq]; exact hrun, hpending, hmc ▸ Nat.le_add_right .., hfuses, hcells⟩

/-- Settles O4: Shroud is a part of what `exec_runsHolding` keeps. -/
theorem onlyShroudsOwnEventsReachShroud : Obligations.OnlyShroudsOwnEventsReachShroud := by
  intro c s hc
  obtain ⟨dt, t, hrun, -, hshr⟩ := exec_runsHolding hc s
  exact ⟨t, hrun, hshr⟩

end Sys2Proof.Machine
end

section
/-! What a change of the operating state leaves alone (R41 to R44, R46). -/

namespace Sys2Proof.Machine

/-- The state without what a change of the operating state reaches: the operating state itself, the contexts and their
verdicts, the connections, the L die's end of the Stay link, and what records change. -/
def State.unmoved (s : State) : State := { s.quiet with glb := {}, vrd := {}, plx := {}, pch := {} }

theorem unmoved_of_quiet {s t : State} (h : t.quiet = s.quiet) : t.unmoved = s.unmoved := by
  simp only [State.unmoved, h]

theorem unmoved_foldl {α : Type} (f : State → α → State) (hf : ∀ q x, (f q x).unmoved = q.unmoved) (l : List α) (s : State) :
    (l.foldl f s).unmoved = s.unmoved := by
  induction l generalizing s with
  | nil => rfl
  | cons x l ih => exact (ih _).trans (hf s x)

@[simp] theorem unmoved_stateChanged (s : State) : s.stateChanged.unmoved = s.unmoved :=
  (unmoved_foldl _ (fun q fn => by
    split
    · exact unmoved_of_quiet (quiet_signal ..)
    · rfl) ..).trans rfl

@[simp] theorem unmoved_stateRecord (s : State) (sev : Nat) : (s.stateRecord sev).unmoved = s.unmoved :=
  unmoved_of_quiet (quiet_evDev ..)

@[simp] theorem unmoved_sendTelegram (s : State) (i typ : Nat) (f : Bool) (p : Bytes) :
    (s.sendTelegram i typ f p).unmoved = s.unmoved := by
  unfold State.sendTelegram; dsimp only
  split
  · rfl
  · refine (unmoved_foldl _ (fun q m => ?_) ..).trans rfl
    rfl

@[simp] theorem unmoved_sendSafeAll (s : State) (cause : Nat) : (s.sendSafeAll cause).unmoved = s.unmoved :=
  unmoved_foldl _ (fun _ _ => unmoved_sendTelegram ..) ..

@[simp] theorem unmoved_issue (s : State) (c code t : Nat) : (s.issue c code t).unmoved = s.unmoved := by
  have hpost : ∀ (q : State) fn r frame b u, (q.postVerdict fn r frame b u).unmoved = q.unmoved := fun _ _ _ _ _ _ =>
    unmoved_of_quiet (quiet_postVerdict ..)
  unfold State.issue; dsimp only
  split
  · exact (hpost ..).trans rfl
  · exact (unmoved_foldl _ (fun _ _ => unmoved_sendTelegram ..) ..).trans ((hpost ..).trans rfl)

@[simp] theorem unmoved_shiftWindow (s : State) (c : Nat) : (s.shiftWindow c).unmoved = s.unmoved := by
  unfold State.shiftWindow; split <;> rfl

@[simp] theorem unmoved_enterSafe (s : State) (cause : Nat) : (s.enterSafe cause).unmoved = s.unmoved := by
  unfold State.enterSafe; dsimp only
  split
  · rfl
  · rw [unmoved_foldl _ fun q fn => unmoved_of_quiet (quiet_abortOps ..), unmoved_sendSafeAll,
      unmoved_foldl _ (fun q c => by simp), unmoved_stateRecord, unmoved_stateChanged]
    rfl

@[simp] theorem unmoved_moveTo (s : State) (st : OpState) : (s.moveTo st).unmoved = s.unmoved := by
  unfold State.moveTo
  split
  · rfl
  · exact (unmoved_stateChanged ..).trans rfl

/-! Components that `unmoved` keeps. -/
section
variable {s t : State} (h : t.unmoved = s.unmoved)
include h
theorem unmoved_mc : t.mc = s.mc := (congrArg State.mc h :)
theorem unmoved_fr : t.fr = s.fr := (congrArg State.fr h :)
theorem unmoved_pw : t.pw = s.pw := (congrArg State.pw h :)
theorem unmoved_aud : t.aud = s.aud := (congrArg State.aud h :)
theorem unmoved_bdg : t.bdg = s.bdg := (congrArg State.bdg h :)
theorem unmoved_cor : t.cor = s.cor := (congrArg State.cor h :)
theorem unmoved_shr : t.shr = s.shr := (congrArg State.shr h :)
theorem unmoved_tmb : t.tmb = s.tmb := (congrArg State.tmb h :)
theorem unmoved_mem : t.mem = s.mem := (congrArg State.mem h :)
theorem unmoved_rst : t.rst = s.rst := (congrArg State.rst h :)
theorem unmoved_owl : t.owl = s.owl := (congrArg State.owl h :)
theorem unmoved_cfg : t.cfg = s.cfg := (congrArg State.cfg h :)
theorem unmoved_tck : t.tck = s.tck := (congrArg State.tck h :)
end

@[simp] theorem rst_enterSafe (s : State) (cause : Nat) : (s.enterSafe cause).rst = s.rst := unmoved_rst (unmoved_enterSafe ..)

end Sys2Proof.Machine
end

section
/-! The sources that restart the sequencer (R661 to R670), and the release of its steps (R676 to R681). -/

namespace Sys2Proof.Machine

/-! ### Reset sources -/

theorem resetSource_resettable {s : State} (h : s.resettable = true) (k source : Nat) :
    s.resetSource k source = s.restart k source false := if_pos h

/-- What a restart is compared with: two states that agree in it restart to the same. -/
theorem restartedFrom_congr {s s' t : State} {k source : Nat} (h : s'.restartedFrom t k source) (hf : s'.nvm.fuses = s.nvm.fuses)
    (hslots : s'.nvm.slots = s.nvm.slots) (hflash : s'.owl.flash = s.owl.flash) (hq : s'.pending = s.pending) :
    s.restartedFrom t k source := by
  simpa only [State.restartedFrom, hf, hslots, hflash, hq] using h

theorem atStep_mono {s : State} {j k : Nat} (h : s.atStep k = true) (hjk : j ≤ k) : s.atStep j = true := by
  unfold State.atStep at h ⊢
  cases hr : s.rst.released with
  | none => simp [hr] at h
  | some i => simp only [hr, decide_eq_true_eq] at h ⊢; omega

/-- Of the sequencer only these count for a restart. -/
theorem restartedFrom_withRst {s t : State} {k source : Nat} (h : s.restartedFrom t k source) {r : Reset}
    (hr : (r.released, r.restarting, r.resetOutN, r.held, r.source) =
      (t.rst.released, t.rst.restarting, t.rst.resetOutN, t.rst.held, t.rst.source)) :
    s.restartedFrom { t with rst := r } k source := by
  simp only [Prod.mk.injEq] at hr
  obtain ⟨hrel, hrest, hout, hheld, hsrc⟩ := hr
  simp only [State.restartedFrom, hrel, hrest, hout, hheld, hsrc]
  exact h

/-- A restart from D1 loads the fuse map (R749). -/
theorem shadow_restart_d1 (s : State) (source : Nat) (b : Bool) : (s.restart 1 source b).nvm.shadow = s.nvm.fuses := by
  have hstep : (if (s.rst.restarting && s.rst.released.isSome) = true then min 1 s.rst.from_ else 1) ≤ 1 := by
    split
    · exact Nat.min_le_left ..
    · exact Nat.le_refl _
  exact if_pos hstep

theorem exec_sysReset_low {s : State} {sys : PinDrive} (hsys : sys ≠ .high) (hpf : s.rst.pf.since = none) (dt : Nat) :
    exec (.sysReset dt sys) s = .next ((({ s.advance dt with
      rst := s.rst.seePins { s.rst.pins with sys := sys } (s.mc + dt) }) : State).restart 1 2 false) := by
  simp [exec, execSysReset, pinHigh, hsys, hpf]

theorem exec_brownout_over {s : State} {w dt : Nat} (hpf : s.rst.pf.since = some w) (hw : s.mc + dt - w ≥ 10 * msMc) :
    exec (.brownout dt) s =
      let t := (s.advance dt).restart 1 1 true
      .next { t with rst := { (t.rst.seePins { t.rst.pins with pwr := .high } (s.mc + dt - 10 * msMc)) with pf := {} } } := by
  simp [exec, execBrownout, hpf, hw]

theorem exec_clockFault_refclk {s : State} (hok : s.resettable = true) (h1 : s.atStep 1 = true) (dt k : Nat) :
    exec (.clockFault dt 0 k) s =
      let t := ((s.advance dt).interrupt 1).restart 2 5 false
      .next { t with rst := { t.rst with waitRefclk := true } } := by
  have hstep : (s.advance dt).atStep 1 = true := h1
  have hres : (s.advance dt).resettable = true := hok
  simp [exec, execClockFault, hstep, hres]

theorem exec_clockFault_other {s : State} {w k : Nat} (hw : 2 ≤ w) (hok : s.resettable = true) (hk : s.atStep k = true) (dt : Nat) :
    exec (.clockFault dt w k) s = .next (((s.advance dt).interrupt k).restart 3 5 false) := by
  have hstep : (s.advance dt).atStep k = true := hk
  have hres : ((s.advance dt).interrupt k).resettable = true := hok
  simp only [exec, execClockFault, if_neg (show w ≠ 0 by omega), if_neg (show w ≠ 1 by omega), hstep, if_true,
    resetSource_resettable hres]

theorem exec_clockFault_early {s : State} {w k : Nat} (hw : 2 ≤ w) (hk : s.atStep k = false) (dt : Nat) :
    exec (.clockFault dt w k) s = .next ((s.advance dt).interrupt k) := by
  have hstep : (s.advance dt).atStep k = false := hk
  simp only [exec, execClockFault, if_neg (show w ≠ 0 by omega), if_neg (show w ≠ 1 by omega), hstep, Bool.false_eq_true, if_false]

theorem exec_powerGoodFailure_early {s : State} {k : Nat} (hk : s.atStep k = false) (dt : Nat) :
    exec (.powerGoodFailure dt k) s = .next ((s.advance dt).interrupt k) := by
  have hstep : (s.advance dt).atStep k = false := hk
  simp [exec, execPowerGoodFailure, hstep]

/-- A power-good failure of a released step: its source is a free value among the nine codes (R680). -/
theorem exec_powerGoodFailure_released {s : State} {k : Nat} (hok : s.resettable = true) (hk : s.atStep k = true) (dt : Nat) :
    ∃ v, v < 16 ∧ exec (.powerGoodFailure dt k) s =
      .next (((s.advance dt).fresh.2.interrupt k).restart (if k = 2 then 2 else 3) v false) := by
  have hstep : (s.advance dt).atStep k = true := hk
  have hres : ((s.advance dt).fresh.2.interrupt k).resettable = true := hok
  refine ⟨1 + (s.advance dt).fresh.1 % 9, by omega, ?_⟩
  rw [← resetSource_resettable hres]
  simp only [exec, execPowerGoodFailure, hstep, if_true]

/-- Settles O8: each source is `restart_restarted` from its step. -/
theorem supplyAndClockSourcesRestart : Obligations.SupplyAndClockSourcesRestart := by
  refine ⟨fun dt s hidle => ⟨rfl, fun sys hsys hpf => ?_, fun w hpf hw => ?_, fun hok h3 => ⟨fun k => ?_, fun w k hw hk => ?_, ?_,
    fun k hk2 hk => ?_⟩⟩, fun dt s => ⟨fun hhold hend => ?_, fun hok h3 => ?_, fun w k hw hk => ?_⟩⟩
  · exact ⟨_, exec_sysReset_low hsys hpf dt, restartedFrom_congr (restart_restarted (by exact hidle) 1 2 false) rfl rfl rfl rfl,
      shadow_restart_d1 ..⟩
  · refine ⟨_, exec_brownout_over hpf hw, restartedFrom_withRst ?_ rfl, rfl⟩
    exact restartedFrom_congr (restart_restarted (by exact hidle) 1 1 true) rfl rfl rfl rfl
  · refine ⟨_, exec_clockFault_refclk hok (atStep_mono h3 (by decide)) dt k, restartedFrom_withRst ?_ rfl, rfl⟩
    exact restartedFrom_congr (restart_restarted (by exact hidle) 2 5 false) rfl rfl rfl rfl
  · exact ⟨_, exec_clockFault_other hw hok hk dt, restartedFrom_congr (restart_restarted (by exact hidle) 3 5 false) rfl rfl rfl rfl⟩
  · obtain ⟨v, hv, hrun⟩ := exec_powerGoodFailure_released hok (atStep_mono h3 (show 2 ≤ 3 by decide)) dt
    exact ⟨_, v, hrun, restartedFrom_congr (restart_restarted (by exact hidle) 2 v false) rfl rfl rfl rfl, hv⟩
  · obtain ⟨v, hv, hrun⟩ := exec_powerGoodFailure_released hok hk dt
    rw [if_neg hk2] at hrun
    exact ⟨_, v, hrun, restartedFrom_congr (restart_restarted (by exact hidle) 3 v false) rfl rfl rfl rfl, hv⟩
  · refine ⟨_, by simp only [exec, execThermalTripHoldEnd, State.advance_fields, hhold, hend, and_self, if_true]; rfl, ?_⟩
    exact ⟨rfl, rfl, rfl, rfl, rfl, rfl, rfl, rfl, rfl⟩
  · have hstep : (s.advance dt).atStep 3 = true := h3
    have hres : ((s.advance dt).interrupt 3).resettable = true := hok
    refine ⟨_, fun k => by simp only [exec, execClockFault, hstep, State.resetFox, hres, if_true]; rfl, ?_⟩
    exact ⟨rfl, rfl, rfl, rfl, rfl, rfl, rfl, rfl, rfl⟩
  · exact ⟨_, exec_clockFault_early hw hk dt, exec_powerGoodFailure_early hk dt, lookup_filter_ne_self .., rfl⟩

/-! ### Sources inside the device -/

theorem allOff_foxRequest {s : State} (hok : s.resettable = true) (hoff : s.allOff = true)
    (hfree : ∀ x ∈ s.shr.slots, x.2.bound = false) : s.foxRequest = s.restart 3 8 false := by
  have hslots : (s.shr.slots.all fun x => !x.2.bound) = true := by simpa using hfree
  rw [State.foxRequest, hoff, hslots, Bool.and_self, if_pos rfl, resetSource_resettable hok]

theorem exec_safetyFwActivate_due {s : State} {dt c : Nat} (hok : s.resettable = true) (hoff : s.allOff = true)
    (hfree : ∀ x ∈ s.shr.slots, x.2.bound = false) (hc : s.cfg.fwCommitAt = some c) (hdue : c + 10 * msMc ≤ s.mc + dt)
    (hfox : s.fox.st ≠ .reset) : exec (.safetyFwActivate dt) s =
      .next (((s.advance dt).modCfg fun c => { c with fwCommitAt := none }).restart 3 8 false) := by
  have hcommit : s.cfg.fwCommitAt.elim false (fun t => decide (t + 10 * msMc ≤ s.mc + dt)) = true := by
    rw [hc, Option.elim_some, decide_eq_true_eq]
    exact hdue
  rw [← allOff_foxRequest (by exact hok) (by exact hoff) (by exact hfree)]
  exact congrArg Host.Outcome.next (if_pos ⟨hcommit, hfox⟩)

/-- A Tack command that has been answered changed the port and what it sends alone. -/
theorem tackCmd_accept_rest (s : State) (tag : Nat) (r : AccessRow) (open_ : Bool) :
    { s.tackCmd tag r open_ (fun q => (q, .accept)) with tck := {}, out := [] } = { s with tck := {}, out := [] } := by
  unfold State.tackCmd State.tack; dsimp only
  (repeat' split) <;> rfl

theorem exec_stayLinkLossShroud_lost {s : State} {dt : Nat} (hlost : s.shr.link.isLost (s.advance dt).cyc = true)
    (hok : s.resettable = true) : exec (.stayLinkLossShroud dt) s =
      .next (((s.advance dt).evDev 0x0806 3 (le 1 1 ++ le 1 1 ++ le 1 s.shr.link.lastSeq)).restart 2 7 false) := by
  have hres : (s.advance dt).resettable = true := hok
  simp [exec, execStayLinkLossShroud, hlost, hres]

theorem exec_owlHardTimer_safety {s : State} {dt : Nat} (hok : s.resettable = true) (hlive : s.owl.s.live = true)
    (htrap : s.owl.s.st = .trap) (hhard : (s.advance dt).owlCyc - s.owl.s.trapCyc ≥ s.hardCycles 0) :
    exec (.owlHardTimer dt 0) s = .next ((s.advance dt).restart 3 3 false) := by
  have hres : (s.advance dt).resettable = true := hok
  have hcond : ((s.advance dt).owlOf 0).live = true ∧ ((s.advance dt).owlOf 0).st = .trap ∧
      (s.advance dt).owlCyc - ((s.advance dt).owlOf 0).trapCyc ≥ (s.advance dt).hardCycles 0 := ⟨hlive, htrap, hhard⟩
  simp only [exec, execOwlHardTimer, if_pos hcond, if_true, resetSource_resettable hres]

theorem exec_tackReset_allowed {s : State} {dt : Nat} (hok : s.resettable = true) (hon : s.tackOn = true)
    (hlast : s.tck.lastTag = none) (hretry : s.tck.retry = none) (hcause : (s.advance dt).accessCause rowReset false = 0) (tag : Nat) :
    exec (.tackReset dt tag) s =
      .next (((s.advance dt).tackCmd tag rowReset false fun q => (q, .accept)).restart 2 9 false) := by
  have hon' : (s.advance dt).tackOn = true := hon
  have hrst := (congrArg State.rst (tackCmd_accept_rest (s.advance dt) tag rowReset false) :)
  have hres : ((s.advance dt).tackCmd tag rowReset false fun q => (q, .accept)).resettable = true := by
    rw [State.resettable, hrst]
    exact hok
  simp only [exec, execTackReset, State.advance_fields, hon', hlast, hretry, hcause, resetSource_resettable hres]
  rfl

/-- Settles O9: each source is `restart_restarted` from its step. -/
theorem internalSourcesRestart : Obligations.InternalSourcesRestart := by
  refine fun dt s hidle hok => ⟨?_, fun hoff hfree => ⟨?_, fun c hc hdue hfox => ?_⟩, fun hlive htrap hhard => ?_, fun hlost => ?_,
    fun tag hon hlast hretry hcause => ?_⟩
  · have hres : (s.advance dt).resettable = true := hok
    refine ⟨_, (congrArg _ (if_pos hres) :), restartedFrom_withRst ?_ rfl, rfl⟩
    exact restartedFrom_congr (restart_restarted (by exact hidle) 3 6 false) rfl rfl rfl rfl
  · exact ⟨_, congrArg Host.Outcome.next (allOff_foxRequest (s := s.advance dt) hok hoff hfree),
      restartedFrom_congr (restart_restarted (by exact hidle) 3 8 false) rfl rfl rfl rfl⟩
  · exact ⟨_, exec_safetyFwActivate_due hok hoff hfree hc hdue hfox,
      restartedFrom_congr (restart_restarted (by exact hidle) 3 8 false) rfl rfl rfl rfl⟩
  · exact ⟨_, exec_owlHardTimer_safety hok hlive htrap hhard,
      restartedFrom_congr (restart_restarted (by exact hidle) 3 3 false) rfl rfl rfl rfl⟩
  · have hq := quiet_evDev (s.advance dt) 0x0806 3 (le 1 1 ++ le 1 1 ++ le 1 s.shr.link.lastSeq)
    refine ⟨_, exec_stayLinkLossShroud_lost hlost hok, restartedFrom_congr (restart_restarted ?_ 2 7 false) ?_ ?_ ?_ ?_⟩
    · rw [quiet_rst hq]
      exact hidle
    · exact (congrArg (·.nvm.fuses) hq :)
    · exact (congrArg (·.nvm.slots) hq :)
    · exact (congrArg (·.owl.flash) hq :)
    · exact (congrArg State.pending hq :)
  · have hrest := tackCmd_accept_rest (s.advance dt) tag rowReset false
    refine ⟨_, exec_tackReset_allowed hok hon hlast hretry hcause tag, restartedFrom_congr (restart_restarted ?_ 2 9 false) ?_ ?_ ?_ ?_⟩
    · rw [(congrArg State.rst hrest :)]
      exact hidle
    · exact (congrArg (·.nvm.fuses) hrest :)
    · exact (congrArg (·.nvm.slots) hrest :)
    · exact (congrArg (·.owl.flash) hrest :)
    · exact (congrArg State.pending hrest :)

end Sys2Proof.Machine
end

section
/-! The release of a step, and a step that holds all later ones (R659, R676 to R681). -/

namespace Sys2Proof.Machine

/-! ### What a release starts leaves the sequencer where it is -/

theorem rst_foldl {α : Type} (f : State → α → State) (hf : ∀ q x, (f q x).rst = q.rst) (l : List α) (s : State) :
    (l.foldl f s).rst = s.rst := by
  induction l generalizing s with
  | nil => rfl
  | cons x l ih => exact (ih _).trans (hf s x)

@[simp] theorem rst_evDev (s : State) (kind sev : Nat) (payload : Bytes) : (s.evDev kind sev payload).rst = s.rst :=
  quiet_rst (quiet_evDev ..)

@[simp] theorem rst_logRecord (s : State) (k t v c : Nat) (p : Bytes) : (s.logRecord k t v c p).rst = s.rst :=
  quiet_rst (quiet_logRecord ..)

@[simp] theorem rst_evLater (s : State) (kind sev : Nat) (payload : Bytes) : (s.evLater kind sev payload).rst = s.rst := by
  unfold State.evLater; split <;> simp

@[simp] theorem rst_bootSelect (s : State) (k bank : Nat) (fallback : Bool) : (s.bootSelect k bank fallback).rst = s.rst := by
  unfold State.bootSelect; split <;> simp

@[simp] theorem rst_startFox (s : State) : s.startFox.rst = s.rst := by
  unfold State.startFox; dsimp only
  split
  · rfl
  · split <;> simp

@[simp] theorem rst_startFirmware (s : State) : s.startFirmware.rst = s.rst := by
  unfold State.startFirmware; dsimp only
  split <;> split <;> simp [State.holdAll]

@[simp] theorem rst_checkTable (s : State) : s.checkTable.rst = s.rst := by
  unfold State.checkTable; dsimp only
  split <;> simp [State.holdAll]

@[simp] theorem rst_armTick (s : State) (t : Nat) : (s.armTick t).rst = s.rst := by
  unfold State.armTick; dsimp only; split <;> rfl

@[simp] theorem rst_startTime (s : State) : s.startTime.rst = s.rst := by
  unfold State.startTime; dsimp only
  split <;> split <;> simp [State.acquired, State.modTmb]

@[simp] theorem rst_flushPending (s : State) : s.flushPending.rst = s.rst := by
  unfold State.flushPending; dsimp only
  rw [rst_foldl _ fun q x => by simp]
  exact (rst_foldl _ (fun q x => by simp) ..).trans rfl

@[simp] theorem rst_startMain (s : State) : s.startMain.rst = s.rst := by
  simp [State.startMain, State.freshNonce]

/-- Beyond D1, what a step starts leaves the sequencer alone, D8's RESET_OUT_N apart. -/
theorem rst_stepStarts {k : Nat} (hk : 2 ≤ k) (s : State) :
    (s.stepStarts k).rst = { s.rst with resetOutN := s.rst.resetOutN || k == 8 } := by
  unfold State.stepStarts
  split
  · omega
  · simp
  · simp
  · simp [State.startCores]
  · simp
  next h8 =>
    have hne : (k == 8) = false := by simpa using h8
    rw [hne, Bool.or_false]

/-! ### Releases and holds -/

theorem lookup_map_self {α : Type} (f : Nat → α) {k : Nat} {l : List Nat} (h : k ∈ l) :
    (l.map fun j => (j, f j)).lookup k = some (f k) := by
  induction l with
  | nil => simp at h
  | cons j l ih =>
    by_cases hj : k = j
    · simp [hj]
    · have hne : (k == j) = false := by simpa using hj
      simpa [List.lookup, hne] using ih (by simpa [hj] using h)

/-- The sequencer as a DOMAIN_RELEASE finds it, with the pins and conditions that come with the command. -/
def State.seen (s : State) (pins : ResetPins) (good : List Nat) : State :=
  { s with rst := (s.rst.seePins pins s.mc).seeGood good s.mc }

/-- The sequencer once step k is released, before anything starts (R676, R684). -/
def State.stepReleased (s : State) (k : Nat) : State :=
  { s with rst := { s.rst with
    released := some k, releasedAt := s.mc, restarting := k != 10
    cgWait := tset s.rst.cgWait k (if 2 ≤ k then sat 16 ((s.mc - s.rst.releasedAt - s.rst.gap k * refMc) / usMc) else 0)
    on := ((stepDomains k).filter fun d => !s.rst.masked d && !(d == 131 && s.life == 5)).foldl (fun l d => insNat d l) s.rst.on } }

theorem State.releaseStep_eq (s : State) (k : Nat) : s.releaseStep k = (s.stepReleased k).stepStarts k := rfl

theorem exec_domainRelease {s : State} {dt k : Nat} {pins : ResetPins} {good : List Nat}
    (h : ((s.advance dt).seen pins good).mayRelease k = true) :
    exec (.domainRelease dt k pins good) s = .next (((s.advance dt).seen pins good).releaseStep k) :=
  congrArg Host.Outcome.next (if_pos h)

theorem mayRelease_seen {s : State} {k c : Nat} {pins : ResetPins} {good : List Nat} (h2 : 2 ≤ k) (h10 : k ≤ 10)
    (hrel : s.rst.released = some (k - 1)) (hheld : s.rst.held = none) (hpf : s.rst.pf.holding = false)
    (htrip : s.rst.tripHold = false) (hlife : s.life ≠ 5) (hgap : s.rst.gap k * refMc ≤ s.mc - s.rst.releasedAt)
    (hsys : pins.sys = .high) (hpwr : pins.pwr = .high) (hwait : s.rst.waitRefclk = true → 1 ∈ good) (hgood : k ∈ good)
    (hcond : s.rst.condFrom.lookup k = some c) (hlong : c + 256 * refMc ≤ s.mc)
    (hd8 : k = 8 → msMc ≤ s.mc - s.rst.resetOutAt) : (s.seen pins good).mayRelease k = true := by
  have hlook := lookup_map_self (fun j => (s.rst.condFrom.lookup j).getD s.mc) hgood
  have hrefclk : (s.rst.waitRefclk && !good.contains 1) = false := by
    cases hw : s.rst.waitRefclk with
    | false => rfl
    | true => simpa using hwait hw
  have hlife' : (s.life == 5) = false := by simpa using hlife
  have hgap' : (if k ≤ 1 then decide (s.mc - s.rst.releasedAt ≥ 100 * usMc)
      else decide (s.mc - s.rst.releasedAt ≥ s.rst.gap k * refMc)) = true := by
    rw [if_neg (by omega), decide_eq_true_eq]
    exact hgap
  have hk1 : (k != 1) = true := by simpa using (by omega : k ≠ 1)
  have hpins : (s.seen pins good).rst.pinsHigh = true := by simp [State.seen, Reset.pinsHigh, Reset.seeGood, Reset.seePins, pinHigh, hsys, hpwr]
  have hd8' : (k != 8 || decide (s.mc - s.rst.resetOutAt ≥ msMc)) = true := by
    by_cases h8 : k = 8
    · simp [hd8 h8]
    · simp [h8]
  have hlook' : ((s.seen pins good).rst.condFrom.lookup k).elim false
      (fun t => decide (t + (if k = 1 then 0 else 256 * refMc) ≤ (s.seen pins good).mc)) = true := by
    rw [show (s.seen pins good).rst.condFrom.lookup k = some c from hlook.trans (by rw [hcond]; rfl), Option.elim_some,
      if_neg (by omega), decide_eq_true_eq]
    exact hlong
  have hrefclk' : ((s.seen pins good).rst.waitRefclk && decide (2 ≤ k)) = false := by
    rw [show (s.seen pins good).rst.waitRefclk = false from hrefclk, Bool.false_and]
  have hrel' : (s.rst.released == if k = 0 then none else some (k - 1)) = true := by
    rw [if_neg (by omega), hrel, beq_self_eq_true]
  simp only [State.mayRelease, Bool.and_eq_true]
  refine ⟨⟨⟨⟨⟨⟨⟨⟨⟨⟨⟨?_, ?_⟩, ?_⟩, ?_⟩, hrel'⟩, ?_⟩, ?_⟩, ?_⟩, ?_⟩, ?_⟩, ?_⟩, hd8'⟩
  · simp [State.seen, Reset.seeGood, Reset.seePins, hheld]
  · simp [State.seen, Reset.seeGood, Reset.seePins, hpf]
  · simp [State.seen, Reset.seeGood, Reset.seePins, htrip]
  · simpa using h10
  · rw [show (s.seen pins good).life = s.life from rfl, hlife', Bool.and_false, Bool.not_false]
  · exact hgap'
  · rw [hpins, Bool.or_true]
  · rw [hk1, Bool.true_or]
  · rw [hrefclk', Bool.not_false]
  · rw [hlook', Bool.or_true]

theorem mayRelease_held {s : State} {k : Nat} (h : s.rst.held.isSome = true) : s.mayRelease k = false := by
  have hheld : s.rst.held.isNone = false := by simpa using h
  simp only [State.mayRelease, hheld, Bool.false_and]

/-- A held step: no later one is released, and only what is seen of pins and conditions changes (R679). -/
theorem exec_domainRelease_held {s : State} {i j : Nat} (hheld : s.rst.held = some i) (hj : j ≠ 2) (dt : Nat) (pins : ResetPins)
    (good : List Nat) : exec (.domainRelease dt j pins good) s = .next ((s.advance dt).seen pins good) := by
  have hno : ((s.advance dt).seen pins good).mayRelease j = false := mayRelease_held (congrArg Option.isSome hheld)
  show Host.Outcome.next (if ((s.advance dt).seen pins good).mayRelease j then _ else _) = _
  rw [hno, if_neg Bool.false_ne_true, if_neg fun h => hj h.1]
  rfl

theorem exec_hold_late {s : State} {dt k : Nat} (h2 : 2 ≤ k) (h10 : k ≤ 10) (hheld : s.rst.held = none)
    (hrel : s.rst.released = some (k - 1)) (htrip : s.rst.tripHold = false) (hpf : s.rst.pf.holding = false)
    (hno : (s.advance dt).mayRelease k = false) (hlate : s.mc + dt - s.rst.releasedAt ≥ (s.rst.gap k + s.rst.cgTimeout) * refMc)
    (cond : Nat) : exec (.hold dt k cond) s = .next { s.advance dt with
      rst := { s.rst with held := some k, resetOutN := false, resetOutAt := if s.rst.resetOutN then s.mc + dt else s.rst.resetOutAt }
      nvm := { s.nvm with rst := { s.nvm.rst with
        lastHold := k, counts := tinc s.nvm.rst.counts 16 0
        pending := s.nvm.rst.pending ++ [{ kind := 0x0C03, severity := 3, payload := le 1 k ++ le 1 cond ++ zeros 2 }] } } } := by
  refine congrArg Host.Outcome.next (if_pos ⟨h2, h10, ?_, hrel, ?_, ?_, ?_, hlate⟩)
  · simp [hheld]
  · simp [htrip]
  · simp [hpf]
  · simp [hno]

/-- Settles O10: a release by `mayRelease_seen` and `rst_stepStarts`; what is held stays so. -/
theorem stepsAreReleasedInOrder : Obligations.StepsAreReleasedInOrder := by
  refine ⟨fun dt k c pins good s h2 h10 hrel hheld hpf htrip hlife hgap hsys hpwr hwait hgood hcond hlong hd8 => ?_,
    fun dt k cond s h2 h10 hheld hrel htrip hpf hno hlate => ?_⟩
  · have hmay := mayRelease_seen (s := s.advance dt) h2 h10 hrel hheld hpf htrip hlife hgap hsys hpwr hwait hgood hcond hlong hd8
    obtain ⟨t, hrun, hkept⟩ := held_execDomainRelease dt k pins good s
    have ht : ((s.advance dt).seen pins good).releaseStep k = t :=
      Host.Outcome.next.inj ((exec_domainRelease hmay).symm.trans hrun)
    have hrst := rst_stepStarts h2 (((s.advance dt).seen pins good).stepReleased k)
    rw [← State.releaseStep_eq, ht] at hrst
    refine ⟨t, hrun, ?_, ?_, ?_, (congrArg (·.2.2.2.2) hkept :), (congrArg (·.1) hkept :)⟩
    all_goals rw [hrst]; rfl
  · refine ⟨_, exec_hold_late h2 h10 hheld hrel htrip hpf hno hlate cond, rfl, rfl, rfl, rfl, rfl, rfl, rfl, rfl,
      fun d j pins good hj => ?_⟩
    exact ⟨_, exec_domainRelease_held rfl hj d pins good, rfl, rfl, rfl⟩

end Sys2Proof.Machine
end

section
/-! Boundary scan (R830 to R832). -/

namespace Sys2Proof.Machine

@[simp] theorem advance_scanOn (s : State) (dt : Nat) : (s.advance dt).scanOn = s.tackOn := rfl
@[simp] theorem advance_scanDrives (s : State) (dt : Nat) : (s.advance dt).scanDrives = s.scanDrives := rfl

/-- A shift changes the port and what the device sends, and nothing else. -/
theorem scanBypass_rest (s : State) (ir : Nat) (din driving highz : Bool) :
    { s.scanBypass ir din driving highz with scn := {}, out := [] } = { s with scn := {}, out := [] } := rfl

theorem scanBoundary_rest (s : State) (ir : Nat) (cap din : List Nat) (driving : Bool) :
    { s.scanBoundary ir cap din driving with scn := {}, out := [] } = { s with scn := {}, out := [] } := rfl

/-- The scan puts nothing on a guarded pin (R832). -/
theorem pinDrive_guarded (t : State) {p : Pin} (h : p.guarded = true) : t.pinDrive p = .own := if_pos h

theorem exec_bypass {s : State} (h : s.tackOn = true) (dt : Nat) (d : Bool) :
    exec (.bypass dt d) s = .next ((s.advance dt).scanBypass 0xF d false false) :=
  congrArg Host.Outcome.next (if_pos h)

theorem exec_idcode {s : State} (h : s.tackOn = true) (dt : Nat) :
    exec (.idcode dt) s = .next (((s.advance dt).modScn fun x => { x with ir := 0x1, driving := false, highz := false }).emit
      (.scan (bitsLsb 32 0x19470B4F))) :=
  congrArg Host.Outcome.next (if_pos h)

theorem exec_samplePreload {s : State} (h : s.tackOn = true) (dt : Nat) (cap din : List Nat) :
    exec (.samplePreload dt cap din) s = .next ((s.advance dt).scanBoundary 0x2 cap din false) :=
  congrArg Host.Outcome.next (if_pos h)

theorem exec_extest {s : State} (h : s.tackOn = true) (dt : Nat) (cap din : List Nat) :
    exec (.extest dt cap din) s = .next (if s.scanDrives then (s.advance dt).scanBoundary 0x3 cap din true
      else (s.advance dt).scanBypass 0xF false false false) := by
  cases hd : s.scanDrives <;> simp [exec, execExtest, h, hd]

theorem exec_clamp {s : State} (h : s.tackOn = true) (dt : Nat) (d : Bool) :
    exec (.clamp dt d) s = .next ((s.advance dt).scanBypass (if s.scanDrives then 0x4 else 0xF) d s.scanDrives false) := by
  cases hd : s.scanDrives <;> simp [exec, execClamp, h, hd]

theorem exec_highz {s : State} (h : s.tackOn = true) (dt : Nat) (d : Bool) :
    exec (.highz dt d) s = .next ((s.advance dt).scanBypass (if s.scanDrives then 0x5 else 0xF) d false s.scanDrives) := by
  cases hd : s.scanDrives <;> simp [exec, execHighz, h, hd]

/-- Settles O60: the six instructions one by one; each is a shift of the port alone. -/
theorem boundaryScanLeavesTheDeviceAlone : Obligations.BoundaryScanLeavesTheDeviceAlone := by
  intro dt cap din d s hon c hc
  have hdrive : s.life = 1 ∨ s.life = 2 ∨ s.life = 4 → s.scanDrives = true := by
    simp only [State.scanDrives, Bool.or_eq_true, beq_iff_eq]; omega
  have hidle : s.life = 0 ∨ s.life = 3 → s.scanDrives = false := by
    rintro (h | h) <;> simp [State.scanDrives, h]
  rcases hc with rfl | rfl | rfl | rfl | rfl | rfl
  · exact ⟨_, exec_bypass hon .., scanBypass_rest .., fun p hp => pinDrive_guarded _ hp, by simp [State.scanBypass]⟩
  · exact ⟨_, exec_idcode hon .., rfl, fun p hp => pinDrive_guarded _ hp, by simp⟩
  · exact ⟨_, exec_samplePreload hon .., scanBoundary_rest .., fun p hp => pinDrive_guarded _ hp, by simp [State.scanBoundary]⟩
  · refine ⟨_, exec_extest hon .., ?_, fun p hp => pinDrive_guarded _ hp, ?_⟩
    · split
      · exact scanBoundary_rest ..
      · exact scanBypass_rest ..
    · refine ⟨nofun, nofun, nofun, fun h => ⟨fun _ => ?_, nofun, nofun⟩, fun h _ _ => ?_⟩
      · simp [State.scanBoundary, hdrive h]
      · simp [State.scanBypass, hidle h]
  · refine ⟨_, exec_clamp hon .., scanBypass_rest .., fun p hp => pinDrive_guarded _ hp, ?_⟩
    refine ⟨nofun, nofun, nofun, fun h => ⟨nofun, fun _ => ?_, nofun⟩, fun h _ _ => ?_⟩
    · simp [State.scanBypass, hdrive h]
    · simp [State.scanBypass, hidle h]
  · refine ⟨_, exec_highz hon .., scanBypass_rest .., fun p hp => pinDrive_guarded _ hp, ?_⟩
    refine ⟨nofun, nofun, nofun, fun h => ⟨nofun, nofun, fun _ => ?_⟩, fun h _ _ => ?_⟩
    · simp [State.scanBypass, hdrive h]
    · simp [State.scanBypass, hidle h]

end Sys2Proof.Machine
end

section
/-! The Tack debug port (R816 to R828): what a request does that is served, and the nonce of a refused AUTH_DONE. -/

namespace Sys2Proof.Machine

/-! ### Requests that are served -/

/-- A request with a new TAG and no access in progress runs its command, where its row of R819 lets it. -/
theorem tackCmd_served {s : State} {tag : Nat} {r : AccessRow} {o : Bool} (hon : s.tackOn = true)
    (htag : s.tck.lastTag ≠ some (tag % 16)) (hretry : s.tck.retry = none) (hrow : s.accessCause r o = 0)
    (run : State → State × TackAns) : s.tackCmd tag r o run = (run s).1.tackSend (tag % 16) (run s).2 := by
  simp [State.tackCmd, State.tack, hon, htag, hretry, hrow]

/-! ### The response -/

@[simp] theorem tackSend_out (s : State) (tag : Nat) (a : TackAns) : (s.tackSend tag a).out = s.out ++ [.tack (a.resp tag)] := by
  cases a <;> rfl

/-- A response changes the port and what is sent. -/
theorem tackSend_rest (s : State) (tag : Nat) (a : TackAns) :
    { s.tackSend tag a with tck := {}, out := [] } = { s with tck := {}, out := [] } := by
  cases a <;> rfl

/-- Of the port it changes the last TAG and response, the access in progress, and with an ERROR the cause. -/
@[simp] theorem tackSend_tck (s : State) (tag : Nat) (a : TackAns) :
    (s.tackSend tag a).tck.session = s.tck.session ∧ (s.tackSend tag a).tck.sig = s.tck.sig ∧
    (s.tackSend tag a).tck.bps = s.tck.bps ∧ (s.tackSend tag a).tck.haltCores = s.tck.haltCores ∧
    (s.tackSend tag a).tck.haltFox = s.tck.haltFox ∧ (s.tackSend tag a).tck.misr = s.tck.misr ∧
    (s.tackSend tag a).tck.expected = s.tck.expected ∧ (s.tackSend tag a).tck.outcome = s.tck.outcome := by
  cases a <;> exact ⟨rfl, rfl, rfl, rfl, rfl, rfl, rfl, rfl⟩

section
variable (s : State) (tag : Nat) (a : TackAns)
@[simp] theorem tackSend_mem : (s.tackSend tag a).mem = s.mem := (congrArg State.mem (tackSend_rest s tag a) :)
@[simp] theorem tackSend_nvm : (s.tackSend tag a).nvm = s.nvm := (congrArg State.nvm (tackSend_rest s tag a) :)
@[simp] theorem tackSend_cor : (s.tackSend tag a).cor = s.cor := (congrArg State.cor (tackSend_rest s tag a) :)
@[simp] theorem tackSend_shr : (s.tackSend tag a).shr = s.shr := (congrArg State.shr (tackSend_rest s tag a) :)
@[simp] theorem tackSend_cfg : (s.tackSend tag a).cfg = s.cfg := (congrArg State.cfg (tackSend_rest s tag a) :)
end

@[simp] theorem tackSend_error_cause (s : State) (tag c : Nat) : (s.tackSend tag (.error c)).tck.cause = c := rfl

/-! ### The nonce after a refused signature (R820) -/

/-- A device in DEPLOYED whose Tack is on, without an integrator key, and with its DRBG at V = 0. -/
def deployedWithoutKey : State := { rst := { released := some 2, on := [131] }, nvm := { shadow := 0x3F } }

theorem deployedWithoutKey_refuses : deployedWithoutKey.tackOn = true ∧ deployedWithoutKey.life = 3 ∧
    deployedWithoutKey.authOk = false := by decide +kernel

/-- The generate request of the fresh nonce first adds a hash to V (SP 800-90A, with the frame number as additional input), so
that the nonce is not the digest of V as it stood. -/
theorem freshNonce_deployedWithoutKey :
    (deployedWithoutKey.advance 0).freshNonce.cfg.nonce ≠ sha3 (be seedLen deployedWithoutKey.aud.drbg.v) := by decide +kernel

theorem exec_authDone_refused {s : State} {dt tag : Nat} (hon : s.tackOn = true) (htag : s.tck.lastTag ≠ some (tag % 16))
    (hretry : s.tck.retry = none) (hlife : s.life = 3) (hauth : s.authOk = false) :
    exec (.authDone dt tag) s = .next ((s.advance dt).freshNonce.tackSend (tag % 16) (.error 2)) := by
  have hauth' : (s.advance dt).authOk = false := hauth
  have hrow : (s.advance dt).accessCause rowAuth true = 0 := by
    have hlife' : (s.advance dt).life = 3 := hlife
    simp [State.accessCause, AccessRow.at, rowAuth, hlife']
  simp only [exec, execAuthDone]
  rw [tackCmd_served (s := s.advance dt) hon htag hretry hrow]
  simp [hauth']

/-- Refutes O57: the nonce after a refused AUTH_DONE is drawn after V has taken the request's additional input. -/
theorem not_tackAnswersAndAuthenticates : ¬ Obligations.TackAnswersAndAuthenticates := by
  intro h
  obtain ⟨hon, hlife, hauth⟩ := deployedWithoutKey_refuses
  have hserved := (h 0 0 deployedWithoutKey hon).2.1 nofun rfl (hlife ▸ by decide)
  obtain ⟨-, -, -, hrefused⟩ := hserved.2.1 (.inl hlife) 0 0
  obtain ⟨t, hrun, -, -, hnonce, -⟩ := hrefused hauth
  rw [exec_authDone_refused hon nofun rfl hlife hauth, Host.Outcome.next.injEq] at hrun
  rw [← hrun, tackSend_cfg] at hnonce
  exact freshNonce_deployedWithoutKey hnonce

end Sys2Proof.Machine
end

section
/-! Tack in MANUFACTURE: memory, fuses, TEST, halts and breakpoints (R818, R819, R821, R823 to R828). -/

namespace Sys2Proof.Machine

/-! ### Bytes -/

@[simp] theorem le_length (n v : Nat) : (le n v).length = n := by
  induction n generalizing v with
  | zero => rfl
  | succ n ih => simp [le, ih]

theorem le_getElem (n v i : Nat) (h : i < (le n v).length) : (le n v)[i] = BitVec.ofNat 8 (v / 256 ^ i) := by
  induction n generalizing v i with
  | zero => simp at h
  | succ n ih =>
    cases i with
    | zero => simp [le]
    | succ i =>
      have := ih (v / 256) i (by simpa using h)
      simpa [le, Nat.div_div_eq_div_mul, pow_succ, Nat.mul_comm] using this

/-! ### Lines -/

/-- A line written whole reaches no byte outside it. -/
theorem read_rewrite_out (m : Memory) (array unit line a : Nat) (data : Bytes) (hlen : data.length ≤ 64)
    (h : a < cellKey array (line * 64) ∨ cellKey array (line * 64) + 64 ≤ a) :
    (m.rewrite array unit line data).read a = m.read a := by
  unfold Memory.rewrite; dsimp only
  split
  · exact (read_writeN_out _ _ _ _ (by omega)).trans rfl
  · rfl

theorem read_copyLine_out (m : Memory) (array line a : Nat)
    (h : a < cellKey array (line * 64) ∨ cellKey array (line * 64) + 64 ≤ a) : (m.copyLine array line).read a = m.read a := by
  unfold Memory.copyLine
  split
  · exact read_rewrite_out _ _ _ _ _ _ (by simp [ofSymbols]) h
  · rfl

/-- A line that is kept as its data alone stays as it is. -/
theorem copyLine_of_unlisted {m : Memory} {array line : Nat} (h : m.raw.lookup (lineKey array 0 line) = none) :
    m.copyLine array line = m := by
  simp [Memory.copyLine, h]

/-- Eight aligned bytes of a target lie in one line. -/
theorem cellKey_in_line {array addr : Nat} (h : addr % 8 = 0) :
    cellKey array (addr / 64 * 64) ≤ cellKey array addr ∧ cellKey array addr + 8 ≤ cellKey array (addr / 64 * 64) + 64 := by
  simp only [cellKey]; omega

/-! ### Access in MANUFACTURE -/

section
variable {s : State} {dt tag : Nat} (hon : s.tackOn = true) (htag : s.tck.lastTag ≠ some (tag % 16)) (hretry : s.tck.retry = none)
  (hlife : s.life = 1)
include hon htag hretry hlife

/-- In MANUFACTURE every row lets its command that says `yes` there (R819). -/
theorem tackCmd_manufacture {r : AccessRow} {o : Bool} (hrow : r.manuf = .yes) (run : State → State × TackAns) :
    (s.advance dt).tackCmd tag r o run = (run (s.advance dt)).1.tackSend (tag % 16) (run (s.advance dt)).2 := by
  have hlife' : (s.advance dt).life = 1 := hlife
  refine tackCmd_served (s := s.advance dt) hon htag hretry ?_ run
  simp [State.accessCause, AccessRow.at, hlife', hrow]

/-- A command on a target that its state does not turn away. -/
theorem tackTarget_manufacture {target : Nat} (hc : s.targetCause target = 0) (run : State → State) :
    (s.advance dt).tackTarget tag target run = (run (s.advance dt)).tackSend (tag % 16) .accept := by
  have hc' : (s.advance dt).targetCause target = 0 := hc
  unfold State.tackTarget
  rw [tackCmd_manufacture hon htag hretry hlife rfl]
  simp [hc']

/-- And one that it turns away. -/
theorem tackTarget_refused {target c : Nat} (hc : s.targetCause target = c) (h0 : c ≠ 0) (run : State → State) :
    (s.advance dt).tackTarget tag target run = (s.advance dt).tackSend (tag % 16) (.error c) := by
  have hc' : (s.advance dt).targetCause target = c := hc
  unfold State.tackTarget
  rw [tackCmd_manufacture hon htag hretry hlife rfl]
  simp [hc', h0]

end

/-! ### Memory accesses -/

/-- An access to an address that its space has, and no other in progress: it runs where it has completed, and is answered
RETRY where it has not (R818). -/
theorem tackAccess_first {s : State} {tag k addr : Nat} (hretry : s.tck.retry = none) (hk : k ≤ 3) (h8 : addr % 8 = 0)
    (hhas : spaceHas k addr = true) (done : Bool) (run : State → State × TackAns) :
    s.tackAccess tag k addr done run =
      if done then run s else (s.modTck fun t => { t with retry := some (tag % 16, s.mc) }, .retry) := by
  have hpos : 0 < 100 * usMc := by decide
  have hsoon : ¬ s.mc + 100 * usMc ≤ s.mc := by omega
  have hspace : ¬ (8 ≤ k ∨ addr % 8 ≠ 0 ∨ (!spaceHas k addr) = true) := by simp [h8, hhas]; omega
  simp only [State.tackAccess, if_neg hspace, hretry, Option.elim_none, if_neg hsoon]

/-- A space that does not exist. -/
theorem tackAccess_noSpace {k : Nat} (hk : 8 ≤ k) (s : State) (tag addr : Nat) (done : Bool) (run : State → State × TackAns) :
    s.tackAccess tag k addr done run = (s, .error 4) := if_pos (.inl hk)

section
variable {s : State} {k addr : Nat} (hlo : 1 ≤ k) (hhi : k ≤ 3) (hline : s.lineOn k (addr / 64) = true)
  (hbad : s.lineBad k (addr / 64) = false)
include hlo hhi hline hbad

theorem tackWrite_memory (data : Nat) : s.tackWrite k addr data =
    ({ s with mem := (s.mem.copyLine k (addr / 64)).writeN (cellKey k addr) (le 8 data) }, .accept) := by
  obtain rfl | rfl | rfl : k = 1 ∨ k = 2 ∨ k = 3 := by omega
  all_goals simp [State.tackWrite, spaceTarget, hline, hbad]

theorem tackRead_memory (hreport : s.inReport k addr = none) (hstores : s.deviceStores k addr = false) :
    s.tackRead k addr = (s, .data (ofLe (s.mem.readN (cellKey k addr) 8))) := by
  obtain rfl | rfl | rfl : k = 1 ∨ k = 2 ∨ k = 3 := by omega
  all_goals simp [State.tackRead, State.memWord, spaceTarget, hline, hbad, hreport, hstores]

end

section
variable {s : State} {dt tag : Nat} (hon : s.tackOn = true) (htag : s.tck.lastTag ≠ some (tag % 16)) (hretry : s.tck.retry = none)
  (hlife : s.life = 1)
include hon htag hretry hlife

theorem exec_tackWrite_memory {k addr : Nat} (hlo : 1 ≤ k) (hhi : k ≤ 3) (h8 : addr % 8 = 0) (hhas : spaceHas k addr = true)
    (hline : s.lineOn k (addr / 64) = true) (hbad : s.lineBad k (addr / 64) = false) (data : Nat) :
    exec (.tackWrite dt k tag addr data true) s = .next (State.tackSend { s.advance dt with
      mem := (s.mem.copyLine k (addr / 64)).writeN (cellKey k addr) (le 8 data) } (tag % 16) .accept) := by
  have hrun := tackCmd_manufacture (dt := dt) hon htag hretry hlife (o := false) (show rowWrite.manuf = .yes from rfl)
    fun q => q.tackAccess tag k addr true fun x => x.tackWrite k addr data
  rw [tackAccess_first (s := s.advance dt) hretry hhi h8 hhas, if_pos rfl,
    tackWrite_memory (s := s.advance dt) hlo hhi hline hbad] at hrun
  exact congrArg Host.Outcome.next hrun

theorem exec_tackRead_memory {k addr : Nat} (hlo : 1 ≤ k) (hhi : k ≤ 3) (h8 : addr % 8 = 0) (hhas : spaceHas k addr = true)
    (hline : s.lineOn k (addr / 64) = true) (hbad : s.lineBad k (addr / 64) = false) (hreport : s.inReport k addr = none)
    (hstores : s.deviceStores k addr = false) : exec (.tackRead dt k tag addr true) s =
      .next ((s.advance dt).tackSend (tag % 16) (.data (ofLe (s.mem.readN (cellKey k addr) 8)))) := by
  have hrun := tackCmd_manufacture (dt := dt) hon htag hretry hlife (o := false) (show rowRead.manuf = .yes from rfl)
    fun q => q.tackAccess tag k addr true fun x => x.tackRead k addr
  rw [tackAccess_first (s := s.advance dt) hretry hhi h8 hhas, if_pos rfl,
    tackRead_memory (s := s.advance dt) hlo hhi hline hbad hreport hstores] at hrun
  exact congrArg Host.Outcome.next hrun

theorem exec_tackRead_inProgress {k addr : Nat} (hhi : k ≤ 3) (h8 : addr % 8 = 0) (hhas : spaceHas k addr = true) :
    exec (.tackRead dt k tag addr false) s = .next (((s.advance dt).modTck fun t =>
      { t with retry := some (tag % 16, s.mc + dt) }).tackSend (tag % 16) .retry) := by
  have hrun := tackCmd_manufacture (dt := dt) hon htag hretry hlife (o := false) (show rowRead.manuf = .yes from rfl)
    fun q => q.tackAccess tag k addr false fun x => x.tackRead k addr
  rw [tackAccess_first (s := s.advance dt) hretry hhi h8 hhas, if_neg Bool.false_ne_true] at hrun
  exact congrArg Host.Outcome.next hrun

theorem exec_tackWrite_noSpace {k : Nat} (hk : 8 ≤ k) (addr data : Nat) (done : Bool) :
    exec (.tackWrite dt k tag addr data done) s = .next ((s.advance dt).tackSend (tag % 16) (.error 4)) := by
  have hrun := tackCmd_manufacture (dt := dt) hon htag hretry hlife (o := false) (show rowWrite.manuf = .yes from rfl)
    fun q => q.tackAccess tag k addr done fun x => x.tackWrite k addr data
  rw [tackAccess_noSpace hk] at hrun
  exact congrArg Host.Outcome.next hrun

theorem exec_fuse {addr : Nat} (hword : addr % 64 = 0) (hend : addr < 4096) (data : Nat) :
    exec (.fuse dt tag addr data) s = .next (if s.fuseAllowed addr data then
        ((s.advance dt).modNvm fun v => { v with fuses := v.fuses ||| ((data % 2 ^ 64) * 2 ^ addr) }).tackSend (tag % 16) .accept
      else (s.advance dt).tackSend (tag % 16) (.error 1)) := by
  have hplace : ¬ (addr % 64 ≠ 0 ∨ 4096 ≤ addr) := by omega
  have hallowed : (s.advance dt).fuseAllowed addr data = s.fuseAllowed addr data := rfl
  simp only [exec, execFuse, tackCmd_manufacture (dt := dt) hon htag hretry hlife (show rowFuse.manuf = .yes from rfl),
    if_neg hplace, hallowed]
  cases s.fuseAllowed addr data <;> rfl

theorem exec_test {addr : Nat} (hunit : fld addr 24 8 < kindUnits (fld addr 32 8)) (data : Nat) :
    exec (.test dt tag addr data) s = .next (((s.advance dt).fresh.2.modTck fun t => { t with
      misr := BitVec.ofNat 64 (s.advance dt).fresh.1
      outcome := if BitVec.ofNat 64 (s.advance dt).fresh.1 = t.expected then 1 else 2 }).tackSend (tag % 16) .accept) := by
  simp only [exec, execTest, tackCmd_manufacture (dt := dt) hon htag hretry hlife (show rowTest.manuf = .yes from rfl),
    if_neg (Nat.not_le.2 hunit)]

end

/-- Settles O58: each command by what it makes of the state before its response. -/
theorem tackReadsWritesAndBlows : Obligations.TackReadsWritesAndBlows := by
  intro dt tag addr data s hon htag hretry hlife hwf
  refine ⟨fun k hlo hhi h8 hhas hline hbad => ⟨?_, ?_, ?_⟩, fun k done hk => ?_, fun hword hend => ⟨?_, ?_⟩, ?_⟩
  · have hcells : (s.mem.copyLine k (addr / 64)).wf = true := cellsWf_copyLine _ _ _ hwf
    have hin := cellKey_in_line (array := k) h8
    refine ⟨_, exec_tackWrite_memory hon htag hretry hlife hlo hhi h8 hhas hline hbad data, by simp, fun i hi => ?_, fun c hc => ?_,
      fun hraw c hc => ?_, ?_⟩
    · rw [tackSend_mem, read_writeN_in _ _ _ _ hcells (by simpa using hi), le_getElem]
    · rw [tackSend_mem, read_writeN_out _ _ _ _ (by simp; omega), read_copyLine_out _ _ _ _ hc]
    · rw [tackSend_mem, read_writeN_out _ _ _ _ (by simpa using hc), copyLine_of_unlisted hraw]
    · rfl
  · intro hreport hstores
    exact ⟨_, exec_tackRead_memory hon htag hretry hlife hlo hhi h8 hhas hline hbad hreport hstores, by simp, by simp⟩
  · exact ⟨_, exec_tackRead_inProgress hon htag hretry hlife hhi h8 hhas, by simp, rfl, rfl⟩
  · exact ⟨_, exec_tackWrite_noSpace hon htag hretry hlife hk addr data done, by simp, by simp, by simp⟩
  · intro hallowed
    refine ⟨_, (exec_fuse hon htag hretry hlife hword hend data).trans (congrArg _ (if_pos hallowed)), by simp, by simp, rfl⟩
  · intro hallowed
    refine ⟨_, (exec_fuse hon htag hretry hlife hword hend data).trans (congrArg _ (if_neg (by simp [hallowed]))), by simp, by simp⟩
  · intro hunit
    refine ⟨_, exec_test hon htag hretry hlife hunit data, ?_, by simp [State.fresh], by simp [State.fresh], rfl⟩
    simp only [tackSend_tck, State.modTck_fields]
    by_cases h : BitVec.ofNat 64 (s.advance dt).fresh.1 = s.tck.expected
    · exact .inl ⟨if_pos h, h⟩
    · exact .inr ⟨if_neg h, h⟩

/-! ### Halts, steps and breakpoints (R823 to R827) -/

theorem core_modCore (s : State) (c : Nat) (f : Core → Core) (j : Nat) :
    (s.modCore c f).core j = if j = c then f (s.core j) else s.core j := by
  split
  · next h => subst h; exact tget_tset_self ..
  · next h => exact tget_tset_ne h ..

/-- Main and Mizzen in SERVICE move to Fore's count or stay where they are past it, and nothing else of a core changes. -/
theorem core_meetFore (s : State) (c : Nat) : (s.meetFore 0).core c =
    if (c = 1 ∨ c = 2) ∧ (s.core c).st = .service then { s.core c with instr := max (s.core c).instr (s.core 0).instr }
    else s.core c := by
  simp only [State.meetFore, if_true, List.foldl_cons, List.foldl_nil, core_modCore]
  rcases eq_or_ne c 1 with rfl | h1
  · simp
  · rcases eq_or_ne c 2 with rfl | h2 <;> simp [*]

theorem metFore_of_cor {s t : State} (h : t.cor = (s.meetFore 0).cor) (hrun : s.tck.haltCores = false) : s.metFore t := by
  have hcore : ∀ c, t.core c = (s.meetFore 0).core c := fun c => congrArg (fun x : Cores => tget x.cores c) h
  intro c
  simp only [hcore, core_meetFore, hrun]
  refine ⟨fun hc => if_neg ?_, fun _ hc hst => if_pos ⟨hc, hst⟩⟩
  rintro ⟨hc', hst⟩
  rcases hc with h | h | h | h
  · exact absurd h (by decide)
  · omega
  · omega
  · exact h hst

theorem metFore_of_halted {s t : State} (h : t.cor = s.cor) (hhalt : s.tck.haltCores = true) : s.metFore t := fun c =>
  ⟨fun _ => congrArg (fun x : Cores => tget x.cores c) h, fun hrun => absurd (hhalt.symm.trans hrun) (by decide)⟩

/-- The program counters of the cores are free values; nothing else changes. -/
theorem freshPcs_rest (s : State) (target : Nat) :
    { s.freshPcs target with tck := {}, free := 0 } = { s with tck := {}, free := 0 } := by
  unfold State.freshPcs; split <;> rfl

/-- Whether a target is halted stays, and so does every breakpoint. -/
@[simp] theorem freshPcs_tck (s : State) (target : Nat) : (s.freshPcs target).tck.haltCores = s.tck.haltCores ∧
    (s.freshPcs target).tck.haltFox = s.tck.haltFox ∧ (s.freshPcs target).tck.bps = s.tck.bps := by
  unfold State.freshPcs; split <;> exact ⟨rfl, rfl, rfl⟩

/-- Changes of cores are changes of the cores alone. -/
theorem foldl_modCore_rest (f : Core → Core) (l : List Nat) (s : State) :
    { l.foldl (fun q c => q.modCore c f) s with cor := {} } = { s with cor := {} } := by
  induction l generalizing s with
  | nil => rfl
  | cons c l ih => exact (ih _).trans rfl

theorem meetFore_rest (s : State) : { s.meetFore 0 with cor := {} } = { s with cor := {} } := by
  simp only [State.meetFore, if_true]
  exact foldl_modCore_rest ..

/-- The control cores are a target in START_UP and MAINTENANCE, and elsewhere turned away with 0x3 (R823). -/
theorem targetCause_cores {s : State} (hst : s.glb.st = .startUp ∨ s.glb.st = .maintenance) : s.targetCause 0 = 0 := by
  rcases hst with h | h <;> simp [State.targetCause, h]

theorem targetCause_cores_else {s : State} (h1 : s.glb.st ≠ .startUp) (h2 : s.glb.st ≠ .maintenance) : s.targetCause 0 = 3 := by
  simp [State.targetCause, h1, h2]

/-- What HALT makes of the control cores. -/
def State.haltedCores (s : State) : State := if s.tck.halted 0 then s else ((s.meetFore 0).setHalt 0 true).freshPcs 0

theorem haltedCores_of_halted {s : State} (h : s.tck.haltCores = true) : s.haltedCores = s := if_pos h

theorem haltedCores_of_running {s : State} (h : s.tck.haltCores = false) :
    s.haltedCores = ((s.meetFore 0).setHalt 0 true).freshPcs 0 := if_neg (fun h' => absurd (h.symm.trans h') (by decide))

theorem haltedCores_rest (s : State) : { s.haltedCores with tck := {}, free := 0, cor := {} } =
    { s with tck := {}, free := 0, cor := {} } := by
  cases h : s.tck.haltCores with
  | true => rw [haltedCores_of_halted h]
  | false =>
    rw [haltedCores_of_running h]
    exact (congrArg (fun t : State => { t with cor := {} }) (freshPcs_rest ((s.meetFore 0).setHalt 0 true) 0)).trans
      (congrArg (fun t : State => { t with tck := {}, free := 0 }) (meetFore_rest s))

theorem haltedCores_tck (s : State) : s.haltedCores.tck.haltCores = true ∧ s.haltedCores.tck.haltFox = s.tck.haltFox := by
  cases h : s.tck.haltCores with
  | true => rw [haltedCores_of_halted h]; exact ⟨h, rfl⟩
  | false =>
    rw [haltedCores_of_running h]
    simp only [freshPcs_tck]
    exact ⟨rfl, (congrArg (fun t : State => t.tck.haltFox) (meetFore_rest s) :)⟩

theorem metFore_haltedCores {s t : State} (h : t.cor = s.haltedCores.cor) : s.metFore t := by
  cases hhalt : s.tck.haltCores with
  | true => exact metFore_of_halted (haltedCores_of_halted hhalt ▸ h) hhalt
  | false =>
    rw [haltedCores_of_running hhalt] at h
    exact metFore_of_cor (h.trans (congrArg State.cor (freshPcs_rest ((s.meetFore 0).setHalt 0 true) 0) :)) hhalt

/-- The control cores after one instruction more in each. -/
def State.retiredOne (s : State) : State :=
  (List.range 3).foldl (fun q c => q.modCore c fun x => { x with instr := (x.instr + 1) % 2 ^ 64 }) s

theorem retiredOne_rest (s : State) : { s.retiredOne with cor := {} } = { s with cor := {} } := foldl_modCore_rest ..

theorem core_retiredOne (s : State) {c : Nat} (hc : c < 3) :
    s.retiredOne.core c = { s.core c with instr := ((s.core c).instr + 1) % 2 ^ 64 } := by
  obtain rfl | rfl | rfl : c = 0 ∨ c = 1 ∨ c = 2 := by omega
  all_goals simp [State.retiredOne, List.range_succ, core_modCore]

theorem tackStep_halted {s : State} (h : s.tck.haltCores = true) :
    s.tackStep 0 = ((s.resume 0).retiredOne.setHalt 0 true).freshPcs 0 := by
  have hhalted : (!s.tck.halted 0) = false := by simp [Tack.halted, h]
  simp only [State.tackStep, hhalted, if_true, Bool.false_eq_true, if_false]
  rfl

theorem tackStep_cores {s : State} (h : s.tck.haltCores = true) : (s.tackStep 0).tck.haltCores = true ∧
    (s.tackStep 0).cor = (s.resume 0).retiredOne.cor ∧ (s.tackStep 0).shr = s.shr ∧ (s.tackStep 0).mem = s.mem := by
  have hrest := freshPcs_rest ((s.resume 0).retiredOne.setHalt 0 true) 0
  rw [tackStep_halted h]
  have hone := retiredOne_rest (s.resume 0)
  refine ⟨by simp only [freshPcs_tck]; rfl, (congrArg State.cor hrest :), ?_, ?_⟩
  · exact (congrArg State.shr hrest :).trans (congrArg State.shr hone :)
  · exact (congrArg State.mem hrest :).trans (congrArg State.mem hone :)

/-- What a hit of breakpoint n makes of the control cores. -/
def State.hitCoresAt (s : State) (n : Nat) : State :=
  ((s.meetFore 0).setHalt 0 true).modTck fun t => { t with
    hitCores := some n
    pcs := tset (tset (tset t.pcs 0 (tget s.tck.bps n - 1)) 1 (tget s.tck.bps n - 1)) 2 (tget s.tck.bps n - 1) }

theorem breakHit_cores {s : State} {n : Nat} (hn : n < 4) (hbp : tget s.tck.bps n ≠ 0) (hrun : s.tck.haltCores = false)
    (hup : s.atStep 5 = true) : s.breakHit 0 n = s.hitCoresAt n := by
  have hhalted : s.tck.halted 0 = false := hrun
  have htarget : s.targetUp 0 = true := hup
  have hn' : ¬ 4 ≤ n := by omega
  simp [State.breakHit, hn', hbp, hhalted, htarget, State.hitCoresAt]

theorem hitCoresAt_rest (s : State) (n : Nat) :
    { s.hitCoresAt n with tck := {}, cor := {} } = { s with tck := {}, cor := {} } :=
  congrArg (fun t : State => { t with tck := {} }) (meetFore_rest s)

theorem hitCoresAt_tck (s : State) (n : Nat) : (s.hitCoresAt n).tck.haltCores = true ∧ (s.hitCoresAt n).tck.hitCores = some n ∧
    (s.hitCoresAt n).tck.haltFox = s.tck.haltFox ∧ tget (s.hitCoresAt n).tck.pcs 0 = tget s.tck.bps n - 1 := by
  refine ⟨rfl, rfl, (congrArg (fun t : State => t.tck.haltFox) (meetFore_rest s) :), ?_⟩
  refine (tget_tset_ne (by decide) ..).trans ((tget_tset_ne (by decide) ..).trans (tget_tset_self ..))

section
variable {s : State} {dt tag : Nat} (hon : s.tackOn = true) (htag : s.tck.lastTag ≠ some (tag % 16)) (hretry : s.tck.retry = none)
  (hlife : s.life = 1)
include hon htag hretry hlife

/-- A command on the control cores in START_UP and MAINTENANCE. -/
theorem tackTarget_cores (hst : s.glb.st = .startUp ∨ s.glb.st = .maintenance) (run : State → State) :
    (s.advance dt).tackTarget tag 0 run = (run (s.advance dt)).tackSend (tag % 16) .accept :=
  tackTarget_manufacture hon htag hretry hlife (targetCause_cores hst) run

theorem exec_halt_cores (hst : s.glb.st = .startUp ∨ s.glb.st = .maintenance) :
    exec (.halt dt 0 tag) s = .next ((s.advance dt).haltedCores.tackSend (tag % 16) .accept) :=
  congrArg Host.Outcome.next (tackTarget_cores hon htag hretry hlife hst _)

theorem exec_resume_cores (hst : s.glb.st = .startUp ∨ s.glb.st = .maintenance) :
    exec (.resume dt 0 tag) s = .next (((s.advance dt).resume 0).tackSend (tag % 16) .accept) :=
  congrArg Host.Outcome.next (tackTarget_cores hon htag hretry hlife hst _)

theorem exec_tackStep_cores (hst : s.glb.st = .startUp ∨ s.glb.st = .maintenance) :
    exec (.tackStep dt 0 tag) s = .next (((s.advance dt).tackStep 0).tackSend (tag % 16) .accept) :=
  congrArg Host.Outcome.next (tackTarget_cores hon htag hretry hlife hst _)

theorem exec_bpSet_cores (hst : s.glb.st = .startUp ∨ s.glb.st = .maintenance) (addr : Nat) :
    exec (.bpSet dt 0 tag addr) s = .next (((s.advance dt).modTck fun t =>
      { t with bps := tset t.bps (bpKey 0 addr) (fld addr 0 17 + 1) }).tackSend (tag % 16) .accept) :=
  congrArg Host.Outcome.next (tackTarget_cores hon htag hretry hlife hst _)

theorem exec_bpClear_cores (hst : s.glb.st = .startUp ∨ s.glb.st = .maintenance) (addr : Nat) :
    exec (.bpClear dt 0 tag addr) s = .next (((s.advance dt).modTck fun t =>
      { t with bps := tset t.bps (bpKey 0 addr) 0 }).tackSend (tag % 16) .accept) :=
  congrArg Host.Outcome.next (tackTarget_cores hon htag hretry hlife hst _)

theorem exec_halt_refused {target c : Nat} (hc : s.targetCause target = c) (h0 : c ≠ 0) :
    exec (.halt dt target tag) s = .next ((s.advance dt).tackSend (tag % 16) (.error c)) :=
  congrArg Host.Outcome.next (tackTarget_refused hon htag hretry hlife hc h0 _)

theorem exec_tackStatus_halted (hhalt : s.tck.haltCores = true) : exec (.tackStatus dt 0 tag) s =
    .next ((s.advance dt).tackSend (tag % 16) (.data (s.tck.statusBits 0 + 2 ^ 32 * tget s.tck.pcs 0))) := by
  have hpc : (s.advance dt).statusPc 0 = (s.advance dt, tget s.tck.pcs 0) := by simp [State.statusPc, hhalt]
  simp only [exec, execTackStatus, tackCmd_manufacture (dt := dt) hon htag hretry hlife (show rowRead.manuf = .yes from rfl), hpc]
  rfl

end

theorem bpKey_cores (addr : Nat) : bpKey 0 addr = addr / 2 ^ 38 % 4 := by
  simp [bpKey, fld]

/-- Settles O59: each command on a target of its state, and the states that turn it away. -/
theorem tackHaltsStepsAndBreaks : Obligations.TackHaltsStepsAndBreaks := by
  intro dt tag s hon htag hretry hlife
  refine ⟨fun hst => ⟨?_, ?_, fun hhalt => ?_, fun addr => ?_, fun addr => ?_⟩, fun h1 h2 => ?_, ?_,
    fun n hn hbp hrun hup => ?_, fun hhalt => ?_⟩
  · have hrest := haltedCores_rest (s.advance dt)
    obtain ⟨hhalt, hfox⟩ := haltedCores_tck (s.advance dt)
    refine ⟨_, exec_halt_cores hon htag hretry hlife hst, by simpa using hhalt, by simpa using hfox, ?_,
      metFore_haltedCores (s := s.advance dt) (by simp), ?_⟩
    · rw [tackSend_out, (congrArg State.out hrest :)]; rfl
    · exact (congrArg (fun t : State => { t with free := 0, cor := {} })
          (tackSend_rest (s.advance dt).haltedCores (tag % 16) .accept)).trans
        (congrArg (fun t : State => { t with out := [] }) hrest)
  · exact ⟨_, exec_resume_cores hon htag hretry hlife hst, by simp [State.resume, State.setHalt],
      by simp [State.resume, State.setHalt], rfl⟩
  · obtain ⟨hstay, hcor, hshr, hmem⟩ := tackStep_cores (s := s.advance dt) hhalt
    refine ⟨_, exec_tackStep_cores hon htag hretry hlife hst, by simpa using hstay, fun c hc => ?_, by simpa using hshr,
      by simpa using hmem⟩
    have hcore := core_retiredOne ((s.advance dt).resume 0) hc
    rw [State.core, tackSend_cor, hcor]
    exact congrArg Core.instr hcore
  · refine ⟨_, exec_bpSet_cores hon htag hretry hlife hst addr, ?_, fun k hk => ?_, rfl⟩
    · simp [bpKey_cores, fld]
    · simpa using tget_tset_ne (bpKey_cores addr ▸ hk) s.tck.bps (fld addr 0 17 + 1)
  · refine ⟨_, exec_bpClear_cores hon htag hretry hlife hst addr, by simp [bpKey_cores], fun k hk => ?_, rfl⟩
    simpa using tget_tset_ne (bpKey_cores addr ▸ hk) s.tck.bps 0
  · exact ⟨_, exec_halt_refused hon htag hretry hlife (targetCause_cores_else h1 h2) (by decide), by simp, by simp, by simp⟩
  · exact ⟨_, exec_halt_refused hon htag hretry hlife (target := 2) (c := 4) rfl (by decide), by simp, by simp, by simp⟩
  · obtain ⟨hhalt, hhit, hfox, hpc⟩ := hitCoresAt_tck (s.advance dt) n
    refine ⟨_, congrArg Host.Outcome.next (breakHit_cores (s := s.advance dt) hn hbp hrun hup), hhalt, hhit, hpc, hfox,
      metFore_of_cor (s := s.advance dt) rfl hrun, hitCoresAt_rest ..⟩
  · exact ⟨_, exec_tackStatus_halted hon htag hretry hlife hhalt, by simp, rfl⟩

end Sys2Proof.Machine
end

section
/-! What the writing of records does to rings and functions (R399, R413, R447, R449, R454, R459): the count of records behind a
message, the index, and what an evidence ring has skipped; and of a function its pending bits. -/

namespace Sys2Proof.Machine

/-! ### Rings and functions by their key -/

theorem rings_setRing (s : State) (fn r : Nat) (x : Ring) (k : Nat) :
    tget (s.setRing fn r x).hst.rings k = if k = ringKey fn r then x else tget s.hst.rings k := by
  split
  · next h => subst h; exact tget_tset_self ..
  · next h => exact tget_tset_ne h ..

@[simp] theorem ring_setRing_self (s : State) (fn r : Nat) (x : Ring) : (s.setRing fn r x).ring fn r = x :=
  tget_tset_self ..

@[simp] theorem hfn_setRing (s : State) (fn r : Nat) (x : Ring) (f : Nat) : (s.setRing fn r x).hfn f = s.hfn f := rfl

theorem hfn_setHfn (s : State) (fn : Nat) (x : HostFn) (f : Nat) :
    (s.setHfn fn x).hfn f = if f = fn then x else s.hfn f := by
  split
  · next h => subst h; exact tget_tset_self ..
  · next h => exact tget_tset_ne h ..

@[simp] theorem ring_setHfn (s : State) (fn : Nat) (x : HostFn) (f r : Nat) : (s.setHfn fn x).ring f r = s.ring f r := rfl

/-! ### Messages and their counts -/

/-- A ring without the count of its records behind a message (R459). -/
def Ring.uncounted (g : Ring) : Ring := { g with irqNow := {}, unannounced := 0, firstAt := 0 }

@[simp] theorem rings_signal (s : State) (fn v : Nat) : (s.signal fn v).hst.rings = s.hst.rings := by
  unfold State.signal; dsimp only; (repeat' split) <;> rfl

theorem rings_ringMessage (s : State) (fn r k : Nat) :
    (tget (s.ringMessage fn r).hst.rings k).uncounted = (tget s.hst.rings k).uncounted := by
  simp only [State.ringMessage, rings_signal, rings_setRing]
  split
  · next h => subst h; rfl
  · rfl

theorem rings_ringWritten (s : State) (fn r k : Nat) (u : Bool) :
    (tget (s.ringWritten fn r u).hst.rings k).uncounted = (tget s.hst.rings k).uncounted := by
  have hset : ∀ x : Ring, x.uncounted = (s.ring fn r).uncounted →
      (tget (s.setRing fn r x).hst.rings k).uncounted = (tget s.hst.rings k).uncounted := by
    intro x hx
    rw [rings_setRing]
    split
    · next h => subst h; exact hx
    · rfl
  unfold State.ringWritten; dsimp only
  split
  · split
    · exact (rings_ringMessage ..).trans (hset _ rfl)
    · exact hset _ rfl
  · exact hset _ rfl

/-- A record moves the index of its ring on, and counts. -/
theorem rings_putRecord (s : State) (fn r k : Nat) (b : Bytes) (u : Bool) :
    (tget (s.putRecord fn r b u).hst.rings k).uncounted =
      if k = ringKey fn r then { (s.ring fn r).uncounted with pi := ((s.ring fn r).pi + 1) % 2 ^ 32 }
      else (tget s.hst.rings k).uncounted := by
  refine (rings_ringWritten ..).trans ?_
  show (tget (s.setRing fn r { s.ring fn r with pi := ((s.ring fn r).pi + 1) % 2 ^ 32 }).hst.rings k).uncounted = _
  rw [rings_setRing]
  split <;> rfl

theorem ring_putRecord (s : State) (fn r : Nat) (b : Bytes) (u : Bool) : ((s.putRecord fn r b u).ring fn r).uncounted =
    { (s.ring fn r).uncounted with pi := ((s.ring fn r).pi + 1) % 2 ^ 32 } :=
  (rings_putRecord ..).trans (if_pos rfl)

/-- The record and its write-back are among what the device sends (R409, R413). -/
theorem record_mem_putRecord (s : State) (fn r : Nat) (b : Bytes) (u : Bool) :
    .record fn r (s.ring fn r).pi ((s.ring fn r).entryAt (s.ring fn r).pi) b ∈ (s.putRecord fn r b u).out :=
  mem_out_ringWritten (List.mem_append_left _ (List.mem_append_right _ (List.mem_singleton.2 rfl))) ..

theorem writeBack_mem_putRecord (s : State) (fn r : Nat) (b : Bytes) (u : Bool) :
    .writeBack fn r (((s.ring fn r).pi + 1) % 2 ^ 32) (s.ring fn r).wb.toNat (le 4 (((s.ring fn r).pi + 1) % 2 ^ 32) ++ zeros 4) ∈
      (s.putRecord fn r b u).out := by
  refine mem_out_ringWritten (List.mem_append_right _ (List.mem_singleton.2 ?_)) ..
  congr 1
  show _ = ((s.setRing fn r { s.ring fn r with pi := ((s.ring fn r).pi + 1) % 2 ^ 32 }).ring fn r).wb.toNat
  rw [ring_setRing_self]

/-! ### What a record leaves of the hosts' links -/

/-- A ring without its index, its count behind a message, and what an evidence ring has skipped. -/
def Ring.settings (g : Ring) : Ring :=
  { g with irqNow := {}, unannounced := 0, firstAt := 0, pi := 0, skipFirst := 0, skipLast := 0, lost := 0 }

theorem settings_of_uncounted {g g' : Ring} (h : g'.uncounted = g.uncounted) : g'.settings = g.settings :=
  congrArg (fun x : Ring => { x with pi := 0, skipFirst := 0, skipLast := 0, lost := 0 }) h

/-- A function without its pending bits. -/
def HostFn.settings (h : HostFn) : HostFn := { h with pba := [] }

/-- t is s after records and messages: the settings of rings and functions stay, nothing of the state but the records' own
places changes, and what was sent stays sent. -/
structure State.RecordsTo (s t : State) : Prop where
  rings : ∀ k, (tget t.hst.rings k).settings = (tget s.hst.rings k).settings
  fns : ∀ f, (t.hfn f).settings = (s.hfn f).settings
  rest : { t.hst with rings := [], fns := [], tenants := [] } = { s.hst with rings := [], fns := [], tenants := [] }
  quiet : t.quiet = s.quiet
  out : ∀ x ∈ s.out, x ∈ t.out

namespace State.RecordsTo

theorem refl (s : State) : s.RecordsTo s := ⟨fun _ => rfl, fun _ => rfl, rfl, rfl, fun _ h => h⟩

theorem trans {s t u : State} (h : s.RecordsTo t) (h' : t.RecordsTo u) : s.RecordsTo u :=
  ⟨fun k => (h'.rings k).trans (h.rings k), fun f => (h'.fns f).trans (h.fns f), h'.rest.trans h.rest,
    h'.quiet.trans h.quiet, fun x hx => h'.out x (h.out x hx)⟩

theorem foldl {α : Type} {f : State → α → State} (hf : ∀ (q : State) x, q.RecordsTo (f q x)) (l : List α) (s : State) :
    s.RecordsTo (l.foldl f s) := by
  induction l generalizing s with
  | nil => exact refl s
  | cons x l ih => exact (hf s x).trans (ih _)

theorem setRing (s : State) (fn r : Nat) {x : Ring} (h : x.settings = (s.ring fn r).settings) :
    s.RecordsTo (s.setRing fn r x) := by
  refine ⟨fun k => ?_, fun _ => rfl, rfl, rfl, fun _ h => h⟩
  rw [rings_setRing]
  split
  · next hk => subst hk; exact h
  · rfl

theorem modTenant (s : State) (t : Nat) (f : Tenant → Tenant) : s.RecordsTo (s.modTenant t f) :=
  ⟨fun _ => rfl, fun _ => rfl, rfl, rfl, fun _ h => h⟩

theorem emit (s : State) (x : Out) : s.RecordsTo (s.emit x) :=
  ⟨fun _ => rfl, fun _ => rfl, rfl, rfl, fun _ h => List.mem_append_left _ h⟩

theorem signal (s : State) (fn v : Nat) : s.RecordsTo (s.signal fn v) := by
  unfold State.signal; dsimp only
  split
  · exact refl s
  · split
    · exact emit ..
    · refine ⟨fun _ => rfl, fun f => ?_, rfl, rfl, fun _ h => h⟩
      rw [hfn_setHfn]
      split
      · next hf => subst hf; rfl
      · rfl

theorem ringMessage (s : State) (fn r : Nat) : s.RecordsTo (s.ringMessage fn r) :=
  (setRing s fn r (by rfl)).trans (signal ..)

theorem ringWritten (s : State) (fn r : Nat) (u : Bool) : s.RecordsTo (s.ringWritten fn r u) := by
  unfold State.ringWritten; dsimp only
  split
  · split
    · exact (setRing s fn r (by rfl)).trans (ringMessage ..)
    · exact setRing s fn r (by rfl)
  · exact setRing s fn r (by rfl)

theorem putRecord (s : State) (fn r : Nat) (b : Bytes) (u : Bool) : s.RecordsTo (s.putRecord fn r b u) :=
  RecordsTo.trans (setRing s fn r (by rfl)) ((emit _ _).trans ((emit _ _).trans (ringWritten ..)))

theorem ringGap (s : State) (fn r : Nat) : s.RecordsTo (s.ringGap fn r) := by
  unfold State.ringGap; dsimp only
  split
  · exact refl s
  · split
    · exact (setRing s fn r (by rfl)).trans (putRecord ..)
    · exact refl s

theorem copyTo (s : State) (fn r : Nat) (e : Evidence) : s.RecordsTo (s.copyTo fn r e) := by
  refine (ringGap s fn r).trans ?_
  unfold State.copyTo; dsimp only
  split
  · exact putRecord ..
  · exact setRing _ fn r (by rfl)

theorem evidence (s : State) (kind tenant sev ctx : Nat) (p : Bytes) : s.RecordsTo (s.evidence kind tenant sev ctx p) := by
  unfold State.evidence
  split
  · unfold State.logRecord; dsimp only
    refine RecordsTo.trans ?_ (foldl (fun q x => ?_) ..)
    · exact ⟨fun _ => rfl, fun _ => rfl, rfl, rfl, fun _ h => h⟩
    · exact copyTo q x.1 x.2 _
  · exact refl s

theorem evDev (s : State) (kind sev : Nat) (p : Bytes) : s.RecordsTo (s.evDev kind sev p) := evidence ..

/-- A field of a ring's settings stays. -/
theorem ring {s t : State} (h : s.RecordsTo t) (fn r : Nat) : (t.ring fn r).settings = (s.ring fn r).settings := h.rings _

end State.RecordsTo

end Sys2Proof.Machine
end

section
/-! Ring control, function reset and doorbells (R410 to R412, R416 to R418, R463). -/

namespace Sys2Proof.Machine

/-! ### Folds -/

/-- What every step of a fold keeps, the fold keeps. -/
theorem view_foldl {α β : Type} (V : State → β) (f : State → α → State) (hf : ∀ q x, V (f q x) = V q) (l : List α) (s : State) :
    V (l.foldl f s) = V s := by
  induction l generalizing s with
  | nil => rfl
  | cons x l ih => exact (ih _).trans (hf s x)

/-- What one step of a fold brings about and no step undoes holds after the fold. -/
theorem foldl_of_mem {α : Type} {P : State → Prop} {f : State → α → State} {x : α} (hkeep : ∀ q y, P q → P (f q y))
    (hx : ∀ q, P (f q x)) {l : List α} (hmem : x ∈ l) (s : State) : P (l.foldl f s) := by
  induction l generalizing s with
  | nil => cases hmem
  | cons y l ih =>
    rcases List.mem_cons.1 hmem with rfl | h
    · exact List.foldlRecOn (motive := P) l f (hx s) fun q hq a _ => hkeep q a hq
    · exact ih h _

/-! ### One ring of a function -/

/-- Between s and t only ring r of function fn, and counts of tenants, have changed. -/
structure State.OnlyRing (fn r : Nat) (s t : State) : Prop where
  others : ∀ k, k ≠ ringKey fn r → tget t.hst.rings k = tget s.hst.rings k
  fns : t.hst.fns = s.hst.fns
  rest : { t with hst := {} } = { s with hst := {} }

namespace State.OnlyRing

theorem refl (fn r : Nat) (s : State) : OnlyRing fn r s s := ⟨fun _ _ => rfl, rfl, rfl⟩

theorem trans {fn r : Nat} {s t u : State} (h : OnlyRing fn r s t) (h' : OnlyRing fn r t u) : OnlyRing fn r s u :=
  ⟨fun k hk => (h'.others k hk).trans (h.others k hk), h'.fns.trans h.fns, h'.rest.trans h.rest⟩

theorem setRing (fn r : Nat) (s : State) (x : Ring) : OnlyRing fn r s (s.setRing fn r x) :=
  ⟨fun _ hk => tget_tset_ne hk .., rfl, rfl⟩

theorem modTenant (fn r : Nat) (s : State) (t : Nat) (f : Tenant → Tenant) : OnlyRing fn r s (s.modTenant t f) :=
  ⟨fun _ _ => rfl, rfl, rfl⟩

end State.OnlyRing

/-- A ring without what it holds back and owes a notice of. -/
def Ring.emptied (g : Ring) : Ring := { g with held := [], lost := 0, gapCount := 0, gapFirst := 0, gapLast := 0 }

theorem enable_of_emptied {g g' : Ring} (h : g'.emptied = g.emptied) : g'.enable = g.enable := (congrArg Ring.enable h :)

theorem discardVerdict_onlyRing (s : State) (fn r frame : Nat) : State.OnlyRing fn r s (s.discardVerdict fn r frame) := by
  unfold State.discardVerdict; dsimp only
  split
  · exact (State.OnlyRing.setRing ..).trans (.modTenant ..)
  · exact .setRing ..

theorem ring_discardVerdict (s : State) (fn r frame : Nat) : ((s.discardVerdict fn r frame).ring fn r).held = (s.ring fn r).held ∧
    ((s.discardVerdict fn r frame).ring fn r).emptied = (s.ring fn r).emptied := by
  have hset : ∀ x : Ring, x.held = (s.ring fn r).held ∧ x.emptied = (s.ring fn r).emptied →
      ((s.setRing fn r x).ring fn r).held = (s.ring fn r).held ∧ ((s.setRing fn r x).ring fn r).emptied = (s.ring fn r).emptied :=
    fun x hx => by rwa [ring_setRing_self]
  unfold State.discardVerdict; dsimp only
  split <;> exact hset _ ⟨rfl, rfl⟩

/-- What ring r holds is discarded; the rest of it, and every other ring, stays (R448, R449). -/
theorem dropHeld_onlyRing (s : State) (fn r : Nat) : State.OnlyRing fn r s (s.dropHeld fn r) ∧
    ((s.dropHeld fn r).ring fn r).held = [] ∧ ((s.dropHeld fn r).ring fn r).emptied = (s.ring fn r).emptied := by
  unfold State.dropHeld
  refine List.foldlRecOn (motive := fun q : State => State.OnlyRing fn r s q ∧ (q.ring fn r).held = [] ∧
    (q.ring fn r).emptied = (s.ring fn r).emptied) _ _ ⟨.setRing .., by simp, by simp [Ring.emptied]⟩ ?_
  rintro q ⟨honly, hheld, hrest⟩ x -
  split
  · refine ⟨honly.trans (.setRing ..), ?_, ?_⟩ <;> simp only [State.mergeNotice, ring_setRing_self]
    · exact hheld
    · exact hrest
  · obtain ⟨h1, h2⟩ := ring_discardVerdict q fn r x.frame
    exact ⟨honly.trans (discardVerdict_onlyRing ..), h1.trans hheld, h2.trans hrest⟩

/-- A ring as it is disabled, before what it holds is discarded. -/
def Ring.off (g : Ring) : Ring := { g with enable := false, owed := g.owed - g.waiting.length, waiting := [] }

theorem disableNow_eq (s : State) (fn r : Nat) : s.disableNow fn r = (s.setRing fn r (s.ring fn r).off).dropHeld fn r := rfl

/-- A ring that is disabled is off and holds nothing (R412). -/
theorem disableNow_onlyRing (s : State) (fn r : Nat) : State.OnlyRing fn r s (s.disableNow fn r) ∧
    ((s.disableNow fn r).ring fn r).held = [] ∧ ((s.disableNow fn r).ring fn r).enable = false := by
  obtain ⟨honly, hheld, hrest⟩ := dropHeld_onlyRing (s.setRing fn r (s.ring fn r).off) fn r
  rw [ring_setRing_self] at hrest
  rw [disableNow_eq]
  exact ⟨(State.OnlyRing.setRing ..).trans honly, hheld, enable_of_emptied hrest⟩

theorem ring_modRing_self (s : State) (fn r : Nat) (f : Ring → Ring) : (s.modRing fn r f).ring fn r = f (s.ring fn r) :=
  ring_setRing_self ..

/-! ### Ring control -/

theorem onlyRing_advance {s t : State} {dt fn r : Nat} (h : State.OnlyRing fn r (s.advance dt) t) :
    (∀ k, k ≠ ringKey fn r → tget t.hst.rings k = tget s.hst.rings k) ∧ { t with hst := {} } = { s.advance dt with hst := {} } :=
  ⟨h.others, h.rest⟩

section
variable {s : State} {dt fn v : Nat} (hon : s.hostOn fn = true) (hring : s.hasRing fn (s.selRing fn) = true)
include hon hring

theorem exec_ringEnable (hv : bitAt v 0 = true) :
    exec (.ringEnable dt fn v) s = .next ((s.advance dt).enableRing fn (s.selRing fn) v) := by
  have hon' : (s.advance dt).hostOn fn = true := hon
  have hring' : (s.advance dt).hasRing fn ((s.advance dt).selRing fn) = true := hring
  have hten : ((s.advance dt).tenantOf fn).isNone = false := by
    cases h : (s.advance dt).tenantOf fn with
    | none => simp [State.hasRing, h] at hring'
    | some => rfl
  simp [exec, execRingEnable, State.writeRingCtl, hon', hv, hring', hten]
  rfl

theorem exec_ringDisable (hv : bitAt v 0 = false) :
    exec (.ringDisable dt fn v) s = .next ((s.advance dt).disableRing fn (s.selRing fn) v) := by
  have hon' : (s.advance dt).hostOn fn = true := hon
  have hring' : (s.advance dt).hasRing fn ((s.advance dt).selRing fn) = true := hring
  simp [exec, execRingDisable, State.writeRingCtl, hon', hv, hring']
  rfl

end

theorem tenantOf_of_hasRing {s : State} {fn r : Nat} (h : s.hasRing fn r = true) : (s.tenantOf fn).isNone = false := by
  cases ht : s.tenantOf fn with
  | none => simp [State.hasRing, ht] at h
  | some => rfl

/-- A function with a tenant is never refused with SETUP_ERR 1 (R410). -/
theorem setupErr_ne_one {s : State} {fn r : Nat} (h : s.hasRing fn r = true) (g : Ring) : s.setupErr fn g ≠ 1 := by
  simp only [State.setupErr, tenantOf_of_hasRing h, Bool.false_eq_true, if_false]
  (repeat' split) <;> simp

section
variable {s : State} {fn r v : Nat} (hoff : (s.ring fn r).enable = false)
include hoff

theorem enableRing_accepted (herr : s.setupErr fn ((s.ring fn r).writeCtl v) = 0) (hgap : (s.ring fn r).gapCount = 0) :
    s.enableRing fn r v = s.setRing fn r ((s.ring fn r).writeCtl v).start := by
  have hnotice : (s.setRing fn r ((s.ring fn r).writeCtl v).start).writeNotice fn r =
      s.setRing fn r ((s.ring fn r).writeCtl v).start := by
    have : (((s.ring fn r).writeCtl v).start).gapCount = 0 := hgap
    simp [State.writeNotice, this]
  simp [State.enableRing, hoff, herr, hnotice]

theorem enableRing_refused {e : Nat} (hring : s.hasRing fn r = true) (herr : s.setupErr fn ((s.ring fn r).writeCtl v) = e) (h0 : e ≠ 0) :
    s.enableRing fn r v = s.setRing fn r { (s.ring fn r).writeCtl v with setupErr := e } := by
  have h1 : e ≠ 1 := herr ▸ setupErr_ne_one hring _
  simp [State.enableRing, hoff, herr, h0, h1]

end

theorem disableRing_bound {s : State} {fn r : Nat} (hon : (s.ring fn r).enable = true) (hkind : (s.ring fn r).kind = 1)
    (hbound : s.ringBound fn r = true) (v : Nat) :
    s.disableRing fn r v = s.setRing fn r { s.ring fn r with setupErr := 5 } := by
  simp [State.disableRing, hon, hkind, hbound]

theorem disableRing_free {s : State} {fn r : Nat} (hon : (s.ring fn r).enable = true)
    (hfree : (s.ring fn r).kind = 1 → s.ringBound fn r = false) (v : Nat) :
    s.disableRing fn r v = (s.disableNow fn r).modRing fn r fun x => { x with setupErr := 0 } := by
  have hcond : ¬ ((s.ring fn r).kind = 1 ∧ s.ringBound fn r = true) := fun ⟨h, h'⟩ => absurd ((hfree h).symm.trans h') (by decide)
  simp only [State.disableRing, hon, Bool.not_true, Bool.false_eq_true, if_false, if_neg hcond]

/-! ### Function reset (R463) -/

/-- The bits of rings that are off. -/
theorem enable_disableNow (s : State) (fn r k : Nat) (h : (tget s.hst.rings k).enable = false) :
    (tget ((s.disableNow fn r).modRing fn r Ring.cleared).hst.rings k).enable = false := by
  obtain ⟨honly, -, -⟩ := disableNow_onlyRing s fn r
  rw [State.modRing, rings_setRing]
  split
  · rfl
  · next hk => rw [honly.others k hk]; exact h

/-- The banks that no configuration needs go off: memories, what is switched on, and records. -/
theorem trimBanks_rest (s : State) :
    { s.trimBanks.quiet with mem := {}, rst := {} } = { s.quiet with mem := {}, rst := {} } := by
  refine view_foldl (fun q => { q.quiet with mem := {}, rst := {} }) _ (fun q b => ?_) _ s
  have hoff : ∀ d, { (q.switchOff d).quiet with mem := {}, rst := {} } = { q.quiet with mem := {}, rst := {} } := by
    intro d
    unfold State.switchOff
    split
    · rw [quiet_evDev]; rfl
    · rfl
  dsimp only
  split
  · rfl
  · exact (hoff (27 + b))

/-- The rings of a function after their reset. -/
def State.ringsReset (s : State) (fn : Nat) : State :=
  ((s.hst.rings.map (·.1)).filter fun k => k / 16384 == fn).foldl
    (fun q k => (q.disableNow fn (k % 16384)).modRing fn (k % 16384) Ring.cleared) s

theorem ringsReset_rest (s : State) (fn : Nat) : { s.ringsReset fn with hst := {} } = { s with hst := {} } :=
  view_foldl (fun q => { q with hst := {} }) _
    (fun q k => ((disableNow_onlyRing q fn (k % 16384)).1.trans (.setRing ..)).rest) _ s

/-- A ring that the function's part of the table does not list is at its reset value. -/
theorem ring_of_unlisted {s : State} {fn r : Nat} (h : ringKey fn r ∉ (s.hst.rings.map (·.1)).filter fun k => k / 16384 == fn)
    (hr : r < 16384) : s.ring fn r = {} := by
  have hdiv : ringKey fn r / 16384 = fn := by simp only [ringKey]; omega
  have hnone : s.hst.rings.lookup (ringKey fn r) = none := by
    rw [List.lookup_eq_none_iff]
    intro x hx
    simp only [List.mem_filter, List.mem_map, beq_iff_eq, hdiv, and_true, not_exists, not_and] at h
    simpa using fun he => h x hx he.symm
  simp only [State.ring, tget, hnone, Option.getD_none]
  rfl

theorem enable_ringsReset (s : State) (fn r : Nat) (hr : r < 16384) : ((s.ringsReset fn).ring fn r).enable = false := by
  have hmod : ringKey fn r % 16384 = r := by simp only [ringKey]; omega
  have hkeep : ∀ (q : State) (k : Nat), (q.ring fn r).enable = false →
      (((q.disableNow fn (k % 16384)).modRing fn (k % 16384) Ring.cleared).ring fn r).enable = false :=
    fun q k => enable_disableNow q fn (k % 16384) (ringKey fn r)
  by_cases hmem : ringKey fn r ∈ (s.hst.rings.map (·.1)).filter fun k => k / 16384 == fn
  · refine foldl_of_mem (P := fun q => (q.ring fn r).enable = false) hkeep (fun q => ?_) hmem s
    rw [hmod]
    exact congrArg Ring.enable (ring_setRing_self ..)
  · refine List.foldlRecOn (motive := fun q : State => (q.ring fn r).enable = false) _ _ ?_ fun q hq k _ => hkeep q k hq
    rw [ring_of_unlisted hmem hr]

/-- What a reset of a function leaves alone (R464). -/
theorem resetFn_rest (s : State) (fn : Nat) :
    { (s.resetFn fn).quiet with mem := {}, rst := {} } = { s.quiet with mem := {}, rst := {} } := by
  have hops := quiet_abortOps s fn false (·.begun)
  have hrings : ∀ q : State, { (q.ringsReset fn).quiet with mem := {}, rst := {} } = { q.quiet with mem := {}, rst := {} } :=
    fun q => congrArg (fun x : State => { x.quiet with mem := {}, rst := {} }) (ringsReset_rest q fn)
  refine (hrings _).trans ?_
  split
  · exact (trimBanks_rest _).trans (congrArg (fun x : State => { x with mem := {}, rst := {} }) hops)
  · exact congrArg (fun x : State => { x with mem := {}, rst := {} }) hops

theorem resetFn_keeps (s : State) (fn : Nat) : (s.resetFn fn).vrd = s.vrd ∧ (s.resetFn fn).plx = s.plx ∧
    (s.resetFn fn).shr = s.shr ∧ (s.resetFn fn).glb = s.glb ∧ (s.resetFn fn).pending = s.pending := by
  have h := resetFn_rest s fn
  generalize s.resetFn fn = t at h ⊢
  exact ⟨(congrArg State.vrd h :), (congrArg State.plx h :), (congrArg State.shr h :), (congrArg State.glb h :),
    (congrArg State.pending h :)⟩

theorem resetFn_rings (s : State) (fn r : Nat) (hr : r < 16384) : ((s.resetFn fn).ring fn r).enable = false :=
  enable_ringsReset _ fn r hr

/-- Settles O44: the three writes of TEN_R_CTL change one ring, and a reset every ring of the function. -/
theorem ringsAreEnabledDisabledAndReset : Obligations.RingsAreEnabledDisabledAndReset := by
  intro dt fn v s hon
  refine ⟨fun hring hv hoff => ⟨fun herr hgap => ?_, fun herr => ?_⟩, fun hring hv hen => ⟨fun hkind hbound => ?_, fun hfree => ?_⟩, ?_⟩
  · have hrun := (exec_ringEnable (dt := dt) hon hring hv).trans
      (congrArg Host.Outcome.next (enableRing_accepted (s := s.advance dt) hoff herr hgap))
    obtain ⟨hothers, hrest⟩ := onlyRing_advance (.setRing fn (s.selRing fn) (s.advance dt) ((s.ring fn (s.selRing fn)).writeCtl v).start)
    refine ⟨_, hrun, ?_, ?_, ?_, ?_, ?_, ?_, ?_, ?_, hothers, hrest⟩
    all_goals rw [ring_setRing_self]
    all_goals simp [Ring.start, Ring.writeCtl, fld, State.ring]
  · have hrun := (exec_ringEnable (dt := dt) hon hring hv).trans
      (congrArg Host.Outcome.next (enableRing_refused (s := s.advance dt) hoff hring rfl herr))
    obtain ⟨hothers, hrest⟩ := onlyRing_advance (.setRing fn (s.selRing fn) (s.advance dt) { (s.ring fn (s.selRing fn)).writeCtl v with
      setupErr := s.setupErr fn ((s.ring fn (s.selRing fn)).writeCtl v) })
    exact ⟨_, hrun, (congrArg Ring.enable (ring_setRing_self ..)).trans hoff, congrArg Ring.setupErr (ring_setRing_self ..),
      hothers, hrest⟩
  · have hrun := (exec_ringDisable (dt := dt) hon hring hv).trans
      (congrArg Host.Outcome.next (disableRing_bound (s := s.advance dt) hen hkind hbound v))
    obtain ⟨hothers, hrest⟩ := onlyRing_advance (.setRing fn (s.selRing fn) (s.advance dt) { s.ring fn (s.selRing fn) with setupErr := 5 })
    exact ⟨_, hrun, ring_setRing_self .., hothers, hrest⟩
  · have hrun := (exec_ringDisable (dt := dt) hon hring hv).trans
      (congrArg Host.Outcome.next (disableRing_free (s := s.advance dt) hen hfree v))
    obtain ⟨-, hheld, hdis⟩ := disableNow_onlyRing (s.advance dt) fn (s.selRing fn)
    exact ⟨_, hrun, by simp only [ring_modRing_self, hdis], by simp only [ring_modRing_self],
      by simp only [ring_modRing_self, hheld]⟩
  · have hrun : exec (.functionReset dt fn 0 0 0) s = .next ((s.advance dt).resetFn fn) :=
      congrArg Host.Outcome.next (if_pos hon)
    exact ⟨_, hrun, fun r hr => resetFn_rings _ fn r hr, congrArg HostFn.busMaster (State.setHfn_hfn ..),
      congrArg HostFn.evtEnable (State.setHfn_hfn ..), resetFn_keeps (s.advance dt) fn⟩

end Sys2Proof.Machine
end

section
/-! Doorbells (R416 to R418). -/

namespace Sys2Proof.Machine

/-! ### Fields of words -/

/-- The bytes of a value are the value's low bits. -/
theorem ofLe_le (n v : Nat) : ofLe (le n v) = v % 256 ^ n := by
  induction n generalizing v with
  | zero => simp [le, ofLe, Nat.mod_one]
  | succ n ih =>
    rw [le, ofLe, ih, BitVec.toNat_ofNat, show 256 ^ (n + 1) = 256 * 256 ^ n from pow_succ' .., Nat.mod_mul]

/-- A field read where it was written. -/
theorem rd_append_left (a b : Bytes) (n : Nat) (h : a.length = n) : rd (a ++ b) 0 n = ofLe a := by
  subst h; simp [rd, slice]

theorem rd_append_right (a b : Bytes) (off n : Nat) (ha : a.length = off) (hb : b.length = n) : rd (a ++ b) off n = ofLe b := by
  subst ha hb; simp [rd, slice]

/-! ### One doorbell -/

/-- A doorbell write of one word is one doorbell. -/
theorem exec_doorbell_word {s : State} {dt fn r index seq : Nat} (hon : s.hostOn fn = true) (hr : r < 16384) (hi : index < 2 ^ 32)
    (hq : seq < 2 ^ 32) :
    exec (.doorbell dt fn (8 * r) (le 4 index ++ le 4 seq)) s = .next ((s.advance dt).doorbell fn r index seq) := by
  have hon' : (s.advance dt).hostOn fn = true := hon
  have hoff : 8 * r < 0x20000 := by omega
  have hword : 8 * r % 8 = 0 ∧ (le 4 index ++ le 4 seq).length % 8 = 0 ∧ le 4 index ++ le 4 seq ≠ [] :=
    ⟨by omega, by simp, by simp [le]⟩
  have hchunks : chunks 8 (le 4 index ++ le 4 seq) = [le 4 index ++ le 4 seq] := by simp [chunks, chunksF, le]
  have hindex : rd (le 4 index ++ le 4 seq) 0 4 = index := by
    rw [rd_append_left _ _ _ (by simp), ofLe_le, Nat.mod_eq_of_lt (by simpa using hi)]
  have hseq : rd (le 4 index ++ le 4 seq) 4 4 = seq := by
    rw [rd_append_right _ _ _ _ (by simp) (by simp), ofLe_le, Nat.mod_eq_of_lt (by simpa using hq)]
  have hdiv : 8 * r / 8 = r := by omega
  simp only [exec, execDoorbell, hon', hoff, decide_true, Bool.and_self, if_true, State.doorbellWrite, if_pos hword, hchunks, hdiv,
    State.doorbells, hindex, hseq]

theorem doorbell_accepted {s : State} {fn r index seq : Nat} (hring : s.hasRing fn r = true) (hen : (s.ring fn r).enable = true)
    (hseq : seq = ((s.ring fn r).dbSeq + 1) % 2 ^ 32) (hindex : (s.ring fn r).indexOk index = true) :
    s.doorbell fn r index seq = s.setRing fn r (if (s.ring fn r).kind = 0 then { s.ring fn r with dbSeq := seq, pi := index }
      else { s.ring fn r with dbSeq := seq, ci := index }) := by
  have hcause : s.dbCause fn r index seq = 0 := by
    have hseq' : ¬ seq ≠ ((s.ring fn r).dbSeq + 1) % 2 ^ 32 := not_not.2 hseq
    simp only [State.dbCause, hring, hen, hindex, if_neg hseq', Bool.not_true, Bool.false_eq_true, if_false]
  simp only [State.doorbell, hcause, if_true]
  rfl

/-! ### A doorbell that is not accepted (R418) -/

/-- The state in which the record of a bad doorbell is written: the counts of the tenant and of the ring. -/
def State.countDb (s : State) (fn r cause : Nat) : State :=
  let s1 := match s.tenantOf fn with
    | some t => s.modTenant t fun x => { x with dbErr := inc 16 x.dbErr }
    | none => s
  if s.hasRing fn r then s1.modRing fn r fun g => { g with dbErrs := inc 16 g.dbErrs, lastDbErr := cause } else s1

theorem rejectDb_eq (s : State) (fn r cause index seq : Nat) : s.rejectDb fn r cause index seq =
    (s.countDb fn r cause).evidence 0x0001 (s.recTenant fn) 1 0xFFFFFFFF (le 2 r ++ le 1 cause ++ zeros 1 ++ le 4 index ++ le 4 seq) := rfl

/-- Only the ring's error count and cause change, where the ring is the tenant's. -/
theorem rings_countDb (s : State) (fn r cause k : Nat) : tget (s.countDb fn r cause).hst.rings k =
    if s.hasRing fn r = true ∧ k = ringKey fn r then { s.ring fn r with dbErrs := inc 16 (s.ring fn r).dbErrs, lastDbErr := cause }
    else tget s.hst.rings k := by
  have hten : ∀ t f, tget ((s.modTenant t f).modRing fn r fun g => { g with dbErrs := inc 16 g.dbErrs, lastDbErr := cause }).hst.rings k =
      if k = ringKey fn r then { s.ring fn r with dbErrs := inc 16 (s.ring fn r).dbErrs, lastDbErr := cause } else tget s.hst.rings k :=
    fun t f => rings_setRing (s.modTenant t f) fn r _ k
  unfold State.countDb
  cases hring : s.hasRing fn r with
  | true =>
    have : (s.tenantOf fn).isNone = false := tenantOf_of_hasRing hring
    cases ht : s.tenantOf fn with
    | none => simp [ht] at this
    | some t => simpa using hten t _
  | false => simp; cases s.tenantOf fn <;> rfl

theorem quiet_countDb (s : State) (fn r cause : Nat) : (s.countDb fn r cause).quiet = s.quiet := by
  unfold State.countDb; dsimp only
  (repeat' split) <;> rfl

/-- Settles O45: an accepted doorbell moves one index, and a rejected one is counted and recorded. -/
theorem doorbellsMoveTheIndex : Obligations.DoorbellsMoveTheIndex := by
  intro dt fn r index seq s hon hr hi hq
  have hrun := exec_doorbell_word (dt := dt) hon hr hi hq
  refine ⟨fun hring hen hseq hindex => ?_, fun hcause => ?_⟩
  · rw [doorbell_accepted (s := s.advance dt) hring hen hseq hindex] at hrun
    exact ⟨_, hrun, ring_setRing_self .., fun k hk => tget_tset_ne hk .., rfl⟩
  · have hdoor : (s.advance dt).doorbell fn r index seq = (s.advance dt).rejectDb fn r (s.dbCause fn r index seq) index seq := if_neg hcause
    rw [hdoor, rejectDb_eq] at hrun
    have hrec := State.RecordsTo.evidence ((s.advance dt).countDb fn r (s.dbCause fn r index seq)) 0x0001 ((s.advance dt).recTenant fn) 1
      0xFFFFFFFF (le 2 r ++ le 1 (s.dbCause fn r index seq) ++ zeros 1 ++ le 4 index ++ le 4 seq)
    have hcount := rings_countDb (s.advance dt) fn r (s.dbCause fn r index seq)
    refine ⟨_, hrun, fun k => ?_, fun hring => ?_, hrec.quiet.trans (quiet_countDb ..)⟩
    · have hci : ∀ g g' : Ring, g.settings = g'.settings → g.ci = g'.ci ∧ g.dbSeq = g'.dbSeq := fun _ _ h =>
        ⟨(congrArg Ring.ci h :), (congrArg Ring.dbSeq h :)⟩
      obtain ⟨h1, h2⟩ := hci _ _ (hrec.rings k)
      rw [h1, h2, hcount k]
      split
      · next hk => obtain ⟨-, rfl⟩ := hk; exact ⟨rfl, rfl⟩
      · exact ⟨rfl, rfl⟩
    · have hself := (hcount (ringKey fn r)).trans (if_pos ⟨hring, rfl⟩)
      exact ⟨(congrArg Ring.lastDbErr (hrec.ring fn r) :).trans (congrArg Ring.lastDbErr hself),
        (congrArg Ring.dbErrs (hrec.ring fn r) :).trans (congrArg Ring.dbErrs hself)⟩

end Sys2Proof.Machine
end

section
/-! Completion records and the fetching of descriptors (R399, R409, R413, R421, R425, R441, R446). -/

namespace Sys2Proof.Machine

/-! ### What a completion leaves of the hosts' links -/

/-- A ring without what records and completions change: also the outstanding descriptors, the entries they hold, and the records
that wait for Bus Master Enable. -/
def Ring.link (g : Ring) : Ring := { g.settings with outstanding := [], owed := 0, waiting := [] }

theorem link_of_settings {g g' : Ring} (h : g'.settings = g.settings) : g'.link = g.link :=
  congrArg (fun x : Ring => { x with outstanding := [], owed := 0, waiting := [] }) h

theorem entryAt_of_link {g g' : Ring} (h : g'.link = g.link) (i : Nat) : g'.entryAt i = g.entryAt i := by
  have hbase : g'.base = g.base := (congrArg Ring.base h :)
  have hsize : g'.sizeLog2 = g.sizeLog2 := (congrArg Ring.sizeLog2 h :)
  have hkind : g'.kind = g.kind := (congrArg Ring.kind h :)
  simp only [Ring.entryAt, Ring.size, Ring.entrySize, hbase, hsize, hkind]

/-- t is s after completions, records and messages. -/
structure State.CompletesTo (s t : State) : Prop where
  rings : ∀ k, (tget t.hst.rings k).link = (tget s.hst.rings k).link
  fns : ∀ f, (t.hfn f).settings = (s.hfn f).settings
  rest : { t.hst with rings := [], fns := [], tenants := [] } = { s.hst with rings := [], fns := [], tenants := [] }
  quiet : t.quiet = s.quiet
  out : ∀ x ∈ s.out, x ∈ t.out

theorem State.RecordsTo.completes {s t : State} (h : s.RecordsTo t) : s.CompletesTo t :=
  ⟨fun k => link_of_settings (h.rings k), h.fns, h.rest, h.quiet, h.out⟩

theorem State.RecordsTo.outstanding {s t : State} (h : s.RecordsTo t) (fn r : Nat) :
    (t.ring fn r).outstanding = (s.ring fn r).outstanding := (congrArg Ring.outstanding (h.rings _) :)

namespace State.CompletesTo

theorem trans {s t u : State} (h : s.CompletesTo t) (h' : t.CompletesTo u) : s.CompletesTo u :=
  ⟨fun k => (h'.rings k).trans (h.rings k), fun f => (h'.fns f).trans (h.fns f), h'.rest.trans h.rest,
    h'.quiet.trans h.quiet, fun x hx => h'.out x (h.out x hx)⟩

theorem setRing (s : State) (fn r : Nat) {x : Ring} (h : x.link = (s.ring fn r).link) : s.CompletesTo (s.setRing fn r x) := by
  refine ⟨fun k => ?_, fun _ => rfl, rfl, rfl, fun _ h => h⟩
  rw [rings_setRing]
  split
  · next hk => subst hk; exact h
  · rfl

section
variable {s t : State} (h : s.CompletesTo t)
include h
theorem fetched : t.hst.fetched = s.hst.fetched := (congrArg Hosts.fetched h.rest :)
theorem busMaster (f : Nat) : (t.hfn f).busMaster = (s.hfn f).busMaster := (congrArg HostFn.busMaster (h.fns f) :)
theorem ci (fn r : Nat) : (t.ring fn r).ci = (s.ring fn r).ci := (congrArg Ring.ci (h.rings _) :)
theorem enable (fn r : Nat) : (t.ring fn r).enable = (s.ring fn r).enable := (congrArg Ring.enable (h.rings _) :)
end

theorem ring {s t : State} (h : s.CompletesTo t) (fn r : Nat) : (t.ring fn r).link = (s.ring fn r).link := h.rings _

end State.CompletesTo

/-! ### One completion -/

/-- The state in which the record of a completion is written: the descriptor is no longer outstanding, and the tenant's count
has moved (R425). -/
def State.settled (s : State) (fn ring index : Nat) : State :=
  let s1 := s.setRing fn ring ((s.ring fn ring).settle index)
  match s.tenantOf fn with
  | some t => s1.modTenant t fun x => { x with desc := inc 32 x.desc }
  | none => s1

theorem complete_eq (s : State) (fn ring index : Nat) (c : Cpl) : s.complete fn ring index c =
    let s2 := s.settled fn ring index
    let cr := (s.ring fn ring).cplOf index
    if !(s2.ring fn cr).enable then s2.release fn cr
    else if (s2.hfn fn).busMaster then (s2.release fn cr).putRecord fn cr (c.bytes ring index s.tmb.now) false
    else s2.setRing fn cr { s2.ring fn cr with waiting := (s2.ring fn cr).waiting ++ [c.bytes ring index s.tmb.now] } := rfl

theorem settled_completesTo (s : State) (fn ring index : Nat) : s.CompletesTo (s.settled fn ring index) := by
  have hset : s.CompletesTo (s.setRing fn ring ((s.ring fn ring).settle index)) := .setRing s fn ring rfl
  unfold State.settled; dsimp only
  split
  · exact hset.trans (State.RecordsTo.modTenant ..).completes
  · exact hset

theorem complete_completesTo (s : State) (fn ring index : Nat) (c : Cpl) : s.CompletesTo (s.complete fn ring index c) := by
  have hrelease : ∀ (q : State) (cr : Nat), q.CompletesTo (q.release fn cr) := fun q cr => .setRing q fn cr (by rfl)
  rw [complete_eq]
  refine (settled_completesTo s fn ring index).trans ?_
  dsimp only
  split
  · exact hrelease ..
  · split
    · exact (hrelease ..).trans (State.RecordsTo.putRecord ..).completes
    · exact .setRing _ fn _ (by rfl)

/-- Where the completion ring is enabled and the function masters the bus, the record is sent to the ring's next entry. -/
theorem record_mem_complete {s : State} {fn ring index : Nat} (hen : (s.ring fn ((s.ring fn ring).cplOf index)).enable = true)
    (hbm : (s.hfn fn).busMaster = true) (c : Cpl) :
    ∃ i, .record fn ((s.ring fn ring).cplOf index) i ((s.ring fn ((s.ring fn ring).cplOf index)).entryAt i)
      (c.bytes ring index s.tmb.now) ∈ (s.complete fn ring index c).out := by
  have hsettled := settled_completesTo s fn ring index
  generalize hcr : (s.ring fn ring).cplOf index = cr at hen ⊢
  have hlink := hsettled.ring fn cr
  have hen' : ((s.settled fn ring index).ring fn cr).enable = true := by rw [hsettled.enable, hen]
  have hbm' : ((s.settled fn ring index).hfn fn).busMaster = true := by rw [hsettled.busMaster, hbm]
  have hrelease : (((s.settled fn ring index).release fn cr).ring fn cr).link = (s.ring fn cr).link :=
    ((State.CompletesTo.setRing _ fn cr (by rfl)).ring fn cr).trans hlink
  refine ⟨(((s.settled fn ring index).release fn cr).ring fn cr).pi, ?_⟩
  have hmem := record_mem_putRecord ((s.settled fn ring index).release fn cr) fn cr (c.bytes ring index s.tmb.now) false
  rw [entryAt_of_link hrelease] at hmem
  rw [complete_eq]
  simpa only [hcr, hen', hbm', Bool.not_true, Bool.false_eq_true, if_false, if_true] using hmem

/-- The descriptor last fetched completes in the ring in which it holds an entry. -/
theorem record_of_outstanding {s : State} {fn r i cr : Nat} {l : List (Nat × Nat)} (hout : (s.ring fn r).outstanding = l ++ [(i, cr)])
    (hfirst : ∀ x ∈ l, x.1 ≠ i) (hen : (s.ring fn cr).enable = true) (hbm : (s.hfn fn).busMaster = true) (c : Cpl) :
    ∃ n, .record fn cr n ((s.ring fn cr).entryAt n) (c.bytes r i s.tmb.now) ∈ (s.complete fn r i c).out := by
  have hnone : l.find? (fun x => x.1 == i) = none := by simpa using hfirst
  have hcpl : (s.ring fn r).cplOf i = cr := by simp [Ring.cplOf, hout, hnone]
  subst hcpl
  exact record_mem_complete hen hbm c

/-- So the descriptor has completed with its record. -/
theorem wrote_complete (s : State) (fn ring index : Nat) (c : Cpl) : s.wrote (s.complete fn ring index c) fn ring index c := by
  intro hen hbm
  obtain ⟨i, hi⟩ := record_mem_complete hen hbm c
  have hnow : (s.complete fn ring index c).tmb.now = s.tmb.now := (congrArg TimeBase.now (quiet_tmb (quiet_complete ..)) :)
  exact ⟨i, _, hnow ▸ hi⟩

/-! ### Fetching (R413, R414, R421, R446) -/

/-- What lets a descriptor be fetched: a submission ring with an entry reserved in an enabled completion ring, which is another. -/
theorem canFetch_iff {s : State} {fn r : Nat} (h : s.canFetch fn r = true) : (s.ring fn r).kind = 0 ∧
    (s.hfn fn).busMaster = true ∧ (s.ring fn (s.ring fn r).cplRing).enable = true ∧ (s.ring fn r).cplRing ≠ r := by
  simp only [State.canFetch, State.hasEntry, Bool.and_eq_true, beq_iff_eq] at h
  obtain ⟨⟨⟨⟨⟨⟨-, -⟩, hkind⟩, -⟩, -⟩, hbm⟩, ⟨hen, hcpl⟩, -⟩ := h
  exact ⟨hkind, hbm, hen, fun he => by rw [he, hkind] at hcpl; exact absurd hcpl (by decide)⟩

theorem ringKey_ne {fn r r' : Nat} (h : r ≠ r') : ringKey fn r ≠ ringKey fn r' := by simp only [ringKey]; omega

theorem ring_setRing_ne (s : State) (fn : Nat) {r q : Nat} (x : Ring) (h : q ≠ r) : (s.setRing fn r x).ring fn q = s.ring fn q :=
  tget_tset_ne (ringKey_ne h) ..

/-- The rings as a descriptor is fetched: CI moves on in one, and an entry is reserved in the other. -/
def State.reserved (s : State) (fn r : Nat) : State :=
  (s.setRing fn r { s.ring fn r with
    ci := ((s.ring fn r).ci + 1) % 2 ^ 32
    outstanding := (s.ring fn r).outstanding ++ [((s.ring fn r).ci, (s.ring fn r).cplRing)] }).modRing fn (s.ring fn r).cplRing
    fun c => { c with owed := c.owed + 1 }

theorem fetched_eq (s : State) (fn r : Nat) : s.fetched fn r =
    ((s.reserved fn r).hostRead fn ((s.ring fn r).entryAt (s.ring fn r).ci) 64).writeBack fn r (((s.ring fn r).ci + 1) % 2 ^ 32) := rfl

@[simp] theorem ring_hostRead (s : State) (fn a n f r : Nat) : (s.hostRead fn a n).ring f r = s.ring f r := rfl
@[simp] theorem ring_writeBack (s : State) (fn r i f q : Nat) : (s.writeBack fn r i).ring f q = s.ring f q := rfl

@[simp] theorem hfn_hostRead (s : State) (fn a n f : Nat) : (s.hostRead fn a n).hfn f = s.hfn f := rfl
@[simp] theorem hfn_writeBack (s : State) (fn r i f : Nat) : (s.writeBack fn r i).hfn f = s.hfn f := rfl

theorem quiet_fetched (s : State) (fn r : Nat) : (s.fetched fn r).quiet = s.quiet := by
  rw [fetched_eq, quiet_writeBack]
  exact (quiet_emit ..).trans ((quiet_setRing ..).trans (quiet_setRing ..))

theorem hst_fetched (s : State) (fn r : Nat) : (s.fetched fn r).hst.fetched = s.hst.fetched := by rw [fetched_eq]; rfl

theorem hfn_fetched (s : State) (fn r f : Nat) : (s.fetched fn r).hfn f = s.hfn f := by
  rw [fetched_eq, hfn_writeBack, hfn_hostRead, State.reserved, State.modRing, hfn_setRing, hfn_setRing]

/-- The read of the entry is sent. -/
theorem hostRead_mem_fetched (s : State) (fn r : Nat) :
    .hostRead fn ((s.ring fn r).entryAt (s.ring fn r).ci) 64 (128 * 2 ^ (s.hfn fn).maxRead) ∈ (s.fetched fn r).out := by
  rw [fetched_eq]
  exact List.mem_append_left _ (List.mem_append_right _ (List.mem_singleton.2 rfl))

section
variable {s : State} {fn r : Nat} (h : s.canFetch fn r = true)
include h

theorem ring_reserved : (s.reserved fn r).ring fn r = { s.ring fn r with
    ci := ((s.ring fn r).ci + 1) % 2 ^ 32, outstanding := (s.ring fn r).outstanding ++ [((s.ring fn r).ci, (s.ring fn r).cplRing)] } := by
  obtain ⟨-, -, -, hne⟩ := canFetch_iff h
  rw [State.reserved, State.modRing, ring_setRing_ne _ _ _ hne.symm, ring_setRing_self]

/-- CI has moved on, and the descriptor is outstanding. -/
theorem ring_fetched : (s.fetched fn r).ring fn r = { s.ring fn r with
    ci := ((s.ring fn r).ci + 1) % 2 ^ 32, outstanding := (s.ring fn r).outstanding ++ [((s.ring fn r).ci, (s.ring fn r).cplRing)] } := by
  rw [fetched_eq, ring_writeBack, ring_hostRead, ring_reserved h]

/-- An entry of its completion ring is reserved. -/
theorem ring_fetched_cpl : (s.fetched fn r).ring fn (s.ring fn r).cplRing =
    { s.ring fn (s.ring fn r).cplRing with owed := (s.ring fn (s.ring fn r).cplRing).owed + 1 } := by
  obtain ⟨-, -, -, hne⟩ := canFetch_iff h
  rw [fetched_eq, ring_writeBack, ring_hostRead, State.reserved, State.modRing, ring_setRing_self, ring_setRing_ne _ _ _ hne]

/-- And so is the write-back of the index. -/
theorem writeBack_mem_fetched : .writeBack fn r (((s.ring fn r).ci + 1) % 2 ^ 32) (s.ring fn r).wb.toNat
    (le 4 (((s.ring fn r).ci + 1) % 2 ^ 32) ++ zeros 4) ∈ (s.fetched fn r).out := by
  have hwb := congrArg Ring.wb (ring_reserved h)
  dsimp only at hwb
  rw [fetched_eq, State.writeBack, ring_hostRead, hwb]
  exact List.mem_append_right _ (List.mem_singleton.2 rfl)

/-- A descriptor that completes as it has been fetched: its record goes to its completion ring, and it does not wait. -/
theorem complete_fetched {u : State} (hu : (s.fetched fn r).RecordsTo u)
    (hfirst : ∀ x ∈ (s.ring fn r).outstanding, x.1 ≠ (s.ring fn r).ci) (c : Cpl) :
    (u.complete fn r (s.ring fn r).ci c).hst.fetched = s.hst.fetched ∧
    (∃ i, .record fn (s.ring fn r).cplRing i ((s.ring fn (s.ring fn r).cplRing).entryAt i)
      (c.bytes r (s.ring fn r).ci s.tmb.now) ∈ (u.complete fn r (s.ring fn r).ci c).out) ∧
    ((u.complete fn r (s.ring fn r).ci c).ring fn r).ci = ((s.ring fn r).ci + 1) % 2 ^ 32 ∧
    (u.complete fn r (s.ring fn r).ci c).quiet = s.quiet := by
  obtain ⟨-, hbm, hen, -⟩ := canFetch_iff h
  have hdone := complete_completesTo u fn r (s.ring fn r).ci c
  have hquiet := hu.quiet.trans (quiet_fetched s fn r)
  have hcring := (hu.ring fn (s.ring fn r).cplRing).trans (congrArg Ring.settings (ring_fetched_cpl h))
  have hlink : (u.ring fn (s.ring fn r).cplRing).link = (s.ring fn (s.ring fn r).cplRing).link := by
    rw [link_of_settings hcring]; simp only [Ring.link, Ring.settings]
  have hout : (u.ring fn r).outstanding = (s.ring fn r).outstanding ++ [((s.ring fn r).ci, (s.ring fn r).cplRing)] := by
    rw [hu.outstanding, ring_fetched h]
  have hci : (u.ring fn r).ci = ((s.ring fn r).ci + 1) % 2 ^ 32 := by rw [hu.completes.ci, ring_fetched h]
  have hen' : (u.ring fn (s.ring fn r).cplRing).enable = true := by rw [hu.completes.enable, ring_fetched_cpl h, hen]
  have hbm' : (u.hfn fn).busMaster = true := by rw [hu.completes.busMaster, hfn_fetched, hbm]
  obtain ⟨i, hi⟩ := record_of_outstanding hout hfirst hen' hbm' c
  rw [entryAt_of_link hlink, congrArg TimeBase.now (quiet_tmb hquiet)] at hi
  exact ⟨by rw [hdone.fetched, hu.completes.fetched, hst_fetched], ⟨i, hi⟩, (hdone.ci ..).trans hci, hdone.quiet.trans hquiet⟩

end

/-- A descriptor that passes waits to be taken; rings and output stay. -/
def State.waits (s : State) (d : Desc) : State := s.modHst fun h => { h with fetched := h.fetched ++ [d] }

@[simp] theorem waits_parts (s : State) (d : Desc) : (∀ fn r, (s.waits d).ring fn r = s.ring fn r) ∧ (s.waits d).out = s.out ∧
    (s.waits d).hst.fetched = s.hst.fetched ++ [d] ∧ (s.waits d).quiet = s.quiet := ⟨fun _ _ => rfl, rfl, rfl, rfl⟩

/-- The state in which a descriptor with a bad CHECK completes: its record has been written. -/
theorem checkFailed_eq (s : State) (fn r i : Nat) (b : Bytes) : ∃ u, s.RecordsTo u ∧
    s.checkFailed fn r i b = u.complete fn r i { status := 0x10, opcode := opcodeOf b } := by
  unfold State.checkFailed; dsimp only
  refine ⟨_, ?_, rfl⟩
  split
  · exact (State.RecordsTo.modTenant ..).trans (.evidence ..)
  · exact .evidence ..

theorem exec_descriptorFetch {s : State} {dt fn r : Nat} (hon : s.hostOn fn = true) (h : s.canFetch fn r = true) (bytes : Bytes)
    (ok : Bool) : exec (.descriptorFetch dt fn r bytes ok) s = .next ((s.advance dt).descFetch fn r bytes ok) :=
  congrArg Host.Outcome.next (if_pos (by rw [Bool.and_eq_true]; exact ⟨hon, h⟩))

/-- Settles O46: the three ends of a fetch, each from the state after it. -/
theorem descriptorsAreFetchedAndChecked : Obligations.DescriptorsAreFetchedAndChecked := by
  intro dt fn r bytes s hon hfetch hlen hfirst
  have hpad : padTo 64 bytes = bytes := by simp [padTo, hlen, zeros, List.take_of_length_le]
  have hfetch' : (s.advance dt).canFetch fn r = true := hfetch
  refine ⟨fun hcheck => ?_, fun hcheck => ?_, ?_⟩
  · have hdone : (s.advance dt).descFetch fn r bytes true =
        ((s.advance dt).fetched fn r).waits { fn := fn, ring := r, index := (s.ring fn r).ci, bytes := bytes } := by
      have hcheck' : (s.advance dt).descCheckOk fn r ((s.advance dt).ring fn r).ci bytes = true := hcheck
      simp only [State.descFetch, hpad, hcheck', Bool.not_true, Bool.false_eq_true, if_false, if_true]
      rfl
    obtain ⟨hring, hout, hlist, hquiet⟩ := waits_parts ((s.advance dt).fetched fn r)
      { fn := fn, ring := r, index := (s.ring fn r).ci, bytes := bytes }
    refine ⟨_, (exec_descriptorFetch hon hfetch bytes true).trans (congrArg Host.Outcome.next hdone), ?_, ?_, ?_, ?_, ?_, hquiet.trans (quiet_fetched ..)⟩
    · rw [hring, ring_fetched hfetch']; rfl
    · rw [hout]; exact hostRead_mem_fetched (s.advance dt) fn r
    · rw [hout]; exact writeBack_mem_fetched hfetch'
    · rw [hlist, hst_fetched]; rfl
    · exact (congrArg Ring.owed ((hring ..).trans (ring_fetched_cpl hfetch')))
  · obtain ⟨u, hu, hfailed⟩ := checkFailed_eq ((s.advance dt).fetched fn r) fn r (s.ring fn r).ci bytes
    have hdone : (s.advance dt).descFetch fn r bytes true = u.complete fn r (s.ring fn r).ci { status := 0x10, opcode := opcodeOf bytes } := by
      have hcheck' : (s.advance dt).descCheckOk fn r ((s.advance dt).ring fn r).ci bytes = false := hcheck
      simp only [State.descFetch, hpad, hcheck', Bool.not_true, Bool.false_eq_true, if_false]
      exact hfailed
    obtain ⟨h1, ⟨i, h2⟩, h3, h4⟩ := complete_fetched hfetch' hu hfirst { status := 0x10, opcode := opcodeOf bytes }
    exact ⟨_, i, (exec_descriptorFetch hon hfetch bytes true).trans (congrArg Host.Outcome.next hdone), h1, h2, h3, h4⟩
  · obtain ⟨h1, ⟨i, h2⟩, h3, h4⟩ := complete_fetched hfetch' (.refl _) hfirst { status := 0x14 }
    exact ⟨_, i, exec_descriptorFetch hon hfetch bytes false, h1, h2, h3, h4⟩

end Sys2Proof.Machine
end

section
/-! Held records, notices, gap records and messages reach their ring (R399, R447, R449, R454, R458, R459). -/

namespace Sys2Proof.Machine

/-! ### A record into a ring that has just been set -/

/-- A record goes into the next entry of ring g: the index moves on, the record and its write-back are sent, and of what is no
record's own place nothing changes. -/
structure State.Put (s t : State) (fn r : Nat) (g : Ring) (b : Bytes) : Prop where
  ring : (t.ring fn r).uncounted = { g.uncounted with pi := (g.pi + 1) % 2 ^ 32 }
  record : .record fn r g.pi (g.entryAt g.pi) b ∈ t.out
  writeBack : .writeBack fn r ((g.pi + 1) % 2 ^ 32) g.wb.toNat (le 4 ((g.pi + 1) % 2 ^ 32) ++ zeros 4) ∈ t.out
  quiet : t.quiet = s.quiet

theorem put_setRing (s : State) (fn r : Nat) (g : Ring) (b : Bytes) (u : Bool) :
    s.Put ((s.setRing fn r g).putRecord fn r b u) fn r g b := by
  have hring := ring_putRecord (s.setRing fn r g) fn r b u
  have hrecord := record_mem_putRecord (s.setRing fn r g) fn r b u
  have hback := writeBack_mem_putRecord (s.setRing fn r g) fn r b u
  rw [ring_setRing_self] at hring hrecord hback
  exact ⟨hring, hrecord, hback, (quiet_putRecord ..).trans (quiet_setRing ..)⟩

section
variable {g g' : Ring} {p : Nat} (h : g'.uncounted = { g.uncounted with pi := p })
include h
theorem pi_of_put : g'.pi = p := (congrArg Ring.pi h :)
theorem held_of_put : g'.held = g.held := (congrArg Ring.held h :)
theorem gapCount_of_put : g'.gapCount = g.gapCount := (congrArg Ring.gapCount h :)
theorem skipped_of_put : g'.skipFirst = g.skipFirst ∧ g'.skipLast = g.skipLast :=
  ⟨(congrArg Ring.skipFirst h :), (congrArg Ring.skipLast h :)⟩
end

/-! ### The three records -/

section
variable {s : State} {fn r : Nat}

theorem put_writeHeld {x : Held} {rest : List Held} (hfree : s.canWrite fn r = true) (hheld : (s.ring fn r).held = x :: rest) :
    s.Put (s.writeHeld fn r) fn r { s.ring fn r with held := rest } x.bytes := by
  simp only [State.writeHeld, hheld, hfree, if_true]
  exact put_setRing ..

theorem put_writeNotice (hfree : s.canWrite fn r = true) (hkind : (s.ring fn r).kind = 1) (hgap : (s.ring fn r).gapCount ≠ 0)
    (hheld : (s.ring fn r).held = []) :
    s.Put (s.writeNotice fn r) fn r { s.ring fn r with gapCount := 0, gapFirst := 0, gapLast := 0 }
      (lostNotice r (s.ring fn r).gapCount (s.ring fn r).gapFirst (s.ring fn r).gapLast) := by
  rw [State.writeNotice, if_pos ⟨hkind, hgap, hheld, hfree⟩]
  exact put_setRing ..

theorem put_ringGap {n : Nat} (hfree : s.canWrite fn r = true) (hkind : (s.ring fn r).kind = 2)
    (hskip : (s.ring fn r).skipFirst ≠ 0) (hten : s.tenantOf fn = some n) :
    s.Put (s.ringGap fn r) fn r { s.ring fn r with skipFirst := 0, skipLast := 0 } (gapRecord s n (s.ring fn r)).bytes := by
  simp only [State.ringGap, hten, hkind, hskip, hfree, ne_eq, not_false_eq_true, and_self, if_true]
  exact put_setRing ..

/-- Nothing goes into a ring in which no entry is free. -/
theorem full_ring (hfull : s.canWrite fn r = false) : s.writeHeld fn r = s ∧ s.writeNotice fn r = s ∧ s.ringGap fn r = s := by
  refine ⟨?_, ?_, ?_⟩
  · unfold State.writeHeld; dsimp only; split
    · rfl
    · simp [hfull]
  · simp [State.writeNotice, hfull]
  · unfold State.ringGap; dsimp only; split
    · rfl
    · simp [hfull]

end

/-! ### Messages (R458, R459) -/

/-- What a message of a function does: it is sent, left pending, or neither. -/
theorem signal_cases (s : State) (fn v : Nat) :
    ((s.hfn fn).msixOn = true → (s.hfn fn).canSend v = true → .msix fn v ∈ (s.signal fn v).out) ∧
    ((s.hfn fn).msixOn = true → (s.hfn fn).canSend v = false → v ∈ ((s.signal fn v).hfn fn).pba) ∧
    ((s.hfn fn).msixOn = false → s.signal fn v = s) := by
  refine ⟨fun hon hsend => ?_, fun hon hsend => ?_, fun hon => ?_⟩
  · simp [State.signal, hon, hsend]
  · simp [State.signal, hon, hsend, mem_insNat_self]
  · simp [State.signal, hon]

/-- The message of a ring: its count is cleared, and its vector is signalled. -/
theorem ringMessage_cases (s : State) (fn r : Nat) : ((s.ringMessage fn r).ring fn r).unannounced = 0 ∧
    ((s.hfn fn).msixOn = true → (s.hfn fn).canSend (s.ring fn r).irqNow.vector = true →
      .msix fn (s.ring fn r).irqNow.vector ∈ (s.ringMessage fn r).out) ∧
    ((s.hfn fn).msixOn = true → (s.hfn fn).canSend (s.ring fn r).irqNow.vector = false →
      (s.ring fn r).irqNow.vector ∈ ((s.ringMessage fn r).hfn fn).pba) ∧
    ((s.hfn fn).msixOn = false → (s.ringMessage fn r).out = s.out ∧ ((s.ringMessage fn r).hfn fn).pba = (s.hfn fn).pba) := by
  obtain ⟨hsent, hpending, hnone⟩ := signal_cases (s.setRing fn r { s.ring fn r with unannounced := 0 }) fn (s.ring fn r).irqNow.vector
  refine ⟨?_, hsent, hpending, fun hoff => ?_⟩
  · rw [State.ringMessage, State.ring, rings_signal]
    exact congrArg Ring.unannounced (ring_setRing_self ..)
  · rw [State.ringMessage, hnone hoff]
    exact ⟨rfl, rfl⟩

theorem exec_irqModerationTimeout {s : State} {dt fn r : Nat} (hen : (s.ring fn r).enable = true) (hkind : (s.ring fn r).kind ≠ 0)
    (hirq : (s.ring fn r).irqNow.irqEn = true) (htime : (s.ring fn r).irqNow.modTime ≠ 0) (hsome : (s.ring fn r).unannounced ≠ 0)
    (hdue : s.mc + dt - (s.ring fn r).firstAt ≥ (s.ring fn r).irqNow.modTime * usMc) :
    exec (.irqModerationTimeout dt fn r) s = .next ((s.advance dt).ringMessage fn r) := by
  refine congrArg Host.Outcome.next (if_pos ?_)
  simp only [Bool.and_eq_true, bne_iff_ne, decide_eq_true_eq]
  exact ⟨⟨⟨⟨⟨hen, hkind⟩, hirq⟩, htime⟩, hsome⟩, hdue⟩

/-! ### Bus Master Enable (R398, R399, R458) -/

/-- The function as its configuration space is written. -/
def State.busSettings (s : State) (fn : Nat) (bme on mask : Bool) (mps mrrs : Nat) : State :=
  s.modHfn fn fun h => { h with
    busMaster := bme, msixOn := on, msixMask := mask, maxPayload := min 2 mps, maxRead := min 5 mrrs }

/-- And the records that waited in its rings have gone out. -/
def State.waitingWritten (s : State) (fn : Nat) : State :=
  ((s.hst.rings.map (·.1)).filter fun k => k / 16384 == fn).foldl (fun q k => q.writeWaiting fn (k % 16384)) s

theorem exec_busMasterEnable_off {s : State} {fn : Nat} (hon : s.hostOn fn = true) (dt : Nat) (on mask : Bool) (mps mrrs : Nat) :
    exec (.busMasterEnable dt fn false on mask mps mrrs) s =
      .next (((s.advance dt).busSettings fn false on mask mps mrrs).sendPending fn) := congrArg Host.Outcome.next (if_pos hon)

theorem exec_busMasterEnable_on {s : State} {fn : Nat} (hon : s.hostOn fn = true) (dt : Nat) (on mask : Bool) (mps mrrs : Nat) :
    exec (.busMasterEnable dt fn true on mask mps mrrs) s =
      .next ((((s.advance dt).busSettings fn true on mask mps mrrs).waitingWritten fn).sendPending fn) :=
  congrArg Host.Outcome.next (if_pos hon)

theorem sendPending_rings (s : State) (fn : Nat) : (s.sendPending fn).hst.rings = s.hst.rings := by
  have hemit : ∀ (l : List Nat) (q : State), (l.foldl (fun q v => q.emit (.msix fn v)) q).hst = q.hst :=
    fun l q => view_foldl State.hst (fun q v => q.emit (.msix fn v)) (fun _ _ => rfl) l q
  unfold State.sendPending; dsimp only
  split
  · rw [hemit]; rfl
  · rfl

/-- The pending vectors that may go out do, and the others stay pending; the function's settings stay. -/
theorem sendPending_settings (s : State) (fn f : Nat) : ((s.sendPending fn).hfn f).settings = (s.hfn f).settings := by
  have hemit : ∀ (l : List Nat) (q : State), (l.foldl (fun q v => q.emit (.msix fn v)) q).hfn f = q.hfn f :=
    fun l q => view_foldl (·.hfn f) (fun q v => q.emit (.msix fn v)) (fun _ _ => rfl) l q
  unfold State.sendPending; dsimp only
  split
  · rw [hemit, hfn_setHfn]
    split
    · next h => subst h; rfl
    · rfl
  · rfl

theorem quiet_sendPending (s : State) (fn : Nat) : (s.sendPending fn).quiet = s.quiet := by
  unfold State.sendPending; dsimp only
  split
  · exact (quiet_foldl (fun q v => q.emit (.msix fn v)) (fun _ _ => quiet_emit ..) ..).trans (quiet_setHfn ..)
  · rfl

/-- While the function does not master the bus, no message goes out. -/
theorem sendPending_rest {s : State} {fn : Nat} (h : (s.hfn fn).busMaster = false) :
    { s.sendPending fn with hst := {} } = { s with hst := {} } := by
  have hnone : (s.hfn fn).pba.filter (s.hfn fn).canSend = [] := by simp [HostFn.canSend, h]
  unfold State.sendPending; dsimp only
  split
  · rw [hnone]; rfl
  · rfl

section
variable {g g' : Ring} (h : g'.settings = g.settings)
include h
theorem waiting_of_settings : g'.waiting = g.waiting := (congrArg Ring.waiting h :)
end

section
variable {f f' : HostFn} (h : f'.settings = f.settings)
include h
theorem bus_of_settings : f'.busMaster = f.busMaster ∧ f'.msixOn = f.msixOn ∧ f'.msixMask = f.msixMask :=
  ⟨(congrArg HostFn.busMaster h :), (congrArg HostFn.msixOn h :), (congrArg HostFn.msixMask h :)⟩
end

/-- The records that wait in a ring are written into their reserved entries. -/
theorem writeWaiting_completesTo (s : State) (fn r : Nat) : s.CompletesTo (s.writeWaiting fn r) := by
  refine List.foldlRecOn (motive := fun q => s.CompletesTo q) _ _ (.setRing s fn r (by rfl)) fun q hq b _ => ?_
  exact hq.trans ((State.CompletesTo.setRing q fn r (by rfl)).trans (State.RecordsTo.putRecord ..).completes)

theorem waiting_writeWaiting (s : State) (fn r k : Nat) : (tget (s.writeWaiting fn r).hst.rings k).waiting =
    if k = ringKey fn r then [] else (tget s.hst.rings k).waiting := by
  have hset : ∀ (q : State) (g : Ring), (tget (q.setRing fn r g).hst.rings k).waiting =
      if k = ringKey fn r then g.waiting else (tget q.hst.rings k).waiting := fun q g => by
    rw [rings_setRing]; split <;> rfl
  refine List.foldlRecOn (motive := fun q : State => (tget q.hst.rings k).waiting =
    if k = ringKey fn r then [] else (tget s.hst.rings k).waiting) _ _ (hset ..) fun q hq b _ => ?_
  rw [waiting_of_settings ((State.RecordsTo.putRecord ..).rings k), hset]
  split
  · next hk => rw [if_pos hk] at hq; subst hk; exact hq
  · next hk => rw [if_neg hk] at hq; exact hq

theorem waitingWritten_completesTo (s : State) (fn : Nat) : s.CompletesTo (s.waitingWritten fn) :=
  List.foldlRecOn (motive := fun q => s.CompletesTo q) _ _ (State.RecordsTo.refl s).completes
    fun _ hq _ _ => hq.trans (writeWaiting_completesTo ..)

theorem waiting_waitingWritten (s : State) (fn r : Nat) (hr : r < 16384) : ((s.waitingWritten fn).ring fn r).waiting = [] := by
  have hmod : ringKey fn r % 16384 = r := by simp only [ringKey]; omega
  have hkeep : ∀ (q : State) (k : Nat), (q.ring fn r).waiting = [] → ((q.writeWaiting fn (k % 16384)).ring fn r).waiting = [] := by
    intro q k hq
    rw [State.ring, waiting_writeWaiting]
    split
    · rfl
    · exact hq
  by_cases hmem : ringKey fn r ∈ (s.hst.rings.map (·.1)).filter fun k => k / 16384 == fn
  · refine foldl_of_mem (P := fun q => (q.ring fn r).waiting = []) hkeep (fun q => ?_) hmem s
    rw [hmod, State.ring, waiting_writeWaiting, if_pos rfl]
  · refine List.foldlRecOn (motive := fun q : State => (q.ring fn r).waiting = []) _ _ ?_ fun q hq k _ => hkeep q k hq
    rw [ring_of_unlisted hmem hr]

/-- Settles O47: the three records through `put_setRing`, the message through `signal_cases`, and the bits of Bus Master Enable. -/
theorem recordsReachTheirRing : Obligations.RecordsReachTheirRing := by
  intro dt fn r s
  refine ⟨fun hfree x rest hheld => ?_, fun hfull => ?_, fun hfree hkind hgap hheld => ?_, fun n hfree hkind hskip hten => ?_,
    fun q hq hen hkind hirq htime hsome hdue => ?_, fun on mask mps mrrs hon hr => ⟨?_, ?_⟩⟩
  · have hput := put_writeHeld (s := s.advance dt) hfree hheld
    exact ⟨_, rfl, held_of_put hput.ring, pi_of_put hput.ring, hput.record, hput.writeBack, hput.quiet⟩
  · obtain ⟨hheld, hnotice, hgap⟩ := full_ring (s := s.advance dt) hfull
    exact ⟨congrArg Host.Outcome.next hheld, congrArg Host.Outcome.next hnotice, congrArg Host.Outcome.next hgap⟩
  · have hput := put_writeNotice (s := s.advance dt) hfree hkind hgap hheld
    exact ⟨_, rfl, gapCount_of_put hput.ring, pi_of_put hput.ring, hput.record, hput.quiet⟩
  · have hput := put_ringGap (s := s.advance dt) hfree hkind hskip hten
    obtain ⟨hfirst, hlast⟩ := skipped_of_put hput.ring
    exact ⟨_, rfl, hfirst, hlast, pi_of_put hput.ring, hput.quiet⟩
  · subst hq
    obtain ⟨hclear, hsent, hpending, hnone⟩ := ringMessage_cases (s.advance dt) fn r
    exact ⟨_, exec_irqModerationTimeout hen hkind hirq htime hsome hdue, hclear, hsent, hpending, hnone, quiet_ringMessage ..⟩
  · have hset : ((s.advance dt).busSettings fn false on mask mps mrrs).hfn fn = { s.hfn fn with
        busMaster := false, msixOn := on, msixMask := mask, maxPayload := min 2 mps, maxRead := min 5 mrrs } := State.setHfn_hfn ..
    obtain ⟨hbme, hmsix, hmask⟩ := bus_of_settings (sendPending_settings ((s.advance dt).busSettings fn false on mask mps mrrs) fn fn)
    rw [hset] at hbme hmsix hmask
    exact ⟨_, exec_busMasterEnable_off hon dt on mask mps mrrs, hbme, hmsix, hmask, sendPending_rings ..,
      sendPending_rest (by rw [hset])⟩
  · have hset : ((s.advance dt).busSettings fn true on mask mps mrrs).hfn fn = { s.hfn fn with
        busMaster := true, msixOn := on, msixMask := mask, maxPayload := min 2 mps, maxRead := min 5 mrrs } := State.setHfn_hfn ..
    have hwritten := waitingWritten_completesTo ((s.advance dt).busSettings fn true on mask mps mrrs) fn
    obtain ⟨hbme, hmsix, hmask⟩ := bus_of_settings ((sendPending_settings _ fn fn).trans (hwritten.fns fn))
    rw [hset] at hbme hmsix hmask
    refine ⟨_, exec_busMasterEnable_on hon dt on mask mps mrrs, hbme, hmsix, hmask, ?_,
      (quiet_sendPending ..).trans hwritten.quiet⟩
    rw [State.ring, sendPending_rings]
    exact waiting_waitingWritten _ fn r hr

end Sys2Proof.Machine
end

section
/-! Register accesses of the hosts (R14 to R16, R398, R403, R406, R467). -/

namespace Sys2Proof.Machine

/-- A record that is written stands in the log. -/
theorem mem_log_evidence {s : State} (h : s.logReady = true) (kind tenant sev ctx : Nat) (payload : Bytes) :
    ∃ e ∈ (s.evidence kind tenant sev ctx payload).log.records, e.kind = kind ∧ e.payload = payload := by
  simp only [State.evidence, h, if_true, State.logRecord, log_copies]
  exact ⟨_, Log.mem_push _ _, rfl, rfl⟩

theorem accessRecord_recordsTo (s : State) (fn : Nat) (write : Bool) (off size : Nat) :
    s.RecordsTo (s.accessRecord fn write off size) := .evidence ..

theorem mem_log_accessRecord {s : State} (h : s.logReady = true) (fn : Nat) (write : Bool) (off size : Nat) :
    ∃ e ∈ (s.accessRecord fn write off size).log.records, e.kind = 0x0101 ∧
      e.payload = le 1 (fn / 2) ++ le 1 (fn % 2) ++ le 1 size ++ le 1 (b2n write) ++ le 4 off := mem_log_evidence h ..

section
variable {f f' : HostFn} (h : f'.settings = f.settings)
include h
theorem ringSel_of_settings : f'.ringSel = f.ringSel := (congrArg HostFn.ringSel h :)
theorem cpl_of_settings : f'.cpl = f.cpl ∧ f'.readData = f.readData := ⟨(congrArg HostFn.cpl h :), (congrArg HostFn.readData h :)⟩
end

/-- A completion goes into the function's own place; rings and other functions stay. -/
theorem hostCpl_parts (s : State) (fn : Nat) (st : CplStatus) (data : Bytes) :
    (s.hostCpl fn st data).hfn fn = { s.hfn fn with cpl := st, readData := data } ∧
    (∀ f, f ≠ fn → (s.hostCpl fn st data).hfn f = s.hfn f) ∧ (s.hostCpl fn st data).hst.rings = s.hst.rings ∧
    { s.hostCpl fn st data with hst := {} } = { s with hst := {} } :=
  ⟨State.setHfn_hfn .., fun _ hf => State.setHfn_hfn_ne _ _ _ hf, rfl, rfl⟩

theorem quiet_hostCpl (s : State) (fn : Nat) (st : CplStatus) (data : Bytes) : (s.hostCpl fn st data).quiet = s.quiet := rfl

/-! ### Words -/

theorem chunks_word (v : Nat) : chunks 4 (le 4 v) = [le 4 v] := by simp [chunks, chunksF, le]

/-- The function after a write of TEN_RING_SEL. -/
def HostFn.select (h : HostFn) (r : Nat) : HostFn := { h with ringSel := BitVec.ofNat 32 r }

section
variable {s : State} {dt fn off : Nat} (hon : s.hostOn fn = true)
include hon

theorem exec_registerWrite_noTenant (hten : s.tenantOf fn = none) {data : Bytes} (hok : accessOk off data.length = true) :
    exec (.registerWrite dt fn 0 off data) s = .next (s.advance dt) := by
  have hon' : (s.advance dt).hostOn fn = true := hon
  have hten' : (s.advance dt).tenantOf fn = none := hten
  simp [exec, execRegisterWrite, hon', hok, hten']

theorem exec_registerWrite_select {n : Nat} (hten : s.tenantOf fn = some n) (v : Nat) :
    exec (.registerWrite dt fn 0 0x11000 (le 4 v)) s =
      .next ((s.advance dt).setHfn fn ((s.hfn fn).select (fld (ofLe (le 4 v)) 0 14))) := by
  have hon' : (s.advance dt).hostOn fn = true := hon
  have hten' : (s.advance dt).tenantOf fn = some n := hten
  have hok : accessOk 0x11000 4 = true := by decide
  simp [exec, execRegisterWrite, hon', hok, hten', chunks_word, State.writeWords, State.writeBar0]
  rfl

theorem exec_registerWrite_bad {data : Bytes} (hbad : accessOk off data.length = false) :
    exec (.registerWrite dt fn 0 off data) s = .next ((s.advance dt).accessRecord fn true off data.length) := by
  have hon' : (s.advance dt).hostOn fn = true := hon
  simp [exec, execRegisterWrite, hon', hbad]

theorem exec_bar0Read_bad {size : Nat} (hbad : accessOk off size = false) : exec (.bar0Access dt fn 0 0 off size) s =
    .next (((s.advance dt).hostCpl fn .success (le size 0xFFFFFFFF)).accessRecord fn false off size) := by
  have hon' : (s.advance dt).hostOn fn = true := hon
  simp [exec, execBar0Access, hon', hbad]

theorem exec_lowerWordRead (hword : off % 4 = 0) (hlow : isLower off = true) :
    exec (.lowerWordRead dt fn off) s = .next (((s.advance dt).modHfn fn fun h =>
      { h with latched := tset h.latched (off + 4) ((s.advance dt).bar0Word fn (off + 4)) }).hostCpl fn .success
        (le 4 ((s.advance dt).bar0Word fn off))) := by
  have hon' : (s.advance dt).hostOn fn = true := hon
  simp only [exec, execLowerWordRead, hon', hword, hlow, State.readWord, BEq.rfl, Bool.and_self, if_true]

theorem exec_upperWordRead (hword : off % 4 = 0) (hlow : isLower off = true) (hup : isLower (off + 4) = false) :
    exec (.bar0Access dt fn 0 0 (off + 4) 4) s =
      .next ((s.advance dt).hostCpl fn .success (le 4 (tget (s.hfn fn).latched (off + 4)))) := by
  have hon' : (s.advance dt).hostOn fn = true := hon
  have hok : accessOk (off + 4) 4 = true := by simp [accessOk]; omega
  have hsub : 4 ≤ off + 4 ∧ isLower (off + 4 - 4) = true := ⟨by omega, by simpa using hlow⟩
  simp [exec, execBar0Access, hon', hok, State.readWord, hup, hlow]
  rfl

theorem exec_doorbellRead {size : Nat} (hend : off + size ≤ 0x20000) :
    exec (.bar0Access dt fn 0 2 off size) s = .next ((s.advance dt).hostCpl fn .success (zeros size)) := by
  have hon' : (s.advance dt).hostOn fn = true := hon
  have hzero : ((List.range size).map fun i => BitVec.ofNat 8 (((s.advance dt).hfn fn).bar2Byte (off + i))) = zeros size := by
    rw [zeros, List.eq_replicate_iff]
    refine ⟨by simp, fun b hb => ?_⟩
    obtain ⟨i, hi, rfl⟩ := List.mem_map.1 hb
    have hi' := List.mem_range.1 hi
    have h1 : ¬ (0x20000 ≤ off + i ∧ off + i < 0x28000) := by omega
    have h2 : ¬ (0x28000 ≤ off + i ∧ off + i < 0x28100) := by omega
    simp only [HostFn.bar2Byte, if_neg h1, if_neg h2]
    rfl
  simp [exec, execBar0Access, hon', hzero]

theorem exec_atomicOp (bar size : Nat) :
    exec (.bar0Access dt fn 2 bar off size) s = .next ((s.advance dt).hostCpl fn .unsupported []) := by
  have hon' : (s.advance dt).hostOn fn = true := hon
  simp [exec, execBar0Access, hon']

end

/-- Settles O48: each access from what it makes of the function's own place and of the log. -/
theorem registerAccessesFollowTheirRules : Obligations.RegisterAccessesFollowTheirRules := by
  intro dt fn off s hon
  refine ⟨fun data hten hok => exec_registerWrite_noTenant hon hten hok, fun n v hten => ?_, fun data hbad => ?_, fun size hbad => ?_,
    fun hword hlow => ?_, fun hword hlow hup => ?_, fun size hend => ?_, fun bar size => ?_⟩
  · refine ⟨_, exec_registerWrite_select hon hten v, ?_, fun f hf => State.setHfn_hfn_ne _ _ _ hf, rfl, rfl⟩
    rw [State.selRing, State.setHfn_hfn, HostFn.select, ofLe_le]
    simp only [fld, BitVec.toNat_ofNat]
    omega
  · have hrec := accessRecord_recordsTo (s.advance dt) fn true off data.length
    have hsel := ringSel_of_settings (hrec.fns fn)
    refine ⟨_, exec_registerWrite_bad hon hbad, ?_, hrec.quiet, fun hlog => mem_log_accessRecord (s := s.advance dt) hlog ..⟩
    rw [State.selRing, hsel]
    rfl
  · obtain ⟨hfn, -⟩ := hostCpl_parts (s.advance dt) fn .success (le size 0xFFFFFFFF)
    have hrec := accessRecord_recordsTo ((s.advance dt).hostCpl fn .success (le size 0xFFFFFFFF)) fn false off size
    obtain ⟨hcpl, hdata⟩ := cpl_of_settings (hrec.fns fn)
    rw [hfn] at hcpl hdata
    exact ⟨_, exec_bar0Read_bad hon hbad, hcpl, hdata, hrec.quiet.trans (quiet_hostCpl ..),
      fun hlog => mem_log_accessRecord (s := (s.advance dt).hostCpl fn .success (le size 0xFFFFFFFF)) hlog ..⟩
  · obtain ⟨hfn, hothers, hrings, hrest⟩ := hostCpl_parts ((s.advance dt).modHfn fn fun h =>
      { h with latched := tset h.latched (off + 4) ((s.advance dt).bar0Word fn (off + 4)) }) fn .success (le 4 ((s.advance dt).bar0Word fn off))
    rw [State.modHfn, State.setHfn_hfn] at hfn
    refine ⟨_, exec_lowerWordRead hon hword hlow, ?_, fun o ho => ?_, ?_, fun f hf => ?_, hrings, hrest⟩
    · exact (congrArg (fun h : HostFn => tget h.latched (off + 4)) hfn).trans (tget_tset_self ..)
    · exact (congrArg (fun h : HostFn => tget h.latched o) hfn).trans (tget_tset_ne ho ..)
    · exact congrArg HostFn.readData hfn
    · exact (hothers f hf).trans (State.setHfn_hfn_ne _ _ _ hf)
  · obtain ⟨hfn, -, hrings, hrest⟩ := hostCpl_parts (s.advance dt) fn .success (le 4 (tget (s.hfn fn).latched (off + 4)))
    exact ⟨_, exec_upperWordRead hon hword hlow hup, congrArg HostFn.readData hfn, hrings, hrest⟩
  · obtain ⟨hfn, -, -, hrest⟩ := hostCpl_parts (s.advance dt) fn .success (zeros size)
    exact ⟨_, exec_doorbellRead hon hend, congrArg HostFn.cpl hfn, congrArg HostFn.readData hfn, hrest⟩
  · obtain ⟨hfn, -, hrings, hrest⟩ := hostCpl_parts (s.advance dt) fn .unsupported []
    exact ⟨_, exec_atomicOp hon bar size, congrArg HostFn.cpl hfn, hrings, hrest⟩

end Sys2Proof.Machine
end

section
/-! The Owls' ports (R702, R705, R706, R708). -/

namespace Sys2Proof.Machine

/-- A good service in the boot period: the pair is disarmed, the task bits are cleared, and a locked setup starts RUN. -/
theorem owlGood_boot {s : State} {i : Nat} (h : (s.owlOf i).st = .boot) :
    ((s.owlGood i).owlOf i).armed = false ∧ ((s.owlGood i).owlOf i).lastEvent = 1 ∧ ((s.owlGood i).owlOf i).inBits = 0 ∧
      ((s.owlOf i).locked = true → ((s.owlGood i).owlOf i).st = .run) := by
  by_cases hi : i = 0 <;> by_cases hl : (s.owlOf i).locked = true <;>
    simp_all [State.owlGood, State.modOwl, State.owlOf]

theorem owlGood_log (s : State) (i : Nat) : (s.owlGood i).log = s.log := by
  unfold State.owlGood State.modOwl; dsimp only; split <;> rfl

theorem owlGood_shr (s : State) (i : Nat) : (s.owlGood i).shr = s.shr := by
  unfold State.owlGood State.modOwl; dsimp only; split <;> rfl

/-- Settles O32: in a live boot period nothing has expired, so each port acts at once. -/
theorem owlPortsFollowTheToken : Obligations.OwlPortsFollowTheToken := by
  intro dt i v s _ hlive hst hcyc
  have hroll : (s.advance dt).owlRoll i = s.advance dt := owlRoll_within hcyc
  have hlive' : ((s.advance dt).owlOf i).live = true := hlive
  have hst' : ((s.advance dt).owlOf i).st = .boot := hst
  have hword : v < 2 ^ 16 → ¬ 65536 ≤ v := Nat.not_le.2
  refine ⟨fun hl => ?_, fun ha hv htok => ?_, fun ha hv htok hin => ?_, fun hv hreg hbit => ?_⟩
  · have hx : exec (.owlSetup dt i v) s = .next ((s.advance dt).modOwl i fun y =>
        { y with locked := true, setupUs := clampN 1000 1000000 (fld v 0 20), reg := fld v 32 16 }) := by
      simp [exec, execOwlSetup, hroll, hlive, hst, hl]
    exact ⟨_, hx, by simp, by simp [fld], by simp [fld], modOwl_outside ..⟩
  · have hx : exec (.owlServiceWrite dt i v) s = .next ((s.advance dt).modOwl i fun y => { y with armed := true }) := by
      simp [exec, execOwlServiceWrite, hroll, State.owlService, hlive, hst, ha, hword hv, ← htok]
    exact ⟨_, hx, by simp, by simp [hst], modOwl_outside ..⟩
  · have hx : exec (.owlServiceWrite dt i v) s = .next ((s.advance dt).owlGood i) := by
      simp [exec, execOwlServiceWrite, hroll, State.owlService, State.owlJudge, hlive, hst, ha, hword hv, ← htok, hin]
    obtain ⟨harmed, hevent, hbits, hrun⟩ := owlGood_boot hst'
    exact ⟨_, hx, harmed, hevent, hbits, hrun, owlGood_log .., owlGood_shr ..⟩
  · have hx : exec (.owlCheckIn dt i v) s = .next ((s.advance dt).modOwl i fun y => { y with inBits := y.inBits ||| 2 ^ v }) := by
      simp [exec, execOwlCheckIn, hroll, State.owlCheckIn, hlive, hst, Nat.not_le.2 hv, hreg, hbit]
    exact ⟨_, hx, by simp, by simp [hst], modOwl_outside ..⟩

end Sys2Proof.Machine
end

section
/-! The outputs of Shroud settle one by one (R522, R523): what that leaves alone, and what each of them becomes. -/

namespace Sys2Proof.Machine

/-! ### What the settling leaves alone -/

/-- Shroud without its outputs, its count of locks and the frames that wait to be sent. -/
def Shroud.bare (h : Shroud) : Shroud :=
  { h with souts := [], prvs := [], locks := 0, link := { h.link with waiting := [] } }

def State.bare (s : State) : State := { s with shr := s.shr.bare }

/-- Shroud takes its next value, and tells the L die of the lock of output i where there is a code. -/
def State.settledTo (s : State) (r : Shroud × Nat) (i : Nat) : State :=
  if r.2 = 0 then { s with shr := r.1 } else { s with shr := r.1 }.shroudFault r.2 i 0

def State.settleSo (s : State) (o : Nat) : State := s.settledTo (s.shr.settleSo s.cyc o) o
def State.settlePv (s : State) (p : Nat) : State := s.settledTo (s.shr.settlePv s.cyc p) p

theorem settleOutputs_eq (s : State) :
    s.settleOutputs = (List.range 4).foldl State.settlePv ((List.range 16).foldl State.settleSo s) := rfl

@[simp] theorem bare_shroudFault (s : State) (code i mask : Nat) : (s.shroudFault code i mask).bare = s.bare := rfl

theorem souts_settledTo (s : State) (r : Shroud × Nat) (i : Nat) : (s.settledTo r i).shr.souts = r.1.souts := by
  unfold State.settledTo; split <;> rfl

theorem prvs_settledTo (s : State) (r : Shroud × Nat) (i : Nat) : (s.settledTo r i).shr.prvs = r.1.prvs := by
  unfold State.settledTo; split <;> rfl

theorem bare_settledTo (s : State) {r : Shroud × Nat} (h : r.1.bare = s.shr.bare) (i : Nat) : (s.settledTo r i).bare = s.bare := by
  have hset : (s.settledTo r i).bare = { s with shr := r.1.bare } := by unfold State.settledTo; split <;> rfl
  rw [hset, h]; rfl

theorem bare_settleSo (s : State) (o : Nat) : (s.settleSo o).bare = s.bare := bare_settledTo s (by rfl) o
theorem bare_settlePv (s : State) (p : Nat) : (s.settlePv p).bare = s.bare := bare_settledTo s (by rfl) p
theorem prvs_settleSo (s : State) (o : Nat) : (s.settleSo o).shr.prvs = s.shr.prvs := (prvs_settledTo ..).trans rfl
theorem souts_settlePv (s : State) (p : Nat) : (s.settlePv p).shr.souts = s.shr.souts := (souts_settledTo ..).trans rfl

@[simp] theorem bare_settleOutputs (s : State) : s.settleOutputs.bare = s.bare := by
  rw [settleOutputs_eq, view_foldl State.bare _ bare_settlePv, view_foldl State.bare _ bare_settleSo]

/-! ### One output -/

/-- Standard output o after it has settled. -/
def Shroud.soAfter (h : Shroud) (cyc o : Nat) : So := tget (h.settleSo cyc o).1.souts o
/-- Privileged output p after it has settled. -/
def Shroud.pvAfter (h : Shroud) (cyc p : Nat) : Pv := tget (h.settlePv cyc p).1.prvs p

theorem so_settleSo_self (s : State) (o : Nat) : (s.settleSo o).so o = s.shr.soAfter s.cyc o :=
  congrArg (tget · o) (souts_settledTo ..)

theorem pv_settlePv_self (s : State) (p : Nat) : (s.settlePv p).pv p = s.shr.pvAfter s.cyc p :=
  congrArg (tget · p) (prvs_settledTo ..)

theorem so_settleSo_ne (s : State) {o i : Nat} (h : i ≠ o) : (s.settleSo o).so i = s.so i :=
  (congrArg (tget · i) (souts_settledTo ..)).trans (tget_tset_ne h ..)

theorem pv_settlePv_ne (s : State) {p i : Nat} (h : i ≠ p) : (s.settlePv p).pv i = s.pv i :=
  (congrArg (tget · i) (prvs_settledTo ..)).trans (tget_tset_ne h ..)

/-- Where each step of a fold changes its own entry only, an entry of the list is changed once. -/
theorem entry_foldl {α : Type} (f : State → Nat → State) (get : State → Nat → α)
    (hne : ∀ s o i, i ≠ o → get (f s o) i = get s i) (hbare : ∀ s o, (f s o).bare = s.bare) (i : Nat) :
    ∀ (l : List Nat) (s : State), l.Nodup → i ∈ l →
      ∃ q, q.bare = s.bare ∧ get q i = get s i ∧ get (l.foldl f s) i = get (f q i) i := by
  have hout : ∀ (l : List Nat) (s : State), i ∉ l → get (l.foldl f s) i = get s i := by
    intro l
    induction l with
    | nil => exact fun _ _ => rfl
    | cons o l ih =>
      intro s hi
      rw [List.mem_cons, not_or] at hi
      exact (ih _ hi.2).trans (hne s o i hi.1)
  intro l
  induction l with
  | nil => exact fun _ _ hi => absurd hi List.not_mem_nil
  | cons o l ih =>
    intro s hnd hi
    rw [List.nodup_cons] at hnd
    rcases List.mem_cons.1 hi with rfl | hi
    · exact ⟨s, rfl, rfl, hout l _ hnd.1⟩
    · have hio : i ≠ o := fun h => hnd.1 (h ▸ hi)
      obtain ⟨q, hq, hget, heq⟩ := ih (f s o) hnd.2 hi
      exact ⟨q, hq.trans (hbare s o), hget.trans (hne s o i hio), heq⟩

theorem shr_of_bare {q s : State} (h : q.bare = s.bare) : q.shr.bare = s.shr.bare ∧ q.cyc = s.cyc :=
  ⟨(congrArg State.shr h :), (congrArg State.cyc h :)⟩

/-- A standard output becomes what it settles to in a Shroud that differs in other outputs only. -/
theorem so_settleOutputs (s : State) {i : Nat} (hi : i < 16) :
    ∃ h : Shroud, h.bare = s.shr.bare ∧ tget h.souts i = s.so i ∧ s.settleOutputs.so i = h.soAfter s.cyc i := by
  obtain ⟨q, hq, hget, heq⟩ := entry_foldl State.settleSo State.so (fun _ _ _ h => so_settleSo_ne _ h) bare_settleSo i
    (List.range 16) s List.nodup_range (List.mem_range.2 hi)
  obtain ⟨hshr, hcyc⟩ := shr_of_bare hq
  refine ⟨q.shr, hshr, hget, ?_⟩
  rw [so_settleSo_self, hcyc] at heq
  rw [← heq, settleOutputs_eq]
  exact congrArg (tget · i) (view_foldl (fun q => q.shr.souts) _ souts_settlePv _ _)

/-- A privileged output becomes what it settles to in a Shroud that differs in other outputs only. -/
theorem pv_settleOutputs (s : State) {i : Nat} (hi : i < 4) :
    ∃ h : Shroud, h.bare = s.shr.bare ∧ tget h.prvs i = s.pv i ∧ s.settleOutputs.pv i = h.pvAfter s.cyc i := by
  have hbare : ((List.range 16).foldl State.settleSo s).bare = s.bare := view_foldl State.bare _ bare_settleSo _ _
  have hprvs : ((List.range 16).foldl State.settleSo s).shr.prvs = s.shr.prvs :=
    view_foldl (fun q => q.shr.prvs) _ prvs_settleSo _ _
  obtain ⟨q, hq, hget, heq⟩ := entry_foldl State.settlePv State.pv (fun _ _ _ h => pv_settlePv_ne _ h) bare_settlePv i
    (List.range 4) ((List.range 16).foldl State.settleSo s) List.nodup_range (List.mem_range.2 hi)
  obtain ⟨hshr, hcyc⟩ := shr_of_bare (hq.trans hbare)
  refine ⟨q.shr, hshr, hget.trans (congrArg (tget · i) hprvs), ?_⟩
  rw [pv_settlePv_self, hcyc] at heq
  exact heq

/-- The outputs beyond the sixteen are no outputs, and nothing settles them. -/
theorem so_settleOutputs_beyond (s : State) {i : Nat} (hi : 16 ≤ i) : s.settleOutputs.so i = s.so i := by
  rw [settleOutputs_eq]
  have hpv : ∀ q : State, ((List.range 4).foldl State.settlePv q).so i = q.so i :=
    fun q => congrArg (tget · i) (view_foldl (fun q => q.shr.souts) _ souts_settlePv _ q)
  rw [hpv]
  refine List.foldlRecOn (motive := fun q : State => q.so i = s.so i) _ _ rfl fun q hq o ho => ?_
  rw [so_settleSo_ne q (by have := List.mem_range.1 ho; omega), hq]

theorem pv_settleOutputs_beyond (s : State) {i : Nat} (hi : 4 ≤ i) : s.settleOutputs.pv i = s.pv i := by
  have hprvs : ((List.range 16).foldl State.settleSo s).shr.prvs = s.shr.prvs :=
    view_foldl (fun q => q.shr.prvs) _ prvs_settleSo _ _
  rw [settleOutputs_eq]
  refine List.foldlRecOn (motive := fun q : State => q.pv i = s.pv i) _ _ (congrArg (tget · i) hprvs) fun q hq o ho => ?_
  rw [pv_settlePv_ne q (by have := List.mem_range.1 ho; omega), hq]

end Sys2Proof.Machine
end

section
/-! What a standard and a privileged output settle to (R522, R523). -/

namespace Sys2Proof.Machine

/-! ### Standard outputs -/

theorem soAfter_eq (h : Shroud) (cyc o : Nat) : h.soAfter cyc o =
    (((h.soUnlock cyc o (tget h.souts o)).onOff (h.edmOpen o) cyc).onPermit (h.soPermit cyc o) (h.edmOpen o) cyc).1 :=
  tget_tset_self ..

@[simp] theorem edm_soUnlock (h : Shroud) (cyc o : Nat) (x : So) : (h.soUnlock cyc o x).edm = x.edm := by
  simp only [Shroud.soUnlock, apply_ite So.edm, ite_self]

@[simp] theorem edm_onOff (x : So) (b : Bool) (cyc : Nat) : (x.onOff b cyc).edm = x.edm := by
  unfold So.onOff; split <;> rfl

@[simp] theorem edm_onPermit (x : So) (p b : Bool) (cyc : Nat) : (x.onPermit p b cyc).1.edm = x.edm := by
  unfold So.onPermit; split
  · cases p <;> cases b <;> rfl
  · cases p <;> rfl
  · rfl

theorem edm_soAfter (h : Shroud) (cyc o : Nat) : (h.soAfter cyc o).edm = (tget h.souts o).edm := by
  simp [soAfter_eq]

/-- No settling moves a contactor. -/
theorem edm_settleOutputs (s : State) (i : Nat) : (s.settleOutputs.so i).edm = (s.so i).edm := by
  by_cases hi : i < 16
  · obtain ⟨h, _, hget, heq⟩ := so_settleOutputs s hi
    rw [heq, edm_soAfter, hget]
  · rw [so_settleOutputs_beyond s (Nat.not_lt.1 hi)]

section
variable {h : Shroud} {cyc o : Nat} {x : So}

/-- An output whose lock began in this cycle stays locked (R522). -/
theorem soAfter_locked (hx : tget h.souts o = x) (hst : x.st = .locked) (hen : h.soEdmEn o = true) (hoff : 0 < h.soMinOff o)
    (hfrom : ∀ c, x.edmFrom = some c → c = cyc) : (h.soAfter cyc o).st = .locked ∧ (h.soAfter cyc o).faultCode = x.faultCode := by
  have hno : ¬ cycMs (h.soMinOff o) ≤ 0 := by unfold cycMs; omega
  cases hz : x.edmFrom with
  | none => simp [soAfter_eq, hx, Shroud.soUnlock, So.onOff, So.onPermit, hst, hen, hz]
  | some t => simp [soAfter_eq, hx, Shroud.soUnlock, So.onOff, So.onPermit, hst, hen, hz, hfrom t hz, hno]

/-- A shut-down that may end does, and without a permit the output stays off (R522). -/
theorem soAfter_off (hx : tget h.souts o = x) (hst : x.st = .shutdown) (hoff : x.minOff = false) (hopen : h.edmOpen o = true)
    (hpermit : h.soPermit cyc o = false) : (h.soAfter cyc o).st = .off := by
  simp [soAfter_eq, hx, Shroud.soUnlock, So.onOff, So.onPermit, hst, hoff, hopen, hpermit]

end

/-! ### Privileged outputs -/

/-- A privileged output follows the HS level (R523, R524). -/
def Pv.followHs (x0 : Pv) (hs : Bool) (cyc : Nat) : Pv :=
  let x1 := if (x0.st = .on ∨ x0.st = .lsOn) ∧ x0.hsPin ∧ !hs then x0.shut 0 cyc else x0
  let x2 := { x1 with hsPin := hs, hsOffAt := if x0.hsPin && !hs then some cyc else x1.hsOffAt,
                      hsOnAt := if x1.st = .lsOn ∧ hs ∧ !x0.hsPin then some cyc else x1.hsOnAt }
  if x2.st = .lsOn ∧ hs ∧ !x0.hsPin ∧ x2.hsSense then
    { x2 with st := .on, hsOnAt := none, senseTimer := false, senseFrom := if x2.lsSense then none else some cyc } else x2

theorem pvAfter_eq (h : Shroud) (cyc p : Nat) : h.pvAfter cyc p =
    (((h.pvUnlock cyc p ((tget h.prvs p).followHs (h.stateAllows && !h.compat && bitAt h.hsCmd p) cyc)).onOff cyc).onPermit
      (h.pvPermit cyc p) cyc).1 :=
  tget_tset_self ..

section
variable {h : Shroud} {cyc p : Nat} {x : Pv}

theorem pvAfter_on (hx : tget h.prvs p = x) (hst : x.st = .on) (hs : (h.stateAllows && !h.compat && bitAt h.hsCmd p) = true)
    (hpermit : h.pvPermit cyc p = true) : (h.pvAfter cyc p).st = .on ∧ (h.pvAfter cyc p).hsSense = x.hsSense := by
  simp [pvAfter_eq, hx, hs, Pv.followHs, Shroud.pvUnlock, Pv.onOff, Pv.onPermit, hst, hpermit]

/-- An output whose lock began in this cycle stays locked (R523). -/
theorem pvAfter_locked (hx : tget h.prvs p = x) (hst : x.st = .locked) (hoff : 0 < h.pvMinOff p)
    (hfrom : ∀ c, x.zeroFrom = some c → c = cyc) : (h.pvAfter cyc p).st = .locked ∧ (h.pvAfter cyc p).faultCode = x.faultCode := by
  have hno : ¬ cycMs (h.pvMinOff p) ≤ 0 := by unfold cycMs; omega
  cases hz : x.zeroFrom with
  | none => simp [pvAfter_eq, hx, Pv.followHs, Shroud.pvUnlock, Pv.onOff, Pv.onPermit, hst, hz]
  | some t => simp [pvAfter_eq, hx, Pv.followHs, Shroud.pvUnlock, Pv.onOff, Pv.onPermit, hst, hz, hfrom t hz, hno]

/-- A shut-down whose minimum time runs lasts. -/
theorem pvAfter_shutdown (hx : tget h.prvs p = x) (hst : x.st = .shutdown) (hoff : x.minOff = true) :
    (h.pvAfter cyc p).st = .shutdown ∧ (h.pvAfter cyc p).faultCode = x.faultCode := by
  simp [pvAfter_eq, hx, Pv.followHs, Shroud.pvUnlock, Pv.onOff, Pv.onPermit, hst, hoff]

end

end Sys2Proof.Machine
end

section
/-! Outputs on the moves of their contactors, of their sense lines and of their timers (R522, R523). -/

namespace Sys2Proof.Machine

/-! Components that the settling of the outputs leaves alone. -/
section
variable {s t : State} (h : t.bare = s.bare)
include h
theorem bare_mc : t.mc = s.mc := (congrArg State.mc h :)
theorem bare_cyc : t.cyc = s.cyc := (congrArg State.cyc h :)
theorem bare_glb : t.glb = s.glb := (congrArg State.glb h :)
theorem bare_hst : t.hst = s.hst := (congrArg State.hst h :)
theorem bare_mem : t.mem = s.mem := (congrArg State.mem h :)
theorem bare_pch : t.pch = s.pch := (congrArg State.pch h :)
theorem bare_out : t.out = s.out := (congrArg State.out h :)
theorem bare_slots : t.shr.slots = s.shr.slots := (congrArg (·.shr.slots) h :)
theorem bare_fns : t.shr.fns = s.shr.fns := (congrArg (·.shr.fns) h :)
theorem bare_sins : t.shr.sins = s.shr.sins := (congrArg (·.shr.sins) h :)
theorem bare_cfg : t.shr.cfg = s.shr.cfg := (congrArg (·.shr.cfg) h :)
end

/-! ### One output set or locked -/

@[simp] theorem bare_setSo (s : State) (o : Nat) (x : So) : (s.setSo o x).bare = s.bare := rfl
@[simp] theorem bare_lockSo (s : State) (o code : Nat) : (s.lockSo o code).bare = s.bare := rfl
@[simp] theorem bare_setPv (s : State) (p : Nat) (x : Pv) : (s.setPv p x).bare = s.bare := rfl
@[simp] theorem bare_lockPv (s : State) (p code : Nat) : (s.lockPv p code).bare = s.bare := rfl

@[simp] theorem so_setSo_self (s : State) (o : Nat) (x : So) : (s.setSo o x).so o = x := tget_tset_self ..
theorem so_setSo_ne (s : State) {o j : Nat} (h : j ≠ o) (x : So) : (s.setSo o x).so j = s.so j := tget_tset_ne h ..
@[simp] theorem pv_setPv_self (s : State) (p : Nat) (x : Pv) : (s.setPv p x).pv p = x := tget_tset_self ..
theorem so_lockSo (s : State) (o j code : Nat) : (s.lockSo o code).so j = (s.setSo o ((s.so o).lock code s.cyc)).so j := rfl
theorem pv_lockPv (s : State) (p j code : Nat) : (s.lockPv p code).pv j = (s.setPv p ((s.pv p).lock code s.cyc)).pv j := rfl
theorem so_lockSo_self (s : State) (o code : Nat) : (s.lockSo o code).so o = (s.so o).lock code s.cyc :=
  (so_lockSo s o o code).trans (so_setSo_self ..)
theorem so_lockSo_ne (s : State) {o j : Nat} (h : j ≠ o) (code : Nat) : (s.lockSo o code).so j = s.so j :=
  (so_lockSo s o j code).trans (so_setSo_ne s h _)
theorem pv_lockPv_self (s : State) (p code : Nat) : (s.lockPv p code).pv p = (s.pv p).lock code s.cyc :=
  (pv_lockPv s p p code).trans (pv_setPv_self ..)

/-- The least of the time that MIN_OFF_MS has run is 0 in the cycle in which an output locks. -/
theorem lockSo_settles (s : State) {i : Nat} (code : Nat) (hi : i < 16) (hen : s.shr.soEdmEn i = true) (hoff : 0 < s.shr.soMinOff i) :
    ((s.lockSo i code).settleOutputs.so i).st = .locked ∧ ((s.lockSo i code).settleOutputs.so i).faultCode = code := by
  obtain ⟨h, hb, hget, heq⟩ := so_settleOutputs (s.lockSo i code) hi
  rw [heq]
  have hen' : h.soEdmEn i = true := (congrArg (·.soEdmEn i) hb :).trans hen
  have hoff' : 0 < h.soMinOff i := hoff.trans_eq (congrArg (·.soMinOff i) hb :).symm
  refine soAfter_locked (hget.trans (so_lockSo_self ..)) rfl hen' hoff' fun c hc => ?_
  simp only [So.lock] at hc
  split at hc
  · exact (Option.some.inj hc).symm
  · cases hc

theorem lockPv_settles (s : State) {i : Nat} (code : Nat) (hi : i < 4) (hoff : 0 < s.shr.pvMinOff i) :
    ((s.lockPv i code).settleOutputs.pv i).st = .locked ∧ ((s.lockPv i code).settleOutputs.pv i).faultCode = code := by
  obtain ⟨h, hb, hget, heq⟩ := pv_settleOutputs (s.lockPv i code) hi
  rw [heq]
  have hoff' : 0 < h.pvMinOff i := hoff.trans_eq (congrArg (·.pvMinOff i) hb :).symm
  refine pvAfter_locked (hget.trans (pv_lockPv_self ..)) rfl hoff' fun c hc => ?_
  simp only [Pv.lock] at hc
  split at hc
  · cases hc
  · exact (Option.some.inj hc).symm

/-! ### The feedback line -/

/-- A standard output whose contactor has moved (R522). -/
def So.edmMoved (x : So) (cyc : Nat) : So :=
  { x with edm := !x.edm, edmFrom := if !x.edm then some cyc else none, edmSeen0 := x.edmSeen0 || x.edm }

theorem edmChanges_eq (s : State) {o : Nat} (ho : o < 16) : s.edmChanges o =
    (if (s.so o).edm = false ∧ (s.so o).st = .on ∧ (s.so o).edmSeen0 = true ∧ s.shr.soEdmEn o = true then
      (s.setSo o ((s.so o).edmMoved s.cyc)).lockSo o 0x12 else s.setSo o ((s.so o).edmMoved s.cyc)).settleOutputs := by
  simp only [State.edmChanges, ho, if_true, Bool.not_eq_true', Bool.not_not, So.edmMoved, apply_ite State.settleOutputs]

/-- A move of a contactor moves no other, and nothing else of Shroud but what the outputs settle to. -/
theorem edmChanges_moves (s : State) {o : Nat} (ho : o < 16) : (s.edmChanges o).bare = s.bare ∧
    ∀ j, ((s.edmChanges o).so j).edm = if j = o then !(s.so o).edm else (s.so j).edm := by
  rw [edmChanges_eq s ho]
  refine ⟨by simp only [bare_settleOutputs, apply_ite State.bare, bare_lockSo, bare_setSo, ite_self], fun j => ?_⟩
  rw [edm_settleOutputs]
  by_cases hj : j = o
  · subst hj
    rw [if_pos rfl]
    split
    · rw [so_lockSo_self, so_setSo_self]; rfl
    · rw [so_setSo_self]; rfl
  · rw [if_neg hj]
    split
    · rw [so_lockSo_ne _ hj, so_setSo_ne _ hj]
    · rw [so_setSo_ne _ hj]

/-! ### The obligation -/

theorem edmExpires_on {s : State} {i : Nat} (hi : i < 16) (htimer : (s.so i).edmTimer = true) (hen : s.shr.soEdmEn i = true)
    (hst : (s.so i).st = .on) (hedm : (s.so i).edm = true) (hlate : s.cyc - (s.so i).onAt ≥ cycMs (s.shr.soEdmMs i)) :
    s.edmExpires i = (s.lockSo i 0x11).settleOutputs := by
  simp only [State.edmExpires, hi, htimer, hen, hst, hedm, hlate, and_self, if_true]

theorem edmExpires_shutdown {s : State} {i x : Nat} (hi : i < 16) (htimer : (s.so i).edmTimer = true)
    (hen : s.shr.soEdmEn i = true) (hst : (s.so i).st = .shutdown) (hedm : (s.so i).edm = false) (hat : (s.so i).offAt = some x)
    (hlate : s.cyc - x ≥ cycMs (s.shr.soEdmMs i)) : s.edmExpires i = (s.lockSo i 0x13).settleOutputs := by
  simp [State.edmExpires, hi, htimer, hen, hst, hedm, hat, hlate]

theorem minOffExpires_so {s : State} {i x : Nat} (hst : (s.so i).st = .shutdown) (hat : (s.so i).offAt = some x)
    (hmin : (s.so i).minOff = true) (hlate : s.cyc - x ≥ cycMs (s.shr.soMinOff i)) :
    s.minOffExpires false i = (s.setSo i { s.so i with minOff := false }).settleOutputs := by
  simp [State.minOffExpires, hst, hat, hmin, hlate]

theorem senseChanges_onTime {s : State} {i x : Nat} (hi : i < 4) (hst : (s.pv i).st = .lsOn) (hpin : (s.pv i).hsPin = true)
    (hsense : (s.pv i).hsSense = false) (hat : (s.pv i).hsOnAt = some x) (htime : s.cyc - x ≤ cycUs (s.shr.pvSenseUs i)) :
    ∃ y : Pv, y.st = .on ∧ y.hsSense = true ∧ s.senseChanges i true = (s.setPv i y).settleOutputs := by
  refine ⟨_, ?_, ?_, by simp only [State.senseChanges, hi, hst, hpin, hsense, hat, htime, if_true, Bool.not_false, decide_true, and_self]; rfl⟩ <;> rfl

theorem senseExpires_on {s : State} {i x : Nat} (hi : i < 4) (hst : (s.pv i).st = .on) (hfrom : (s.pv i).senseFrom = some x)
    (hlate : s.cyc - x > cycUs (s.shr.pvSenseUs i)) : s.senseExpires i = (s.lockPv i 0x14).settleOutputs := by
  simp [State.senseExpires, hi, hst, hfrom, hlate]

theorem hsTimeout_lsOn {s : State} {i : Nat} (hi : i < 4) (hst : (s.pv i).st = .lsOn) (hpin : (s.pv i).hsPin = false)
    (hlate : s.cyc - (s.pv i).lsOnAt ≥ cycMs 10) :
    s.hsTimeout i = ((s.setPv i ((s.pv i).shut 0x15 s.cyc)).shroudFault 0x15 i 0).settleOutputs := by
  simp [State.hsTimeout, hi, hst, hpin, hlate]

/-- Settles O41: each event sets one output, or locks it, and then every output settles. -/
theorem outputsFollowLinesAndTimers : Obligations.OutputsFollowLinesAndTimers := by
  intro dt i x s cyc
  refine ⟨fun hi => ⟨?_, fun hst hedm hseen hen hoff => ?_⟩, fun hi htimer hen hoff => ⟨fun hst hedm hlate => ?_,
    fun hst hedm hat hlate => ?_⟩, fun hi hst hat hmin hlate hopen hreq => ?_, fun hi hst hpin hsense hat htime hallow hcmd hpermit => ?_,
    fun hi hst hfrom hlate hoff => ?_, fun hi hst hpin hlate => ?_⟩
  · obtain ⟨hbare, hmoves⟩ := edmChanges_moves (s.advance dt) hi
    refine ⟨_, rfl, (hmoves i).trans (if_pos rfl), fun j hj => (hmoves j).trans (if_neg hj), (bare_slots hbare :),
      (bare_fns hbare :), (bare_glb hbare :), (bare_mem hbare :)⟩
  · have hlock := lockSo_settles ((s.advance dt).setSo i ((s.so i).edmMoved cyc)) 0x12 hi hen hoff
    refine ⟨_, rfl, ?_⟩
    rw [edmChanges_eq (s.advance dt) hi, if_pos ⟨hedm, hst, hseen, hen⟩]
    exact hlock
  · refine ⟨_, rfl, ?_⟩
    rw [edmExpires_on (s := s.advance dt) hi htimer hen hst hedm hlate]
    exact lockSo_settles (s.advance dt) 0x11 hi hen hoff
  · refine ⟨_, rfl, ?_⟩
    rw [edmExpires_shutdown (s := s.advance dt) hi htimer hen hst hedm hat hlate]
    exact lockSo_settles (s.advance dt) 0x13 hi hen hoff
  · refine ⟨_, rfl, ?_⟩
    rw [minOffExpires_so (s := s.advance dt) hst hat hmin hlate]
    obtain ⟨h, hb, hget, heq⟩ := so_settleOutputs ((s.advance dt).setSo i { (s.advance dt).so i with minOff := false }) hi
    rw [heq]
    have hx := hget.trans (so_setSo_self ..)
    refine soAfter_off (x := { s.so i with minOff := false }) hx hst rfl ?_ ?_
    · have hen : h.soEdmEn i = s.shr.soEdmEn i := (congrArg (·.soEdmEn i) hb :)
      simp only [Shroud.edmOpen, hx, hen]
      exact hopen
    · have hr : h.soutReq = s.shr.soutReq := (congrArg (·.soutReq) hb :)
      simp [Shroud.soPermit, hr, hreq]
  · obtain ⟨y, hon, hs, hy⟩ := senseChanges_onTime (s := s.advance dt) hi hst hpin hsense hat htime
    refine ⟨_, rfl, ?_⟩
    rw [hy]
    obtain ⟨h, hb, hget, heq⟩ := pv_settleOutputs ((s.advance dt).setPv i y) hi
    rw [heq]
    have hallow' : h.stateAllows = true := (congrArg (·.stateAllows) hb :).trans hallow
    have hcompat : h.compat = s.shr.compat := (congrArg (·.compat) hb :)
    have hcmd' : h.hsCmd = s.shr.hsCmd := (congrArg (·.hsCmd) hb :)
    have hpermit' : h.pvPermit cyc i = true := (congrArg (·.pvPermit cyc i) hb :).trans hpermit
    have hno : s.shr.compat = false := by
      simp only [Shroud.pvPermit, Bool.and_eq_true, Bool.not_eq_true'] at hpermit
      exact hpermit.1.1.1.2
    obtain ⟨h1, h2⟩ := pvAfter_on (hget.trans (pv_setPv_self ..)) hon (by simp [hallow', hcompat, hno, hcmd', hcmd]) hpermit'
    exact ⟨h1, h2.trans hs⟩
  · refine ⟨_, rfl, ?_⟩
    rw [senseExpires_on (s := s.advance dt) hi hst hfrom hlate]
    exact lockPv_settles (s.advance dt) 0x14 hi hoff
  · refine ⟨_, rfl, ?_⟩
    rw [hsTimeout_lsOn (s := s.advance dt) hi hst hpin hlate]
    obtain ⟨h, -, hget, heq⟩ := pv_settleOutputs (((s.advance dt).setPv i (((s.advance dt).pv i).shut 0x15 cyc)).shroudFault 0x15 i 0) hi
    rw [heq]
    exact pvAfter_shutdown (hget.trans (pv_setPv_self (s.advance dt) i (((s.advance dt).pv i).shut 0x15 cyc))) rfl rfl

end Sys2Proof.Machine
end

section
/-! What Shroud takes from an accepted frame (R25, R26, R504, R528 to R534, R538). -/

namespace Sys2Proof.Machine

/-! ### Frames that Shroud accepts -/

/-- The state in which Shroud acts on a frame that it accepts. -/
def State.heard (s : State) (typ seq : Nat) (p : Bytes) : State :=
  { s with pch := { s.pch with link := s.pch.link.noteSent { typ, seq, payload := p } s.mc }
           shr := { s.shr with link := s.shr.link.accept seq s.cyc } }

/-- What follows an accepted frame: the outputs settle, and the L die may send its next event frame. -/
def State.afterFrame (s : State) : State := s.settleOutputs.lDieSends

theorem onShroud_accepted {s : State} {typ seq : Nat} {p : Bytes} (h3 : s.atStep 3 = true) (hok : reservedOk typ p = true)
    (hseq : seq = s.shr.link.expect) (act : State → State) :
    s.onShroud typ seq p act = (act (s.heard typ seq p)).afterFrame := by
  simp only [State.onShroud, h3, Bool.not_true, Bool.false_eq_true, if_false, hok, hseq, beq_self_eq_true, Bool.and_self, if_true]
  rfl

theorem lDieSends_rest (s : State) : { s.lDieSends with pch := {}, out := [] } = { s with pch := {}, out := [] } := by
  unfold State.lDieSends; split
  · rfl
  · unfold State.stateDue; dsimp only; split <;> rfl

theorem mem_out_lDieSends {s : State} {x : Out} (h : x ∈ s.out) : x ∈ s.lDieSends.out := by
  have hdue : x ∈ s.stateDue.out := by unfold State.stateDue; split <;> exact h
  unfold State.lDieSends; split
  · exact h
  · exact List.mem_append_left _ hdue

theorem shr_lDieSends (s : State) : s.lDieSends.shr = s.shr := (congrArg State.shr (lDieSends_rest s) :)
theorem hst_lDieSends (s : State) : s.lDieSends.hst = s.hst := (congrArg State.hst (lDieSends_rest s) :)

theorem shr_bare {s t : State} (h : t.bare = s.bare) : t.shr.bare = s.shr.bare := (congrArg State.shr h :)

theorem afterFrame_rest (s : State) : s.afterFrame.shr.bare = s.shr.bare ∧ s.afterFrame.glb = s.glb ∧ s.afterFrame.hst = s.hst := by
  unfold State.afterFrame
  rw [shr_lDieSends, hst_lDieSends, glb_lDieSends]
  exact ⟨shr_bare (bare_settleOutputs s), bare_glb (bare_settleOutputs s), bare_hst (bare_settleOutputs s)⟩

theorem mem_out_afterFrame {s : State} {x : Out} (h : x ∈ s.out) : x ∈ s.afterFrame.out :=
  mem_out_lDieSends ((bare_out (bare_settleOutputs s)).symm ▸ h)

/-! ### Outputs that stay off -/

theorem onPermit_denied_so (x : So) (b : Bool) (cyc : Nat) : (x.onPermit false b cyc).1.st ≠ .on := by
  cases hst : x.st <;> simp [So.onPermit, hst]

theorem onPermit_denied_pv (x : Pv) (cyc : Nat) : (x.onPermit false cyc).1.st ≠ .on ∧ (x.onPermit false cyc).1.st ≠ .lsOn := by
  cases hst : x.st <;> simp [Pv.onPermit, hst, Pv.shut]

theorem soAfter_ne_on {h : Shroud} (hno : h.stateAllows = false) (cyc o : Nat) : (h.soAfter cyc o).st ≠ .on := by
  have hpermit : h.soPermit cyc o = false := by simp [Shroud.soPermit, hno]
  rw [soAfter_eq, hpermit]
  exact onPermit_denied_so _ _ _

theorem pvAfter_off {h : Shroud} (hno : h.stateAllows = false) (cyc p : Nat) :
    (h.pvAfter cyc p).st ≠ .on ∧ (h.pvAfter cyc p).st ≠ .lsOn := by
  have hpermit : h.pvPermit cyc p = false := by simp [Shroud.pvPermit, hno]
  rw [pvAfter_eq, hpermit]
  exact onPermit_denied_pv ..

/-- Without an operating state that allows outputs, outputs that are off stay off. -/
theorem outputsOff_settleOutputs {s : State} (hno : s.shr.stateAllows = false) (hoff : s.outputsOff) :
    s.settleOutputs.outputsOff := by
  have hno' : ∀ h : Shroud, h.bare = s.shr.bare → h.stateAllows = false := fun h hb => (congrArg (·.stateAllows) hb :).trans hno
  refine ⟨fun o => ?_, fun p => ?_⟩
  · by_cases ho : o < 16
    · obtain ⟨h, hb, -, heq⟩ := so_settleOutputs s ho
      rw [heq]
      exact soAfter_ne_on (hno' h hb) _ _
    · rw [so_settleOutputs_beyond s (Nat.not_lt.1 ho)]
      exact hoff.1 o
  · by_cases hp : p < 4
    · obtain ⟨h, hb, -, heq⟩ := pv_settleOutputs s hp
      rw [heq]
      exact pvAfter_off (hno' h hb) ..
    · rw [pv_settleOutputs_beyond s (Nat.not_lt.1 hp)]
      exact hoff.2 p

theorem outputsOff_of_shr {s t : State} (h : t.shr = s.shr) (hs : s.outputsOff) : t.outputsOff := by
  simpa only [State.outputsOff, State.so, State.pv, h] using hs

/-- Outputs that Shroud has driven off are off. -/
theorem outputsOff_cleared (s : State) (h : Shroud) (cyc : Nat) : ({ s with shr := h.outputsOff cyc } : State).outputsOff :=
  ⟨fun o => tget_tmap_prop (fun x : So => x.st ≠ .on) (·.cleared cyc) h.souts o (by decide) (fun x => by simp [So.cleared]),
   fun p => tget_tmap_prop (fun x : Pv => x.st ≠ .on ∧ x.st ≠ .lsOn) (·.cleared cyc) h.prvs p (by decide)
    (fun x => by simp [Pv.cleared])⟩

theorem outputsOff_afterFrame {s : State} (hno : s.shr.stateAllows = false) (hoff : s.outputsOff) : s.afterFrame.outputsOff :=
  outputsOff_of_shr (shr_lDieSends s.settleOutputs) (outputsOff_settleOutputs hno hoff)

/-! ### What each frame carries -/

theorem zeroAt_append_zeros (a : Bytes) {off : Nat} (n : Nat) (h : a.length = off) : zeroAt (a ++ zeros n) off n = true := by
  subst h; simp [zeroAt, slice, allZero, zeros]

theorem reservedOk_pchFunc (v : Nat) : reservedOk 0x01 (le 8 v ++ zeros 2) = true := by
  have hz := zeroAt_append_zeros (le 8 v) 2 (le_length 8 v)
  simp only [reservedOk, hz, Bool.and_true, beq_iff_eq, List.length_append, le_length]
  rfl

theorem reservedOk_pchOut (a b : Nat) : reservedOk 0x02 (le 2 a ++ le 1 b ++ zeros 7) = true := by
  have hz := zeroAt_append_zeros (le 2 a ++ le 1 b) (off := 3) 7 (by simp)
  simp only [reservedOk, hz, Bool.and_true, beq_iff_eq, List.length_append, le_length]
  rfl

/-- What a refused rising request leaves of Shroud (R526). -/
def Shroud.unrefused (h : Shroud) : Shroud := { h with souts := [], refused := 0 }

theorem refuseRising_rest (s : State) (req : Nat) :
    { (s.refuseRising req).quiet with shr := (s.refuseRising req).shr.unrefused } = { s.quiet with shr := s.shr.unrefused } := by
  refine view_foldl (fun q : State => { q.quiet with shr := q.shr.unrefused }) _ (fun q o => ?_) _ s
  dsimp only
  split
  · rfl
  · split
    · unfold State.refusedRecord; dsimp only
      have hquiet := quiet_evDev
        { q with shr := { q.shr with
          souts := tset q.shr.souts o { tget q.shr.souts o with refusedReq := true }, refused := inc 16 q.shr.refused } }
      rw [hquiet, quiet_shr (hquiet ..)]
      rfl
    · rfl

theorem takePchOut_rest (s : State) (r : Nat × Nat × Nat) :
    ((s.takePchOut r).shr.soutReq, (s.takePchOut r).shr.prvReq, (s.takePchOut r).shr.hsCmd) = r ∧
      (s.takePchOut r).shr.link = s.shr.link ∧ (s.takePchOut r).glb = s.glb :=
  ⟨rfl, (congrArg (·.shr.link) (refuseRising_rest s r.1) :), (congrArg State.glb (refuseRising_rest s r.1) :)⟩

section
variable {g h : Shroud} (hb : g.bare = h.bare)
include hb
theorem lastSeq_of_bare : g.link.lastSeq = h.link.lastSeq := (congrArg (·.link.lastSeq) hb :)
theorem lastAt_of_bare : g.link.lastAt = h.link.lastAt := (congrArg (·.link.lastAt) hb :)
theorem pchRun_of_bare : g.pchRun = h.pchRun := (congrArg (·.pchRun) hb :)
theorem mirror_of_bare : g.mirror = h.mirror := (congrArg (·.mirror) hb :)
theorem mirrorCause_of_bare : g.mirrorCause = h.mirrorCause := (congrArg (·.mirrorCause) hb :)
theorem slots_of_bare : g.slots = h.slots := (congrArg (·.slots) hb :)
theorem cfg_of_bare : g.cfg = h.cfg := (congrArg (·.cfg) hb :)
theorem safeLatch_of_bare : g.safeLatch = h.safeLatch := (congrArg (·.safeLatch) hb :)
theorem requests_of_bare : (g.soutReq, g.prvReq, g.hsCmd) = (h.soutReq, h.prvReq, h.hsCmd) :=
  (congrArg (fun g : Shroud => (g.soutReq, g.prvReq, g.hsCmd)) hb :)
end

/-- What is sent frame by frame stands behind what was sent before. -/
theorem foldl_emit {α : Type} (g : α → Out) (l : List α) (s : State) :
    l.foldl (fun q x => q.emit (g x)) s = { s with out := s.out ++ l.map g } := by
  induction l generalizing s with
  | nil => simp
  | cons x l ih => rw [List.foldl_cons, ih]; simp [State.emit]

/-- The frames that Shroud sends again on a NAK (R508). -/
def State.resends (s : State) (e : Nat) : State :=
  (s.shr.link.resend e).foldl (fun r f => r.emit (.fromShroud f.typ f.seq f.payload)) s

theorem resends_eq (s : State) (e : Nat) : s.resends e =
    { s with out := s.out ++ (s.shr.link.resend e).map fun f => Out.fromShroud f.typ f.seq f.payload } := foldl_emit ..

theorem exec_pchFunc (dt seq : Nat) (s : State) : exec (.pchFunc dt seq) s = .next ((s.advance dt).onShroud 0x01 seq
    (le 8 (runBits s.pch.fns) ++ zeros 2) State.takePchFunc) := rfl

theorem exec_pchOut (dt seq : Nat) (s : State) : exec (.pchOut dt seq) s = .next ((s.advance dt).onShroud 0x02 seq
    (le 2 (s.advance dt).pchOut.1 ++ le 1 ((s.advance dt).pchOut.2.1 + 16 * (s.advance dt).pchOut.2.2) ++ zeros 7)
    (·.takePchOut (s.advance dt).pchOut)) := rfl

theorem exec_idle_shroud (dt seq : Nat) (p : Bytes) (s : State) :
    exec (.idle dt true seq p) s = .next ((s.advance dt).onShroud 0x00 seq p id) := rfl

theorem exec_nak_shroud (dt seq : Nat) (p : Bytes) (s : State) :
    exec (.nak dt true seq p) s = .next ((s.advance dt).onShroud 0x7F seq p (·.resends (rd p 0 1))) := rfl

/-- Settles O35: each frame is accepted, its content is taken, and what settles then is the outputs alone. -/
theorem shroudTakesFramesInOrder : Obligations.ShroudTakesFramesInOrder := by
  intro dt seq p s h3 hseq cyc
  have hx : ∀ (typ : Nat) (p : Bytes), reservedOk typ p = true → ∀ act : State → State,
      (.next ((s.advance dt).onShroud typ seq p act) : Host.Outcome State Fault Refusal) =
        .next (act ((s.advance dt).heard typ seq p)).afterFrame :=
    fun typ p hok act => congrArg _ (onShroud_accepted (s := s.advance dt) h3 hok hseq act)
  refine ⟨?_, ?_, fun hok => ?_, fun hok => ?_, fun hok => ?_, fun hok => ?_⟩
  · refine ⟨_, (exec_pchFunc ..).trans (hx _ _ (reservedOk_pchFunc _) _), ?_⟩
    generalize hq : (s.advance dt).heard 0x01 seq _ = q
    obtain ⟨hb, hglb, hhst⟩ := afterFrame_rest q.takePchFunc
    subst hq
    exact ⟨pchRun_of_bare hb, lastSeq_of_bare hb, lastAt_of_bare hb, hglb, hhst⟩
  · refine ⟨_, (exec_pchOut ..).trans (hx _ _ (reservedOk_pchOut ..) _), ?_⟩
    generalize hq : (s.advance dt).heard 0x02 seq _ = q
    obtain ⟨hr, hlink, hglb'⟩ := takePchOut_rest q (s.advance dt).pchOut
    obtain ⟨hb, hglb, -⟩ := afterFrame_rest (q.takePchOut (s.advance dt).pchOut)
    refine ⟨(requests_of_bare hb).trans hr, ?_, ?_⟩
    · rw [lastSeq_of_bare hb, hlink, ← hq]; rfl
    · rw [hglb, hglb', ← hq]; rfl
  · refine ⟨_, hx 0x06 p hok _, ?_⟩
    obtain ⟨hb, hglb, hhst⟩ := afterFrame_rest (((s.advance dt).heard 0x06 seq p).takeState p)
    exact ⟨(mirror_of_bare hb).trans (by simp [State.takeState, fld]), mirrorCause_of_bare hb, lastSeq_of_bare hb, hglb, hhst⟩
  · refine ⟨_, (exec_idle_shroud ..).trans (hx 0x00 p hok id), ?_⟩
    obtain ⟨hb, hglb, hhst⟩ := afterFrame_rest (id ((s.advance dt).heard 0x00 seq p))
    exact ⟨lastSeq_of_bare hb, lastAt_of_bare hb, (slots_of_bare hb :), hglb, hhst⟩
  · refine ⟨_, (exec_nak_shroud ..).trans (hx 0x7F p hok _), ?_⟩
    have hsent := resends_eq ((s.advance dt).heard 0x7F seq p) (rd p 0 1)
    obtain ⟨hb, hglb, -⟩ := afterFrame_rest (((s.advance dt).heard 0x7F seq p).resends (rd p 0 1))
    refine ⟨(lastSeq_of_bare hb).trans (by rw [hsent]; rfl), fun f hf => mem_out_afterFrame ?_, hglb.trans (by rw [hsent]; rfl)⟩
    rw [hsent]
    exact List.mem_append_right _ (List.mem_map_of_mem hf)
  · refine ⟨_, hx 0x07 p hok _, ?_⟩
    obtain ⟨hb, hglb, hhst⟩ := afterFrame_rest ((s.advance dt).heard 0x07 seq p).takeSafe
    have hno : ((s.advance dt).heard 0x07 seq p).takeSafe.shr.stateAllows = false := by
      simp [State.takeSafe, Shroud.stateAllows, Shroud.outputsOff]
    exact ⟨safeLatch_of_bare hb, outputsOff_afterFrame hno (outputsOff_cleared ..), lastSeq_of_bare hb, lastAt_of_bare hb,
      (slots_of_bare hb :), (cfg_of_bare hb :), hglb, hhst⟩

end Sys2Proof.Machine
end

section
/-! The units of the hard-wired channel (R509 to R518), and the trust slots (R528 to R531). -/

namespace Sys2Proof.Machine

/-! ### What the evaluation of units leaves alone -/

/-- The state without the units of the hard-wired channel, its inputs, its outputs, and what records change. -/
def State.unitless (s : State) : State :=
  { s.quiet with shr := { s.shr.bare with fns := [], sins := [], refused := 0 } }

theorem unitless_of_bare {s t : State} (h : t.bare = s.bare) : t.unitless = s.unitless :=
  (congrArg State.unitless h :)

theorem unitless_of_quiet {s t : State} (h : t.quiet = s.quiet) : t.unitless = s.unitless := by
  simp only [State.unitless, h, quiet_shr h]

/-- Shroud after unit n has taken a value (R517). -/
def Shroud.withFn (h : Shroud) (n : Nat) (f : Fn) : Shroud :=
  { h with fns := tset h.fns n f, sins := clearXs h.sins (h.fnCfg n) (tget h.fns n).st f.st }

/-- What a unit of the hard-wired channel sets, and the record of its refusal. -/
theorem hchSet_cases (s : State) (n : Nat) (f : Fn) (refused : Bool) :
    ∃ k l, s.hchSet n (f, refused) = ({ s with shr := { s.shr.withFn n f with refused := k } } : State) ∨
      s.hchSet n (f, refused) = ({ s with shr := { s.shr.withFn n f with refused := k } } : State).refusedRecord n l := by
  cases refused
  · exact ⟨s.shr.refused, [], .inl rfl⟩
  · exact ⟨inc 16 s.shr.refused, _, .inr rfl⟩

@[simp] theorem quiet_refusedRecord (s : State) (n : Nat) (l : List (Nat × Nat)) : (s.refusedRecord n l).quiet = s.quiet := by
  unfold State.refusedRecord; split
  · rfl
  · exact quiet_evDev ..

theorem shr_refusedRecord (s : State) (n : Nat) (l : List (Nat × Nat)) : (s.refusedRecord n l).shr = s.shr :=
  quiet_shr (quiet_refusedRecord ..)

theorem unitless_hchSet (s : State) (n : Nat) (r : Fn × Bool) : (s.hchSet n r).unitless = s.unitless := by
  obtain ⟨f, b⟩ := r
  obtain ⟨k, l, h | h⟩ := hchSet_cases s n f b
  · rw [h]; rfl
  · rw [h, unitless_of_quiet (quiet_refusedRecord ..)]; rfl

theorem fns_hchSet (s : State) (n : Nat) (r : Fn × Bool) : (s.hchSet n r).shr.fns = tset s.shr.fns n r.1 := by
  obtain ⟨f, b⟩ := r
  obtain ⟨k, l, h | h⟩ := hchSet_cases s n f b
  · rw [h]; rfl
  · rw [h, shr_refusedRecord]; rfl

/-- A change that keeps a part of every entry keeps it in the table. -/
theorem tget_foldl_tmod {α β : Type} [Inhabited α] [DecidableEq α] (g : α → β) {f : α → α} (hf : ∀ x, g (f x) = g x) (i : Nat)
    (l : List Nat) (t : Tbl α) : g (tget (l.foldl (fun t i => tmod t i f) t) i) = g (tget t i) := by
  induction l generalizing t with
  | nil => rfl
  | cons j l ih =>
    refine (ih _).trans ?_
    by_cases hij : i = j
    · subst hij; exact (congrArg g (tget_tset_self ..)).trans (hf _)
    · exact congrArg g (tget_tset_ne hij ..)

/-- The levels of input i: filtered, and as last sampled. -/
def Sin.levels (x : Sin) : Bool × Bool := (x.filt, x.raw)

theorem levels_clearXs (sins : Tbl Sin) (c : FnCfg) (old new : FnState) (i : Nat) :
    (tget (clearXs sins c old new) i).levels = (tget sins i).levels := by
  unfold clearXs; split
  · exact tget_foldl_tmod Sin.levels (f := fun x => { x with xs := false }) (fun _ => rfl) ..
  · rfl

theorem levels_hchSet (s : State) (n : Nat) (r : Fn × Bool) (i : Nat) :
    (tget (s.hchSet n r).shr.sins i).levels = (tget s.shr.sins i).levels := by
  obtain ⟨f, b⟩ := r
  obtain ⟨k, l, h | h⟩ := hchSet_cases s n f b
  · rw [h]; exact levels_clearXs ..
  · rw [h, shr_refusedRecord]; exact levels_clearXs ..

theorem unitless_hchEval (s : State) : s.hchEval.unitless = s.unitless := by
  unfold State.hchEval; split
  · rfl
  · exact view_foldl State.unitless _ (fun _ _ => unitless_hchSet ..) _ _

theorem levels_hchEval (s : State) (i : Nat) : (tget s.hchEval.shr.sins i).levels = (tget s.shr.sins i).levels := by
  unfold State.hchEval; split
  · rfl
  · exact view_foldl (fun q => (tget q.shr.sins i).levels) _ (fun _ _ => levels_hchSet ..) _ _

theorem unitless_hchReset (s : State) (i t : Nat) : (s.hchReset i t).unitless = s.unitless := by
  unfold State.hchReset; split
  · rfl
  · refine view_foldl State.unitless _ (fun q n => ?_) _ _
    dsimp only; split
    · exact unitless_hchSet ..
    · rfl

theorem levels_hchReset (s : State) (i t j : Nat) : (tget (s.hchReset i t).shr.sins j).levels = (tget s.shr.sins j).levels := by
  unfold State.hchReset; split
  · rfl
  · refine view_foldl (fun q => (tget q.shr.sins j).levels) _ (fun q n => ?_) _ _
    dsimp only; split
    · exact levels_hchSet ..
    · rfl

section
variable {s t : State} (h : t.unitless = s.unitless)
include h
theorem unitless_glb : t.glb = s.glb := (congrArg State.glb h :)
theorem unitless_mem : t.mem = s.mem := (congrArg State.mem h :)
theorem unitless_mc : t.mc = s.mc := (congrArg State.mc h :)
theorem unitless_slots : t.shr.slots = s.shr.slots := (congrArg (·.shr.slots) h :)
theorem unitless_cfg : t.shr.cfg = s.shr.cfg := (congrArg (·.shr.cfg) h :)
theorem unitless_cfgActive : t.shr.cfgActive = s.shr.cfgActive := (congrArg (·.shr.cfgActive) h :)
theorem unitless_cfgGen : t.shr.cfgGen = s.shr.cfgGen := (congrArg (·.shr.cfgGen) h :)
end

theorem bare_pulsing {s t : State} (h : t.bare = s.bare) : t.shr.pulsing = s.shr.pulsing := (congrArg (·.shr.pulsing) h :)
theorem bare_pulseAt {s t : State} (h : t.bare = s.bare) : t.shr.pulseAt = s.shr.pulseAt := (congrArg (·.shr.pulseAt) h :)

/-! ### A filtered input -/

/-- Input x after its filter has seen its time (R509). -/
def Sin.flipped (x : Sin) (cyc : Nat) : Sin :=
  { x with raw := !x.filt, filt := !x.filt, diffFrom := none, highFrom := if !x.filt then some cyc else none }

def State.flipped (s : State) (i : Nat) : State :=
  { s with shr := { s.shr with sins := tset s.shr.sins i ((tget s.shr.sins i).flipped s.cyc) } }

/-- The flip of input i, and the reset of the units that its fall may be (R514). -/
def State.flipReset (s : State) (i : Nat) : State :=
  if !(tget s.shr.sins i).filt then s.flipped i
  else match (tget s.shr.sins i).highFrom with
    | some t => (s.flipped i).hchReset i t
    | none => s.flipped i

theorem filterFlips_eq {s : State} {i : Nat} (hi : i < 32) (hf : s.frozen i = false) :
    s.filterFlips i = (s.flipReset i).hchEval.settleOutputs :=
  if_pos ⟨hi, by simp [hf]⟩

theorem unitless_flipped (s : State) (i : Nat) : (s.flipped i).unitless = s.unitless := rfl

theorem unitless_flipReset (s : State) (i : Nat) : (s.flipReset i).unitless = s.unitless := by
  unfold State.flipReset; split
  · exact unitless_flipped ..
  · split
    · exact (unitless_hchReset ..).trans (unitless_flipped ..)
    · exact unitless_flipped ..

theorem levels_flipReset (s : State) (i j : Nat) :
    (tget (s.flipReset i).shr.sins j).levels = (tget (s.flipped i).shr.sins j).levels := by
  unfold State.flipReset; split
  · rfl
  · split
    · exact levels_hchReset ..
    · rfl

theorem filterFlips_flips {s : State} {i : Nat} (hi : i < 32) (hf : s.frozen i = false) : (s.filterFlips i).unitless = s.unitless ∧
    ∀ j, (tget (s.filterFlips i).shr.sins j).levels =
      if j = i then (!(tget s.shr.sins i).filt, !(tget s.shr.sins i).filt) else (tget s.shr.sins j).levels := by
  rw [filterFlips_eq hi hf]
  refine ⟨by rw [unitless_of_bare (bare_settleOutputs _), unitless_hchEval, unitless_flipReset], fun j => ?_⟩
  rw [bare_sins (bare_settleOutputs _), levels_hchEval, levels_flipReset]
  dsimp only [State.flipped]
  by_cases hj : j = i
  · subst hj; rw [tget_tset_self, if_pos rfl]; rfl
  · rw [tget_tset_ne hj, if_neg hj]

/-! ### Cross-shorts -/

/-- The state without the units of either channel and what waits to be sent. -/
def State.sansFns (s : State) : State := { s.bare with shr := { s.shr.bare with fns := [] }, pch := { s.pch with fns := [] } }

theorem clearXs_fault (sins : Tbl Sin) (c : FnCfg) (old : FnState) : clearXs sins c old .fault = sins :=
  if_neg fun h => h.2 rfl

theorem sansFns_hchSet_fault (s : State) (n code : Nat) (f : Fn) : (s.hchSet n (f.toFault code, false)).sansFns = s.sansFns := by
  have h : s.hchSet n (f.toFault code, false) = { s with shr := s.shr.withFn n (f.toFault code) } := rfl
  have hsins : (s.shr.withFn n (f.toFault code)).sins = s.shr.sins := clearXs_fault ..
  rw [h]
  simp only [State.sansFns, State.bare, Shroud.bare, hsins]
  rfl

theorem sansFns_pchSet_fault (s : State) (n code : Nat) (f : Fn) : (s.pchSet n (f.toFault code, false)).sansFns = s.sansFns := by
  have hsins : clearXs s.pch.sins (s.shr.fnCfg n) (tget s.pch.fns n).st (f.toFault code).st = s.pch.sins := clearXs_fault ..
  simp only [State.pchSet, Bool.false_and, Bool.false_eq_true, if_false, hsins]
  rfl

theorem sansFns_of_bare {s t : State} (h : t.bare = s.bare) : t.sansFns = s.sansFns := (congrArg State.sansFns h :)

theorem sansFns_hchXs (s : State) (xs : List Nat) : (s.hchXs xs).sansFns = s.sansFns := by
  have hstep : ∀ (q : State) (n : Nat), ((q.hchSet n ((tget q.shr.fns n).toFault 2, false)).shroudFault 2 n
      (ofBitList xs)).sansFns = q.sansFns :=
    fun q n => (sansFns_of_bare (bare_shroudFault ..)).trans (sansFns_hchSet_fault ..)
  unfold State.hchXs; dsimp only
  generalize (if s.shr.compat then [] else s.shr.units.filter fun n => (s.shr.fnCfg n).inputs.any xs.contains) = us
  split
  · exact (sansFns_of_bare (bare_shroudFault ..)).trans (view_foldl State.sansFns _ hstep us s)
  · exact view_foldl State.sansFns _ hstep us s

theorem sansFns_pchXs (s : State) (xs : List Nat) : (s.pchXs xs).sansFns = s.sansFns :=
  view_foldl State.sansFns _ (fun _ _ => sansFns_pchSet_fault ..) _ _

theorem xs_judgeXs (t : Tbl Sin) (i : Nat) : (tget (judgeXs t [i] [i]) i).xs = true := by
  simp [judgeXs, tmod]

/-- Inputs and pulses after the pulse of TPO k, where its one tested input stayed high (R511). -/
theorem pulseEnds_short {s : State} {k before late i : Nat} (hk : s.shr.pulsing.contains k = true)
    (hw : s.cyc - (s.shr.pulseAt.lookup k).getD 0 ≥ s.shr.tpWidth) (htested : s.shr.tested k = [i]) (hb : bitAt before i = true)
    (hl : bitAt late i = true) : ∃ q : State, q.shr.pulsing = s.shr.pulsing.erase k ∧ q.shr.sins = judgeXs s.shr.sins [i] [i] ∧
      q.pch.sins = judgeXs s.pch.sins [i] [i] ∧ (s.pulseEnds k before late).sansFns = q.sansFns := by
  refine ⟨{ s with
    shr := { s.shr with pulsing := s.shr.pulsing.erase k, pulseEnd := tins k s.cyc s.shr.pulseEnd,
                        sins := judgeXs s.shr.sins [i] [i] }
    pch := { s.pch with sins := judgeXs s.pch.sins [i] [i] } }, rfl, rfl, rfl, ?_⟩
  simp only [State.pulseEnds, hk, hw, decide_true, Bool.and_self, if_true, htested, List.filter_cons, hb, List.filter_nil, hl,
    List.isEmpty_cons, Bool.false_eq_true, if_false]
  rw [sansFns_of_bare (bare_settleOutputs _), sansFns_pchXs, sansFns_hchXs]

section
variable {s t : State} (h : t.sansFns = s.sansFns)
include h
theorem sansFns_pulsing : t.shr.pulsing = s.shr.pulsing := (congrArg (·.shr.pulsing) h :)
theorem sansFns_sins : t.shr.sins = s.shr.sins := (congrArg (·.shr.sins) h :)
theorem sansFns_pchSins : t.pch.sins = s.pch.sins := (congrArg (·.pch.sins) h :)
end

/-- The state in which TPO k begins its pulse (R510). -/
def State.pulsed (s : State) (k : Nat) : State :=
  { s with shr := { s.shr with pulsing := insNat k s.shr.pulsing, pulseAt := tins k s.cyc s.shr.pulseAt } }

theorem exec_testPulseStart {s : State} {dt k : Nat} (h : s.shr.pulseOwed (s.advance dt).cyc k = true) :
    exec (.testPulseStart dt k) s = .next ((s.advance dt).pulsed k).settleOutputs :=
  congrArg Host.Outcome.next (if_pos h)

/-- Settles O39. -/
theorem inputsAreFilteredAndTested : Obligations.InputsAreFilteredAndTested := by
  intro dt i k before late s
  refine ⟨fun hi hf => ?_, fun howed => ?_, fun hk hw htested hb hl => ?_⟩
  · obtain ⟨hrest, hlevels⟩ := filterFlips_flips (s := s.advance dt) hi hf
    have hself := (hlevels i).trans (if_pos rfl)
    refine ⟨_, rfl, congrArg Prod.fst hself, congrArg Prod.snd hself, fun j hj => ?_, (unitless_slots hrest :),
      (unitless_glb hrest :), (unitless_mem hrest :)⟩
    have hother := (hlevels j).trans (if_neg hj)
    exact ⟨congrArg Prod.fst hother, congrArg Prod.snd hother⟩
  · have hbare := bare_settleOutputs ((s.advance dt).pulsed k)
    refine ⟨_, exec_testPulseStart howed, ?_, ?_, (bare_sins hbare :), (bare_hst hbare :)⟩
    · rw [bare_pulsing hbare]
      exact mem_insNat_self ..
    · rw [bare_pulseAt hbare]
      exact lookup_tins_self ..
  · obtain ⟨q, hpulsing, hsins, hpch, hq⟩ := pulseEnds_short (s := s.advance dt) hk hw htested hb hl
    refine ⟨_, rfl, ?_, ?_, (sansFns_pulsing hq).trans hpulsing⟩
    · rw [sansFns_sins hq, hsins]; exact xs_judgeXs ..
    · rw [sansFns_pchSins hq, hpch]; exact xs_judgeXs ..

end Sys2Proof.Machine
end

section
/-! Trust slots, the section and lasting discrepancies (R515 to R520, R528 to R531, R538). -/

namespace Sys2Proof.Machine

/-! ### Frames that act on a slot or on the section -/

/-- The state with slot n at a value. -/
def State.setSlot (s : State) (n : Nat) (x : TrustSlot) : State :=
  { s with shr := { s.shr with slots := tset s.shr.slots n x } }

theorem slot_setSlot_self (s : State) (n : Nat) (x : TrustSlot) : tget (s.setSlot n x).shr.slots n = x := tget_tset_self ..
theorem slot_setSlot_ne (s : State) {n m : Nat} (h : m ≠ n) (x : TrustSlot) :
    tget (s.setSlot n x).shr.slots m = tget s.shr.slots m := tget_tset_ne h ..

theorem takeUnbind_frees {s : State} {p : Bytes} (hb : (tget s.shr.slots (fSlot p)).bound = true)
    (hc : (tget s.shr.slots (fSlot p)).context = fCtx p) : s.takeUnbind p = s.setSlot (fSlot p) default :=
  if_pos ⟨hb, hc⟩

/-- The slot that a BIND frame binds (R528). -/
def boundSlot (p : Bytes) : TrustSlot := { bound := true, context := fCtx p, sout := fSout p, prv := fPrv p }

theorem takeBind_binds {s : State} {p : Bytes} (h32 : fSlot p < 32) (hb : (tget s.shr.slots (fSlot p)).bound = false)
    (hok : s.shr.bindable (fSout p) (fPrv p) = true) : (s.takeBind p).bare = (s.setSlot (fSlot p) (boundSlot p)).bare := by
  simp only [State.takeBind, h32, hb, hok, decide_true, Bool.not_false, Bool.and_self, if_true]
  rfl

@[simp] theorem quiet_heartbeatRecord (s : State) (slot event ctx : Nat) : (s.heartbeatRecord slot event ctx).quiet = s.quiet :=
  quiet_evDev ..

theorem discarded_setSlot (s : State) (n : Nat) (x : TrustSlot) : (s.setSlot n x).shr.hbDiscarded = s.shr.hbDiscarded := rfl

/-- Shroud without its trust slots, and what records change. -/
def State.slotless (s : State) : State := { s.quiet with shr := { s.shr.bare with slots := [] } }

theorem slotless_of_bare {s t : State} (h : t.bare = s.bare) : t.slotless = s.slotless := (congrArg State.slotless h :)

theorem slotless_of_quiet {s t : State} (h : t.quiet = s.quiet) : t.slotless = s.slotless := by
  simp only [State.slotless, h, quiet_shr h]

/-- The state with slot n lapsed (R531). -/
def State.lapsed (s : State) (n : Nat) : State := s.setSlot n { tget s.shr.slots n with lapsed := true }

theorem heartbeatLapses_cases (s : State) (n : Nat) : s.heartbeatLapses n = s.settleOutputs ∨
    s.heartbeatLapses n = ((s.lapsed n).heartbeatRecord n 0 (tget s.shr.slots n).context).settleOutputs := by
  unfold State.heartbeatLapses; dsimp only
  split
  · split
    · exact .inr rfl
    · exact .inl rfl
  · exact .inl rfl

theorem lapse_settles (s : State) (n ctx : Nat) :
    ((s.lapsed n).heartbeatRecord n 0 ctx).settleOutputs.slotless = s.slotless ∧
      ((s.lapsed n).heartbeatRecord n 0 ctx).settleOutputs.shr.slots = (s.lapsed n).shr.slots := by
  refine ⟨((slotless_of_bare (bare_settleOutputs _)).trans (slotless_of_quiet (quiet_heartbeatRecord ..))).trans rfl, ?_⟩
  rw [bare_slots (bare_settleOutputs _), quiet_shr (quiet_heartbeatRecord ..)]

/-- A lapse concerns its own slot. -/
theorem heartbeatLapses_rest (s : State) (n : Nat) : (s.heartbeatLapses n).slotless = s.slotless ∧
    ∀ m, m ≠ n → tget (s.heartbeatLapses n).shr.slots m = tget s.shr.slots m := by
  rcases heartbeatLapses_cases s n with h | h
  · rw [h]
    exact ⟨slotless_of_bare (bare_settleOutputs s), fun m _ => by rw [bare_slots (bare_settleOutputs s)]⟩
  · rw [h]
    obtain ⟨hrest, hslots⟩ := lapse_settles s n (tget s.shr.slots n).context
    exact ⟨hrest, fun m hm => by rw [hslots]; exact slot_setSlot_ne s hm _⟩

section
variable {s t : State} (h : t.slotless = s.slotless)
include h
theorem slotless_cyc : t.cyc = s.cyc := (congrArg State.cyc h :)
theorem slotless_glb : t.glb = s.glb := (congrArg State.glb h :)
theorem slotless_discarded : t.shr.hbDiscarded = s.shr.hbDiscarded := (congrArg (·.shr.hbDiscarded) h :)
end

/-- An accepted heartbeat restarts the age of its binding (R530). -/
theorem takeHeartbeat_accepted {s : State} {p : Bytes} (h32 : fSlot p < 32) (hb : (tget s.shr.slots (fSlot p)).bound = true)
    (hc : (tget s.shr.slots (fSlot p)).context = fCtx p) (hs : (tget s.shr.slots (fSlot p)).sout = fSout p)
    (hp : (tget s.shr.slots (fSlot p)).prv = fPrv p) : s.takeHeartbeat p =
      (s.heartbeatLapses (fSlot p)).setSlot (fSlot p)
        { tget s.shr.slots (fSlot p) with hbAt := some (s.heartbeatLapses (fSlot p)).cyc, lapsed := false } :=
  if_pos ⟨h32, hb, hc, hs, hp⟩

/-- A CFG frame whose CRC agrees activates the section (R538). -/
theorem takeCfg_activates {s : State} {p : Bytes} (hlen : s.cfg.active.sioRaw.length = 2048)
    (hcrc : crcK (s.cfg.active.sioRaw.take 2044) = rd p 4 4) (hin : rd s.cfg.active.sioRaw 2044 4 = rd p 4 4) :
    ((s.takeCfg p).unitless = (s.setShr (s.shr.activate s.cyc (rd p 0 4) s.cfg.active.sioWords)).unitless) := by
  have hok : (s.cfg.active.sioRaw.length == 2048 && crcK (s.cfg.active.sioRaw.take 2044) == rd p 4 4 &&
      rd s.cfg.active.sioRaw 2044 4 == rd p 4 4) = true := by
    rw [hlen, hcrc, hin]; simp
  unfold State.takeCfg; dsimp only
  rw [hok, if_pos rfl]
  exact (unitless_of_bare rfl).trans (unitless_hchEval _)

section
variable {g h : Shroud} (hb : g.bare = h.bare)
include hb
theorem discarded_of_bare : g.hbDiscarded = h.hbDiscarded := (congrArg (·.hbDiscarded) hb :)
theorem cfgActive_of_bare : g.cfgActive = h.cfgActive := (congrArg (·.cfgActive) hb :)
theorem cfgGen_of_bare : g.cfgGen = h.cfgGen := (congrArg (·.cfgGen) hb :)
end

/-- What an accepted frame that sets one slot leaves of the slots. -/
theorem slots_afterFrame {q s : State} {n : Nat} {x : TrustSlot} (h : q.shr.slots = (s.setSlot n x).shr.slots) :
    tget q.afterFrame.shr.slots n = x ∧ ∀ m, m ≠ n → tget q.afterFrame.shr.slots m = tget s.shr.slots m := by
  obtain ⟨hbare, -, -⟩ := afterFrame_rest q
  rw [slots_of_bare hbare, h]
  exact ⟨slot_setSlot_self .., fun m hm => slot_setSlot_ne s hm x⟩

/-- Settles O36. -/
theorem trustSlotsAndSectionFollowTheFrames : Obligations.TrustSlotsAndSectionFollowTheFrames := by
  intro dt seq p s h3 hseq h32
  have hx : ∀ (typ : Nat), reservedOk typ p = true → ∀ act : State → State,
      (.next ((s.advance dt).onShroud typ seq p act) : Host.Outcome State Fault Refusal) =
        .next (act ((s.advance dt).heard typ seq p)).afterFrame :=
    fun typ hok act => congrArg _ (onShroud_accepted (s := s.advance dt) h3 hok hseq act)
  refine ⟨fun hok hb hbind => ?_, fun hok hb hc => ?_, fun hok hb hc hs hp => ?_, fun hok hlen hcrc hin => ?_⟩
  · have htaken := takeBind_binds (s := (s.advance dt).heard 0x04 seq p) h32 hb hbind
    obtain ⟨hself, hother⟩ := slots_afterFrame (bare_slots htaken)
    obtain ⟨hbare, hglb, -⟩ := afterFrame_rest (((s.advance dt).heard 0x04 seq p).takeBind p)
    refine ⟨_, hx 0x04 hok _, ?_, ?_, ?_, ?_, hother, (cfg_of_bare hbare).trans (bare_cfg htaken :), hglb.trans (glb_takeBind ..)⟩ <;>
      rw [hself] <;> rfl
  · have htaken := takeUnbind_frees (s := (s.advance dt).heard 0x05 seq p) hb hc
    obtain ⟨hself, hother⟩ := slots_afterFrame (congrArg (·.shr.slots) htaken)
    obtain ⟨hbare, hglb, -⟩ := afterFrame_rest (((s.advance dt).heard 0x05 seq p).takeUnbind p)
    refine ⟨_, hx 0x05 hok _, by rw [hself]; rfl, hother, (cfg_of_bare hbare).trans (by rw [htaken]; rfl),
      hglb.trans (glb_takeUnbind ..)⟩
  · have htaken := takeHeartbeat_accepted (s := (s.advance dt).heard 0x03 seq p) h32 hb hc hs hp
    obtain ⟨hrest, hlapse⟩ := heartbeatLapses_rest ((s.advance dt).heard 0x03 seq p) (fSlot p)
    obtain ⟨hself, hother⟩ := slots_afterFrame (congrArg (·.shr.slots) htaken)
    obtain ⟨hbare, hglb, -⟩ := afterFrame_rest (((s.advance dt).heard 0x03 seq p).takeHeartbeat p)
    refine ⟨_, hx 0x03 hok _, ?_, ?_, fun n hn => (hother n hn).trans (hlapse n hn), ?_, ?_⟩
    · rw [hself, slotless_cyc hrest]; rfl
    · rw [hself]
    · rw [discarded_of_bare hbare, htaken, discarded_setSlot, slotless_discarded hrest]; rfl
    · exact hglb.trans (glb_takeHeartbeat ..)
  · have htaken := takeCfg_activates (s := (s.advance dt).heard 0x08 seq p) hlen hcrc hin
    obtain ⟨hbare, hglb, -⟩ := afterFrame_rest (((s.advance dt).heard 0x08 seq p).takeCfg p)
    exact ⟨_, hx 0x08 hok _, (cfgActive_of_bare hbare).trans (unitless_cfgActive htaken),
      (cfgGen_of_bare hbare).trans (unitless_cfgGen htaken), (cfg_of_bare hbare).trans (unitless_cfg htaken),
      (slots_of_bare hbare).trans (unitless_slots htaken :), hglb.trans (glb_takeCfg ..)⟩

end Sys2Proof.Machine
end

section
/-! Lasting discrepancies and heartbeats (R375, R515 to R520, R531). -/

namespace Sys2Proof.Machine

/-! ### Units -/

theorem fns_hchSet_settled (s : State) (n : Nat) (f : Fn) :
    (s.hchSet n (f, false)).settleOutputs.shr.fns = tset s.shr.fns n f := by
  rw [bare_fns (bare_settleOutputs _), fns_hchSet]

theorem fns_shroudFault_settled (s : State) (code n mask : Nat) :
    (s.shroudFault code n mask).settleOutputs.shr.fns = s.settleOutputs.shr.fns := by
  rw [bare_fns (bare_settleOutputs _), bare_fns (bare_settleOutputs s), bare_fns (bare_shroudFault ..)]

/-- A pair discrepancy beyond DISC_MS is a fault of its unit (R515). -/
theorem fns_discTimeout {s : State} {n x : Nat} (hn : s.shr.units.contains n = true) (hc : s.shr.compat = false)
    (hfrom : (tget s.shr.fns n).discFrom = some x) (hlate : s.cyc - x > (s.shr.fnCfg n).discMs * 40000)
    (hst : (tget s.shr.fns n).st ≠ .fault) : (s.discTimeout false n).shr.fns =
      tset s.shr.fns n ((tget s.shr.fns n).toFault (discCode (s.shr.fnCfg n))) := by
  simp only [State.discTimeout, State.hchDisc, hn, hc, hfrom, Bool.not_true, Bool.false_eq_true, if_false]
  rw [if_pos ⟨hlate, hst⟩, fns_shroudFault_settled, fns_hchSet_settled]

/-- One hand alone for 500 ms blocks its unit (R516). -/
theorem fns_handTimeout {s : State} {n x : Nat} (hn : s.shr.units.contains n = true) (hc : s.shr.compat = false)
    (htyp : (s.shr.fnCfg n).typ = 3) (hst : (tget s.shr.fns n).st = .stop) (hfrom : (tget s.shr.fns n).handFrom = some x)
    (hlate : s.cyc - x ≥ 500 * 40000) : (s.handTimeout false n).shr.fns =
      tset s.shr.fns n { tget s.shr.fns n with st := .blocked } := by
  simp only [State.handTimeout, hn, hc, htyp, hst, hfrom, Bool.not_true, bne_self_eq_false, Bool.or_self, Bool.false_eq_true,
    if_false]
  rw [if_pos hlate, fns_hchSet_settled]

/-! ### The two channels differ -/

/-- The state in which Shroud has switched its outputs off for a lasting difference (R520). -/
def State.discrepant (s : State) : State :=
  { s with shr := { s.shr with discOff := true, discFrom := [] }.outputsOff s.cyc }

theorem channelDiscrepancy_late {s : State} {n x : Nat} (hc : s.shr.compat = false) (hact : s.shr.cfgActive = true)
    (hfrom : s.shr.discFrom.lookup n = some x) (hlate : s.cyc - x > s.shr.chDiscMs * 40000) :
    s.channelDiscrepancy true n = ((s.discrepant.shroudFault 0x20 n 0).channelRecord n).enterSafe 0x18 := by
  rw [State.channelDiscrepancy, if_neg (by simp [hc, hact]), if_pos rfl, hfrom]
  exact if_pos hlate

@[simp] theorem quiet_channelRecord (s : State) (n : Nat) : (s.channelRecord n).quiet = s.quiet := quiet_evDev ..

theorem shr_enterSafe (s : State) (cause : Nat) : (s.enterSafe cause).shr = s.shr := unmoved_shr (unmoved_enterSafe ..)

theorem shr_channelDiscrepancy (s : State) (n : Nat) :
    (((s.shroudFault 0x20 n 0).channelRecord n).enterSafe 0x18).shr = (s.shroudFault 0x20 n 0).shr := by
  rw [shr_enterSafe, quiet_shr (quiet_channelRecord ..)]

/-! ### Heartbeats -/

theorem heartbeatLapses_due {s : State} {n lim x : Nat} (hb : (tget s.shr.slots n).bound = true)
    (hlim : s.shr.slotLimit (tget s.shr.slots n) = some lim) (hat : (tget s.shr.slots n).hbAt = some x)
    (hl : (tget s.shr.slots n).lapsed = false) (hlate : s.cyc - x ≥ cycMs lim) :
    s.heartbeatLapses n = ((s.lapsed n).heartbeatRecord n 0 (tget s.shr.slots n).context).settleOutputs := by
  unfold State.heartbeatLapses; dsimp only
  split
  next lim' x' _ hlim' hat' =>
    obtain rfl := Option.some.inj (hlim.symm.trans hlim')
    obtain rfl := Option.some.inj (hat.symm.trans hat')
    exact if_pos ⟨hlate, by simp [hl]⟩
  next hnone => exact absurd hat (hnone lim x hb hlim)


theorem mem_of_lookup {α : Type} {k : Nat} {v : α} {t : Tbl α} (h : t.lookup k = some v) : (k, v) ∈ t := by
  obtain ⟨l₁, l₂, rfl, -⟩ := List.lookup_eq_some_iff.1 h
  simp

theorem mem_openCtxs {s : State} {c : Nat} (h : (s.watch c).isOpen = true) : c ∈ s.openCtxs := by
  unfold State.watch tget at h
  cases hl : s.vrd.ctxs.lookup c with
  | none => rw [hl] at h; exact absurd h (by decide)
  | some w =>
    rw [hl] at h
    exact List.mem_map.2 ⟨(c, w), List.mem_filter.2 ⟨mem_of_lookup hl, h⟩, rfl⟩

/-- The state with the L die's waiting frames aside. -/
def State.sansWaiting (s : State) : State := { s with pch := { s.pch with link := { s.pch.link with waiting := [] } } }

theorem sansWaiting_heartbeat (s : State) (c : Nat) : (s.heartbeat c).sansWaiting = s.sansWaiting := by
  unfold State.heartbeat; dsimp only; split <;> rfl

/-- The heartbeat frame of context c (R375, R504). -/
def State.heartbeatFrame (s : State) (c : Nat) : StayFrame :=
  { typ := 0x03, payload := padTo 10 (le 1 (tget s.pch.slotOf c) ++ zeros 1 ++ le 2 c ++ le 2 (s.watch c).sout ++
      le 1 (s.watch c).prv ++ zeros 3) }

theorem rd_heartbeatFrame (s : State) (c : Nat) : rd (s.heartbeatFrame c).payload 2 2 = c % 2 ^ 16 := by
  have hpad : ∀ b : Bytes, b.length = 10 → padTo 10 b = b := fun b hb => by simp [padTo, hb, zeros, List.take_of_length_le]
  have hslice : slice (le 1 (tget s.pch.slotOf c) ++ zeros 1 ++ le 2 c ++ le 2 (s.watch c).sout ++
      le 1 (s.watch c).prv ++ zeros 3) 2 2 = le 2 c := by
    simp [slice, zeros, le]
  rw [State.heartbeatFrame, hpad _ (by simp [zeros]), rd, hslice, ofLe_le, show 256 ^ 2 = 2 ^ 16 from rfl]

theorem heartbeat_waits {s : State} {c : Nat} (hb : (s.watch c).sout ≠ 0 ∨ (s.watch c).prv ≠ 0)
    (ht : (s.watch c).trusted = true) (hage : s.tooOld (s.watch c) = false) :
    s.heartbeatFrame c ∈ (s.heartbeat c).pch.link.waiting := by
  rw [State.heartbeat, if_pos ⟨hb, ht, by simp [hage]⟩]
  exact List.mem_append_right _ (List.mem_singleton.2 rfl)

theorem waiting_heartbeat {s : State} {f : StayFrame} (h : f ∈ s.pch.link.waiting) (c : Nat) :
    f ∈ (s.heartbeat c).pch.link.waiting := by
  unfold State.heartbeat; dsimp only; split
  · exact List.mem_append_left _ h
  · exact h

/-- A round of heartbeats (R375). -/
def State.heartbeats (s : State) (l : List Nat) : State := l.foldl (fun q c => q.heartbeat c) s

theorem sansWaiting_heartbeats (s : State) (l : List Nat) : (s.heartbeats l).sansWaiting = s.sansWaiting :=
  view_foldl State.sansWaiting _ sansWaiting_heartbeat l s

/-- Every context of the round whose trust stands has its frame among those that wait. -/
theorem heartbeats_wait {s q : State} {c : Nat} (hq : q.sansWaiting = s.sansWaiting)
    (hb : (s.watch c).sout ≠ 0 ∨ (s.watch c).prv ≠ 0) (ht : (s.watch c).trusted = true) (hage : s.tooOld (s.watch c) = false) :
    ∀ l : List Nat, c ∈ l → s.heartbeatFrame c ∈ (q.heartbeats l).pch.link.waiting := by
  intro l
  induction l generalizing q with
  | nil => exact fun h => absurd h List.not_mem_nil
  | cons d l ih =>
    intro hc
    have hstep : (q.heartbeat d).sansWaiting = s.sansWaiting := (sansWaiting_heartbeat q d).trans hq
    rcases List.mem_cons.1 hc with rfl | hc
    · have hw : q.watch c = s.watch c := (congrArg (fun x : State => x.watch c) hq :)
      have hold : q.tooOld (s.watch c) = s.tooOld (s.watch c) := (congrArg (fun x : State => x.tooOld (s.watch c)) hq :)
      have hframe : q.heartbeatFrame c = s.heartbeatFrame c := (congrArg (fun x : State => x.heartbeatFrame c) hq :)
      have hwaits := heartbeat_waits (s := q) (c := c) (by rwa [hw]) (by rwa [hw]) (by rw [hw, hold]; exact hage)
      rw [hframe] at hwaits
      exact List.foldlRecOn (motive := fun x : State => s.heartbeatFrame c ∈ x.pch.link.waiting) l _ hwaits
        fun x hx d _ => waiting_heartbeat hx d
    · exact ih hstep hc

/-- The state at the beginning of a round of heartbeats. -/
def State.beating (s : State) : State := { s with vrd := { s.vrd with hbAt := s.mc } }

theorem exec_trustHeartbeat_due {s : State} {dt : Nat} (h : s.mc + dt - s.vrd.hbAt ≥ 100 * usMc) :
    exec (.trustHeartbeat dt) s = .next ((s.advance dt).beating.heartbeats s.openCtxs) :=
  congrArg Host.Outcome.next (if_pos h)

section
variable {s t : State} (h : t.sansWaiting = s.sansWaiting)
include h
theorem sansWaiting_vrd : t.vrd = s.vrd := (congrArg State.vrd h :)
theorem sansWaiting_shr : t.shr = s.shr := (congrArg State.shr h :)
theorem sansWaiting_glb : t.glb = s.glb := (congrArg State.glb h :)
theorem sansWaiting_hst : t.hst = s.hst := (congrArg State.hst h :)
end

/-- Settles O40: the lasting discrepancies set one unit or enter SAFE; a lapse and a round of heartbeats follow the slots. -/
theorem discrepanciesAndLapsesAreSafe : Obligations.DiscrepanciesAndLapsesAreSafe := by
  refine ⟨fun dt n x s hn hc => ⟨fun hfrom hlate hst => ?_, fun htyp hst hfrom hlate => ?_⟩, fun dt n x s hc hact hfrom hlate hsafe => ?_,
    fun dt n lim x s => ⟨fun hb hlim hat hl hlate => ?_, fun hdue => ?_⟩⟩
  · refine ⟨_, rfl, ?_⟩
    rw [fns_discTimeout (s := s.advance dt) hn hc hfrom hlate hst, tget_tset_self]
    exact ⟨rfl, rfl, fun m hm => tget_tset_ne hm ..⟩
  · refine ⟨_, rfl, ?_⟩
    rw [fns_handTimeout (s := s.advance dt) hn hc htyp hst hfrom hlate, tget_tset_self]
    exact ⟨rfl, fun m hm => tget_tset_ne hm ..⟩
  · refine ⟨_, congrArg Host.Outcome.next (channelDiscrepancy_late (s := s.advance dt) hc hact hfrom hlate), st_enterSafe .., ?_, ?_, ?_⟩
    · exact cause_enterSafe (by rw [glb_channelRecord]; exact hsafe) 0x18
    · exact outputsOff_of_shr (shr_channelDiscrepancy ..) (outputsOff_cleared (s.advance dt) ..)
    · exact congrArg Shroud.discOff (shr_channelDiscrepancy ..)
  · have heq := heartbeatLapses_due (s := s.advance dt) hb hlim hat hl hlate
    obtain ⟨hrest, hslots⟩ := lapse_settles (s.advance dt) n (tget (s.advance dt).shr.slots n).context
    refine ⟨_, congrArg Host.Outcome.next heq, ?_⟩
    rw [hslots]
    refine ⟨?_, ?_, fun m hm => slot_setSlot_ne (s.advance dt) hm _, (slotless_glb hrest :)⟩
    · rw [State.lapsed, slot_setSlot_self]
    · rw [State.lapsed, slot_setSlot_self]; exact hb
  · have hrest := sansWaiting_heartbeats (s.advance dt).beating s.openCtxs
    refine ⟨_, exec_trustHeartbeat_due hdue, ?_, (sansWaiting_shr hrest :), (sansWaiting_glb hrest :), (sansWaiting_hst hrest :),
      fun c hopen hb ht hage => ⟨_, heartbeats_wait (s := (s.advance dt).beating) rfl hb ht hage _ (mem_openCtxs hopen), rfl, rd_heartbeatFrame ..⟩⟩
    rw [sansWaiting_vrd hrest]; rfl

end Sys2Proof.Machine
end

section
/-! A frame of Shroud that the L die rejects (R25, R504): its OUTPUTS, while the mirrored state is a reserved encoding. -/

namespace Sys2Proof.Machine

theorem lastSeq_lDieRejects (s : State) : s.lDieRejects.pch.link.lastSeq = s.pch.link.lastSeq := by
  have hreject : (s.pch.link.reject s.cyc).1.lastSeq = s.pch.link.lastSeq := by unfold StaySide.reject; dsimp only; split <;> rfl
  unfold State.lDieRejects; dsimp only
  split
  · rw [quiet_pch (quiet_evDev ..)]; exact hreject
  · exact hreject

/-- A frame that holds a reserved encoding leaves the SEQ of the last accepted frame. -/
theorem lastSeq_onLDie_reserved {s : State} {typ : Nat} {p : Bytes} (hbad : reservedOk typ p = false) (seq : Nat)
    (act : State → State) : (s.onLDie typ seq p act).pch.link.lastSeq = s.pch.link.lastSeq := by
  simp only [State.onLDie, hbad, Bool.false_and, Bool.false_eq_true, if_false]
  split
  · rfl
  · exact lastSeq_lDieRejects _

/-- A device with D3 released whose Shroud mirrors 6, which is no operating state (R47). -/
def mirroringReserved : State := { rst := { released := some 3 }, shr := { mirror := 6 } }

/-- Its OUTPUTS frame carries the reserved encoding. -/
theorem outputs_mirroringReserved : reservedOk 0x83 mirroringReserved.shr.outputsPayload = false := by decide +kernel

/-- Refutes O37: an OUTPUTS frame whose mirrored state is a reserved encoding is rejected, though its SEQ follows on. -/
theorem not_lDieTakesFramesInOrder : ¬ Obligations.LDieTakesFramesInOrder := by
  intro h
  obtain ⟨-, -, ⟨t, hrun, hseq, -⟩, -⟩ := h 0 0 0 [] mirroringReserved rfl rfl
  have hrejected : t = (mirroringReserved.advance 0).onLDie 0x83 0 mirroringReserved.shr.outputsPayload State.takeOutputs :=
    (Host.Outcome.next.inj hrun).symm
  rw [hrejected, lastSeq_onLDie_reserved outputs_mirroringReserved] at hseq
  exact absurd hseq (by decide)

end Sys2Proof.Machine
end

section
/-! The comparator and the age monitor (R360, R374, R375). -/

namespace Sys2Proof.Machine

/-! ### The comparator -/

/-- A choice among candidates is one of them. -/
theorem mem_of_choice {f : Option Nat → Nat → Option Nat} {l : List Nat} {c : Nat} (h : l.foldl f none = some c)
    (hf : ∀ a x, f a x = a ∨ f a x = some x) : c ∈ l := by
  have hfold : ∀ (l : List Nat) (a : Option Nat), l.foldl f a = a ∨ ∃ x ∈ l, l.foldl f a = some x := by
    intro l
    induction l with
    | nil => exact fun a => .inl rfl
    | cons y l ih =>
      intro a
      rcases ih (f a y) with h | ⟨x, hx, h⟩
      · rcases hf a y with hy | hy
        · exact .inl (h.trans hy)
        · exact .inr ⟨y, List.mem_cons_self .., h.trans hy⟩
      · exact .inr ⟨x, List.mem_cons_of_mem _ hx, h⟩
  rcases hfold l none with hnone | ⟨x, hx, hsome⟩
  · exact absurd (h.symm.trans hnone) nofun
  · obtain rfl := Option.some.inj (h.symm.trans hsome)
    exact hx

theorem cmpNext_mem {s : State} {c : Nat} (h : s.cmpNext = some c) : c ∈ s.openCtxs.filter s.cmpReady := by
  refine mem_of_choice h fun a x => ?_
  cases a with
  | none => exact .inr rfl
  | some d => exact (ite_eq_or_eq ..).symm

/-- A context whose comparison can start has its corridor. -/
theorem settleCorridor_next {s : State} {c : Nat} (h : s.cmpNext = some c) : s.settleCorridor c = s := by
  have hready := (List.mem_filter.1 (cmpNext_mem h)).2
  simp only [State.cmpReady, Bool.and_eq_true] at hready
  have hsome : (s.corridor (s.watch c)).isNone = false := by simpa using hready.2
  simp [State.settleCorridor, hsome]

theorem exec_comparisonStart_next {s : State} {dt c : Nat} (hidle : s.vrd.comparing = none)
    (hnext : (s.advance dt).cmpNext = some c) : exec (.comparisonStart dt c) s = .next ((s.advance dt).cmpStart c) := by
  simp only [exec, execComparisonStart, settleCorridor_next hnext]
  exact congrArg _ (if_pos ⟨by simp [hidle], hnext⟩)

theorem watch_setWatch_self (s : State) (c : Nat) (w : Watch) : (s.setWatch c w).watch c = w := tget_tset_self ..
theorem watch_setWatch_ne (s : State) {c d : Nat} (h : d ≠ c) (w : Watch) : (s.setWatch c w).watch d = s.watch d :=
  tget_tset_ne h ..

/-- The state in which the comparator is free. -/
def State.cmpFree (s : State) : State := { s with vrd := { s.vrd with comparing := none } }

/-- A comparison that ends frees the comparator, and writes its own context. -/
theorem cmpFinish_rest (s : State) (c : Nat) : (s.cmpFinish c).vrd.comparing = none ∧
    (∀ d, d ≠ c → (s.cmpFinish c).watch d = s.watch d) ∧ { s.cmpFinish c with vrd := {} } = { s with vrd := {} } := by
  have hfree : s.cmpFree.vrd.comparing = none ∧ (∀ d, d ≠ c → s.cmpFree.watch d = s.watch d) ∧
      { s.cmpFree with vrd := {} } = { s with vrd := {} } := ⟨rfl, fun _ _ => rfl, rfl⟩
  unfold State.cmpFinish; dsimp only
  split
  · exact hfree
  · split
    · exact ⟨rfl, fun d hd => watch_setWatch_ne s.cmpFree hd _, rfl⟩
    · split
      · exact hfree
      · exact ⟨rfl, fun d hd => watch_setWatch_ne s.cmpFree hd _, rfl⟩

/-! ### The age monitor -/

/-- The state without the connections, and what records change. -/
def State.sansPlx (s : State) : State := { s.quiet with plx := {} }

theorem sansPlx_of_quiet {s t : State} (h : t.quiet = s.quiet) : t.sansPlx = s.sansPlx := by simp only [State.sansPlx, h]

theorem sansPlx_sendTelegram (s : State) (i typ : Nat) (f : Bool) (p : Bytes) : (s.sendTelegram i typ f p).sansPlx = s.sansPlx := by
  unfold State.sendTelegram; dsimp only
  split
  · rfl
  · refine (view_foldl State.sansPlx _ (fun q m => ?_) ..).trans rfl
    rfl

/-- A context whose trust is withdrawn for its age (R374). -/
def State.distrust (s : State) (c : Nat) : State := s.modWatch c fun w => { w with trusted := false, aged := true }

/-- Watch w after the age monitor has seen it at the time of state s. -/
def State.agedTo (s : State) (w : Watch) : Watch :=
  if w.trusted && s.tooOld w then { w with trusted := false, aged := true } else w

theorem agedTo_agedTo (s : State) (w : Watch) : s.agedTo (s.agedTo w) = s.agedTo w := by
  unfold State.agedTo; split
  · rfl
  · rfl

theorem agedTo_trusted (s : State) (w : Watch) : (s.agedTo w).trusted = (w.trusted && !s.tooOld w) := by
  unfold State.agedTo; split
  · next h => simp_all
  · next h => cases ht : w.trusted <;> simp_all

theorem ageCheck_cases (s : State) (c : Nat) :
    (((s.watch c).trusted && s.tooOld (s.watch c)) = true ∧ (s.ageCheck c).sansPlx = (s.distrust c).sansPlx) ∨
      (¬ ((s.watch c).trusted && s.tooOld (s.watch c)) = true ∧ s.ageCheck c = s) := by
  unfold State.ageCheck; dsimp only
  split
  · next h =>
    refine .inl ⟨by simp [h.1, h.2], (view_foldl State.sansPlx _ (fun q i => sansPlx_sendTelegram ..) _ _).trans ?_⟩
    exact sansPlx_of_quiet (quiet_evidence ..)
  · next h => exact .inr ⟨by simpa using h, rfl⟩

/-- What the age monitor leaves alone: everything but the contexts. -/
def State.sansCtxs (s : State) : State := { s.sansPlx with vrd := { s.vrd with ctxs := [] } }

section
variable {s t : State} (h : t.sansPlx = s.sansPlx)
include h
theorem sansPlx_watch (c : Nat) : t.watch c = s.watch c := (congrArg (fun x : State => x.watch c) h :)
theorem sansPlx_sansCtxs : t.sansCtxs = s.sansCtxs := (congrArg State.sansCtxs h :)
end

theorem sansCtxs_ageCheck (s : State) (c : Nat) : (s.ageCheck c).sansCtxs = s.sansCtxs := by
  rcases ageCheck_cases s c with ⟨-, h⟩ | ⟨-, h⟩
  · exact (sansPlx_sansCtxs h).trans rfl
  · rw [h]

theorem watch_ageCheck_ne (s : State) {c d : Nat} (hd : d ≠ c) : (s.ageCheck c).watch d = s.watch d := by
  rcases ageCheck_cases s c with ⟨-, h⟩ | ⟨-, h⟩
  · exact (sansPlx_watch h d).trans (watch_setWatch_ne s hd _)
  · rw [h]

theorem watch_ageCheck_self (s : State) (c : Nat) : (s.ageCheck c).watch c = s.agedTo (s.watch c) := by
  rcases ageCheck_cases s c with ⟨hold, h⟩ | ⟨hno, h⟩
  · exact ((sansPlx_watch h c).trans (watch_setWatch_self ..)).trans (if_pos hold).symm
  · rw [h]; exact (if_neg hno).symm

section
variable {s t : State} (h : t.sansCtxs = s.sansCtxs)
include h
theorem sansCtxs_agedTo (w : Watch) : t.agedTo w = s.agedTo w := (congrArg (fun x : State => x.agedTo w) h :)
theorem sansCtxs_ageAt : t.vrd.ageAt = s.vrd.ageAt := (congrArg (·.vrd.ageAt) h :)
theorem sansCtxs_shr : t.shr = s.shr := (congrArg State.shr h :)
theorem sansCtxs_pw : t.pw = s.pw := (congrArg State.pw h :)
theorem sansCtxs_glb : t.glb = s.glb := (congrArg State.glb h :)
end

/-- The age monitor over a list of contexts. -/
def State.ageChecks (s : State) (l : List Nat) : State := l.foldl (fun q c => q.ageCheck c) s

theorem sansCtxs_ageChecks (s : State) (l : List Nat) : (s.ageChecks l).sansCtxs = s.sansCtxs :=
  view_foldl State.sansCtxs _ sansCtxs_ageCheck l s

/-- Each listed context has been seen, and no other has changed. -/
theorem watch_ageChecks (c : Nat) : ∀ (l : List Nat) (s : State),
    (s.ageChecks l).watch c = if c ∈ l then s.agedTo (s.watch c) else s.watch c := by
  intro l
  induction l with
  | nil => exact fun s => rfl
  | cons d l ih =>
    intro s
    have hstep : (s.ageChecks (d :: l)).watch c = _ := ih (s.ageCheck d)
    rw [hstep, sansCtxs_agedTo (sansCtxs_ageCheck s d)]
    by_cases hcd : c = d
    · subst hcd
      rw [watch_ageCheck_self, agedTo_agedTo, ite_self, if_pos (List.mem_cons_self ..)]
    · rw [watch_ageCheck_ne s hcd]
      simp only [List.mem_cons, hcd, false_or]

/-- The state in which the age monitor runs. -/
def State.ageing (s : State) : State := { s with vrd := { s.vrd with ageAt := s.tmb.now } }

theorem exec_ageMonitor (dt : Nat) (s : State) : exec (.ageMonitor dt) s = .next ((s.advance dt).ageing.ageChecks s.openCtxs) := rfl

/-- Settles O26. -/
theorem comparisonAndTrust : Obligations.ComparisonAndTrust := by
  refine ⟨fun dt c s => ⟨fun hidle hnext => ?_, fun hbusy => ?_⟩, fun dt c s => ⟨?_, fun hdue => ?_, fun hearly => ?_⟩⟩
  · exact ⟨_, exec_comparisonStart_next hidle hnext, rfl, congrArg Watch.cmpStart (watch_setWatch_self (s.advance dt) c _),
      fun d hd => watch_setWatch_ne (s.advance dt) hd _, rfl⟩
  · have hx : exec (.comparisonDone dt) s = .next ((s.advance dt).cmpFinish c) := by simp [exec, execComparisonDone, hbusy]
    obtain ⟨hfree, hother, hrest⟩ := cmpFinish_rest (s.advance dt) c
    exact ⟨_, hx, hfree, hother, hrest⟩
  · have hrest := sansCtxs_ageChecks (s.advance dt).ageing s.openCtxs
    have hwatch := watch_ageChecks c s.openCtxs (s.advance dt).ageing
    refine ⟨_, exec_ageMonitor dt s, ?_, fun hc => ?_, fun hc => hwatch.trans (if_neg hc), (sansCtxs_shr hrest :),
      (sansCtxs_pw hrest :), (sansCtxs_glb hrest :)⟩
    · rw [sansCtxs_ageAt hrest]; rfl
    · rw [hwatch.trans (if_pos hc)]
      exact ⟨agedTo_trusted .., fun ht hold => congrArg Watch.aged (if_pos (by simp only [Bool.and_eq_true]; exact ⟨ht, hold⟩))⟩
  · have hrest := sansWaiting_heartbeats (s.advance dt).beating s.openCtxs
    refine ⟨_, exec_trustHeartbeat_due hdue, (sansWaiting_vrd hrest).trans rfl, ?_⟩
    exact congrArg (fun t : State => { t with vrd := s.vrd, pch := s.pch }) hrest
  · exact congrArg Host.Outcome.next (if_neg (Nat.not_le.2 hearly))

end Sys2Proof.Machine
end

section
/-! Reports that grow and complete (R129 to R136). -/

namespace Sys2Proof.Machine

/-- A write that the rules accept is in order, and its bytes stand behind those before it (R129 to R132). -/
theorem write_accept {r r1 : Report} {x : RepCtx} {off : Nat} {data : Bytes} {late : Bool} {now mc : Nat}
    (h : r.write x off data false late now mc = .accept r1) :
    off = r.bytes.length ∧ r1.bytes = r.bytes ++ data ∧ r1.code = 1 := by
  unfold Report.write at h
  split at h; · cases h
  split at h; · cases h
  split at h; · cases h
  rw [if_neg Bool.false_ne_true] at h
  split at h; · cases h
  split at h; · cases h
  next hoff =>
  dsimp only at h
  generalize (if 16 ≤ (r.bytes ++ data).length ∧ rd (r.bytes ++ data) 12 4 ≤ x.limit then rd (r.bytes ++ data) 12 4
    else x.limit) = lim at h
  split at h
  · cases h
  · next hnone =>
    have hfits : ¬ lim < (r.bytes ++ data).length := by
      intro hlt
      rw [if_pos hlt] at hnone
      cases hf : reportFail x ((r.bytes ++ data).take lim) _ <;> rw [hf] at hnone <;> simp [lower] at hnone
      split at hnone <;> cases hnone
    obtain rfl := WriteFate.accept.inj h
    exact ⟨by simpa using hoff, List.take_of_length_le (Nat.le_of_not_lt hfits), rfl⟩

/-- The state in which slot i holds report r, after n bytes have passed through its context. -/
def State.tookReport (s : State) (i : Nat) (cov : Bytes) (n : Nat) (r : Report) : State :=
  (s.foldCtx i cov n).modSlot i fun x => { x with rep := r }

theorem slotWrite_accept {s : State} {i off : Nat} {data : Bytes} {r : Report} (htick : s.fr.ticking = true)
    (harmed : s.armed i = true)
    (h : (s.slot i).rep.write (s.slotCtx i) off data false (s.past 0) s.tmb.now s.mc = .accept r) :
    s.slotWrite i off data false = s.tookReport i (coveredPart r (s.slot i).rep.bytes.length) data.length r := by
  simp only [State.slotWrite, htick, harmed, h, Bool.and_self, Bool.not_true, Bool.false_eq_true, if_false]
  rfl

theorem foldCtx_slot (s : State) (k : Nat) (cov : Bytes) (n j : Nat) : (s.foldCtx k cov n).slot j = s.slot j :=
  congrArg (tget · j) (foldCtx_reports s k cov n).1

/-- A golden outcome changes the verdict unit, and what records change. -/
theorem goldOutcome_rest (s : State) (p oc : Nat) :
    { (s.goldOutcome p oc).quiet with vrd := {} } = { s.quiet with vrd := {} } := by
  have hfold := view_foldl (fun q : State => { q.quiet with vrd := {} }) (fun q c => q.modWatch c fun w => w.goldOutcome oc (s.goldDue p c))
    (fun _ _ => rfl) (s.planCtxs p) s
  unfold State.goldOutcome; dsimp only
  rw [quiet_evidence]
  generalize List.foldl _ s (s.planCtxs p) = q at hfold
  exact hfold

theorem reportBusy_rest (s : State) (i : Nat) (b : Bytes) :
    { (s.reportBusy i b).quiet with vrd := {} } = { s.quiet with vrd := {} } := by
  unfold State.reportBusy; split
  · split
    · exact goldOutcome_rest ..
    · rfl
  · rfl

section
variable {s t : State} (h : { t.quiet with vrd := {} } = { s.quiet with vrd := {} })
include h
theorem sansVrd_slot (j : Nat) : t.slot j = s.slot j := (congrArg (fun x : State => x.slot j) h :)
theorem sansVrd_shr : t.shr = s.shr := (congrArg State.shr h :)
theorem sansVrd_mem : t.mem = s.mem := (congrArg State.mem h :)
end

/-- A report that fails changes its own slot, port W's contexts, and the log (R134, R149). -/
theorem failReport_rest (s : State) (i code off : Nat) (r : Report) :
    ((s.failReport i code off r).slot i).rep = { r with code := code, off := off } ∧
      (∀ j, j ≠ i → (s.failReport i code off r).slot j = s.slot j) ∧
      { (s.failReport i code off r).quiet with pw := {} } = { s.quiet with pw := {} } := by
  have hslots : (s.failReport i code off r).pw.slots = tset s.pw.slots i { s.slot i with rep := { r with code := code, off := off }, doneNs := 0xFFFFFFFF } :=
    (congrArg PortW.slots (quiet_pw (quiet_evidence ..)) :)
  refine ⟨?_, fun j hj => ?_, congrArg (fun q : State => { q with pw := {} }) (quiet_evidence ..)⟩
  · rw [State.slot, hslots, tget_tset_self]
  · rw [State.slot, hslots, tget_tset_ne hj]; rfl

/-- The report of slot i is complete (R133, R135). -/
def State.completed (s : State) (i : Nat) : State :=
  s.modSlot i fun x => { x with rep := { (s.slot i).rep with code := 2, off := 0 }, doneNs := sat 32 s.nsSinceTick, doneMc := s.mc }

theorem slotComplete_eq {s : State} {i : Nat} (hcode : (s.slot i).rep.code = 1) (hfull : (s.slot i).rep.full = true)
    (haband : (s.slot i).rep.abandoned = false) (hpast : s.past 0 = false) :
    s.slotComplete i = if checkOk (s.slotCtx i) (s.slot i).rep.bytes ((s.slot i).rep.bytes.length - 48) then
        (s.completed i).reportBusy i (s.slot i).rep.bytes
      else s.failReport i 0x1D ((s.slot i).rep.bytes.length - 48) (s.slot i).rep :=
  if_pos ⟨hcode, hfull, haband, hpast⟩

/-- A report that has taken a write: the write went through port W's context, and nothing else of the device has changed. -/
theorem tookReport_rest (s : State) (i : Nat) (cov : Bytes) (n : Nat) (r : Report) :
    ((s.tookReport i cov n r).slot i).rep = r ∧ (∀ j, j ≠ i → (s.tookReport i cov n r).slot j = s.slot j) ∧
      { s.tookReport i cov n r with pw := s.pw, free := s.free } = s := by
  have hrest := foldCtx_rest s i cov n
  unfold State.tookReport
  refine ⟨?_, fun j hj => (State.modSlot_slot_ne _ _ _ hj).trans (foldCtx_slot ..), ?_⟩
  · exact congrArg Slot.rep (State.modSlot_slot ..)
  · generalize s.foldCtx i cov n = q at hrest ⊢
    exact hrest

/-- Settles O17. -/
theorem reportsGrowAndComplete : Obligations.ReportsGrowAndComplete := by
  refine ⟨fun dt i off data s r hi htick harmed hwrite => ?_, fun dt i s hcode hfull haband hpast => ?_⟩
  · obtain ⟨hoff, hbytes, hcode⟩ := write_accept hwrite
    refine ⟨hoff, hbytes, hcode, ?_⟩
    have hx := slotWrite_accept (s := s.advance dt) htick harmed hwrite
    obtain ⟨hrep, hother, hrest⟩ := tookReport_rest (s.advance dt) i (coveredPart r ((s.advance dt).slot i).rep.bytes.length) data.length r
    generalize State.tookReport _ i _ _ _ = t at hx hrep hother hrest
    exact ⟨t, (exec_reportWindowWrite hi ..).trans (congrArg _ hx), hrep, hother, (congrArg State.aud hrest :),
      (congrArg State.vrd hrest :), (congrArg State.log hrest :), (congrArg State.hst hrest :), (congrArg State.shr hrest :),
      (congrArg State.mem hrest :), (congrArg State.pending hrest :)⟩
  · have hx : exec (.reportComplete dt false i) s = .next ((s.advance dt).slotComplete i) := rfl
    have heq := slotComplete_eq (s := s.advance dt) hcode hfull haband hpast
    refine ⟨fun hok => ?_, fun hbad => ?_⟩
    · have hrest := reportBusy_rest ((s.advance dt).completed i) i ((s.advance dt).slot i).rep.bytes
      have hself : ((s.advance dt).completed i).slot i = _ := State.modSlot_slot ..
      refine ⟨_, hx.trans (congrArg _ (heq.trans (if_pos hok))), ?_, ?_, fun j hj => ?_, (sansVrd_shr hrest :), (sansVrd_mem hrest :)⟩
      · rw [sansVrd_slot hrest, hself]
      · rw [sansVrd_slot hrest, hself]; rfl
      · rw [sansVrd_slot hrest]; exact State.modSlot_slot_ne _ _ _ hj
    · obtain ⟨hrep, hother, hrest⟩ := failReport_rest (s.advance dt) i 0x1D (((s.advance dt).slot i).rep.bytes.length - 48) ((s.advance dt).slot i).rep
      exact ⟨_, hx.trans (congrArg _ (heq.trans (if_neg (by simp only [Bool.not_eq_true]; exact hbad)))), congrArg Report.code hrep,
        hother, hrest⟩

end Sys2Proof.Machine
end

section
/-! The opening mailbox, its openings and their leaves (R238 to R254). -/

namespace Sys2Proof.Machine

/-! ### Contexts and challenges -/

theorem initCtx_rest (s : State) (k stream seq off poly : Nat) :
    { s.initCtx k stream seq off poly with pw := s.pw } = s ∧ (s.initCtx k stream seq off poly).pw.slots = s.pw.slots := ⟨rfl, rfl⟩

theorem chl_setChl_self {s : State} {i : Nat} {c : Challenge} (h : s.chl i = some c) (c' : Challenge) :
    (s.setChl i c').chl i = some c' := by
  have hi : i < s.aud.mbox.entries.length := (List.getElem?_eq_some_iff.mp h).1
  exact List.getElem?_set_self hi

theorem chl_setChl_ne (s : State) {i j : Nat} (h : j ≠ i) (c' : Challenge) : (s.setChl i c').chl j = s.chl j :=
  List.getElem?_set_ne (Ne.symm h)

theorem sansAud_setChl (s : State) (i : Nat) (c : Challenge) : { s.setChl i c with aud := {} } = { s with aud := {} } := rfl

theorem chl_of_aud {s t : State} (h : t.aud = s.aud) (j : Nat) : t.chl j = s.chl j := (congrArg (·.mbox.entries[j]?) h :)

theorem failChallenge_aud {s : State} {i : Nat} {c : Challenge} (h : s.chl i = some c) (code leaf row col acc dev : Nat) :
    (s.failChallenge i code leaf row col acc dev).aud.mbox = (s.setChl i { c with status := code }).aud.mbox ∧
      (s.failChallenge i code leaf row col acc dev).aud.stt = s.aud.stt := by
  unfold State.failChallenge
  rw [h]; dsimp only
  split
  · exact ⟨(congrArg Audit.mbox (quiet_aud (quiet_evidence ..))).trans rfl, (congrArg Audit.stt (quiet_aud (quiet_evidence ..))).trans rfl⟩
  · exact ⟨rfl, rfl⟩

/-- A challenge that fails keeps the code, and no other challenge changes (R260). -/
theorem failChallenge_chl {s : State} {i : Nat} {c : Challenge} (h : s.chl i = some c) (code leaf row col acc dev : Nat) :
    (s.failChallenge i code leaf row col acc dev).chl i = some { c with status := code } ∧
      ∀ j, j ≠ i → (s.failChallenge i code leaf row col acc dev).chl j = s.chl j := by
  have hmbox : ∀ j, (s.failChallenge i code leaf row col acc dev).chl j = (s.setChl i { c with status := code }).chl j :=
    fun j => (congrArg (·.entries[j]?) (failChallenge_aud h ..).1 :)
  exact ⟨(hmbox i).trans (chl_setChl_self h _), fun j hj => (hmbox j).trans (chl_setChl_ne s hj _)⟩

/-! ### The mailbox and its openings -/

/-- Posting changes the mailbox and port W's contexts, and nothing else (R241, R249). -/
theorem mailboxPosted_rest (s : State) : ∃ ns, { s.mailboxPosted with pw := s.pw } =
      { s with aud := { s.aud with mbox := { s.aud.mbox with state := 2, postedAt := s.tmb.now, postedNs := ns } } } ∧
    s.mailboxPosted.pw.slots = s.pw.slots := by
  refine ⟨if s.aud.mbox.entries = [] then 0xFFFFFFFF else sat 32 (s.nsSince 0), ?_⟩
  unfold State.mailboxPosted; dsimp only
  generalize hs1 : ({ s with aud := { s.aud with mbox := { s.aud.mbox with state := 2, postedAt := s.tmb.now, postedNs := _ } } } : State) = s1
  have hpw : s1.pw = s.pw := by rw [← hs1]
  rw [← hpw]
  exact List.foldlRecOn (motive := fun q : State => { q with pw := s1.pw } = s1 ∧ q.pw.slots = s1.pw.slots) _ _ ⟨rfl, rfl⟩
    fun q ⟨hrest, hslots⟩ _ _ => ⟨hrest, hslots⟩

theorem exec_mailboxPosted {dt : Nat} {s : State} (hdraw : s.aud.mbox.state = 1) (hpast : (s.advance dt).past 1 = false) :
    exec (.mailboxPosted dt) s = .next (s.advance dt).mailboxPosted := congrArg Host.Outcome.next (if_pos ⟨hdraw, hpast⟩)

theorem openingWrite_unposted {s : State} {off : Nat} {data : Bytes} (hpast : s.past 1 = false) (hm : s.aud.mbox.state ≠ 2) :
    s.openingWrite off data false = { s with aud := { s.aud with wStale := inc 16 s.aud.wStale } } := by
  simp [State.openingWrite, hpast, hm, State.openingStale]

theorem openingWrite_outside {s : State} {off : Nat} {data : Bytes} (hpast : s.past 1 = false) (hm : s.aud.mbox.state = 2)
    (hout : ∀ c ∈ s.aud.mbox.entries, ¬ (c.openOff ≤ off ∧ off < c.openOff + c.openLen)) :
    s.openingWrite off data false = { s with aud := { s.aud with wOutside := inc 16 s.aud.wOutside } } := by
  have hnone : s.aud.mbox.entries.findIdx? (fun c => c.openOff ≤ off && off < c.openOff + c.openLen) = none :=
    List.findIdx?_eq_none_iff.mpr fun c hc => by simpa using hout c hc
  simp [State.openingWrite, hpast, hm, hnone]

/-- The first write to the only opening that is posted is taken as the beginning of its bytes (R248). -/
theorem openingWrite_first {s : State} {data : Bytes} {c : Challenge} (hpast : s.past 1 = false) (hm : s.aud.mbox.state = 2)
    (hent : s.aud.mbox.entries = [c]) (hst : c.status = 1) (hab : c.abandoned = false) (hb : c.bytes = [])
    (hlen : data.length < c.openLen) (hok : openingFail s 0 { c with bytes := data, status := 2 } data = none) :
    s.openingWrite c.openOff data false =
      (s.foldCtx 129 (slice data 0 (min data.length (c.openLen - 48))) data.length).setChl 0
        { c with bytes := data, status := 2, trailerOk := false } := by
  have hidx : s.aud.mbox.entries.findIdx? (fun d => d.openOff ≤ c.openOff && c.openOff < d.openOff + d.openLen) = some 0 := by
    have : 0 < c.openLen := by omega
    simp [hent, List.findIdx?_cons, this]
  have hc : s.chl 0 = some c := by simp [State.chl, hent]
  have htake : data.take c.openLen = data := List.take_of_length_le hlen.le
  have htrail : (data.length == c.openLen) = false := by simpa using hlen.ne
  have hstale : ¬ (0x10 ≤ c.status ∨ c.abandoned = true) := by simp [hst, hab]
  have hdone : ¬ (c.status = 3 ∨ c.status = 4) := by simp [hst]
  unfold State.openingWrite; dsimp only
  rw [if_neg (by simp [hpast]), if_neg (by simp [hm]), hidx]; dsimp only
  rw [hc]; dsimp only
  rw [if_neg hstale, if_neg Bool.false_ne_true, if_neg (by simp), if_neg hdone, if_neg (by simp [hb])]
  simp only [hb, List.nil_append, htake, Nat.sub_self, Nat.zero_add, if_neg (not_lt.mpr hlen.le), hok, lower, htrail]
  simp [Challenge.verify]

theorem slot_of_slots {s t : State} (h : t.pw.slots = s.pw.slots) (j : Nat) : t.slot j = s.slot j := congrArg (tget · j) h

/-- Settles O20. -/
theorem openingsAreTakenWhilePosted : Obligations.OpeningsAreTakenWhilePosted := by
  refine ⟨fun dt s hdraw hpast => ?_, fun dt off data s hpast => ⟨fun hm => ?_, fun hm hout => ?_, ?_⟩⟩
  · obtain ⟨ns, hrest, hslots⟩ := mailboxPosted_rest (s.advance dt)
    refine ⟨_, exec_mailboxPosted hdraw hpast, ?_⟩
    generalize (s.advance dt).mailboxPosted = t at hrest hslots ⊢
    have haud := congrArg State.aud hrest
    exact ⟨(congrArg (·.mbox.state) haud :), (congrArg (·.mbox.postedAt) haud :), (congrArg (·.mbox.entries) haud :),
      slot_of_slots hslots, (congrArg State.log hrest :), (congrArg State.shr hrest :)⟩
  · exact ⟨_, rfl, openingWrite_unposted hpast hm⟩
  · exact ⟨_, rfl, openingWrite_outside hpast hm hout⟩
  · intro c hm hent hst hab hb hoff hlen _ hok
    subst hoff
    refine ⟨_, congrArg Host.Outcome.next (openingWrite_first (s := s.advance dt) hpast hm hent hst hab hb hlen hok), ?_⟩
    have hrest := foldCtx_rest (s.advance dt) 129 (slice data 0 (min data.length (c.openLen - 48))) data.length
    have hslots := (foldCtx_reports (s.advance dt) 129 (slice data 0 (min data.length (c.openLen - 48))) data.length).1
    generalize State.foldCtx _ _ _ _ = q at hrest hslots ⊢
    have hq : q.aud.mbox.entries = [c] := (congrArg (·.aud.mbox.entries) hrest :).trans hent
    refine ⟨?_, ?_, (congrArg State.log hrest :), slot_of_slots hslots⟩
    · simp [State.setChl, hq]
    · simp [State.setChl, hq]

/-! ### Leaves -/

theorem status_verify_le (c : Challenge) : c.verify.status ≤ max 3 c.status := by
  unfold Challenge.verify; split <;> simp

theorem leaves_verify (c : Challenge) : c.verify.leaves = c.leaves := by
  unfold Challenge.verify; split <;> rfl

section
variable {s : State} {i k : Nat} {c : Challenge} {pl : Plan} {x : LeafAt} (hc : s.chl i = some c)
  (hpl : (s.plan c.plan).active = some pl) (hx : (leafTable pl.img 64 (opened pl.img c.target c.row c.col))[k]? = some x)
  (hopen : s.chlOpen c = true) (hab : c.abandoned = false) (hlen : x.off + 4096 + 32 * tnsDepth pl.img x.tensor ≤ c.bytes.length)
  (hnew : c.leaves.contains k = false)
include hc hpl hx hopen hab hlen hnew

theorem leafVerify_eq : s.leafVerify i k =
    if leafReaches pl.img (s.slot c.slot).rep.bytes c.bytes x then s.setChl i (Challenge.verify { c with leaves := insNat k c.leaves })
    else s.failChallenge i 0x15 k 0xFFFFFFFF 0xFFFFFFFF 0 0 := by
  have hcond : s.chlOpen c ∧ !c.abandoned ∧ x.off + 4096 + 32 * tnsDepth pl.img x.tensor ≤ c.bytes.length ∧ !c.leaves.contains k := by
    exact ⟨hopen, by rw [hab]; rfl, hlen, by rw [hnew]; rfl⟩
  unfold State.leafVerify
  rw [hc]; dsimp only
  rw [hpl]; dsimp only
  rw [hx]; dsimp only
  rw [if_pos hcond]

end

theorem weightsInPlace {dt i : Nat} {s : State} {c : Challenge} (hc : s.chl i = some c) (hm : s.aud.mbox.state = 2)
    (hall : ∀ b ∈ s.aud.mbox.entries.take i, b.weights = true ∨ 0x10 ≤ b.status) :
    exec (.challengeWeightsInPlace dt i) s = .next ((s.advance dt).setChl i { c with weights := true }) := by
  have hc' : (s.advance dt).chl i = some c := hc
  have hcond : (s.advance dt).aud.mbox.state = 2 ∧
      (((s.advance dt).aud.mbox.entries.take i).all fun b => b.weights || decide (0x10 ≤ b.status)) = true :=
    ⟨hm, List.all_eq_true.mpr fun b hb => by simpa using hall b hb⟩
  simp only [exec, execChallengeWeightsInPlace]
  rw [hc']; dsimp only
  rw [if_pos hcond]

theorem exec_drbgReseed {dt : Nat} {s : State} (hinst : s.aud.drbg.instantiated = true) (hpass : s.aud.drbg.testsFail = false) :
    exec (.drbgReseed dt) s = .next { s.advance dt with
      free := s.free + 1, aud := { s.aud with drbg := s.aud.drbg.reseed (Config.freeNat s.free % 2 ^ 256) } } :=
  congrArg Host.Outcome.next (if_pos (by simp [hinst, hpass]))

/-- Settles O21. -/
theorem entropyAndLeaves : Obligations.EntropyAndLeaves := by
  refine ⟨fun dt failing s => ⟨fun hinst hpass => ?_, fun hfail => ?_, _, rfl, rfl⟩,
    fun dt i k s c pl x hc hpl hx hopen hab hlen hnew => ?_⟩
  · exact ⟨_, exec_drbgReseed hinst hpass, ⟨_, Nat.mod_lt _ (by positivity), rfl⟩, rfl, rfl, rfl⟩
  · exact congrArg Host.Outcome.next (if_neg (by simp [hfail]))
  · have hc' : (s.advance dt).chl i = some c := hc
    have heq := leafVerify_eq (s := s.advance dt) hc' hpl hx hopen hab hlen hnew
    refine ⟨fun hreach => ?_, fun hmiss => ?_, fun hm hall => ?_⟩
    · refine ⟨_, _, congrArg Host.Outcome.next (heq.trans (if_pos hreach)), chl_setChl_self hc' _, ?_, status_verify_le _,
        fun j hj => chl_setChl_ne _ hj _, rfl⟩
      rw [leaves_verify]
      exact mem_insNat_self ..
    · obtain ⟨hself, hne⟩ := failChallenge_chl hc' 0x15 k 0xFFFFFFFF 0xFFFFFFFF 0 0
      exact ⟨_, _, congrArg Host.Outcome.next (heq.trans (if_neg (by rw [Bool.not_eq_true]; exact hmiss))), hself, rfl, hne⟩
    · exact ⟨_, _, weightsInPlace hc hm hall, chl_setChl_self hc' _, rfl, fun j hj => chl_setChl_ne _ hj _, rfl⟩

end Sys2Proof.Machine
end

section
/-! The Stoat engines: units, comparisons and faults (R198 to R201, R216 to R220, R255 to R270). -/

namespace Sys2Proof.Machine

/-! ### What is beside the engines -/

theorem modEng_mbox (s : State) (e : Nat) (f : Engine → Engine) : (s.modEng e f).aud.mbox = s.aud.mbox := rfl
theorem modEng_plan (s : State) (e : Nat) (f : Engine → Engine) (p : Nat) : (s.modEng e f).plan p = s.plan p := rfl
theorem modEng_chl (s : State) (e : Nat) (f : Engine → Engine) (i : Nat) : (s.modEng e f).chl i = s.chl i := rfl
theorem eng_of_stt {s t : State} (h : t.aud.stt = s.aud.stt) (e : Nat) : t.eng e = s.eng e := (congrArg (fun x : Stoat => tget x.engines e) h :)

/-- An engine in service without a unit takes the ready one (R255). -/
theorem dispatch_eq {s : State} {e : Nat} {u : SttUnit} (he : e < 17) (hserv : (s.eng e).st = .service)
    (hfree : (s.eng e).busy = none) (hnext : s.nextUnit = some u) :
    (s.dispatch e).aud.stt.engines = tmod s.aud.stt.engines e (fun x => { x with busy := some u }) ∧
      (s.dispatch e).aud.mbox = s.aud.mbox ∧ { s.dispatch e with aud := {} } = { s with aud := {} } := by
  unfold State.dispatch
  rw [if_pos ⟨hserv, hfree, he⟩, hnext]; dsimp only
  split
  · exact ⟨rfl, rfl, rfl⟩
  · split <;> exact ⟨rfl, rfl, rfl⟩

/-! ### Tiles -/

theorem challengePass_rest (s : State) (p : Nat) :
    (s.challengePass p).aud.mbox = s.aud.mbox ∧ (s.challengePass p).aud.stt = s.aud.stt ∧
      { s.challengePass p with aud := {} } = { s with aud := {} } := by
  unfold State.challengePass; dsimp only
  split <;> exact ⟨rfl, rfl, rfl⟩

section
variable {s : State} {i : Nat} {c : Challenge} {pl : Plan} (hc : s.chl i = some c) (hpl : (s.plan c.plan).active = some pl)
  (hst : c.status = 3) (hpast : s.past 1 = false)
include hc hpl hst hpast

theorem tileDone_of_none (hok : tileFails pl.img pl.wimg c.bytes (leafTable pl.img 64 (opened pl.img c.target c.row c.col))
    c.target c.row c.col = none) : s.tileDone i = (s.setChl i { c with status := 4 }).challengePass c.plan := by
  unfold State.tileDone
  rw [hc]; dsimp only
  rw [hpl]; dsimp only
  rw [if_pos ⟨hst, hpast⟩, hok]

theorem tileDone_of_some {r k acc dev : Nat} (hbad : tileFails pl.img pl.wimg c.bytes
    (leafTable pl.img 64 (opened pl.img c.target c.row c.col)) c.target c.row c.col = some (r, k, acc, dev)) :
    s.tileDone i = s.failChallenge i (if tgt pl.img c.target 13 1 = 0 then 0x16 else 0x17) 0xFFFF r k acc dev := by
  unfold State.tileDone
  rw [hc]; dsimp only
  rw [hpl]; dsimp only
  rw [if_pos ⟨hst, hpast⟩, hbad]

/-- A tile whose recomputed elements all agree passes (R257, R261). -/
theorem tileDone_pass (hok : tileFails pl.img pl.wimg c.bytes (leafTable pl.img 64 (opened pl.img c.target c.row c.col))
      c.target c.row c.col = none) :
    (s.tileDone i).chl i = some { c with status := 4 } ∧ (∀ j, j ≠ i → (s.tileDone i).chl j = s.chl j) ∧
      (s.tileDone i).aud.stt = s.aud.stt ∧ { s.tileDone i with aud := {} } = { s with aud := {} } := by
  have heq := tileDone_of_none hc hpl hst hpast hok
  obtain ⟨hmbox, hstt, hrest⟩ := challengePass_rest (s.setChl i { c with status := 4 }) c.plan
  have hchl : ∀ j, (s.tileDone i).chl j = (s.setChl i { c with status := 4 }).chl j := fun j => by
    rw [heq]; exact congrArg (·.entries[j]?) hmbox
  refine ⟨(hchl i).trans (chl_setChl_self hc _), fun j hj => (hchl j).trans (chl_setChl_ne s hj _), ?_, ?_⟩
  · rw [heq]; exact hstt
  · rw [heq]; exact hrest

/-- A tile with an element that does not agree fails its challenge (R258). -/
theorem tileDone_fail (hbad : tileFails pl.img pl.wimg c.bytes (leafTable pl.img 64 (opened pl.img c.target c.row c.col))
      c.target c.row c.col ≠ none) :
    ∃ code, (code = 0x16 ∨ code = 0x17) ∧ (s.tileDone i).chl i = some { c with status := code } ∧
      (∀ j, j ≠ i → (s.tileDone i).chl j = s.chl j) ∧ (s.tileDone i).aud.stt = s.aud.stt := by
  obtain ⟨⟨r, k, acc, dev⟩, hr⟩ := Option.ne_none_iff_exists'.mp hbad
  have heq := tileDone_of_some hc hpl hst hpast hr
  rw [heq]
  obtain ⟨hself, hne⟩ := failChallenge_chl hc (if tgt pl.img c.target 13 1 = 0 then 0x16 else 0x17) 0xFFFF r k acc dev
  refine ⟨_, ?_, hself, hne, (failChallenge_aud hc ..).2⟩
  split
  · exact .inl rfl
  · exact .inr rfl

end

theorem unitEnds_eng (s : State) (e : Nat) : (s.unitEnds e).eng e = { s.eng e with busy := none, units := inc 32 (s.eng e).units } :=
  State.modEng_eng ..

theorem exec_challengeTileDone {dt e i : Nat} {s : State} (hbusy : (s.eng e).busy = some (.tile i)) :
    exec (.challengeTileDone dt e) s = .next (((s.advance dt).unitEnds e).tileDone i) := by
  have hb : ((s.advance dt).eng e).busy = some (.tile i) := hbusy
  simp only [exec, execChallengeTileDone]
  rw [hb]

/-! ### Audit blocks -/

/-- The plan slot p without what a comparison changes. -/
def PlanSlot.uncompared (x : PlanSlot) : PlanSlot :=
  { x with layers := [], code := 0, firstLayer := 0, firstVec := 0, firstCol := 0, records := 0 }

/-- What the comparisons of plan slot p leave unchanged. -/
def State.besidesComparisons (s : State) (p : Nat) : PlanSlot × Mailbox × Stoat × Shroud × Memory :=
  ((s.plan p).uncompared, s.aud.mbox, s.aud.stt, s.shr, s.mem)

theorem besidesComparisons_of_quiet {s t : State} (h : t.quiet = s.quiet) (p : Nat) :
    t.besidesComparisons p = s.besidesComparisons p := (congrArg (State.besidesComparisons · p) h :)

theorem besidesComparisons_modPlan (s : State) (p : Nat) {f : PlanSlot → PlanSlot} (hf : ∀ x, (f x).uncompared = x.uncompared) :
    (s.modPlan p f).besidesComparisons p = s.besidesComparisons p := by
  have h : (s.modPlan p f).plan p = f (s.plan p) := State.modPlan_plan ..
  simp only [State.besidesComparisons, h, hf]
  rfl

theorem besidesComparisons_takeComparison (s : State) (p l prof : Nat) (c : Comparison) :
    (s.takeComparison p l prof c).besidesComparisons p = s.besidesComparisons p := by
  unfold State.takeComparison; dsimp only
  split
  · exact (besidesComparisons_of_quiet (quiet_evidence ..) p).trans (besidesComparisons_modPlan s p fun _ => rfl)
  · exact besidesComparisons_modPlan s p fun _ => rfl

theorem auditShareEnd_rest (s : State) (p total : Nat) :
    ((s.auditShareEnd p total).plan p).doneBlks = (s.plan p).doneBlks ∧ (s.auditShareEnd p total).aud.mbox = s.aud.mbox ∧
      (s.auditShareEnd p total).aud.stt = s.aud.stt ∧ (s.auditShareEnd p total).shr = s.shr ∧
      (s.auditShareEnd p total).mem = s.mem := by
  unfold State.auditShareEnd; dsimp only
  split; · exact ⟨rfl, rfl, rfl, rfl, rfl⟩
  split <;> refine ⟨?_, rfl, rfl, rfl, rfl⟩ <;> simp only [State.modPlan_plan]

theorem auditBlock_rest {s : State} {p idx : Nat} {pl : Plan} {b : Nat × Nat × Nat} (hpl : (s.plan p).active = some pl)
    (hb : (planBlocks pl.img)[idx]? = some b) (hrun : (s.plan p).running = true) (hpast : s.past 1 = false) :
    ((s.auditBlock p idx).plan p).doneBlks = (s.plan p).doneBlks + 1 ∧ (s.auditBlock p idx).aud.mbox = s.aud.mbox ∧
      (s.auditBlock p idx).aud.stt = s.aud.stt ∧ (s.auditBlock p idx).shr = s.shr ∧ (s.auditBlock p idx).mem = s.mem := by
  obtain ⟨l, j, n⟩ := b
  unfold State.auditBlock; dsimp only
  rw [hpl]; dsimp only
  rw [hb]; dsimp only
  rw [if_neg (by simp [hrun, hpast])]
  generalize compareBlock _ _ _ _ _ = cs
  have hfold := view_foldl (State.besidesComparisons · p) (fun q c => q.takeComparison p l (lyrProf pl.img l) c)
    (fun q c => besidesComparisons_takeComparison q p l _ c) cs s
  generalize List.foldl _ s cs = q at hfold ⊢
  generalize hr : q.modPlan p _ = r
  obtain ⟨hblks, hmbox, hstt, hshr, hmem⟩ := auditShareEnd_rest r p (planBlocks pl.img).length
  have hplan : (r.plan p).doneBlks = (q.plan p).doneBlks + 1 := by rw [← hr, State.modPlan_plan]
  have hq : (q.plan p).doneBlks = (s.plan p).doneBlks := (congrArg (·.1.doneBlks) hfold :)
  refine ⟨by rw [hblks, hplan, hq], hmbox.trans ?_, hstt.trans ?_, hshr.trans ?_, hmem.trans ?_⟩ <;> rw [← hr]
  · exact (congrArg (·.2.1) hfold :)
  · exact (congrArg (·.2.2.1) hfold :)
  · exact (congrArg (·.2.2.2.1) hfold :)
  · exact (congrArg (·.2.2.2.2) hfold :)

theorem exec_auditBlockDone {dt e p idx : Nat} {s : State} (hbusy : (s.eng e).busy = some (.block p idx)) :
    exec (.auditBlockDone dt e) s = .next (((s.advance dt).unitEnds e).auditBlock p idx) := by
  have hb : ((s.advance dt).eng e).busy = some (.block p idx) := hbusy
  simp only [exec, execAuditBlockDone]
  rw [hb]

/-- Settles O22. -/
theorem enginesComputeUnits : Obligations.EnginesComputeUnits := by
  refine ⟨fun dt e s => ⟨fun u he hserv hfree hnext => ?_, fun i c pl hbusy hc hpl hst hpast => ⟨fun hok => ?_, fun hbad => ?_⟩⟩,
    fun dt e p idx s pl b hbusy hpl hb hrun hpast => ?_⟩
  · obtain ⟨heng, hmbox, hrest⟩ := dispatch_eq (s := s.advance dt) he hserv hfree hnext
    refine ⟨_, rfl, ?_⟩
    generalize State.dispatch _ _ = t at heng hmbox hrest
    refine ⟨?_, fun j hj => ?_, hmbox, hrest⟩
    · rw [State.eng, heng]; exact congrArg Engine.busy (tget_tset_self ..)
    · rw [State.eng, heng]; exact tget_tset_ne hj ..
  · obtain ⟨hself, hne, hstt, hrest⟩ := tileDone_pass (s := (s.advance dt).unitEnds e) hc hpl hst hpast hok
    exact ⟨_, _, exec_challengeTileDone hbusy, hself, rfl, by rw [eng_of_stt hstt, unitEnds_eng], hne, hrest⟩
  · obtain ⟨code, hcode, hself, hne, hstt⟩ := tileDone_fail (s := (s.advance dt).unitEnds e) hc hpl hst hpast hbad
    exact ⟨_, _, exec_challengeTileDone hbusy, hself, hcode, by rw [eng_of_stt hstt, unitEnds_eng], hne⟩
  · obtain ⟨hblks, hmbox, hstt, hshr, hmem⟩ := auditBlock_rest (s := (s.advance dt).unitEnds e) hpl hb hrun hpast
    refine ⟨_, exec_auditBlockDone hbusy, ?_, ?_, hblks, hmbox, hshr, hmem⟩ <;> rw [eng_of_stt hstt, unitEnds_eng]
    rfl

/-! ### Faults -/

/-- A column's residue unit agrees with the column: both are the sum of the products modulo 63 (R216). -/
theorem residueOf_eq (ps : List (Int × Int)) : residueOf ps = columnResidue (ps.map fun p => p.1 * p.2) := by
  have hfold : ∀ (l : List (Int × Int)) (a b : Int), a % 63 = b % 63 →
      (l.foldl (fun r (x, y) => r + x % 63 * (y % 63)) a) % 63 = ((l.map fun p => p.1 * p.2).foldl (· + ·) b) % 63 := by
    intro l
    induction l with
    | nil => exact fun _ _ h => h
    | cons p l ih =>
      intro a b h
      refine ih _ _ ?_
      rw [Int.add_emod, h, ← Int.mul_emod, ← Int.add_emod]
  exact hfold ps 0 0 rfl

theorem exec_engineFault_agrees (dt e col : Nat) {kind : Nat} {got want : Int} (hkind : kind ≤ 3)
    (hsame : if kind = 1 then got % 63 = want % 63 else got = want) (s : State) :
    exec (.engineFault dt e kind col got want) s = .next (s.advance dt) := by
  refine congrArg Host.Outcome.next (if_neg fun ⟨_, _, _, hdiff⟩ => ?_)
  by_cases hk : kind = 1
  · rw [if_pos hk] at hsame hdiff
    simp [hsame] at hdiff
  · rw [if_neg hk] at hsame
    rw [if_neg hk, if_pos hkind] at hdiff
    simp [hsame] at hdiff

theorem exec_engineFault_differs {dt e kind col : Nat} {got want : Int} {s : State} (he : e < 17) (h1 : 1 ≤ kind) (h5 : kind ≤ 5)
    (hres : kind = 1 → got % 63 ≠ want % 63) (hdup : kind = 2 ∨ kind = 3 → got ≠ want) :
    exec (.engineFault dt e kind col got want) s = .next ((s.advance dt).engineFault e kind (col % 32)) := by
  refine congrArg Host.Outcome.next (if_pos ⟨he, h1, h5, ?_⟩)
  split
  · simpa using hres ‹_›
  · split
    · simpa using hdup (by omega)
    · rfl

theorem st_spareEng {s : State} {sp : Nat} (h : s.spareEng = some sp) : (s.eng sp).st = .spare := by
  simpa using List.find?_some h

/-- A counted and recorded fault marks its engine, and no other engine and no unit changes (R219). -/
theorem faultSeen_rest (s : State) (e kind col : Nat) :
    (((s.countFault e kind col).engineRecord e kind col).eng e).busy = (s.eng e).busy ∧
      (((s.countFault e kind col).engineRecord e kind col).eng e).kind = kind ∧
      ((s.countFault e kind col).engineRecord e kind col).glb = s.glb := by
  have heng : ∀ j, ((s.countFault e kind col).engineRecord e kind col).eng j = (s.countFault e kind col).eng j := fun j =>
    eng_of_stt (congrArg Audit.stt (quiet_aud (quiet_evDev ..))) j
  have hself : (s.countFault e kind col).eng e =
      { s.eng e with kind := kind, column := col, faults := inc 16 (s.eng e).faults, faultTime := s.tmb.now } :=
    State.modEng_eng s e fun y => { y with kind := kind, column := col, faults := inc 16 y.faults, faultTime := s.tmb.now }
  refine ⟨?_, ?_, (quiet_glb (quiet_evDev (s.countFault e kind col) ..)).trans rfl⟩ <;> rw [heng, hself]

/-- The unit of an engine goes ahead of the waiting ones (R220). -/
theorem repeatUnit_rest (s : State) (e : Nat) :
    (s.repeatUnit e).eng e = { s.eng e with busy := none } ∧ (s.repeatUnit e).glb = s.glb ∧
      ∀ u, (s.eng e).busy = some u → u ∈ (s.repeatUnit e).aud.stt.again := by
  unfold State.repeatUnit
  split
  · next hb => exact ⟨by rw [← hb], rfl, fun u hu => by rw [hb] at hu; cases hu⟩
  · next v hv =>
    refine ⟨State.modEng_eng .., rfl, fun u hu => ?_⟩
    obtain rfl := Option.some.inj (hv.symm.trans hu)
    exact List.mem_append_right _ (List.mem_singleton_self _)

/-- The spare engine takes the place of engine e, which is retested (R266). -/
def State.swapped (s : State) (e sp : Nat) : State :=
  (((((s.repeatUnit e).modEng e fun y => { y with st := .retest }).requestRetest (engElem e)).useSpare sp).modStt
    fun t => { t with swap := true, swapFrom := e, swaps := inc 16 t.swaps }).repairBegins (engElem e)

theorem engineFault_swaps {s : State} {e sp : Nat} (kind col : Nat) (hserv : (s.eng e).st = .service) (hdeg : s.glb.st ≠ .degraded)
    (hrep : s.glb.repairs = []) (hsp : s.spareEng = some sp) :
    s.engineFault e kind col = ((s.countFault e kind col).engineRecord e kind col).swapped e sp := by
  unfold State.engineFault; dsimp only
  rw [hserv]; dsimp only
  rw [if_neg (by simp [hdeg, hrep]), hsp]
  rfl

theorem requestRetest_aud (s : State) (k : Nat) : (s.requestRetest k).aud = s.aud := by
  unfold State.requestRetest; dsimp only; split <;> rfl

theorem requestRetest_shr (s : State) (k : Nat) : (s.requestRetest k).shr = s.shr := by
  unfold State.requestRetest; dsimp only; split <;> rfl

theorem swapped_rest (s : State) {e sp : Nat} (hne : sp ≠ e) :
    (s.swapped e sp).eng e = { s.eng e with busy := none, st := .retest } ∧ ((s.swapped e sp).eng sp).st = .service ∧
      (s.swapped e sp).aud.stt.swap = true ∧ (s.swapped e sp).glb.st = s.glb.st ∧
      ∀ u, (s.eng e).busy = some u → u ∈ (s.swapped e sp).aud.stt.again := by
  obtain ⟨heng, hglb, hagain⟩ := repeatUnit_rest s e
  unfold State.swapped
  generalize s.repeatUnit e = q at heng hglb hagain ⊢
  have hq : (q.modEng e fun y => { y with st := .retest }).eng e = { s.eng e with busy := none, st := .retest } := by
    rw [State.modEng_eng, heng]
  have hq' : (q.modEng e fun y => { y with st := .retest }).aud.stt.again = q.aud.stt.again := rfl
  have hg : (q.modEng e fun y => { y with st := .retest }).glb = q.glb := rfl
  generalize q.modEng e _ = r at hq hq' hg ⊢
  have hr := requestRetest_aud r (engElem e)
  have hrg := glb_requestRetest r (engElem e)
  generalize r.requestRetest _ = v at hr hrg ⊢
  refine ⟨?_, ?_, rfl, ?_, fun u hu => ?_⟩
  · have h1 : (v.useSpare sp).eng e = v.eng e := State.modEng_eng_ne _ _ _ hne.symm
    exact h1.trans ((congrArg (fun a : Audit => tget a.stt.engines e) hr).trans hq)
  · have h1 : (v.useSpare sp).eng sp = _ := State.modEng_eng ..
    exact congrArg Engine.st h1
  · exact (congrArg Glb.st (hrg.trans (hg.trans hglb)) :)
  · have h1 : v.aud.stt.again = q.aud.stt.again := (congrArg (·.stt.again) hr).trans hq'
    exact h1 ▸ hagain u hu

/-- A SHA3 engine that disagrees with its shadow is isolated and retested (R270). -/
theorem sha3Mismatch_eq {s : State} {k : Nat} (hretest : s.aud.stt.sha3Retest.contains k = false)
    (hfailed : s.aud.stt.sha3Failed.contains k = false) (hdeg : s.glb.st ≠ .degraded) (hrep : s.glb.repairs = []) :
    s.sha3Mismatch k = ((((s.modStt fun t => { t with sha3Retest := insNat k t.sha3Retest, sha3Faults := inc 8 t.sha3Faults }).engineRecord
      k 0x10 0).requestRetest (shaElem k)).repairBegins (shaElem k)) := by
  unfold State.sha3Mismatch; dsimp only
  rw [if_neg (by rw [hretest, hfailed]; exact Bool.false_ne_true), if_neg (by simp [hdeg, hrep])]

/-- Settles O23. -/
theorem faultyEnginesAreIsolated : Obligations.FaultyEnginesAreIsolated := by
  intro dt e kind col s hdeg hrep
  refine ⟨fun sp got want he h1 h5 hres hdup hserv hsp => ?_, fun v => ⟨?_, ?_, ?_⟩, fun ps => ?_, fun k hk hretest hfailed => ?_⟩
  · have hx := exec_engineFault_differs (dt := dt) (col := col) (s := s) he h1 h5 hres hdup
    rw [engineFault_swaps (s := s.advance dt) kind (col % 32) hserv hdeg hrep hsp] at hx
    have hne : sp ≠ e := fun h => by
      have := st_spareEng hsp
      rw [h, hserv] at this
      cases this
    obtain ⟨hbusy, hkind, hglb⟩ := faultSeen_rest (s.advance dt) e kind (col % 32)
    generalize State.engineRecord _ e kind _ = q at hx hbusy hkind hglb
    obtain ⟨heng, hspst, hswap, hst, hagain⟩ := swapped_rest q hne
    exact ⟨_, hx, congrArg Engine.st heng, congrArg Engine.busy heng, (congrArg Engine.kind heng).trans hkind, hspst, hswap,
      hst.trans (congrArg Glb.st hglb), fun u hu => hagain u (hbusy.trans hu)⟩
  · exact exec_engineFault_agrees dt e col (by decide) (by simp) s
  · exact exec_engineFault_agrees dt e col (by decide) (by simp) s
  · exact exec_engineFault_agrees dt e col (by decide) (by simp) s
  · exact exec_engineFault_agrees dt e col (by decide) (by simp [residueOf_eq]) s
  · have hx : exec (.sha3Mismatch dt k) s = .next ((s.advance dt).sha3Mismatch k) := congrArg Host.Outcome.next (if_pos hk)
    rw [sha3Mismatch_eq (s := s.advance dt) hretest hfailed hdeg hrep] at hx
    refine ⟨_, hx, ?_⟩
    have hmem : k ∈ ((s.advance dt).modStt fun t => { t with sha3Retest := insNat k t.sha3Retest, sha3Faults := inc 8 t.sha3Faults }).aud.stt.sha3Retest :=
      mem_insNat_self ..
    have hrest : ((s.advance dt).modStt fun t => { t with sha3Retest := insNat k t.sha3Retest, sha3Faults := inc 8 t.sha3Faults }).aud.mbox = s.aud.mbox ∧
        ((s.advance dt).modStt fun t => { t with sha3Retest := insNat k t.sha3Retest, sha3Faults := inc 8 t.sha3Faults }).shr = s.shr ∧
        ((s.advance dt).modStt fun t => { t with sha3Retest := insNat k t.sha3Retest, sha3Faults := inc 8 t.sha3Faults }).glb = s.glb :=
      ⟨rfl, rfl, rfl⟩
    generalize State.modStt _ _ = q at hmem hrest ⊢
    obtain ⟨hmbox, hshr, hglb⟩ := hrest
    have hquiet : (q.engineRecord k 0x10 0).quiet = q.quiet := quiet_evDev ..
    generalize q.engineRecord k 0x10 0 = r at hquiet ⊢
    have haud := (requestRetest_aud r (shaElem k)).trans (quiet_aud hquiet)
    refine ⟨?_, ?_, (congrArg Audit.mbox haud).trans hmbox, (requestRetest_shr ..).trans ((quiet_shr hquiet).trans hshr)⟩
    · exact (congrArg (k ∈ ·.stt.sha3Retest) haud).mpr hmem
    · exact (congrArg Glb.st ((glb_requestRetest r (shaElem k)).trans ((quiet_glb hquiet).trans hglb)) :)

end Sys2Proof.Machine
end

section
/-! Sensor frames and shadow passes (R282 to R290, R313, R316, R318). -/

namespace Sys2Proof.Machine

/-! ### Camera frames -/

section
variable {dt r vc : Nat} {lk : CsiLink} {s : State} (hon : s.csiOn r = true) (hlanes : csiLanes lk = true)
include hon hlanes

theorem exec_csiFrameStart_line : exec (.csiFrameStart dt r vc 0 true lk) s = .next ((s.advance dt).modCsi r (·.packet lk 0)) := by
  have hrun : ((s.advance dt).csiOn r && csiLanes lk) = true := by rw [hlanes, Bool.and_true]; exact hon
  exact congrArg Host.Outcome.next (if_pos hrun)

theorem exec_csiFrameEnd_line : exec (.csiFrameEnd dt r vc 0 true lk) s = .next ((s.advance dt).modCsi r (·.packet lk 0)) := by
  have hrun : ((s.advance dt).csiOn r && csiLanes lk) = true := by rw [hlanes, Bool.and_true]; exact hon
  exact congrArg Host.Outcome.next (if_pos hrun)

variable {k : Nat} (hk : s.csiSource r vc = some k) (hing : (s.advance dt).ingesting = true)
include hk hing

theorem exec_csiFrameStart_source : exec (.csiFrameStart dt r vc 0 false lk) s =
    .next (((s.advance dt).modCsi r (·.packet lk 0)).modSource k (·.frameStart)) := by
  have hrun : ((s.advance dt).csiOn r && csiLanes lk) = true := by rw [hlanes, Bool.and_true]; exact hon
  have hk' : ((s.advance dt).modCsi r (·.packet lk 0)).csiSource r vc = some k := hk
  have hing' : ((s.advance dt).modCsi r (·.packet lk 0)).ingesting = true := hing
  simp only [exec, execCsiFrameStart, hrun, if_true]
  rw [if_neg (by decide), if_neg (by decide), hk']
  simp only [hing', Bool.true_or, if_true]

theorem exec_csiFrameEnd_source : exec (.csiFrameEnd dt r vc 0 false lk) s =
    .next (((s.advance dt).modCsi r (·.packet lk 0)).modSource k
      (·.frameEnd (s.cfg.active.srcLines k) (sat 32 ((s.advance dt).modCsi r (·.packet lk 0)).nsSinceTick))) := by
  have hrun : ((s.advance dt).csiOn r && csiLanes lk) = true := by rw [hlanes, Bool.and_true]; exact hon
  have hk' : ((s.advance dt).modCsi r (·.packet lk 0)).csiSource r vc = some k := hk
  have hing' : ((s.advance dt).modCsi r (·.packet lk 0)).ingesting = true := hing
  simp only [exec, execCsiFrameEnd, hrun, if_true]
  rw [if_neg (by decide), if_neg (by decide), hk']
  simp only [hing', if_true]
  rfl

theorem exec_csiLongPacket_source (payload : Bytes) :
    ∃ f, exec (.csiLongPacket dt r vc 0 (s.cfg.active.srcDt k) payload (csiCrc payload) lk) s =
      .next (((s.advance dt).modCsi r f).modSource k
        (·.line (lineBytes (s.cfg.active.srcDt k) (s.cfg.active.srcWidth k)) (s.cfg.active.srcLines k) payload true)) := by
  refine ⟨fun x => { (x.packet lk 0) with crc := if (csiCrc payload == csiCrc payload) || (0 == 2) then x.crc else inc 8 x.crc }, ?_⟩
  have hrun : ((s.advance dt).csiOn r && csiLanes lk) = true := by rw [hlanes, Bool.and_true]; exact hon
  have hk' : ∀ f, ((s.advance dt).modCsi r f).csiSource r vc = some k := fun _ => hk
  have hing' : ∀ f, ((s.advance dt).modCsi r f).ingesting = true := fun _ => hing
  simp only [exec, execCsiLongPacket, hrun, if_true]
  rw [if_neg (by decide), hk']
  simp only [hing', State.advance_fields, beq_self_eq_true, Bool.and_self, if_true]

end

theorem frameStart_first {x : Source} (hcode : x.code = 0) (hst : x.started = false) :
    x.frameStart = { x with code := 1, started := true } := by
  simp [Source.frameStart, hcode, hst]

theorem line_good {x : Source} {lines : Nat} {payload : Bytes} (hcode : x.code = 1) (hst : x.started = true)
    (hign : x.ignoring = false) (hmore : x.lines.length < lines) :
    (x.line payload.length lines payload true).lines = x.lines ++ [payload] := by
  simp [Source.line, hcode, hst, hign, not_le.mpr hmore]

theorem frameEnd_whole {x : Source} {lines : Nat} (ns : Nat) (hcode : x.code = 1) (hst : x.started = true)
    (hall : x.lines.length = lines) :
    (x.frameEnd lines ns).code = 2 ∧ (x.frameEnd lines ns).lines = x.lines := by
  simp [Source.frameEnd, hcode, hst, hall]

/-! ### Lidar datagrams -/

theorem exec_lidarDatagram {dt ago k : Nat} {d : Datagram} {s s1 : State} (hmac : d.mac < 4) (hstep : s.atStep 9 = true)
    (hin : (s.advance dt).macIn d = (s1, true)) (hk : s1.lidarSource d = some k) (hstamp : s1.stampIn ago = true) :
    exec (.lidarDatagram dt d ago) s = .next (s1.modSource k (·.take (parseRecords s1.cfg.active k d.payload))) := by
  have hrun : d.mac < 4 ∧ (s.advance dt).atStep 9 = true := ⟨hmac, hstep⟩
  simp only [exec, execLidarDatagram]
  rw [if_pos hrun, hin]
  simp only [if_true]
  rw [hk]
  simp only [hstamp, if_true]

/-! ### Passes -/

theorem sansBdg_settleInput (s : State) (m : Nat) : { s.settleInput m with bdg := {} } = { s with bdg := {} } := by
  unfold State.settleInput; dsimp only
  split; · rfl
  split
  · split <;> rfl
  · rfl

theorem sansBdg_settleInputs (s : State) : { s.settleInputs with bdg := {} } = { s with bdg := {} } := by
  unfold State.settleInputs
  split
  · exact view_foldl (fun q : State => { q with bdg := {} }) _ (fun q _ => view_foldl (fun q : State => { q with bdg := {} }) _
      sansBdg_settleInput _ q) _ s
  · rfl

/-- What noting one run of operations leaves unchanged, noting those of a pass leaves unchanged (R280). -/
theorem noteLayers_keeps {α : Type} (V : State → α) (hV : ∀ q t mac n, V (q.noteOps t mac n) = V q) (s : State) (m n : Nat) :
    V (s.noteLayers m n) = V s := by
  unfold State.noteLayers; dsimp only
  refine view_foldl V _ (fun q k => ?_) _ s
  split; · rfl
  exact view_foldl V _ (fun q l => view_foldl V _ (fun q i => hV q _ _ _) _ q) _ q

/-- The state without what the tiles hold. -/
def State.sansTiles (s : State) : State := { s with bdg := { s.bdg with tiles := [] } }

theorem exec_shadowPassDone {dt m : Nat} {s : State} (hcode : (s.model m).code = 2) (hpast : (s.advance dt).past 4 = false)
    (hlink : s.die.retraining = none) : exec (.shadowPassDone dt m) s = .next ((s.advance dt).passDone m) := by
  have hrun : ((s.advance dt).model m).code = 2 ∧ (s.advance dt).past 4 = false ∧ (s.advance dt).die.retraining.isNone = true :=
    ⟨hcode, hpast, Option.isNone_iff_eq_none.mpr hlink⟩
  exact congrArg Host.Outcome.next (if_pos hrun)

theorem passDone_rest (s : State) (m : Nat) :
    ((s.passDone m).model m).code = 3 ∧ ((s.passDone m).model m).tileFault = false ∧
      (∀ j, j ≠ m → (s.passDone m).model j = s.model j) ∧
      { s.passDone m with bdg := {}, free := 0 } = { s with bdg := {}, free := 0 } := by
  unfold State.passDone; dsimp only
  generalize s.runPass m _ = p
  have hnote := noteLayers_keeps State.sansTiles (fun _ _ _ _ => rfl) s m (bLayers ((s.model m).active.getD []))
  generalize s.noteLayers m _ = q at hnote ⊢
  refine ⟨congrArg ModelSlot.code (State.modModel_model ..), congrArg ModelSlot.tileFault (State.modModel_model ..),
    fun j hj => (State.modModel_model_ne _ _ _ hj).trans ?_, ?_⟩
  · exact (congrArg (fun x : State => x.model j) hnote :)
  · exact (congrArg (fun x : State => { x with bdg := {}, free := 0 }) hnote :)

theorem exec_shadowPassStart {dt m : Nat} {s : State} (hcan : (s.advance dt).settleInputs.canStart m = true) :
    exec (.shadowPassStart dt m) s = .next ((s.advance dt).settleInputs.passStart m) := congrArg Host.Outcome.next (if_pos hcan)

theorem exec_modelProgrammed {dt m : Nat} {s : State} (h : (s.model m).programming = true) :
    exec (.modelProgrammed dt m) s = .next ((s.advance dt).modModel m fun x => { x with programming := false }) :=
  congrArg Host.Outcome.next (if_pos h)

/-- Settles O24. -/
theorem sensorsAndPasses : Obligations.SensorsAndPasses := by
  refine ⟨fun dt r vc k lk payload s hon hlanes hk hing => ⟨fun hcode hst => ?_, fun hcode hst hign hlen hmore => ?_,
      fun hcode hst hall => ?_, ?_⟩,
    fun dt ago k d s s1 hmac hstep hin hk hstamp => ?_, fun dt m s => ⟨fun hcan => ?_, fun hcode hpast hlink => ?_, fun hprog => ?_⟩⟩
  · have hself := (State.modSource_source ((s.advance dt).modCsi r (·.packet lk 0)) k (·.frameStart)).trans (frameStart_first hcode hst)
    exact ⟨_, exec_csiFrameStart_source hon hlanes hk hing, congrArg Source.code hself, congrArg Source.started hself,
      fun j hj => State.modSource_source_ne _ _ _ hj, rfl⟩
  · obtain ⟨f, hx⟩ := exec_csiLongPacket_source hon hlanes hk hing payload
    rw [← hlen] at hx
    refine ⟨_, hx, ?_, fun j hj => State.modSource_source_ne _ _ _ hj, rfl⟩
    exact (congrArg Source.lines (State.modSource_source ..)).trans (line_good hcode hst hign hmore)
  · have hself := State.modSource_source ((s.advance dt).modCsi r (·.packet lk 0)) k
      (·.frameEnd (s.cfg.active.srcLines k) (sat 32 ((s.advance dt).modCsi r (·.packet lk 0)).nsSinceTick))
    obtain ⟨hdone, hlines⟩ := frameEnd_whole (sat 32 ((s.advance dt).modCsi r (·.packet lk 0)).nsSinceTick) hcode hst hall
    exact ⟨_, exec_csiFrameEnd_source hon hlanes hk hing, (congrArg Source.code hself).trans hdone,
      (congrArg Source.lines hself).trans hlines, fun j hj => State.modSource_source_ne _ _ _ hj, rfl⟩
  · exact ⟨_, exec_csiFrameStart_line hon hlanes, exec_csiFrameEnd_line hon hlanes, rfl, rfl⟩
  · have hself := State.modSource_source s1 k (·.take (parseRecords s1.cfg.active k d.payload))
    refine ⟨_, exec_lidarDatagram hmac hstep hin hk hstamp, congrArg Source.points hself, ?_, fun j hj => State.modSource_source_ne _ _ _ hj, rfl⟩
    rw [hself]
    simp only [Source.take]
    split <;> omega
  · have hrest := sansBdg_settleInputs (s.advance dt)
    refine ⟨_, exec_shadowPassStart hcan, ?_⟩
    generalize (s.advance dt).settleInputs = q at hrest ⊢
    exact ⟨congrArg ModelSlot.code (State.modModel_model ..), (congrArg State.pw hrest :), (congrArg State.vrd hrest :),
      (congrArg State.log hrest :), (congrArg State.shr hrest :)⟩
  · exact ⟨_, exec_shadowPassDone hcode hpast hlink, passDone_rest (s.advance dt) m⟩
  · exact ⟨_, exec_modelProgrammed hprog, congrArg ModelSlot.programming (State.modModel_model ..),
      fun j hj => State.modModel_model_ne _ _ _ hj, rfl⟩

end Sys2Proof.Machine
end

section
/-! Badger's tiles: calibration, reference operations and drift (R279 to R281, R322, R327, R328). -/

namespace Sys2Proof.Machine

/-! ### Calibration -/

theorem exec_calibrationMeasured {dt t mac resid gain off : Nat} {coefs : Coefs} {s : State} (ht : t < 9)
    (hstep : (s.tile t).calStep = .measuring) (hcal : s.bdg.calibrated = true) (hresid : resid ≤ s.calLimit) (hgain : gain ≤ 100)
    (hoff : off ≤ 16) : exec (.calibrationMeasured dt t mac resid gain off coefs) s =
      .next (((s.advance dt).modTile t fun x => { x with resid := sat 8 resid, coefs := coefs }).modTile t
        fun x => { x with calStep := .slice }) := by
  have hrun : t < 9 ∧ ((s.advance dt).tile t).calStep = .measuring ∧ (s.advance dt).bdg.calibrated = true := ⟨ht, hstep, hcal⟩
  have hok : resid ≤ (s.advance dt).calLimit ∧ gain ≤ 100 ∧ off ≤ 16 := ⟨hresid, hgain, hoff⟩
  simp only [exec, execCalibrationMeasured]
  rw [if_pos hrun, if_pos hok]

theorem exec_tileReady {dt t : Nat} (mac : Nat) {s : State} (ht : t < 9) (hstep : (s.tile t).calStep = .programming) :
    exec (.tileReady dt t true mac) s = .next ((s.advance dt).calPass t) := by
  have hrun : t < 9 ∧ ((s.advance dt).tile t).calStep = .programming := ⟨ht, hstep⟩
  simp only [exec, execTileReady]
  rw [if_pos hrun, if_pos trivial]

/-- A tile becomes READY for some role (R322). -/
theorem tileReadyAs_none (s : State) (t : Nat) : ∃ r, s.tileReadyAs t none = s.modTile t fun x => { x with st := .ready, role := r } :=
  ⟨s.nextRole, rfl⟩

/-- A tile of the rotation whose calibration passes is READY (R322). -/
theorem calPass_rest {s : State} {t : Nat} (hcal : (s.tile t).st = .cal) :
    (∃ r, (s.calPass t).tile t = { s.tile t with
      lastCoefs := (s.tile t).coefs, cals := inc 16 (s.tile t).cals, calFrame := s.fr.num, calTime := s.mc, stale := false,
      calStep := .idle, turnFails := 0, st := .ready, role := r }) ∧
    (∀ j, j ≠ t → (s.calPass t).tile j = s.tile j) ∧ { s.calPass t with bdg := {} } = { s with bdg := {} } := by
  unfold State.calPass; dsimp only
  rw [hcal]; dsimp only
  unfold State.tileReadyAs; dsimp only
  refine ⟨?_, fun j hj => ?_, rfl⟩
  · rw [State.modTile_tile, State.modTile_tile]
    exact ⟨_, rfl⟩
  · rw [State.modTile_tile_ne _ _ _ hj, State.modTile_tile_ne _ _ _ hj]

/-- The start-up calibration of a tile that passes (R328). -/
theorem startupTile_pass (s : State) (t resid : Nat) (coefs : List Nat) :
    ((s.startupTile t resid coefs true).tile t).resid = sat 8 resid ∧ ((s.startupTile t resid coefs true).tile t).coefs = coefs ∧
      (∀ j, j ≠ t → (s.startupTile t resid coefs true).tile j = s.tile j) ∧
      { s.startupTile t resid coefs true with bdg := {} } = { s with bdg := {} } := by
  unfold State.startupTile; dsimp only
  rw [if_pos rfl]
  refine ⟨?_, ?_, fun j hj => ?_, rfl⟩
  · rw [State.modTile_tile, State.modTile_tile]
  · rw [State.modTile_tile, State.modTile_tile]
  · rw [State.modTile_tile_ne _ _ _ hj, State.modTile_tile_ne _ _ _ hj]

/-- Each tile of a list passes its start-up calibration. -/
def State.startupTiles (s : State) (resids : List Nat) (coefs : List Coefs) (l : List Nat) : State :=
  l.foldl (fun q t => q.startupTile t (resids.getD t 0) (coefs.getD t []) true) s

theorem startupTiles_tile (s : State) (resids : List Nat) (coefs : List Coefs) {l : List Nat} {t : Nat} (ht : t ∈ l) :
    ((s.startupTiles resids coefs l).tile t).resid = sat 8 (resids.getD t 0) ∧
      ((s.startupTiles resids coefs l).tile t).coefs = coefs.getD t [] := by
  refine foldl_of_mem (P := fun q : State => (q.tile t).resid = sat 8 (resids.getD t 0) ∧ (q.tile t).coefs = coefs.getD t [])
    (fun q u hq => ?_) (fun q => ?_) ht s
  · obtain ⟨hresid, hcoefs, hne, -⟩ := startupTile_pass q u (resids.getD u 0) (coefs.getD u [])
    by_cases h : t = u
    · subst h; exact ⟨hresid, hcoefs⟩
    · rw [hne t h]; exact hq
  · exact ⟨(startupTile_pass ..).1, (startupTile_pass ..).2.1⟩

theorem sansBdg_startupTiles (s : State) (resids : List Nat) (coefs : List Coefs) (l : List Nat) :
    { s.startupTiles resids coefs l with bdg := {} } = { s with bdg := {} } :=
  view_foldl (fun q : State => { q with bdg := {} }) _ (fun _ _ => (startupTile_pass ..).2.2.2) l s

/-- The start-up calibration that all nine tiles pass: the ninth is READY. -/
theorem startupCal_eq (s : State) (resids : List Nat) (coefs : List Coefs) : s.startupCal 511 resids coefs =
    ((s.startupTiles resids coefs (List.range 9)).modBdg fun b =>
      { b with calibrated := true, available := true, rotTime := s.mc }).tileReadyAs 8 none := by
  have hbits : bitList 9 511 = List.range 9 := by decide
  have hpass : List.foldl (fun q t => q.startupTile t (resids.getD t 0) (coefs.getD t []) ((List.range 9).contains t)) s (List.range 9) =
      s.startupTiles resids coefs (List.range 9) :=
    List.foldl_ext _ _ _ fun q t ht => by rw [List.contains_iff_mem.mpr ht]
  have hnone : (List.range 8).find? (fun t => !(List.range 9).contains t) = none := by decide
  have hlen : decide (8 ≤ (List.range 9).length) = true := by decide
  unfold State.startupCal; dsimp only
  rw [hbits, hpass, if_pos (by decide), hnone, hlen]

theorem sansBdg_modTile (s : State) (t : Nat) (f : Tile → Tile) : { s.modTile t f with bdg := {} } = { s with bdg := {} } := rfl
theorem sansBdg_modBdg (s : State) (f : Badger → Badger) : { s.modBdg f with bdg := {} } = { s with bdg := {} } := rfl

theorem tileReadyAs_rest (s : State) (t : Nat) :
    ((s.tileReadyAs t none).tile t).st = .ready ∧ (∀ j, ((s.tileReadyAs t none).tile j).resid = (s.tile j).resid ∧
      ((s.tileReadyAs t none).tile j).coefs = (s.tile j).coefs) ∧ (s.tileReadyAs t none).bdg.calibrated = s.bdg.calibrated ∧
      (s.tileReadyAs t none).bdg.available = s.bdg.available ∧ { s.tileReadyAs t none with bdg := {} } = { s with bdg := {} } := by
  obtain ⟨r, hr⟩ := tileReadyAs_none s t
  rw [hr]
  refine ⟨by rw [State.modTile_tile], fun j => ?_, rfl, rfl, rfl⟩
  by_cases h : j = t
  · rw [h, State.modTile_tile]; exact ⟨rfl, rfl⟩
  · rw [State.modTile_tile_ne _ _ _ h]; exact ⟨rfl, rfl⟩

theorem tile_modBdg {s : State} {f : Badger → Badger} (hf : (f s.bdg).tiles = s.bdg.tiles) (t : Nat) : (s.modBdg f).tile t = s.tile t :=
  congrArg (tget · t) hf

theorem startupCal_all (s : State) (resids : List Nat) (coefs : List Coefs) :
    (∀ t, t < 9 → ((s.startupCal 511 resids coefs).tile t).resid = sat 8 (resids.getD t 0) ∧
      ((s.startupCal 511 resids coefs).tile t).coefs = coefs.getD t []) ∧
    (s.startupCal 511 resids coefs).bdg.calibrated = true ∧ (s.startupCal 511 resids coefs).bdg.available = true ∧
    ((s.startupCal 511 resids coefs).tile 8).st = .ready ∧ { s.startupCal 511 resids coefs with bdg := {} } = { s with bdg := {} } := by
  rw [startupCal_eq]
  have hrest := sansBdg_startupTiles s resids coefs (List.range 9)
  have htiles := fun t (ht : t < 9) => startupTiles_tile s resids coefs (List.mem_range.mpr ht)
  generalize s.startupTiles resids coefs _ = q at htiles hrest ⊢
  obtain ⟨hready, hsame, hcal, havail, hsans⟩ :=
    tileReadyAs_rest (q.modBdg fun b => { b with calibrated := true, available := true, rotTime := s.mc }) 8
  exact ⟨fun t ht => by rw [(hsame t).1, (hsame t).2, tile_modBdg rfl]; exact htiles t ht, hcal, havail, hready,
    hsans.trans ((sansBdg_modBdg ..).trans hrest)⟩

/-! ### Drift -/

theorem exec_referenceOperations {dt t mac : Nat} {ops : List RefOp} {s : State} (ht : t < 9) (hcal : s.bdg.calibrated = true)
    (hlen : ops.length = 1024) (hprog : s.programmed t mac = true) (hfew : (s.advance dt).macroOps t mac < 1024) :
    exec (.referenceOperations dt t mac ops) s = .next (((s.advance dt).noteOps t mac 1024).refBlock t mac ops) :=
  congrArg Host.Outcome.next (if_pos ⟨ht, hcal, hlen, hprog, hfew⟩)

theorem refBlock_within {s : State} (t mac : Nat) {ops : List RefOp} (hlen : ops.length = 1024)
    (hlargest : refLargest ops ≤ s.grossLimit * 2 ^ 10) (hsum : refSum ops ≤ s.driftLimit * 2 ^ 20) :
    s.refBlock t mac ops = s.blockMean t (refSum ops / 2 ^ 20) := by
  unfold State.refBlock; dsimp only
  rw [if_neg (not_lt.mpr hlargest), if_neg fun h => absurd h.2 (not_lt.mpr hsum), if_pos (by simp [hlen])]

/-- What a drift failure reads of the tiles, and what it leaves beside Badger (R327). -/
def State.standing (s : State) : (Nat → TileState × Nat) × Glb × Shroud × Bool :=
  (fun t => ((s.tile t).st, (s.tile t).role), s.glb, s.shr, s.bdg.calibrated)

theorem standing_modTile (s : State) (t : Nat) {f : Tile → Tile} (hf : ∀ x, (f x).st = x.st ∧ (f x).role = x.role) :
    (s.modTile t f).standing = s.standing := by
  have htile : (fun u => (((s.modTile t f).tile u).st, ((s.modTile t f).tile u).role)) = fun u => ((s.tile u).st, (s.tile u).role) := by
    funext u
    by_cases h : u = t
    · subst h; rw [State.modTile_tile, (hf _).1, (hf _).2]
    · rw [State.modTile_tile_ne _ _ _ h]
  simp only [State.standing, htile]
  rfl

theorem standing_of_quiet {s t : State} (h : t.quiet = s.quiet) : t.standing = s.standing := (congrArg State.standing h :)

theorem standing_abandonRole (s : State) (r : Nat) (noTile : Bool) : (s.abandonRole r noTile).standing = s.standing := by
  have hnote : ∀ (q : State) t mac n, (q.noteOps t mac n).standing = q.standing := fun q t _ _ =>
    standing_modTile q t fun _ => ⟨rfl, rfl⟩
  have hmodel : ∀ (q : State) m f, (q.modModel m f).standing = q.standing := fun _ _ _ => rfl
  have hstop : ∀ (q : State) m, (q.stopPass m).1.standing = q.standing := fun q m => by
    unfold State.stopPass; dsimp only [fresh_eq]
    exact (noteLayers_keeps State.standing hnote { q with free := q.free + 1 } m _ :)
  unfold State.abandonRole
  refine view_foldl State.standing _ (fun q m => ?_) _ s
  dsimp only
  split; · rfl
  split; · exact (hmodel ..).trans (hstop ..)
  split; · exact hmodel ..
  rfl

theorem standing_tileRecord (s : State) (t m kind resid : Nat) : (s.tileRecord t m kind resid).standing = s.standing :=
  (standing_of_quiet (quiet_evDev ..)).trans (standing_modTile s t fun _ => ⟨rfl, rfl⟩)

section
variable {s q : State} (h : q.standing = s.standing)
include h
theorem st_of_standing (t : Nat) : (q.tile t).st = (s.tile t).st := (congrArg (fun v => (v.1 t).1) h :)
theorem role_of_standing (t : Nat) : (q.tile t).role = (s.tile t).role := (congrArg (fun v => (v.1 t).2) h :)
theorem glb_of_standing : q.glb = s.glb := (congrArg (·.2.1) h :)
theorem shr_of_standing : q.shr = s.shr := (congrArg (·.2.2.1) h :)
theorem tileIn_of_standing (st : TileState) : q.tileIn st = s.tileIn st := by
  unfold State.tileIn
  simp only [st_of_standing h]
end

/-- The READY tile n takes the role r of the drifting tile t, which is calibrated anew (R327). -/
def State.relieved (s : State) (t n r : Nat) : State :=
  ((((s.abandonRole r false).modTile t fun x => ({ x with st := .recal, stale := false }).beginCal 0).modTile n fun x =>
    { x with st := .active, role := r }).modBdg fun b => { b with swap := true, swapFrom := t }).repairBegins (tileElem t)

theorem driftActive_relieved {s : State} {t n : Nat} (hdeg : s.glb.st ≠ .degraded) (hrep : s.glb.repairs = [])
    (hn : s.tileIn .ready = some n) : s.driftActive t = s.relieved t n (s.tile t).role := by
  unfold State.driftActive; dsimp only
  rw [if_neg (by simp [hdeg, hrep]), hn]
  rfl

theorem relieved_rest (s : State) {t n : Nat} (r : Nat) (hne : t ≠ n) :
    ((s.relieved t n r).tile t).st = .recal ∧ ((s.relieved t n r).tile n).st = .active ∧ ((s.relieved t n r).tile n).role = r ∧
      (s.relieved t n r).bdg.swap = true ∧ (s.relieved t n r).bdg.swapFrom = t ∧ (s.relieved t n r).glb.st = s.glb.st ∧
      (s.relieved t n r).shr = s.shr := by
  have hab := standing_abandonRole s r false
  have hout : ∀ (v : State) j, ((v.modBdg fun b => { b with swap := true, swapFrom := t }).repairBegins (tileElem t)).tile j = v.tile j :=
    fun _ _ => rfl
  unfold State.relieved
  generalize s.abandonRole r false = q at hab ⊢
  refine ⟨?_, ?_, ?_, rfl, rfl, (congrArg Glb.st (glb_of_standing hab) :), (shr_of_standing hab :)⟩
  · rw [hout, State.modTile_tile_ne _ _ _ hne, State.modTile_tile]
    rfl
  · rw [hout, State.modTile_tile]
  · rw [hout, State.modTile_tile]

theorem driftFailure_active {s : State} {t : Nat} (m kind resid : Nat) (hact : (s.tile t).st = .active) :
    s.driftFailure t m kind resid = ((s.modBdg fun b => { b with drift := inc 16 b.drift }).tileRecord t m kind resid).driftActive t := by
  unfold State.driftFailure; dsimp only
  rw [hact, if_neg (by decide)]

/-- A block of a serving tile beyond a limit is a drift failure of it (R279, R281). -/
theorem refBlock_beyond {s : State} {t : Nat} (mac : Nat) {ops : List RefOp} (hact : (s.tile t).st = .active)
    (hbad : s.grossLimit * 2 ^ 10 < refLargest ops ∨ (ops.length = 1024 ∧ s.driftLimit * 2 ^ 20 < refSum ops)) :
    ∃ q : State, q.standing = s.standing ∧ s.refBlock t mac ops = q.driftActive t := by
  have hmean : ∀ mean, (s.blockMean t mean).standing = s.standing := fun _ => standing_modTile s t fun _ => ⟨rfl, rfl⟩
  have hfail : ∀ (q : State) kind resid, q.standing = s.standing → ∃ q' : State, q'.standing = s.standing ∧
      q.driftFailure t mac kind resid = q'.driftActive t := fun q kind resid hq => by
    refine ⟨_, ?_, driftFailure_active mac kind resid ((st_of_standing hq t).trans hact)⟩
    exact (standing_tileRecord ..).trans hq
  have hpre : (if (ops.length == 1024) = true then s.blockMean t (refSum ops / 2 ^ 20) else s).standing = s.standing := by
    split
    · exact hmean _
    · rfl
  unfold State.refBlock; dsimp only
  generalize (if (ops.length == 1024) = true then _ else s) = q at hpre ⊢
  split
  · exact hfail q _ _ hpre
  · next hgross =>
    obtain ⟨hlen, hsum⟩ := hbad.resolve_left hgross
    rw [if_pos ⟨by simp [hlen], hsum⟩]
    exact hfail q _ _ hpre

theorem exec_driftFailure {dt t mac : Nat} {ops : List RefOp} {s : State} (ht : t < 9) (hcal : s.bdg.calibrated = true)
    (hact : (s.tile t).st = .active) : exec (.driftFailure dt t mac ops) s = .next ((s.advance dt).refBlock t mac ops) := by
  have hrun : t < 9 ∧ (s.advance dt).bdg.calibrated = true ∧ ((s.advance dt).tile t).st ≠ .failed := by
    refine ⟨ht, hcal, ?_⟩
    have : ((s.advance dt).tile t).st = .active := hact
    rw [this]; decide
  exact congrArg Host.Outcome.next (if_pos hrun)

/-- Settles O25. -/
theorem tilesAreCalibratedAndDrift : Obligations.TilesAreCalibratedAndDrift := by
  refine ⟨fun dt t mac resid gain off coefs s ht => ⟨fun hstep hcal hresid hgain hoff => ?_, fun hstep hst => ?_,
      fun resids cs hup hcal => ?_⟩,
    fun dt t mac ops s ht hcal => ⟨fun hlen hprog hfew hlargest hsum => ?_, fun n hact hbad hdeg hrep hn => ?_⟩⟩
  · refine ⟨_, exec_calibrationMeasured ht hstep hcal hresid hgain hoff, ?_, ?_, ?_, fun j hj => ?_, rfl⟩
    · rw [State.modTile_tile]
    · rw [State.modTile_tile, State.modTile_tile]
    · rw [State.modTile_tile, State.modTile_tile]
    · rw [State.modTile_tile_ne _ _ _ hj, State.modTile_tile_ne _ _ _ hj]; rfl
  · obtain ⟨⟨r, hself⟩, hne, hrest⟩ := calPass_rest (s := s.advance dt) hst
    exact ⟨_, exec_tileReady mac ht hstep, congrArg Tile.st hself, congrArg Tile.cals hself, congrArg Tile.calStep hself,
      congrArg Tile.lastCoefs hself, hne, hrest⟩
  · obtain ⟨htiles, hcald, havail, hready, hrest⟩ := startupCal_all (s.advance dt) resids cs
    have hx : exec (.startupCalibrationDone dt 511 resids cs) s = .next ((s.advance dt).startupCal 511 resids cs) :=
      congrArg Host.Outcome.next (if_pos ⟨hup, hcal⟩)
    exact ⟨_, hx, (htiles t ht).1, (htiles t ht).2, hcald, havail, hready, hrest⟩
  · refine ⟨_, (exec_referenceOperations ht hcal hlen hprog hfew).trans (congrArg _ (refBlock_within t mac hlen hlargest hsum)), ?_,
      fun j hj => ?_, rfl⟩
    · rw [State.blockMean, State.modTile_tile]
      have hself : (((s.advance dt).noteOps t mac 1024).tile t).drift = ((s.advance dt).tile t).drift ∧
          (((s.advance dt).noteOps t mac 1024).tile t).driftIn = ((s.advance dt).tile t).driftIn := by
        rw [State.noteOps, State.modTile_tile]; exact ⟨rfl, rfl⟩
      simp only [State.tileDrift, hself]
      rfl
    · rw [State.blockMean, State.modTile_tile_ne _ _ _ hj, State.noteOps, State.modTile_tile_ne _ _ _ hj]; rfl
  · have hne : t ≠ n := fun h => by
      have hready : (s.tile n).st = .ready := by simpa using List.find?_some hn
      rw [← h, hact] at hready
      cases hready
    obtain ⟨q, hq, heq⟩ := refBlock_beyond (s := s.advance dt) mac hact hbad
    have hglb : q.glb = s.glb := glb_of_standing hq
    rw [driftActive_relieved (by rw [hglb]; exact hdeg) (by rw [hglb]; exact hrep) ((tileIn_of_standing hq _).trans hn)] at heq
    obtain ⟨hold, hnew, hrole, hswap, hfrom, hst, hshr⟩ := relieved_rest q (q.tile t).role hne
    exact ⟨_, (exec_driftFailure ht hcal hact).trans (congrArg _ heq), hold, hnew, hrole.trans (role_of_standing hq t), hswap, hfrom,
      hst.trans (congrArg Glb.st hglb), hshr.trans (shr_of_standing hq)⟩

end Sys2Proof.Machine
end

section
/-! An edge of PPS_IN in GM_PPS: a sample that steps the count forward, past the boundary of a committed configuration. -/

namespace Sys2Proof.Machine

/-- LOCKED in GM_PPS, 25 µs before a second, after two samples of 25 µs of the same sign; a configuration has been committed
whose boundary, and the next tick, lie within the step; one byte of tier S1 has been written. -/
def beforeStep : State :=
  { tmb := { running := true, valid := true, servo := .locked, role := 2, now := 15999600000, lastSample := some 0,
             big := [400000, 400000] }
    fr := { nextTick := 15999800000 }
    cfg := { next := some {}, boundary := 15999799999 }
    mem := { cells := [(2 * 2 ^ 40, 1)] } }

/-- The third sample of the same sign steps the count (R602), the tick that it passes activates the configuration (R75, R76), and the
bank that this one does not need is switched off with what stands in it (R686). -/
theorem cells_beforeStep : (beforeStep.advance 0).ppsEdge.mem.cells = [] := by decide +kernel

/-- Refutes O16: in GM_PPS an edge is a sample, whose step can activate a configuration that empties a bank of the memory. -/
theorem not_ppsEdgesAndPulses : ¬ Obligations.PpsEdgesAndPulses := by
  rintro ⟨hpps, -⟩
  obtain ⟨haccept, -⟩ := hpps 0 beforeStep rfl
  obtain ⟨t, hrun, -, -, -, -, -, hmem, -⟩ := haccept nofun
  have ht : (beforeStep.advance 0).ppsEdge = t := Host.Outcome.next.inj hrun
  have hcells : (beforeStep.advance 0).ppsEdge.mem.cells = beforeStep.mem.cells := by rw [ht, hmem]
  rw [cells_beforeStep] at hcells
  cases hcells

end Sys2Proof.Machine
end

section
/-! The frame tick and the configuration boundary (R72 to R75, R778): what the edges of a frame and its tick leave unchanged. -/

namespace Sys2Proof.Machine

/-! ### The clockwork: what neither an edge nor the tick changes beside the frame registers -/

/-- Time base, configuration, debug port and frame registers. -/
def State.clockwork (s : State) : TimeBase × CfgBlock × Tack × Frame := (s.tmb, s.cfg, s.tck, s.fr)

/-- The same, but for the edges that have fired. -/
def State.pace (s : State) : TimeBase × CfgBlock × Tack × Frame := (s.tmb, s.cfg, s.tck, { s.fr with fired := [] })

theorem pace_of_clockwork {s t : State} (h : t.clockwork = s.clockwork) : t.pace = s.pace :=
  (congrArg (fun x : TimeBase × CfgBlock × Tack × Frame => (x.1, x.2.1, x.2.2.1, { x.2.2.2 with fired := [] })) h :)

theorem clockwork_of_quiet {s t : State} (h : t.quiet = s.quiet) : t.clockwork = s.clockwork := (congrArg State.clockwork h :)
theorem clockwork_of_sansPlx {s t : State} (h : t.sansPlx = s.sansPlx) : t.clockwork = s.clockwork := (congrArg State.clockwork h :)
theorem clockwork_of_sansBdg {s t : State} (h : { t with bdg := {} } = { s with bdg := {} }) : t.clockwork = s.clockwork :=
  (congrArg State.clockwork h :)
theorem clockwork_of_sansVrd {s t : State} (h : { t.quiet with vrd := {} } = { s.quiet with vrd := {} }) : t.clockwork = s.clockwork :=
  (congrArg State.clockwork h :)
theorem clockwork_evidence (s : State) (k t v c : Nat) (p : Bytes) : (s.evidence k t v c p).clockwork = s.clockwork :=
  clockwork_of_quiet (quiet_evidence ..)
theorem clockwork_evDev (s : State) (k v : Nat) (p : Bytes) : (s.evDev k v p).clockwork = s.clockwork :=
  clockwork_of_quiet (quiet_evDev ..)

theorem clockwork_foldl {α : Type} {f : State → α → State} (hf : ∀ q x, (f q x).clockwork = q.clockwork) (l : List α) (s : State) :
    (l.foldl f s).clockwork = s.clockwork := view_foldl State.clockwork f hf l s

theorem clockwork_ite {c : Prop} [Decidable c] {a b s : State} (ha : a.clockwork = s.clockwork) (hb : b.clockwork = s.clockwork) :
    (if c then a else b).clockwork = s.clockwork := by
  split
  · exact ha
  · exact hb

theorem clockwork_aud (s : State) (x : Audit) : ({ s with aud := x } : State).clockwork = s.clockwork := rfl
theorem clockwork_vrd (s : State) (x : Verdict) : ({ s with vrd := x } : State).clockwork = s.clockwork := rfl

/-! ### D_c -/

theorem clockwork_slotDeadline (s : State) (i : Nat) : (s.slotDeadline i).clockwork = s.clockwork := by
  unfold State.slotDeadline; dsimp only
  exact clockwork_ite (clockwork_evidence ..) (clockwork_ite rfl rfl)

theorem clockwork_auditStart (s : State) (p : Nat) : (s.auditStart p).clockwork = s.clockwork := by
  unfold State.auditStart; dsimp only
  split
  · rfl
  · exact clockwork_ite rfl (clockwork_ite rfl rfl)

theorem clockwork_drawAll (s : State) : s.drawAll.clockwork = s.clockwork := by
  unfold State.drawAll; dsimp only
  refine (clockwork_aud ..).trans ((clockwork_foldl (fun q p => ?_) _ _).trans (clockwork_aud ..))
  split
  · refine clockwork_ite (clockwork_foldl (fun r t => ?_) _ _) rfl
    rfl
  · rfl

theorem clockwork_atDc (s : State) : s.atDc.clockwork = s.clockwork := by
  unfold State.atDc; dsimp only
  refine (clockwork_drawAll _).trans ((clockwork_foldl (fun q p => ?_) _ _).trans (clockwork_foldl (fun q i => ?_) _ _))
  · exact clockwork_auditStart q p
  · exact clockwork_ite (clockwork_slotDeadline q i) rfl

/-! ### D_v -/

theorem clockwork_auditEnd (s : State) (p : Nat) : (s.auditEnd p).clockwork = s.clockwork := by
  unfold State.auditEnd; dsimp only
  have hs : (if (s.plan p).running = true then s.abandoned 3 p
      ((s.plan p).shareHi (s.plan p).pos ((s.plan p).active.elim [] fun pl => planBlocks pl.img).length -
        ((s.plan p).shareLo (s.plan p).pos + (s.plan p).doneBlks)) (s.cfg.active.plnTenant p) else s).clockwork = s.clockwork :=
    clockwork_ite (clockwork_evidence ..) rfl
  generalize (if (s.plan p).running = true then _ else s) = q at hs ⊢
  exact clockwork_ite hs hs

theorem clockwork_challengeEnd (s : State) : s.challengeEnd.clockwork = s.clockwork := by
  unfold State.challengeEnd; dsimp only
  refine (clockwork_aud ..).trans (clockwork_foldl (fun q p => ?_) _ _)
  exact clockwork_ite (clockwork_evidence ..) rfl

theorem clockwork_cmpEnd (s : State) (c : Nat) : (s.cmpEnd c).clockwork = s.clockwork := by
  unfold State.cmpEnd; dsimp only
  split <;> rfl

theorem clockwork_sendTelegram (s : State) (i typ : Nat) (f : Bool) (p : Bytes) : (s.sendTelegram i typ f p).clockwork = s.clockwork :=
  clockwork_of_sansPlx (sansPlx_sendTelegram ..)

theorem clockwork_issue (s : State) (c code t : Nat) : (s.issue c code t).clockwork = s.clockwork := by
  unfold State.issue; dsimp only
  have hpost : ∀ (q : State) fn r n b u, (q.postVerdict fn r n b u).clockwork = q.clockwork := fun _ _ _ _ _ _ =>
    clockwork_of_quiet (quiet_postVerdict ..)
  exact clockwork_ite (hpost ..) ((clockwork_foldl (fun _ _ => clockwork_sendTelegram ..) _ _).trans (hpost ..))

theorem clockwork_escalate (s : State) (c under : Nat) : (s.escalate c under).clockwork = s.clockwork := by
  unfold State.escalate; dsimp only
  exact clockwork_ite (clockwork_evidence ..) rfl

theorem clockwork_verdictOf (s : State) (x : Nat × Nat) : (s.verdictOf x).clockwork = s.clockwork := by
  unfold State.verdictOf; dsimp only
  refine clockwork_ite rfl ?_
  have hissue : ∀ (q : State) c code t, q.clockwork = s.clockwork → ((q.escalate c x.2).issue c code t).clockwork = s.clockwork :=
    fun q c code t hq => (clockwork_issue ..).trans ((clockwork_escalate ..).trans hq)
  refine (clockwork_vrd ..).trans (clockwork_ite ?_ ?_)
  · exact (clockwork_foldl (fun _ _ => clockwork_sendTelegram ..) _ _).trans (hissue _ _ _ _ rfl)
  · exact hissue _ _ _ _ rfl

theorem laneEvent_none (s : State) : s.laneEvent 0 = s := if_pos (.inr (.inl rfl))

theorem clockwork_issueAll (s : State) : (s.issueAll 0).clockwork = s.clockwork := by
  unfold State.issueAll; dsimp only
  rw [laneEvent_none]
  exact (clockwork_foldl clockwork_verdictOf _ _).trans rfl

theorem clockwork_atDv (s : State) : (s.atDv 0).clockwork = s.clockwork := by
  unfold State.atDv; dsimp only
  have hend : ∀ q : State, q.challengeEnd.dropUnits.clockwork = q.clockwork := clockwork_challengeEnd
  exact (clockwork_issueAll _).trans ((clockwork_foldl clockwork_cmpEnd _ _).trans ((hend _).trans (clockwork_foldl clockwork_auditEnd _ _)))

/-! ### ING_END and SHD_END -/

theorem clockwork_settleInputs (s : State) : s.settleInputs.clockwork = s.clockwork := clockwork_of_sansBdg (sansBdg_settleInputs s)

theorem clockwork_ingEnd (s : State) : s.ingEnd.clockwork = s.clockwork := by
  unfold State.ingEnd; dsimp only
  refine (clockwork_settleInputs _).trans (clockwork_foldl (fun q k => ?_) _ _)
  exact clockwork_ite rfl rfl

theorem clockwork_stopPass (s : State) (m : Nat) : (s.stopPass m).1.clockwork = s.clockwork := by
  unfold State.stopPass; dsimp only [fresh_eq]
  exact (noteLayers_keeps State.clockwork (fun _ _ _ _ => rfl) { s with free := s.free + 1 } m _ :)

theorem clockwork_slotShdEnd (s : State) (m : Nat) : (s.slotShdEnd m).clockwork = s.clockwork := by
  unfold State.slotShdEnd; dsimp only
  split
  · rfl
  · have hstop : (if (s.model m).code = 2 then (s.stopPass m).1.abandoned 5 m (s.stopPass m).2 (s.modelTenant m) else s).clockwork =
        s.clockwork := clockwork_ite ((clockwork_evidence ..).trans (clockwork_stopPass ..)) rfl
    generalize (if (s.model m).code = 2 then (s.stopPass m).1.abandoned _ _ _ _ else s) = q at hstop ⊢
    refine clockwork_ite hstop ((clockwork_evidence ..).trans hstop)

theorem clockwork_shdEnd (s : State) : s.shdEnd.clockwork = s.clockwork :=
  (clockwork_foldl clockwork_slotShdEnd _ _).trans (clockwork_settleInputs s)

/-! ### The golden slot -/

theorem clockwork_gldStart (s : State) : s.gldStart.clockwork = s.clockwork := by
  unfold State.gldStart; split <;> rfl

theorem clockwork_gldEnd (s : State) : s.gldEnd.clockwork = s.clockwork := by
  have hgold : ∀ (q : State) p oc, (q.goldOutcome p oc).clockwork = q.clockwork := fun _ _ _ => clockwork_of_sansVrd (goldOutcome_rest ..)
  unfold State.gldEnd; dsimp only
  split
  · rfl
  · split
    · exact clockwork_ite ((hgold ..).trans (clockwork_evidence ..)) (clockwork_evidence ..)
    · exact clockwork_ite (hgold ..) rfl

/-! ### The self-test slot -/

theorem clockwork_modSlf (s : State) (f : SelfTest → SelfTest) : (s.modSlf f).clockwork = s.clockwork := rfl

theorem clockwork_sliceBegins (s : State) (e : Nat) : (s.sliceBegins e).clockwork = s.clockwork := by
  unfold State.sliceBegins
  split
  · exact clockwork_ite rfl rfl
  · rfl
  · unfold State.coreTest
    exact clockwork_ite (clockwork_evDev ..) rfl
  · rfl

theorem clockwork_startL (s : State) (e : Nat) : (s.startL e).clockwork = s.clockwork := clockwork_sliceBegins s e

theorem clockwork_advancePointer (s : State) : s.advancePointer.clockwork = s.clockwork := by
  unfold State.advancePointer; dsimp only
  exact clockwork_ite (clockwork_ite rfl rfl) rfl

theorem clockwork_roundNext (l : List Nat) (s : State) : (State.roundNext l s).clockwork = s.clockwork := by
  induction l generalizing s with
  | nil => exact clockwork_advancePointer s
  | cons e r ih =>
    unfold State.roundNext
    exact clockwork_ite (ih s) (clockwork_ite (ih _) (clockwork_startL s e))

theorem clockwork_startRound (s : State) : s.startRound.clockwork = s.clockwork := by
  have hpost : ∀ reason, (s.postpone reason).clockwork = s.clockwork := fun _ => clockwork_evDev ..
  unfold State.startRound; dsimp only
  exact clockwork_ite (hpost _) (clockwork_ite (clockwork_roundNext ..) (hpost _))

theorem clockwork_nextL (l : List Nat) (s : State) : (State.nextL l s).clockwork = s.clockwork := by
  induction l generalizing s with
  | nil => exact clockwork_ite (clockwork_roundNext ..) (clockwork_startRound s)
  | cons k r ih =>
    unfold State.nextL
    split
    · exact ih s
    · exact clockwork_ite (clockwork_startL ..) (ih s)

theorem clockwork_nextA (s : State) : s.nextA.clockwork = s.clockwork := by
  unfold State.nextA
  split
  · exact clockwork_ite rfl rfl
  · rfl

theorem clockwork_nextC (s : State) : s.nextC.clockwork = s.clockwork := by
  unfold State.nextC
  split
  · exact clockwork_ite (clockwork_sliceBegins ..) rfl
  · rfl

theorem clockwork_slfStart (s : State) : s.slfStart.clockwork = s.clockwork := by
  unfold State.slfStart; dsimp only
  have hseq : ∀ q : State, q.nextC.nextA.clockwork = q.clockwork := fun q => (clockwork_nextA _).trans (clockwork_nextC q)
  exact clockwork_ite rfl (clockwork_ite (hseq _) ((clockwork_nextL ..).trans (hseq _)))

/-! ### Edges -/

theorem clockwork_closeOut (s : State) : s.closeOut.clockwork = s.clockwork := by
  unfold State.closeOut; dsimp only
  have haudit := clockwork_foldl (f := fun q p => if (q.plan p).running = true then q.auditEnd p else q)
    (fun q p => clockwork_ite (clockwork_auditEnd q p) rfl) (List.range 16) s
  generalize List.foldl _ s _ = q at haudit ⊢
  have hchl : (if q.aud.mbox.state = 1 ∨ q.aud.mbox.state = 2 then q.challengeEnd.dropUnits else q).clockwork = s.clockwork :=
    clockwork_ite ((clockwork_challengeEnd q).trans haudit) haudit
  generalize (if q.aud.mbox.state = 1 ∨ q.aud.mbox.state = 2 then q.challengeEnd.dropUnits else q) = r at hchl ⊢
  have hreinit : ∀ v : State, v.laneReinit.clockwork = v.clockwork := fun _ => rfl
  exact (hreinit _).trans (clockwork_ite hchl ((clockwork_shdEnd r).trans hchl))

/-- An edge that fires by itself leaves the pace as it is. -/
theorem pace_fireEdge (s : State) (e : Nat) : (s.fireEdge e 0).pace = s.pace := by
  unfold State.fireEdge; dsimp only
  generalize hq : ({ s with fr := { s.fr with fired := insNat e s.fr.fired } } : State) = q
  have hs : q.pace = s.pace := by rw [← hq]; rfl
  refine Eq.trans (pace_of_clockwork ?_) hs
  split
  · exact clockwork_atDc q
  · exact clockwork_atDv q
  · exact clockwork_ingEnd q
  · exact clockwork_shdEnd q
  · exact clockwork_gldStart q
  · exact clockwork_gldEnd q
  · exact clockwork_slfStart q
  · rfl
  · exact clockwork_closeOut q
  · rfl

theorem pace_edgesBefore (s : State) (t n : Nat) : (s.edgesBefore t n).pace = s.pace := by
  induction n generalizing s with
  | zero => rfl
  | succ n ih =>
    unfold State.edgesBefore
    split
    · split
      · exact (ih _).trans (pace_fireEdge ..)
      · rfl
    · rfl

/-! ### The tick -/

theorem clockwork_slotTick (s : State) (last i : Nat) : (s.slotTick last i).clockwork = s.clockwork := by
  unfold State.slotTick; dsimp only
  exact clockwork_ite rfl rfl

theorem clockwork_auditTick (s : State) (p : Nat) : (s.auditTick p).clockwork = s.clockwork := by
  unfold State.auditTick; split <;> rfl

theorem clockwork_planSwitches (s : State) : s.planSwitches.clockwork = s.clockwork := by
  have hact : ∀ (q : State) p, (q.activatePlan p).clockwork = q.clockwork := fun q p => by
    unfold State.activatePlan; split <;> rfl
  refine clockwork_foldl (fun q p => ?_) _ s
  split
  · exact clockwork_ite (hact q p) rfl
  · rfl

theorem clockwork_raiseThresholds (s : State) (m : Nat) (b : Bytes) : (s.raiseThresholds m b).clockwork = s.clockwork := by
  refine clockwork_foldl (fun q c => ?_) _ s
  exact clockwork_ite (clockwork_evidence ..) rfl

theorem clockwork_modelSwitches (s : State) : s.modelSwitches.clockwork = s.clockwork := by
  have hact : ∀ (q : State) m, (q.activateModel m).clockwork = q.clockwork := fun q m => by
    unfold State.activateModel; dsimp only
    split
    · rfl
    · exact clockwork_raiseThresholds ..
  refine clockwork_foldl (fun q m => ?_) _ s
  split
  · exact clockwork_ite (hact q m) rfl
  · rfl

theorem clockwork_rotate (s : State) : s.rotate.clockwork = s.clockwork := by
  unfold State.rotate
  split
  · exact clockwork_ite rfl rfl
  · rfl

theorem clockwork_goldTick (s : State) : s.goldTick.clockwork = s.clockwork := by
  have hact : ∀ (q : State) p, (q.goldActivate p).clockwork = q.clockwork := fun q p => by
    unfold State.goldActivate; dsimp only
    split <;> rfl
  have hfold := clockwork_foldl (f := fun q p => (q.goldActivate p).modGold p fun g => { g with age := inc 16 g.age, outcome := 0 })
    (fun q p => hact q p) (List.range 16) s
  unfold State.goldTick; dsimp only
  generalize List.foldl _ s _ = q at hfold ⊢
  split <;> exact hfold

theorem pulsesTick_rest (s : State) : s.pulsesTick.fr = s.fr ∧ s.pulsesTick.tck = s.tck := by
  have hstep : ∀ (q : State) p, (fun v : State => (v.fr, v.tck)) (if (q.pulse p).armed && (q.pulse p).mode == 3 then
      q.modPulse p fun x => { x with next := s.fr.tick + x.offset } else q) = (q.fr, q.tck) := fun q p => by
    split <;> rfl
  have hfold := view_foldl (fun v : State => (v.fr, v.tck)) _ hstep (List.range 8) s
  unfold State.pulsesTick
  generalize List.foldl _ s _ = q at hfold ⊢
  exact ⟨congrArg (·.1) hfold, congrArg (·.2) hfold⟩

/-- The frame registers that the tick sets stay for the rest of the tick, and the debug port is not touched (R72, R73). -/
theorem frameTick_rest (s : State) : s.frameTick.fr = s.newFrame.fr ∧ s.frameTick.tck = s.tck := by
  have hslots := clockwork_foldl (f := fun q i => q.slotTick s.fr.num i) (fun q i => clockwork_slotTick q _ i) (List.range 128) s.newFrame
  unfold State.frameTick; dsimp only
  generalize List.foldl _ s.newFrame _ = s2 at hslots ⊢
  have hsources : ∀ f, (s2.modBdg f).clockwork = s2.clockwork := fun _ => rfl
  generalize hs3 : s2.modBdg _ = s3
  have h3 : s3.clockwork = s.newFrame.clockwork := by rw [← hs3, hsources, hslots]
  have hmbox : ∀ q : State, q.mailboxTick.clockwork = q.clockwork := fun _ => rfl
  have h4 := (clockwork_foldl (f := fun q p => q.itemsTick p) (fun _ _ => rfl) (List.range 16)
    ((List.range 16).foldl (fun q p => q.auditTick p) s3).planSwitches.mailboxTick).trans
      ((hmbox _).trans ((clockwork_planSwitches _).trans (clockwork_foldl clockwork_auditTick _ s3)))
  generalize List.foldl _ _ (List.range 16) = s4 at h4 ⊢
  have h6 := (clockwork_goldTick _).trans ((clockwork_foldl (f := fun q m => q.modelTick s.fr.num m) (fun _ _ => rfl) (List.range 4)
    s4.modelSwitches.rotate).trans ((clockwork_rotate _).trans (clockwork_modelSwitches s4)))
  generalize State.goldTick _ = s6 at h6 ⊢
  have h7 := clockwork_foldl (f := fun q c => (q.cmpTick c).modWatch c fun w => { w with
    invalid := w.invalid.filter fun n => decide (s.newFrame.fr.num ≤ n) }) (fun _ _ => rfl) s6.openCtxs s6
  generalize List.foldl _ s6 _ = s7 at h7 ⊢
  have hall := h7.trans (h6.trans (h4.trans h3))
  obtain ⟨hfr, htck⟩ := pulsesTick_rest (s7.modSlf fun f => { f with frames := f.frames + 1 })
  exact ⟨hfr.trans (congrArg (·.2.2.2) hall), htck.trans (congrArg (·.2.2.1) hall)⟩

theorem newFrame_fr (s : State) : s.newFrame.fr.ticking = true ∧ s.newFrame.fr.tick = s.fr.nextTick ∧ s.newFrame.fr.fired = [] ∧
    (s.fr.ticking = true → s.newFrame.fr.num = s.fr.num + 1) :=
  ⟨rfl, rfl, rfl, fun h => if_pos h⟩

theorem activateDue_none {s : State} (h : s.cfg.next = none) : s.activateDue = s := by
  unfold State.activateDue; rw [h]

section
variable {s t : State} (h : t.pace = s.pace)
include h
theorem tmb_of_pace : t.tmb = s.tmb := (congrArg (·.1) h :)
theorem cfg_of_pace : t.cfg = s.cfg := (congrArg (·.2.1) h :)
theorem tck_of_pace : t.tck = s.tck := (congrArg (·.2.2.1) h :)
theorem nextTick_of_pace : t.fr.nextTick = s.fr.nextTick := (congrArg (·.2.2.2.nextTick) h :)
theorem ticking_of_pace : t.fr.ticking = s.fr.ticking := (congrArg (·.2.2.2.ticking) h :)
theorem num_of_pace : t.fr.num = s.fr.num := (congrArg (·.2.2.2.num) h :)
theorem tickDue_of_pace : t.tickDue = s.tickDue := by
  unfold State.tickDue; rw [tmb_of_pace h, nextTick_of_pace h]
end

/-- Without a configuration that waits, the tick fires after the edges before it. -/
theorem exec_frameTick_due {dt : Nat} {s : State} (hnext : s.cfg.next = none) (hdue : (s.advance dt).tickDue = true) :
    exec (.frameTick dt) s = .next ((s.advance dt).edgesBefore s.fr.nextTick 10).frameTick := by
  have hact : (s.advance dt).activateDue = s.advance dt := activateDue_none hnext
  have hpace := pace_edgesBefore (s.advance dt) s.fr.nextTick 10
  have hcfg : ((s.advance dt).edgesBefore s.fr.nextTick 10).cfg.next = none := (congrArg CfgBlock.next (cfg_of_pace hpace)).trans hnext
  have hdue' := (tickDue_of_pace hpace).trans hdue
  simp only [exec, execFrameTick]
  rw [hact, if_pos hdue]
  generalize hq : (s.advance dt).edgesBefore (s.advance dt).fr.nextTick 10 = q
  rw [show (s.advance dt).edgesBefore s.fr.nextTick 10 = q from hq] at hcfg hdue' ⊢
  rw [activateDue_none hcfg, if_pos hdue']

/-! ### The configuration boundary -/

theorem cfg_foldl {α : Type} {f : State → α → State} (hf : ∀ q x, (f q x).cfg = q.cfg) (l : List α) (s : State) :
    (l.foldl f s).cfg = s.cfg := view_foldl State.cfg f hf l s

theorem cfg_redivide (s : State) (p : Nat) : (s.redivide p).cfg = s.cfg := by
  unfold State.redivide; dsimp only
  split
  · rfl
  · split <;> rfl

theorem cfg_rebindSlots (s : State) : s.rebindSlots.cfg = s.cfg := by
  refine cfg_foldl (fun q c => ?_) _ s
  rfl

theorem cfg_remapConns (s : State) (old : Cfg) : (s.remapConns old).cfg = s.cfg := by
  unfold State.remapConns; dsimp only
  refine (cfg_foldl (fun q c => ?_) _ _).trans rfl
  rfl

theorem cfg_disarmMoved (s : State) (old : Cfg) : (s.disarmMoved old).cfg = s.cfg := by
  unfold State.disarmMoved
  refine cfg_foldl (fun q p => ?_) _ s
  split <;> rfl

theorem cfg_switchOff (s : State) (d : Nat) : (s.switchOff d).cfg = s.cfg := by
  unfold State.switchOff
  split
  · exact (quiet_cfg (quiet_evDev ..)).trans rfl
  · rfl

theorem cfg_trimBanks (s : State) : s.trimBanks.cfg = s.cfg := by
  unfold State.trimBanks
  refine cfg_foldl (fun q b => ?_) _ s
  split
  · rfl
  · exact cfg_switchOff q (27 + b)

theorem cfg_sendCfgFrame (s : State) (old : Cfg) : (s.sendCfgFrame old).cfg = s.cfg := by
  unfold State.sendCfgFrame; dsimp only
  split <;> rfl

theorem cfg_rateFrom (s : State) (b : Nat) : (s.rateFrom b).cfg = s.cfg := by
  unfold State.rateFrom State.armTick; dsimp only
  split
  · rfl
  · split <;> rfl

/-- A configuration that takes effect is the active one, and none waits (R778). -/
theorem cfg_takeConfig (s : State) (c : Cfg) (b : Nat) : (s.takeConfig c b).cfg = { s.cfg with
    active := c, hasActive := true, next := none, atRestart := false, commitPending := false, pendingFrame := 0, boundary := 0 } := by
  unfold State.takeConfig; dsimp only
  rw [cfg_rateFrom, cfg_sendCfgFrame, cfg_trimBanks, cfg_disarmMoved, cfg_remapConns, cfg_rebindSlots, cfg_foldl cfg_redivide]

theorem kept_of_heldTo {s t : State} (h : heldTo s.held t.held) : t.pending = s.pending ∧ t.mc = s.mc ∧ t.shr = s.shr :=
  ⟨h.1.1, h.1.2.1, h.2⟩

/-- Settles O12. -/
theorem framesAndConfigurationsBegin : Obligations.FramesAndConfigurationsBegin := by
  refine ⟨fun dt s hnext hdue => ?_, fun dt s c hnext hrestart => ⟨fun hcome => ?_, fun hwait => ?_⟩⟩
  · have hpace := pace_edgesBefore (s.advance dt) s.fr.nextTick 10
    have hx := exec_frameTick_due hnext hdue
    obtain ⟨u, hu, hkept⟩ := keeps_execFrameTick dt s
    obtain ⟨hpending, hmc, hshr⟩ := kept_of_heldTo hkept
    obtain rfl : _ = u := Host.Outcome.next.inj (hx.symm.trans hu)
    clear hu hkept
    generalize (s.advance dt).edgesBefore s.fr.nextTick 10 = q at hpace hx hpending hmc hshr
    obtain ⟨hfr, htck⟩ := frameTick_rest q
    obtain ⟨hticking, htick, hfired, hnum⟩ := newFrame_fr q
    refine ⟨_, hx, ?_, ?_, ?_, fun h => ?_, hmc, hshr, (htck.trans (tck_of_pace hpace) :), hpending⟩ <;> rw [hfr]
    · exact hticking
    · exact (htick.trans (nextTick_of_pace hpace) :)
    · exact hfired
    · rw [hnum ((ticking_of_pace hpace).trans h), num_of_pace hpace]; rfl
  · have hdue : (s.advance dt).activateDue = (s.advance dt).takeConfig c s.cfg.boundary := by
      have hn : (s.advance dt).cfg.next = some c := hnext
      unfold State.activateDue
      rw [hn]; dsimp only
      exact if_pos ⟨by rw [show (s.advance dt).cfg = s.cfg from rfl, hrestart]; rfl, hcome⟩
    obtain ⟨u, hu, hkept⟩ := keeps_execConfigActivate dt s
    obtain ⟨-, hmc, -⟩ := kept_of_heldTo hkept
    have hcfg := cfg_takeConfig (s.advance dt) c s.cfg.boundary
    have hglb := glb_takeConfig (s.advance dt) c s.cfg.boundary
    have hx : exec (.configActivate dt) s = .next ((s.advance dt).takeConfig c s.cfg.boundary) := congrArg _ hdue
    obtain rfl : _ = u := Host.Outcome.next.inj (hx.symm.trans hu)
    clear hu hkept
    generalize State.takeConfig _ c _ = q at hx hcfg hglb hmc
    exact ⟨q, hx, congrArg CfgBlock.active hcfg, congrArg CfgBlock.next hcfg, congrArg CfgBlock.hasActive hcfg, hmc, hglb⟩
  · refine congrArg Host.Outcome.next ?_
    have hn : (s.advance dt).cfg.next = some c := hnext
    unfold State.activateDue
    rw [hn]; dsimp only
    exact if_neg fun h => absurd h.2 (not_le.mpr hwait)

end Sys2Proof.Machine
end

section
/-! Samples of the time base: a Sync in LOCKED, HOLDOVER and its expiry, and another grandmaster (R594 to R605). -/

namespace Sys2Proof.Machine

/-- Time that passes moves the count and its fraction, and nothing else of the time base. -/
theorem tmbAdvance_eq (t : TimeBase) (dt : Nat) : t.advance dt = { t with now := (t.advance dt).now, frac := (t.advance dt).frac } := by
  unfold TimeBase.advance; dsimp only
  split <;> rfl

section
variable (s : State) (dt : Nat)
theorem running_advance : (s.advance dt).tmb.running = s.tmb.running := (congrArg TimeBase.running (tmbAdvance_eq s.tmb dt) :)
theorem role_advance : (s.advance dt).tmb.role = s.tmb.role := (congrArg TimeBase.role (tmbAdvance_eq s.tmb dt) :)
theorem servo_advance : (s.advance dt).tmb.servo = s.tmb.servo := (congrArg TimeBase.servo (tmbAdvance_eq s.tmb dt) :)
theorem epoch_advance : (s.advance dt).tmb.epoch = s.tmb.epoch := (congrArg TimeBase.epoch (tmbAdvance_eq s.tmb dt) :)
theorem lastSample_advance : (s.advance dt).tmb.lastSample = s.tmb.lastSample := (congrArg TimeBase.lastSample (tmbAdvance_eq s.tmb dt) :)
theorem steps_advance : (s.advance dt).tmb.steps = s.tmb.steps := (congrArg TimeBase.steps (tmbAdvance_eq s.tmb dt) :)
theorem holdFrom_advance : (s.advance dt).tmb.holdFrom = s.tmb.holdFrom := (congrArg TimeBase.holdFrom (tmbAdvance_eq s.tmb dt) :)
theorem holdovers_advance : (s.advance dt).tmb.holdovers = s.tmb.holdovers := (congrArg TimeBase.holdovers (tmbAdvance_eq s.tmb dt) :)
theorem syncLost_advance : (s.advance dt).tmb.syncLost = s.tmb.syncLost := (congrArg TimeBase.syncLost (tmbAdvance_eq s.tmb dt) :)
theorem gm_advance : (s.advance dt).tmb.gm = s.tmb.gm := (congrArg TimeBase.gm (tmbAdvance_eq s.tmb dt) :)
theorem gmChanges_advance : (s.advance dt).tmb.gmChanges = s.tmb.gmChanges := (congrArg TimeBase.gmChanges (tmbAdvance_eq s.tmb dt) :)
theorem syncInterval_advance : (s.advance dt).syncInterval = s.syncInterval := by
  unfold State.syncInterval; rw [role_advance]; rfl
end

/-! ### A sample in LOCKED -/

/-- The law of R601 moves the rate, and nothing else of the time base. -/
theorem law_rest (t : TimeBase) (e : Int) (tau : Nat) :
    { t.law e tau with integral := 0, incr := 0, rate := 0, incrs := [] } = { t with integral := 0, incr := 0, rate := 0, incrs := [] } := by
  unfold TimeBase.law; dsimp only
  split <;> rfl

/-- The time base after a sample of offset e within STEP_NS in LOCKED (R601). -/
def TimeBase.sampled (t : TimeBase) (e : Int) (tau : Nat) : TimeBase :=
  let u := ({ t with offset := satNs e, big := [] } : TimeBase).law e tau
  { u with lastSample := some u.now }

theorem takeSample_locked {s : State} {e : Int} (hlock : s.tmb.servo = .locked) (hsmall : e.natAbs ≤ 16 * s.stepNs) :
    s.takeSample e = s.modTmb fun t => t.sampled e (s.tmb.lastSample.elim 0 fun l => s.tmb.now - l) := by
  have hlocked : ∀ (q : State) tau, q.cfg = s.cfg → q.lockedSample e tau = q.modTmb fun t => ({ t with big := [] }).law e tau :=
    fun q tau hq => if_pos (by rw [State.stepNs, State.cf, State.cw, hq]; exact hsmall)
  unfold State.takeSample; dsimp only
  rw [hlock]; dsimp only
  rw [hlocked (s.modTmb fun t => { t with offset := satNs e }) _ rfl]
  rfl

theorem sampled_rest (t : TimeBase) (e : Int) (tau : Nat) :
    (t.sampled e tau).offset = satNs e ∧ (t.sampled e tau).lastSample = some t.now ∧ (t.sampled e tau).now = t.now ∧
      (t.sampled e tau).servo = t.servo ∧ (t.sampled e tau).slavePort = t.slavePort ∧ (t.sampled e tau).steps = t.steps := by
  have hrest := law_rest { t with offset := satNs e, big := [] } e tau
  unfold TimeBase.sampled; dsimp only
  generalize TimeBase.law _ e tau = u at hrest ⊢
  have hnow : u.now = t.now := (congrArg TimeBase.now hrest :)
  exact ⟨(congrArg TimeBase.offset hrest :), congrArg some hnow, hnow, (congrArg TimeBase.servo hrest :),
    (congrArg TimeBase.slavePort hrest :), (congrArg TimeBase.steps hrest :)⟩

/-- A Sync that SLAVE takes as a sample is counted at its port, which becomes the slave port (R594, R596). -/
theorem sync_sample {s : State} {m domNs : Nat} (hrun : s.tmb.running = true) (hport : s.portOn m = true) (hrole : s.tmb.role = 0)
    (hpos : 0 ≤ (domNs : Int) - s.tmb.epoch * 1000000000) (hlt : (domNs : Int) - s.tmb.epoch * 1000000000 < (2 ^ 60 : Nat)) :
    s.sync m domNs = (s.modTmb fun t => { t with
      ports := tmod t.ports m fun p => { p with rx := inc 16 p.rx, asCapable := true }, slavePort := m }).takeSample
        (16 * ((domNs : Int) - s.tmb.epoch * 1000000000) - s.tmb.now) := by
  unfold State.sync
  rw [if_neg (by simp [hrun, hport]), if_neg (by simp [hrole]), if_neg (by omega)]
  rfl

/-! ### HOLDOVER -/

/-- The time base as it enters HOLDOVER (R605). -/
def TimeBase.heldOver (t : TimeBase) : TimeBase :=
  let mean := if t.incrs = [] then t.incr else t.incrs.foldl (· + ·) 0 / t.incrs.length
  { t with
    servo := .holdover, incr := mean, rate := rateNs (rateOf mean), holdFrom := t.now, holdovers := inc 16 t.holdovers, big := []
    ports := if t.role = 0 then tmod t.ports t.slavePort fun p => { p with timeouts := inc 16 p.timeouts } else t.ports }

theorem exec_syncTimeout {dt l : Nat} {s : State} (hlock : s.tmb.servo = .locked) (hrole : s.tmb.role ≠ 1)
    (hlast : s.tmb.lastSample = some l) (hlate : l + 3 * s.syncInterval ≤ (s.advance dt).tmb.now) :
    exec (.syncTimeout dt) s =
      .next (((s.advance dt).modTmb TimeBase.heldOver).evDev 0x0A06 0 (le 1 0 ++ zeros 3 ++ le 4 0)) := by
  refine congrArg Host.Outcome.next (if_pos ⟨.inl ((servo_advance s dt).trans hlock), ?_, ?_⟩)
  · rw [role_advance]; exact hrole
  · rw [lastSample_advance, hlast, syncInterval_advance]
    exact decide_eq_true hlate

theorem exec_holdoverExpiry {dt : Nat} {s : State} (hhold : s.tmb.servo = .holdover) (hlost : s.tmb.syncLost = false)
    (hexp : s.tmb.holdFrom + s.holdoverS * s16 ≤ (s.advance dt).tmb.now) :
    exec (.holdoverExpiry dt) s = .next (((s.advance dt).modTmb fun t => { t with syncLost := true }).evDev 0x0A06 1
      (le 1 1 ++ zeros 3 ++ le 4 (((s.advance dt).tmb.now - (s.advance dt).tmb.holdFrom) / s16))) := by
  refine congrArg Host.Outcome.next (if_pos ⟨(servo_advance s dt).trans hhold, ?_, ?_⟩)
  · rw [syncLost_advance, hlost]; rfl
  · rw [holdFrom_advance]; exact hexp

/-! ### Another grandmaster -/

theorem exec_gmChange {dt m gm : Nat} {s : State} (hrun : s.tmb.running = true) (hport : s.portOn m = true) (hrole : s.tmb.role = 0)
    (hgm : gm < 2 ^ 64) (hnew : gm ≠ s.tmb.gm) :
    exec (.gmChange dt m gm) s = .next (((s.advance dt).modTmb fun t => { t with gm := gm, gmChanges := inc 16 t.gmChanges }).evDev
      0x0A05 1 (le 8 (s.advance dt).tmb.gm ++ le 8 gm ++ le 1 m)) := by
  have hport' : (s.advance dt).portOn m = true := hport
  simp only [exec, execGmChange]
  rw [if_neg (by rw [running_advance, hrun, hport']; decide), if_pos ((role_advance s dt).trans hrole), Nat.mod_eq_of_lt hgm,
    if_neg (by rw [gm_advance]; exact hnew)]

/-- Settles O15. -/
theorem syncsAreTakenOrMissed : Obligations.SyncsAreTakenOrMissed := by
  refine ⟨fun dt m domNs s hrun hport hrole hlock => ?_, fun dt s => ⟨fun l hlock hrole hlast hlate => ?_, fun hhold hlost hexp => ?_,
    fun m gm hrun hport hrole hgm hnew => ?_⟩⟩
  · intro now dev hpos hlt hsmall
    have hrole' := (role_advance s dt).trans hrole
    have hepoch := epoch_advance s dt
    have hx := sync_sample (s := s.advance dt) (m := m) (domNs := domNs) ((running_advance s dt).trans hrun) hport hrole'
      (by rw [hepoch]; exact hpos) (by rw [hepoch]; exact hlt)
    have hservo' : ((s.advance dt).modTmb fun t => { t with
        ports := tmod t.ports m fun p => { p with rx := inc 16 p.rx, asCapable := true }, slavePort := m }).tmb.servo = .locked :=
      ((servo_advance s dt).trans hlock :)
    rw [hepoch, takeSample_locked hservo' hsmall] at hx
    refine ⟨_, congrArg Host.Outcome.next hx, ?_⟩
    obtain ⟨hoff, hlast, hnow, hservo, hslave, hsteps⟩ := sampled_rest { (s.advance dt).tmb with
      ports := tmod (s.advance dt).tmb.ports m fun p => { p with rx := inc 16 p.rx, asCapable := true }, slavePort := m }
      (16 * dev - now) ((s.advance dt).tmb.lastSample.elim 0 fun l => (s.advance dt).tmb.now - l)
    exact ⟨hoff, hlast, hnow, hservo.trans ((servo_advance s dt).trans hlock), hslave, hsteps.trans (steps_advance s dt), rfl⟩
  · have hx := exec_syncTimeout (dt := dt) hlock hrole hlast hlate
    have hq := quiet_evDev ((s.advance dt).modTmb TimeBase.heldOver) 0x0A06 0 (le 1 0 ++ zeros 3 ++ le 4 0)
    generalize State.evDev _ _ _ _ = t at hx hq
    have htmb : t.tmb = (s.advance dt).tmb.heldOver := quiet_tmb hq
    refine ⟨t, hx, ?_, ?_, ?_, (congrArg (fun q : State => { q with tmb := {} }) hq :)⟩ <;> rw [htmb]
    · rfl
    · rfl
    · exact congrArg (inc 16) (holdovers_advance s dt)
  · exact ⟨_, exec_holdoverExpiry hhold hlost hexp, quiet_evDev ..⟩
  · rw [← gmChanges_advance s dt]
    exact ⟨_, exec_gmChange hrun hport hrole hgm hnew, quiet_evDev ..⟩

end Sys2Proof.Machine
end

section
/-! The end of start-up (R41, R488, R674, R750): the wipe of RETURN, the injection test, and the state in which the boot ends. -/

namespace Sys2Proof.Machine

/-! ### The boot -/

theorem glb_of_linksAndState {s t : State} (h : t.linksAndState = s.linksAndState) : t.glb = s.glb := (congrArg (·.1) h :)

theorem glb_stateChanged (s : State) : s.stateChanged.glb = s.glb := glb_of_linksAndState (linksAndState_stateChanged s)

/-- A move between states: the new state, with the flags of the boot kept (R41). -/
theorem glb_moveTo {s : State} {st : OpState} (h : s.glb.st ≠ st) :
    (s.moveTo st).glb = { s.glb with st := st, cause := 0, prior := .startUp } := by
  unfold State.moveTo
  rw [if_neg h, glb_stateChanged]

/-- From START_UP the acting state changes by a move. -/
theorem actTo_startUp {s : State} (h : s.glb.st = .startUp) (st : OpState) : s.actTo st = s.moveTo st :=
  if_neg (by rw [h]; decide)

/-- The flag that the boot has come to its end. -/
def State.nowBooted (s : State) : State := { s with glb := { s.glb with booted := true } }

theorem boot_none {s : State} (h : s.storedConfig = none) :
    s.boot = { s.nowBooted with glb := { s.nowBooted.glb with noConfig := true } }.actTo .maintenance := by
  have h' : s.nowBooted.storedConfig = none := h
  unfold State.boot; dsimp only
  rw [show ({ s with glb := { s.glb with booted := true } } : State) = s.nowBooted from rfl, h']
  rfl

/-- A change log that holds every entry the newest commit record names is not mended (R787). -/
theorem mendClog_whole {s : State} (c : Cfg) (h : ∀ b ∈ (s.nvm.ranked 5).head?, (s.nvm.crec b 5).clogSeq ≤ s.nvm.clogSeq) :
    s.mendClog c = s := by
  unfold State.mendClog
  split
  · rfl
  · next bank _ hb => exact if_neg (not_lt.mpr (h bank (by rw [hb]; rfl)))

theorem boot_some {s : State} {c : Cfg} (h : s.storedConfig = some c) (hlife : s.lifePending = false)
    (hclog : ∀ b ∈ (s.nvm.ranked 5).head?, (s.nvm.crec b 5).clogSeq ≤ s.nvm.clogSeq) :
    s.boot = (s.nowBooted.takeNow c).actTo .configured := by
  have h' : s.nowBooted.storedConfig = some c := h
  have hlife' : s.nowBooted.lifePending = false := hlife
  unfold State.boot; dsimp only
  rw [show ({ s with glb := { s.glb with booted := true } } : State) = s.nowBooted from rfl, h']; dsimp only
  rw [mendClog_whole (s := s.nowBooted) c hclog, if_neg (by rw [hlife']; exact Bool.false_ne_true)]

theorem exec_bootComplete {dt : Nat} {s : State} (h : s.mayBoot = true) : exec (.bootComplete dt) s = .next (s.advance dt).boot :=
  congrArg Host.Outcome.next (if_pos h)

/-- A configuration that is taken at once is the active one (R674). -/
theorem active_takeNow (s : State) (c : Cfg) : (s.takeNow c).cfg.active = c := congrArg CfgBlock.active (cfg_takeConfig ..)

theorem glb_takeNow (s : State) (c : Cfg) : (s.takeNow c).glb = s.glb := (glb_takeConfig ..).trans (glb_powerBanks ..)

/-! ### The wipe -/

/-- The state after the wipe, before its record (R750). -/
def State.wiped (s : State) : State :=
  let keep := fun k => k != 5 && k != 261
  { s with
    nvm := { s.nvm with
      records := s.nvm.records.filter fun x => keep x.1
      slots := s.nvm.slots.filter fun x => keep x.1
      ikey := none, password := none, clog := [], clogSeq := 0, clogHash := []
      archNewest := 0, archive := [], archTotal := 0, mirror := [], wipeDone := true }
    mem := { s.mem with cells := [], bad := [], raw := [] }
    log := { s.log with records := [], nextSeq := 1, oldest := 0 }
    cfg := { s.cfg with wiped := true, clogBegun := false } }

theorem acting_of_st {s : State} (h : s.glb.st = .startUp) : s.acting = .startUp := by
  unfold State.acting
  rw [if_neg (by rw [h]; decide), h]

theorem records_evDev_empty {s : State} (kind sev : Nat) (payload : Bytes) (hready : s.logReady = true) (hempty : s.log.records = []) :
    (s.evDev kind sev payload).log.records.map (·.seq) = [s.log.nextSeq] := by
  simp only [State.evDev, State.evidence, hready, if_true, State.logRecord, log_copies, Log.push, hempty]
  rfl

theorem logReady_of_atStep {s : State} {k : Nat} (h : s.atStep k = true) (hk : 4 ≤ k) : s.logReady = true := by
  unfold State.atStep at h
  unfold State.logReady
  split at h
  · next j hj =>
    have : k ≤ j := by simpa using h
    exact decide_eq_true (le_trans hk this)
  · cases h

/-! ### The injection test -/

/-- The outcome of the injection test is kept and recorded (R488). -/
def State.injected (s : State) (passed first us : Nat) : State :=
  (s.modCor fun x => { x with
    injPass := decide (first = 0 ∧ passed = 10), injPassed := passed % 16, injFirst := first % 16, injTime := sat 16 us }).evDev
      0x0705 (if first = 0 ∧ passed = 10 then 0 else 3) (le 1 passed ++ le 1 first ++ zeros 2 ++ le 4 us)

/-- Voter and ledger start afresh after a test that has passed (R488). -/
def State.testPassed (s : State) : State :=
  (({ s with nvm := { s.nvm with fuses := s.nvm.fuses ||| ((2 ^ s.cfg.svn - 1) * 2 ^ 2304) } }).modCor fun x => { x with
    ledger := [], ldgSeq := 0, ldgHigh := 0, ldgValue := [], records := []
    accepted := 0, last := 0, order := 0, released := none, source := none }).startCores

theorem exec_injectionTest {dt : Nat} (passed first us : Nat) {s : State} (hstep : s.atStep 5 = true) (hboot : s.glb.booted = false)
    (hst : s.glb.st = .startUp) : exec (.injectionTest dt passed first us) s = .next
      (if first = 0 ∧ passed = 10 then ((s.advance dt).injected passed first us).testPassed
      else ((s.advance dt).injected passed first us).holdAll.enterSafe 0x19) :=
  congrArg Host.Outcome.next (if_pos ⟨hstep, by rw [show (s.advance dt).glb = s.glb from rfl, hboot]; rfl, .inl hst⟩)

theorem injected_rest (s : State) (passed first us : Nat) :
    (s.injected passed first us).cor = { s.cor with
      injPass := decide (first = 0 ∧ passed = 10), injPassed := passed % 16, injFirst := first % 16, injTime := sat 16 us } ∧
    (s.injected passed first us).glb = s.glb :=
  ⟨(quiet_cor (quiet_evDev ..)).trans rfl, (quiet_glb (quiet_evDev ..)).trans rfl⟩

theorem core_holdAll (s : State) {c : Nat} (hc : c < 3) : (s.holdAll.core c).st = .held := by
  match c, hc with
  | 0, _ => rfl
  | 1, _ => rfl
  | 2, _ => rfl

/-- Settles O11. -/
theorem startUpWipesTestsAndBoots : Obligations.StartUpWipesTestsAndBoots := by
  refine ⟨fun dt s hmay hst => ⟨fun hnone => ?_, fun c hsome hlife hclog => ?_⟩, fun dt s hlife hst hstep hwiped => ?_,
    fun dt passed first us s hstep hboot hst => ?_⟩
  · have hx := exec_bootComplete (dt := dt) hmay
    rw [boot_none (s := s.advance dt) hnone] at hx
    generalize hq : ({ (s.advance dt).nowBooted with glb := { (s.advance dt).nowBooted.glb with noConfig := true } } : State) = q at hx
    have hqst : q.glb.st = .startUp := by rw [← hq]; exact hst
    rw [actTo_startUp hqst] at hx
    have hglb := glb_moveTo (s := q) (st := .maintenance) (by rw [hqst]; decide)
    have hrest := unmoved_moveTo q .maintenance
    have hsame : q.shr = s.shr ∧ q.cfg = s.cfg ∧ q.mem = s.mem ∧ q.glb.noConfig = true ∧ q.glb.booted = true := by
      rw [← hq]; exact ⟨rfl, rfl, rfl, rfl, rfl⟩
    obtain ⟨hshr, hcfg, hmem, hflag, hbooted⟩ := hsame
    exact ⟨_, hx, congrArg Glb.st hglb, (congrArg Glb.noConfig hglb).trans hflag, (congrArg Glb.booted hglb).trans hbooted,
      (unmoved_shr hrest).trans hshr, (unmoved_cfg hrest).trans hcfg, (unmoved_mem hrest).trans hmem⟩
  · have hx := exec_bootComplete (dt := dt) hmay
    rw [boot_some (s := s.advance dt) hsome hlife hclog] at hx
    have hactive := active_takeNow (s.advance dt).nowBooted c
    have hglb := glb_takeNow (s.advance dt).nowBooted c
    generalize State.takeNow _ c = q at hx hactive hglb
    have hqst : q.glb.st = .startUp := (congrArg Glb.st hglb).trans hst
    rw [actTo_startUp hqst] at hx
    have hmoved := glb_moveTo (s := q) (st := .configured) (by rw [hqst]; decide)
    refine ⟨_, hx, by rw [hmoved], ?_, ?_⟩
    · rw [hmoved, hglb]; rfl
    · rw [unmoved_cfg (unmoved_moveTo q .configured)]; exact hactive
  · have hready : s.wiped.logReady = true := logReady_of_atStep (k := 4) hstep le_rfl
    have hx : exec (.returnWipe dt) s = .next ((s.advance dt).wiped.evDev 0x0E04 0 (le 1 4 ++ le 1 4 ++ le 1 1)) :=
      congrArg Host.Outcome.next (if_pos ⟨hlife, acting_of_st hst, hstep, by rw [show (s.advance dt).cfg = s.cfg from rfl, hwiped]; rfl⟩)
    have hquiet := quiet_evDev (s.advance dt).wiped 0x0E04 0 (le 1 4 ++ le 1 4 ++ le 1 1)
    have hlog := records_evDev_empty (s := (s.advance dt).wiped) 0x0E04 0 (le 1 4 ++ le 1 4 ++ le 1 1) hready rfl
    generalize State.evDev _ _ _ _ = t at hx hquiet hlog
    have hnvm := congrArg State.nvm hquiet
    exact ⟨t, hx, (congrArg (·.cells) (quiet_mem hquiet) :), (congrArg (·.ikey) hnvm :), (congrArg (·.password) hnvm :),
      (congrArg (·.clog) hnvm :), (congrArg (·.archive) hnvm :), (congrArg (·.wipeDone) hnvm :),
      (congrArg (·.wiped) (quiet_cfg hquiet) :), (congrArg (·.fuses) hnvm :), hlog, (quiet_rst hquiet :), (quiet_glb hquiet :),
      (quiet_shr hquiet :)⟩
  · have hx := exec_injectionTest (dt := dt) passed first us hstep hboot hst
    obtain ⟨hcor, hglb⟩ := injected_rest (s.advance dt) passed first us
    generalize State.injected _ passed first us = q at hx hcor hglb
    have hqst : q.glb.st = .startUp := (congrArg Glb.st hglb).trans hst
    by_cases hok : first = 0 ∧ passed = 10
    · rw [if_pos hok] at hx
      have hpass : q.testPassed.cor.injPass = q.cor.injPass ∧ q.testPassed.cor.injPassed = q.cor.injPassed ∧
        q.testPassed.cor.injFirst = q.cor.injFirst := ⟨rfl, rfl, rfl⟩
      refine ⟨_, hx, ?_, ?_, fun _ _ => ⟨hqst, ?_, rfl, rfl⟩, fun h => absurd hok (by omega)⟩
      · rw [hpass.2.1, hcor]
      · rw [hpass.2.2, hcor]
      · rw [hpass.1, hcor]; exact decide_eq_true hok
    · rw [if_neg hok] at hx
      have hheld : (q.holdAll.enterSafe 0x19).cor = q.holdAll.cor := unmoved_cor (unmoved_enterSafe ..)
      have hpass : q.holdAll.cor.injPass = q.cor.injPass ∧ q.holdAll.cor.injPassed = q.cor.injPassed ∧
        q.holdAll.cor.injFirst = q.cor.injFirst := ⟨rfl, rfl, rfl⟩
      refine ⟨_, hx, ?_, ?_, fun h1 h2 => absurd ⟨h1, h2⟩ hok, fun _ => ⟨st_enterSafe .., ?_, ?_, fun c hc => ?_⟩⟩
      · rw [hheld, hpass.2.1, hcor]
      · rw [hheld, hpass.2.2, hcor]
      · exact cause_enterSafe (by rw [glb_holdAll, hqst]; decide) _
      · rw [hheld, hpass.1, hcor]; exact decide_eq_false hok
      · rw [State.core, hheld]; exact core_holdAll q hc

end Sys2Proof.Machine
end

section
/-! The control cores: checkpoints, the vote, the end of T_deg and a repaired core's start (R479 to R484, R492, R497). -/

namespace Sys2Proof.Machine

/-! ### The end of T_deg and of a copy -/

theorem exec_tdegExpiry {dt : Nat} {s : State} (hst : s.glb.st = .degraded)
    (hlate : s.mc + dt - s.glb.tdegFrom ≥ s.glb.tdegS * 1000 * msMc) :
    exec (.tdegExpiry dt) s = .next ((s.advance dt).enterSafe 0x11) :=
  congrArg Host.Outcome.next (if_pos ⟨hst, hlate⟩)

/-- The repaired core as the copy from core m leaves it. -/
def State.copied (s : State) (m : Nat) (x : Core) : Core :=
  { x with copying := false, pos := 2, instr := (s.core m).instr, ckpt := (s.core m).ckpt, ldgSeq := (s.core m).ldgSeq
           ckptInstr := (s.core m).ckptInstr, from_ := s.mc + staggerMc }

theorem copyDone_first {s : State} {m : Nat} (hcopy : (s.core 0).copying = true) (hsource : s.cor.source = some m) :
    s.copyDone = (s.modCore 0 (s.copied m)).modCor fun x => { x with source := none, realign := some m } := by
  have hfind : ((List.range 3).find? fun c => (s.core c).copying) = some 0 := List.find?_cons_of_pos hcopy
  simp only [State.copyDone, hfind, hsource]
  rfl

/-- Settles O30: T_deg's end is an entry into SAFE, and the copy writes the repaired core alone. -/
theorem degradedEndsAndCoresResume : Obligations.DegradedEndsAndCoresResume := by
  unfold Obligations.DegradedEndsAndCoresResume
  intro dt s
  refine ⟨fun hst hlate => ⟨_, exec_tdegExpiry hst hlate, st_enterSafe .., cause_enterSafe ?_ _⟩,
    fun hst => congrArg Host.Outcome.next (if_neg fun h => hst h.1), fun m hcopy hsource _ => ?_⟩
  · rw [show (s.advance dt).glb = s.glb from rfl, hst]
    decide
  · refine ⟨_, congrArg Host.Outcome.next (copyDone_first (s := s.advance dt) hcopy hsource), ?_⟩
    have hself : ((s.advance dt).modCore 0 ((s.advance dt).copied m)).core 0 = (s.advance dt).copied m (s.core 0) := State.modCore_core ..
    refine ⟨(congrArg Core.copying hself :), (congrArg Core.pos hself :), (congrArg Core.ldgSeq hself :), (congrArg Core.ckpt hself :),
      rfl, fun j hj => ?_, rfl⟩
    exact (State.modCore_core_ne _ _ _ hj :)

/-! ### What retiring instructions leaves alone -/

/-- The state without the cores' retired-instruction counts and the stall of LEAD that they end. -/
def State.sansInstr (s : State) : (Nat → Core) × Cores × State :=
  (fun c => { s.core c with instr := 0 }, { s.cor with cores := [], realign := none }, { s with cor := {} })

theorem sansInstr_modCore {s : State} {c : Nat} {f : Core → Core} (hf : ∀ x, { f x with instr := 0 } = { x with instr := 0 }) :
    (s.modCore c f).sansInstr = s.sansInstr := by
  refine Prod.ext (funext fun j => ?_) rfl
  show { (s.modCore c f).core j with instr := 0 } = { s.core j with instr := 0 }
  rw [core_modCore]; split
  · exact hf _
  · rfl

theorem sansInstr_realign (s : State) : (s.modCor fun x => { x with realign := none }).sansInstr = s.sansInstr := rfl

/-- One core retires as far as the stagger unit lets it. -/
def State.retireCore (counts : List Nat) (q : State) (c : Nat) : State :=
  if q.coreRuns c then q.modCore c fun x => { x with instr := max x.instr (min (counts.getD c 0) (q.retireLimit c)) } else q

theorem sansInstr_retireCore (counts : List Nat) (q : State) (c : Nat) : (q.retireCore counts c).sansInstr = q.sansInstr := by
  unfold State.retireCore; split
  · exact sansInstr_modCore fun _ => rfl
  · rfl

/-- All three, from LEAD to TRAIL. -/
def State.retireCores (s : State) (counts : List Nat) : State := ((List.range 3).map s.coreAt).foldl (State.retireCore counts) s

theorem retire_eq (s : State) (counts : List Nat) : s.retire counts =
    if (s.retireCores counts).leadStalled ((s.retireCores counts).coreAt 0) then s.retireCores counts
    else (s.retireCores counts).modCor fun x => { x with realign := none } := rfl

theorem sansInstr_retire (s : State) (counts : List Nat) : (s.retire counts).sansInstr = s.sansInstr := by
  have hfold : (s.retireCores counts).sansInstr = s.sansInstr := view_foldl State.sansInstr _ (sansInstr_retireCore counts) _ _
  rw [retire_eq]; split
  · exact hfold
  · exact (sansInstr_realign _).trans hfold

section
variable {s t : State} (h : t.sansInstr = s.sansInstr)
include h

theorem sansInstr_core (c : Nat) : { t.core c with instr := 0 } = { s.core c with instr := 0 } :=
  congrFun (congrArg (·.1) h) c
theorem sansInstr_rest : { t with cor := {} } = { s with cor := {} } := (congrArg (·.2.2) h :)
theorem sansInstr_cores : { t.cor with cores := [], realign := none } = { s.cor with cores := [], realign := none } :=
  (congrArg (·.2.1) h :)
theorem sansInstr_records : t.cor.records = s.cor.records := (congrArg Cores.records (sansInstr_cores h) :)
theorem sansInstr_accepted : t.cor.accepted = s.cor.accepted := (congrArg Cores.accepted (sansInstr_cores h) :)
theorem sansInstr_ckpt (c : Nat) : (t.core c).ckpt = (s.core c).ckpt := (congrArg Core.ckpt (sansInstr_core h c) :)
theorem sansInstr_banks (c : Nat) : (t.core c).banks = (s.core c).banks := (congrArg Core.banks (sansInstr_core h c) :)
theorem sansInstr_flag (c : Nat) : (t.core c).flag = (s.core c).flag := (congrArg Core.flag (sansInstr_core h c) :)
theorem sansInstr_mc : t.mc = s.mc := (congrArg State.mc (sansInstr_rest h) :)
theorem sansInstr_votes (c : Nat) : (t.core c).votes = (s.core c).votes := (congrArg Core.votes (sansInstr_core h c) :)

end

/-! ### The record of a checkpoint (R481) -/

theorem crcK_lt (b : Bytes) : crcK b < 2 ^ 32 := by
  have hreg : crcUpdate 1 (crcInit 1) b < 2 ^ 32 := by
    simp only [crcUpdate, Nat.reduceEqDiff, if_false]
    exact BitVec.isLt _
  exact Nat.xor_lt_two_pow hreg (by decide)

theorem zipWith_xor_zeros {b : Bytes} {n : Nat} (h : b.length ≤ n) : List.zipWith (· ^^^ ·) b (zeros n) = b := by
  refine List.ext_getElem (by simpa [zeros] using h) fun i hi _ => ?_
  simp [zeros]

theorem rd_append_of_le {a : Bytes} {off n : Nat} (h : off + n ≤ a.length) (b : Bytes) : rd (a ++ b) off n = rd a off n := by
  simp only [rd, slice]
  rw [List.drop_append_of_le_length (by omega), List.take_append_of_le_length (by simp; omega)]

theorem rd_take {b : Bytes} {off n k : Nat} (h : off + n ≤ k) : rd (b.take k) off n = rd b off n := by
  simp only [rd, slice, List.drop_take, List.take_take]
  rw [min_eq_left (by omega)]

/-- The fields of a record before CHECK. -/
def recordFields (ckpt instr sig seq n cause flag : Nat) : Bytes :=
  le 8 ckpt ++ le 8 instr ++ zeros 16 ++ le 8 sig ++ le 4 seq ++ le 2 n ++ le 1 cause ++ le 1 flag ++ zeros 12

theorem length_recordFields (ckpt instr sig seq n cause flag : Nat) : (recordFields ckpt instr sig seq n cause flag).length = 60 := by
  simp [recordFields, zeros]

theorem rd_recordFields (ckpt instr sig seq n cause flag : Nat) :
    rd (recordFields ckpt instr sig seq n cause flag) 0 8 = ckpt % 2 ^ 64 ∧
    rd (recordFields ckpt instr sig seq n cause flag) 8 8 = instr % 2 ^ 64 ∧
    rd (recordFields ckpt instr sig seq n cause flag) 44 2 = n % 2 ^ 16 ∧
    rd (recordFields ckpt instr sig seq n cause flag) 47 1 = flag % 256 := by
  unfold recordFields
  refine ⟨?_, ?_, ?_, ?_⟩
  · rw [rd_append_of_le (by simp [zeros]), rd_append_of_le (by simp [zeros]), rd_append_of_le (by simp [zeros]),
      rd_append_of_le (by simp [zeros]), rd_append_of_le (by simp [zeros]), rd_append_of_le (by simp [zeros]),
      rd_append_of_le (by simp), rd_append_left _ _ _ (by simp), ofLe_le]
    rfl
  · rw [rd_append_of_le (by simp [zeros]), rd_append_of_le (by simp [zeros]), rd_append_of_le (by simp [zeros]),
      rd_append_of_le (by simp [zeros]), rd_append_of_le (by simp [zeros]), rd_append_of_le (by simp [zeros]),
      rd_append_of_le (by simp), rd_append_right _ _ _ _ (by simp) (by simp), ofLe_le]
    rfl
  · rw [rd_append_of_le (by simp [zeros]), rd_append_of_le (by simp [zeros]), rd_append_of_le (by simp [zeros]),
      rd_append_right _ _ _ _ (by simp [zeros]) (by simp), ofLe_le]
    rfl
  · rw [rd_append_of_le (by simp [zeros]), rd_append_right _ _ _ _ (by simp [zeros]) (by simp), ofLe_le]
    rfl

/-- The first 60 bytes of a sound core's record. -/
def State.soundRecord (s : State) (c : Nat) (acts : List Action) (barrier : Bool) : Bytes :=
  recordFields ((s.core c).ckpt + 1) (s.core c).instr
    (crcUpdate 2 (crcInit 2) (acts.flatMap fun (addr, typ, data) => le 8 addr ++ data ++ le 1 typ))
    ((s.core c).ldgSeq + 2 ^ 32 - 1) acts.length
    (if (s.core c).flag ≠ 0 then 4 else if barrier then 1 else if acts.length = 32 then 2 else 3) (s.core c).flag

/-- Its bytes before CHECK, with the bits that are given. -/
def State.givenRecord (s : State) (c : Nat) (acts : List Action) (barrier : Bool) (given : Bytes) : Bytes :=
  List.zipWith (· ^^^ ·) (s.soundRecord c acts barrier) given

theorem ckptBytes_eq {s : State} {c : Nat} {acts : List Action} {barrier : Bool} {given : Bytes} (hcheck : rd given 60 4 = 0) :
    s.ckptBytes c acts barrier given = s.givenRecord c acts barrier given ++ le 4 (crcK (s.givenRecord c acts barrier given)) := by
  show s.givenRecord c acts barrier given ++ le 4 (crcK (s.givenRecord c acts barrier given) ^^^ rd given 60 4) = _
  rw [hcheck, Nat.xor_zero]

theorem length_soundRecord (s : State) (c : Nat) (acts : List Action) (barrier : Bool) : (s.soundRecord c acts barrier).length = 60 :=
  length_recordFields ..

theorem length_givenRecord {s : State} {c : Nat} {acts : List Action} {barrier : Bool} {given : Bytes} (h : given.length = 64) :
    (s.givenRecord c acts barrier given).length = 60 := by
  simp [State.givenRecord, length_soundRecord, h]

/-- CHECK of a record holds where no bit of it is given otherwise. -/
theorem check_ckptBytes {s : State} {c : Nat} {acts : List Action} {barrier : Bool} {given : Bytes} (hlen : given.length = 64)
    (hcheck : rd given 60 4 = 0) : rd (s.ckptBytes c acts barrier given) 60 4 = crcK ((s.ckptBytes c acts barrier given).take 60) := by
  have h60 := length_givenRecord (s := s) (c := c) (acts := acts) (barrier := barrier) hlen
  rw [ckptBytes_eq hcheck, rd_append_right _ _ _ _ h60 (by simp), ofLe_le, List.take_append_of_le_length h60.ge,
    List.take_of_length_le h60.le]
  exact Nat.mod_eq_of_lt (crcK_lt _)

/-- The fields of a sound core's record. -/
theorem fields_ckptBytes {s : State} {c : Nat} {acts : List Action} {barrier : Bool} (hacts : acts.length ≤ 32) :
    rd (s.ckptBytes c acts barrier (zeros 64)) 0 8 = ((s.core c).ckpt + 1) % 2 ^ 64 ∧
    rd (s.ckptBytes c acts barrier (zeros 64)) 8 8 = (s.core c).instr % 2 ^ 64 ∧
    rd (s.ckptBytes c acts barrier (zeros 64)) 44 2 = acts.length ∧
    rd (s.ckptBytes c acts barrier (zeros 64)) 47 1 = (s.core c).flag % 256 := by
  have hbytes : ∀ off n, off + n ≤ 60 →
      rd (s.ckptBytes c acts barrier (zeros 64)) off n = rd (s.soundRecord c acts barrier) off n := fun off n h => by
    have hlen : (s.givenRecord c acts barrier (zeros 64)).length = 60 := length_givenRecord (by decide)
    rw [ckptBytes_eq (by decide), rd_append_of_le (hlen ▸ h), State.givenRecord, zipWith_xor_zeros (by rw [length_soundRecord]; decide)]
  obtain ⟨hckpt, hinstr, hacts', hflag⟩ := rd_recordFields ((s.core c).ckpt + 1) (s.core c).instr
    (crcUpdate 2 (crcInit 2) (acts.flatMap fun (addr, typ, data) => le 8 addr ++ data ++ le 1 typ))
    ((s.core c).ldgSeq + 2 ^ 32 - 1) acts.length
    (if (s.core c).flag ≠ 0 then 4 else if barrier then 1 else if acts.length = 32 then 2 else 3) (s.core c).flag
  exact ⟨(hbytes 0 8 (by decide)).trans hckpt, (hbytes 8 8 (by decide)).trans hinstr,
    (hbytes 44 2 (by decide)).trans (hacts'.trans (Nat.mod_eq_of_lt (by omega))), (hbytes 47 1 (by decide)).trans hflag⟩

/-! ### A record arrives (R482) -/

theorem ckptOf_of_records {s t : State} (h : t.cor.records = s.cor.records) (n c : Nat) : t.ckptOf n c = s.ckptOf n c := by
  simp only [State.ckptOf, h]

theorem voters_of_votes {s t : State} (h : ∀ c, (t.core c).votes = (s.core c).votes) : t.voters = s.voters := by
  simp only [State.voters, h]

/-- The state with the record of core c among the others. -/
def State.withRecord (s : State) (c : Nat) (r : Bytes) : State :=
  s.modCor fun x => { x with records := x.records ++ [{ core := c, bytes := r, at_ := s.mc }] }

theorem ckptOf_withRecord_ne (s : State) {c d : Nat} (h : d ≠ c) (n : Nat) (r : Bytes) : (s.withRecord c r).ckptOf n d = s.ckptOf n d := by
  have hcd : (c == d) = false := by simpa using h.symm
  show (List.find? _ (s.cor.records ++ [_])).map _ = (s.cor.records.find? _).map _
  rw [List.find?_append, List.find?_cons_of_neg (by simp [hcd]), List.find?_nil, Option.or_none]

theorem ckptOf_withRecord_self {s : State} {c : Nat} {r : Bytes} (h : s.ckptOf (rd r 0 8) c = none) :
    (s.withRecord c r).ckptOf (rd r 0 8) c = some r := by
  have hnone : s.cor.records.find? (fun x => x.core == c && rd x.bytes 0 8 == rd r 0 8) = none := Option.map_eq_none_iff.1 h
  show (List.find? _ (s.cor.records ++ [_])).map _ = some r
  rw [List.find?_append, hnone, Option.none_or, List.find?_cons_of_pos (by simp)]
  rfl

theorem recordIn_first {s : State} {c : Nat} {r : Bytes} (hcheck : rd r 60 4 = crcK (r.take 60)) (hnone : s.ckptOf (rd r 0 8) c = none)
    (a b : Option Nat) (banks : Bool) : s.recordIn c r a b banks =
      if (s.withRecord c r).allIn (rd r 0 8) then (s.withRecord c r).vote (rd r 0 8) a b banks else s.withRecord c r := by
  unfold State.recordIn; dsimp only
  rw [if_neg (not_not.2 hcheck), hnone]
  rfl

theorem allIn_false {s : State} {n d : Nat} (hd : d < 3) (hvotes : (s.core d).votes = true) (hnone : s.ckptOf n d = none) :
    s.allIn n = false := by
  have hmem : d ∈ s.voters := List.mem_filter.2 ⟨List.mem_range.2 hd, hvotes⟩
  refine Bool.eq_false_iff.2 fun hall => ?_
  have := List.all_eq_true.1 hall d hmem
  simp [hnone] at this

theorem checkpoint_closed {s : State} {c : Nat} {counts : List Nat} {acts : List Action} {barrier : Bool} {given : Bytes}
    (hreach : s.reaches counts c = true) (hclose : (s.retire counts).closes c acts barrier = true) (hlen : given.length = 64)
    (a b : Option Nat) (banks : Bool) : s.checkpoint c counts acts barrier given a b banks =
      ((s.retire counts).closeBank c acts).recordIn c ((s.retire counts).ckptBytes c acts barrier given) a b banks := by
  have hpad : padTo 64 given = given := by simp [padTo, hlen, zeros]
  simp only [State.checkpoint, hreach, Bool.true_or, hclose, Bool.and_self, if_true, hpad]

/-- The bank that core c closes. -/
def Core.closed (x : Core) (acts : List Action) : Core :=
  { x with ckpt := x.ckpt + 1, ckptInstr := x.instr, banks := x.banks ++ [(x.ckpt + 1, acts)] }

theorem core_closeBank (s : State) (c : Nat) (acts : List Action) (j : Nat) :
    (s.closeBank c acts).core j = if j = c then (s.core j).closed acts else s.core j := core_modCore ..

theorem votes_closeBank (s : State) (c : Nat) (acts : List Action) (j : Nat) :
    ((s.closeBank c acts).core j).votes = (s.core j).votes := by
  rw [core_closeBank]; split <;> rfl

theorem records_closeBank (s : State) (c : Nat) (acts : List Action) : (s.closeBank c acts).cor.records = s.cor.records := rfl
theorem mc_closeBank (s : State) (c : Nat) (acts : List Action) : (s.closeBank c acts).mc = s.mc := rfl
theorem accepted_closeBank (s : State) (c : Nat) (acts : List Action) : (s.closeBank c acts).cor.accepted = s.cor.accepted := rfl
theorem closeBank_rest (s : State) (c : Nat) (acts : List Action) : { s.closeBank c acts with cor := {} } = { s with cor := {} } := rfl

theorem core_withRecord (s : State) (c : Nat) (r : Bytes) (j : Nat) : (s.withRecord c r).core j = s.core j := rfl
theorem accepted_withRecord (s : State) (c : Nat) (r : Bytes) : (s.withRecord c r).cor.accepted = s.cor.accepted := rfl
theorem records_withRecord (s : State) (c : Nat) (r : Bytes) :
    (s.withRecord c r).cor.records = s.cor.records ++ [{ core := c, bytes := r, at_ := s.mc }] := rfl
theorem withRecord_rest (s : State) (c : Nat) (r : Bytes) : { s.withRecord c r with cor := {} } = { s with cor := {} } := rfl

theorem cor_advance (s : State) (dt : Nat) : (s.advance dt).cor = s.cor := rfl
theorem mc_advance (s : State) (dt : Nat) : (s.advance dt).mc = s.mc + dt := rfl
theorem core_advance (s : State) (dt c : Nat) : (s.advance dt).core c = s.core c := rfl

/-! ### The vote (R483, R484) -/

/-- What the two counts of the voter say: the checkpoints accepted, and the last decision. -/
def State.voteCounts (s : State) : Nat × Nat := (s.cor.accepted, s.cor.last)

theorem voteCounts_of_unmoved {s t : State} (h : t.unmoved = s.unmoved) : t.voteCounts = s.voteCounts := by
  simp only [State.voteCounts, unmoved_cor h]

/-- The state that DEGRADED is left for, before its change is told and recorded. -/
def State.leftDegraded (s : State) : State :=
  { s with glb := { s.glb with st := s.glb.prior, prior := .startUp, cause := 0 }
           cor := { s.cor with degExits := inc 16 s.cor.degExits } }

theorem exitDegraded_eq (s : State) (cause : Nat) : s.exitDegraded cause =
    if s.glb.st = .degraded ∧ s.glb.cause = cause ∧ s.mc - s.glb.tdegFrom < s.glb.tdegS * 1000 * msMc then
      s.leftDegraded.stateChanged.stateRecord 2 else s := rfl

theorem voteCounts_leftDegraded (s : State) : s.leftDegraded.voteCounts = s.voteCounts := rfl

theorem voteCounts_exitDegraded (s : State) (cause : Nat) : (s.exitDegraded cause).voteCounts = s.voteCounts := by
  rw [exitDegraded_eq]; split
  · rw [voteCounts_of_unmoved ((unmoved_stateRecord ..).trans (unmoved_stateChanged ..)), voteCounts_leftDegraded]
  · rfl

/-- A core that agreed in TRAIL is back in service. -/
def State.backInService (s : State) (c : Nat) : State :=
  (((s.modCore c fun y => { y with st := .service }).coreRecord c).repairEnds (coreElem c)).exitDegraded 0x01

theorem voteCounts_coreRecord (s : State) (c : Nat) : (s.coreRecord c).voteCounts = s.voteCounts :=
  voteCounts_of_unmoved (unmoved_of_quiet (quiet_evDev ..))

theorem voteCounts_repairEnds (s : State) (k : Nat) : (s.repairEnds k).voteCounts = s.voteCounts := rfl

theorem voteCounts_modCore (s : State) (c : Nat) (f : Core → Core) : (s.modCore c f).voteCounts = s.voteCounts := rfl

theorem voteCounts_backInService (s : State) (c : Nat) : (s.backInService c).voteCounts = s.voteCounts := by
  rw [State.backInService, voteCounts_exitDegraded, voteCounts_repairEnds, voteCounts_coreRecord, voteCounts_modCore]

theorem mem_out_stateChanged {s : State} {x : Out} (h : x ∈ s.out) : x ∈ s.stateChanged.out := by
  refine List.foldlRecOn (motive := fun q : State => x ∈ q.out) _ _ (show x ∈ s.sendStateFrame.out from h) fun q hq fn _ => ?_
  split
  · exact mem_out_signal hq ..
  · exact hq

theorem mem_out_stateRecord {s : State} {x : Out} (h : x ∈ s.out) (sev : Nat) : x ∈ (s.stateRecord sev).out := mem_out_evDev h ..

theorem mem_out_exitDegraded {s : State} {x : Out} (h : x ∈ s.out) (cause : Nat) : x ∈ (s.exitDegraded cause).out := by
  have hleft : x ∈ s.leftDegraded.out := h
  rw [exitDegraded_eq]; split
  · exact mem_out_stateRecord (mem_out_stateChanged hleft) 2
  · exact h

theorem mem_out_coreRecord {s : State} {x : Out} (h : x ∈ s.out) (c : Nat) : x ∈ (s.coreRecord c).out := mem_out_evDev h ..

theorem mem_out_repairEnds {s : State} {x : Out} (h : x ∈ s.out) (k : Nat) : x ∈ (s.repairEnds k).out := h

theorem mem_out_modCore {s : State} {x : Out} (h : x ∈ s.out) (c : Nat) (f : Core → Core) : x ∈ (s.modCore c f).out := h

theorem mem_out_backInService {s : State} {x : Out} (h : x ∈ s.out) (c : Nat) : x ∈ (s.backInService c).out :=
  mem_out_exitDegraded (mem_out_repairEnds (mem_out_coreRecord (mem_out_modCore h ..) c) _) _

theorem mem_out_emitAll {α : Type} (f : α → Out) {x : α} {l : List α} (hx : x ∈ l) (s : State) :
    f x ∈ (l.foldl (fun q y => q.emit (f y)) s).out :=
  foldl_of_mem (P := fun q : State => f x ∈ q.out) (fun _ _ h => List.mem_append_left _ h)
    (fun _ => List.mem_append_right _ (List.mem_singleton.2 rfl)) hx s

/-- A bank that is released leaves the device. -/
theorem mem_out_releaseBank {s : State} {n c m : Nat} {l : List (Nat × Nat × Bytes)}
    (hbank : (s.core c).banks.find? (fun x => x.1 == n) = some (m, l)) {x : Nat × Nat × Bytes} (hx : x ∈ l) :
    .action c x.1 x.2.1 x.2.2 ∈ (s.releaseBank n c).out := by
  unfold State.releaseBank
  rw [hbank]
  exact mem_out_emitAll (fun y : Nat × Nat × Bytes => Out.action c y.1 y.2.1 y.2.2) hx s

theorem cor_releaseBank (s : State) (n c : Nat) : (s.releaseBank n c).cor = s.cor := by
  unfold State.releaseBank
  refine view_foldl State.cor _ (fun q x => ?_) _ _
  rfl

theorem freeBanks_rest (s : State) (n : Nat) : { s.freeBanks n with cor := {} } = { s with cor := {} } :=
  foldl_modCore_rest ..

theorem voteCounts_freeBanks (s : State) (n : Nat) : (s.freeBanks n).voteCounts = s.voteCounts := by
  unfold State.freeBanks
  exact view_foldl State.voteCounts _ (fun q c => voteCounts_modCore ..) _ _

/-- The state in which checkpoint n counts as accepted and its banks are free again. -/
def State.takenUp (s : State) (n c : Nat) : State :=
  ((s.releaseBank n c).modCor fun x => { x with accepted := (x.accepted + 1) % 2 ^ 64, released := some (c, n) }).freeBanks n

theorem voteCounts_takenUp (s : State) (n c : Nat) : (s.takenUp n c).voteCounts = ((s.cor.accepted + 1) % 2 ^ 64, s.cor.last) :=
  (voteCounts_freeBanks ..).trans (congrArg (fun x : Cores => ((x.accepted + 1) % 2 ^ 64, x.last)) (cor_releaseBank s n c))

theorem out_freeBanks (s : State) (n : Nat) : (s.freeBanks n).out = s.out := (congrArg State.out (freeBanks_rest s n) :)

theorem out_modCor (s : State) (f : Cores → Cores) : (s.modCor f).out = s.out := rfl

theorem out_takenUp (s : State) (n c : Nat) : (s.takenUp n c).out = (s.releaseBank n c).out := by
  rw [State.takenUp, out_freeBanks, out_modCor]

theorem accepted_of_all (s : State) (n : Nat) {a b c : Nat} :
    s.accepted n { code := .accept, majority := [a, b, c] } =
      ([a, b, c].filter fun c => (s.core c).st == .resync).foldl State.backInService (s.takenUp n a) := by
  unfold State.accepted; dsimp only
  rw [if_pos ⟨rfl, rfl⟩]
  rfl

theorem voteCounts_accepted (s : State) (n a b c : Nat) :
    (s.accepted n { code := .accept, majority := [a, b, c] }).voteCounts = ((s.cor.accepted + 1) % 2 ^ 64, s.cor.last) := by
  rw [accepted_of_all]
  exact (view_foldl State.voteCounts _ voteCounts_backInService _ _).trans (voteCounts_takenUp ..)

theorem mem_out_accepted {s : State} {n m a : Nat} {l : List (Nat × Nat × Bytes)}
    (hbank : (s.core a).banks.find? (fun x => x.1 == n) = some (m, l)) {x : Nat × Nat × Bytes} (hx : x ∈ l) (b c : Nat) :
    .action a x.1 x.2.1 x.2.2 ∈ (s.accepted n { code := .accept, majority := [a, b, c] }).out := by
  rw [accepted_of_all]
  refine List.foldlRecOn (motive := fun q : State => .action a x.1 x.2.1 x.2.2 ∈ q.out) _ _ ?_ fun q hq j _ => mem_out_backInService hq j
  rw [out_takenUp]
  exact mem_out_releaseBank hbank hx

/-- The halves agree on what the table of R484 says. -/
theorem vote_agreed (s : State) (n : Nat) : s.vote n none none false = s.fresh.2.react n (s.fresh.2.decision n s.fresh.1) := by
  unfold State.vote; dsimp only
  rw [if_neg (by simp)]

theorem decision_all {s : State} {n a b c free : Nat} {r : Bytes} (hvoters : s.voters = [a, b, c]) (ha : s.ckptOf n a = some r)
    (hb : s.ckptOf n b = some r) (hc : s.ckptOf n c = some r) (hflags : rd r 47 1 = 0) :
    s.decision n free = { code := .accept, majority := [a, b, c] } := by
  have hflags' : rd (r.take 60) 47 1 = 0 := (rd_take (by decide)).trans hflags
  simp [State.decision, hvoters, ha, hb, hc, hflags', decideFlags]

theorem decision_missing {s : State} {n a b free : Nat} {r : Bytes} (hvoters : s.voters = [a, b]) (ha : s.ckptOf n a = some r)
    (hb : s.ckptOf n b = none) : s.decision n free = {} := by
  simp [State.decision, hvoters, ha, hb]

/-- The records of a checkpoint that is decided are gone. -/
def State.dropRecords (s : State) (n : Nat) : State :=
  s.modCor fun x => { x with records := x.records.filter fun r => rd r.bytes 0 8 != n }

theorem react_all {s : State} {n a b c : Nat} (hvoters : s.voters = [a, b, c]) :
    s.react n { code := .accept, majority := [a, b, c] } =
      ((s.modCor fun x => { x with last := 0 }).accepted n { code := .accept, majority := [a, b, c] }).dropRecords n := by
  simp only [State.react, hvoters]
  rfl

theorem react_twoFaults (s : State) (n : Nat) : s.react n {} = ((s.modCor fun x => { x with last := 4 }).enterSafe 0x10).dropRecords n := rfl

theorem exec_voteTimeout {dt : Nat} {s : State} {x : CkptRecord} {rest : List CkptRecord} (hrec : s.cor.records = x :: rest)
    (hlate : s.mc + dt - x.at_ ≥ 100 * usMc) :
    exec (.voteTimeout dt none none false) s = .next ((s.advance dt).vote (rd x.bytes 0 8) none none false) := by
  show Host.Outcome.next ((s.advance dt).voteTimeout none none false) = _
  have hhead : (s.advance dt).cor.records.head? = some x := (congrArg List.head? hrec :)
  simp only [State.voteTimeout, hhead]
  exact congrArg Host.Outcome.next (if_pos hlate)

/-! ### What a checkpoint brings about -/

section
variable {s : State} {dt c : Nat} {counts : List Nat} {acts : List Action} {barrier : Bool} {given : Bytes}

/-- The state in which core c has closed its bank. -/
def State.bankClosed (s : State) (dt c : Nat) (counts : List Nat) (acts : List Action) : State :=
  ((s.advance dt).retire counts).closeBank c acts

theorem sansInstr_retired (s : State) (dt : Nat) (counts : List Nat) :
    ((s.advance dt).retire counts).sansInstr = (s.advance dt).sansInstr := sansInstr_retire ..

theorem core_bankClosed (s : State) (dt c : Nat) (counts : List Nat) (acts : List Action) (j : Nat) :
    (s.bankClosed dt c counts acts).core j =
      if j = c then (((s.advance dt).retire counts).core j).closed acts else ((s.advance dt).retire counts).core j := core_closeBank ..

theorem votes_bankClosed (s : State) (dt c : Nat) (counts : List Nat) (acts : List Action) (j : Nat) :
    ((s.bankClosed dt c counts acts).core j).votes = (s.core j).votes := by
  rw [State.bankClosed, votes_closeBank, sansInstr_votes (sansInstr_retired s dt counts), core_advance]

theorem records_bankClosed (s : State) (dt c : Nat) (counts : List Nat) (acts : List Action) :
    (s.bankClosed dt c counts acts).cor.records = s.cor.records := by
  rw [State.bankClosed, records_closeBank, sansInstr_records (sansInstr_retired s dt counts), cor_advance]

theorem mc_bankClosed (s : State) (dt c : Nat) (counts : List Nat) (acts : List Action) :
    (s.bankClosed dt c counts acts).mc = s.mc + dt := by
  rw [State.bankClosed, mc_closeBank, sansInstr_mc (sansInstr_retired s dt counts), mc_advance]

theorem accepted_bankClosed (s : State) (dt c : Nat) (counts : List Nat) (acts : List Action) :
    (s.bankClosed dt c counts acts).cor.accepted = s.cor.accepted := by
  rw [State.bankClosed, accepted_closeBank, sansInstr_accepted (sansInstr_retired s dt counts), cor_advance]

theorem bankClosed_rest (s : State) (dt c : Nat) (counts : List Nat) (acts : List Action) :
    { s.bankClosed dt c counts acts with cor := {} } = { s.advance dt with cor := {} } := by
  rw [State.bankClosed, closeBank_rest, sansInstr_rest (sansInstr_retired s dt counts)]

theorem exec_checkpoint (hreach : (s.advance dt).reaches counts c = true)
    (hclose : ((s.advance dt).retire counts).closes c acts barrier = true) (hlen : given.length = 64) (hcheck : rd given 60 4 = 0)
    {r : Bytes} (hr : ((s.advance dt).retire counts).ckptBytes c acts barrier given = r) (hnone : s.ckptOf (rd r 0 8) c = none) :
    exec (.checkpoint dt c counts acts barrier given none none false) s = .next
      (if ((s.bankClosed dt c counts acts).withRecord c r).allIn (rd r 0 8) then
        ((s.bankClosed dt c counts acts).withRecord c r).vote (rd r 0 8) none none false
      else (s.bankClosed dt c counts acts).withRecord c r) := by
  show Host.Outcome.next ((s.advance dt).checkpoint c counts acts barrier given none none false) = _
  rw [checkpoint_closed hreach hclose hlen, hr]
  exact congrArg Host.Outcome.next (recordIn_first (hr ▸ check_ckptBytes hlen hcheck)
    ((ckptOf_of_records (records_bankClosed s dt c counts acts) ..).trans hnone) none none false)

theorem ckptOf_arrived_ne {d : Nat} (h : d ≠ c) (n : Nat) (r : Bytes) :
    ((s.bankClosed dt c counts acts).withRecord c r).ckptOf n d = s.ckptOf n d :=
  (ckptOf_withRecord_ne _ h ..).trans (ckptOf_of_records (records_bankClosed s dt c counts acts) ..)

theorem votes_arrived (r : Bytes) (j : Nat) :
    (((s.bankClosed dt c counts acts).withRecord c r).core j).votes = (s.core j).votes := by
  rw [core_withRecord, votes_bankClosed]

theorem length_of_closes (h : s.closes c acts barrier = true) : acts.length ≤ 32 := by
  simp only [State.closes, Bool.and_eq_true, decide_eq_true_eq] at h
  obtain ⟨⟨-, hlen⟩, -⟩ := h
  exact hlen

end

/-- Settles O29. -/
theorem checkpointsAreVoted : Obligations.CheckpointsAreVoted := by
  unfold Obligations.CheckpointsAreVoted
  intro dt c counts acts barrier given s hc hlen hcheck hreach hclose
  have hretired := sansInstr_retired s dt counts
  obtain ⟨r, hr⟩ : ∃ r, ((s.advance dt).retire counts).ckptBytes c acts barrier given = r := ⟨_, rfl⟩
  simp only [hr]
  refine ⟨?_, ?_, ?_⟩
  · rintro hnone ⟨d, hd, hdc, hvotes, hmissing⟩
    have hin : ((s.bankClosed dt c counts acts).withRecord c r).allIn (rd r 0 8) = false :=
      allIn_false hd ((votes_arrived r d).trans hvotes) ((ckptOf_arrived_ne hdc ..).trans hmissing)
    have hcore : ((s.bankClosed dt c counts acts).withRecord c r).core c = (((s.advance dt).retire counts).core c).closed acts := by
      rw [core_withRecord, core_bankClosed, if_pos rfl]
    have hrec := records_withRecord (s.bankClosed dt c counts acts) c r
    rw [records_bankClosed, mc_bankClosed] at hrec
    have hacc := (accepted_withRecord (s.bankClosed dt c counts acts) c r).trans (accepted_bankClosed ..)
    have hrest := (withRecord_rest (s.bankClosed dt c counts acts) c r).trans (bankClosed_rest ..)
    refine ⟨_, (exec_checkpoint hreach hclose hlen hcheck hr hnone).trans (congrArg _ (if_neg (by simp [hin]))), ?_⟩
    generalize (s.bankClosed dt c counts acts).withRecord c r = t at *
    rw [hcore, hrec]
    simp only [Core.closed, sansInstr_ckpt hretired, sansInstr_banks hretired, core_advance]
    refine ⟨trivial, trivial, trivial, hacc, fun hzeros => ?_, hrest⟩
    · subst hzeros
      obtain ⟨h0, h8, h44, h47⟩ := fields_ckptBytes (s := (s.advance dt).retire counts) (c := c) (barrier := barrier) (length_of_closes hclose)
      rw [hr] at h0 h8 h44 h47
      rw [sansInstr_ckpt hretired, core_advance] at h0
      rw [sansInstr_flag hretired, core_advance] at h47
      exact ⟨h0, h8, h44, h47⟩
  · rintro hvoters h0 h1 h2 hflags rfl
    have hself : ((s.bankClosed dt 2 counts acts).withRecord 2 r).ckptOf (rd r 0 8) 2 = some r :=
      ckptOf_withRecord_self ((ckptOf_of_records (records_bankClosed s dt 2 counts acts) ..).trans h2)
    have h0' : ((s.bankClosed dt 2 counts acts).withRecord 2 r).ckptOf (rd r 0 8) 0 = some r := (ckptOf_arrived_ne (by decide) ..).trans h0
    have h1' : ((s.bankClosed dt 2 counts acts).withRecord 2 r).ckptOf (rd r 0 8) 1 = some r := (ckptOf_arrived_ne (by decide) ..).trans h1
    have hv : ((s.bankClosed dt 2 counts acts).withRecord 2 r).voters = [0, 1, 2] := (voters_of_votes (votes_arrived r)).trans hvoters
    have hin : ((s.bankClosed dt 2 counts acts).withRecord 2 r).allIn (rd r 0 8) = true := by simp [State.allIn, hv, h0', h1', hself]
    have hexec := (exec_checkpoint hreach hclose hlen hcheck hr h2).trans (congrArg _ (if_pos hin))
    have hbanks : ((s.bankClosed dt 2 counts acts).withRecord 2 r).core 0 = ((s.advance dt).retire counts).core 0 := by
      rw [core_withRecord, core_bankClosed, if_neg (by decide)]
    have hacc := (accepted_withRecord (s.bankClosed dt 2 counts acts) 2 r).trans (accepted_bankClosed ..)
    generalize (s.bankClosed dt 2 counts acts).withRecord 2 r = t at *
    have hdecision : t.fresh.2.decision (rd r 0 8) t.fresh.1 = { code := .accept, majority := [0, 1, 2] } :=
      decision_all (s := t.fresh.2) hv h0' h1' hself hflags
    rw [vote_agreed, hdecision, react_all (s := t.fresh.2) hv] at hexec
    refine ⟨_, hexec, ?_, ?_, fun l hl x hx => ?_⟩
    · exact (congrArg Prod.fst (voteCounts_accepted ..)).trans (congrArg (fun a => (a + 1) % 2 ^ 64) hacc)
    · exact congrArg Prod.snd (voteCounts_accepted ..)
    · have hl' : (t.core 0).banks.find? (fun x => x.1 == rd r 0 8) = some (rd r 0 8, l) := by
        rw [hbanks, sansInstr_banks hretired, core_advance]
        exact hl
      exact mem_out_accepted (s := t.fresh.2.modCor fun x => { x with last := 0 }) hl' hx 1 2
  · intro x rest hvoters hrec hlate hst h0 h1
    have hdecision : (s.advance dt).fresh.2.decision (rd x.bytes 0 8) (s.advance dt).fresh.1 = {} :=
      decision_missing (s := (s.advance dt).fresh.2) hvoters h0 h1
    have hexec := exec_voteTimeout hrec hlate
    rw [vote_agreed, hdecision, react_twoFaults] at hexec
    generalize hq : ((s.advance dt).fresh.2.modCor fun x => { x with last := 4 }) = q at hexec
    have hlast : q.cor.last = 4 := by subst hq; rfl
    have hqst : q.glb.st ≠ .safe := by subst hq; exact hst
    refine ⟨_, hexec, ?_, st_enterSafe .., cause_enterSafe hqst _⟩
    exact (congrArg Cores.last (unmoved_cor (unmoved_enterSafe q 0x10))).trans hlast

end Sys2Proof.Machine
end

section
/-! Plibex: telegrams that arrive and telegrams that are due (R564 to R578), and the state of the links (R586, R588). -/

namespace Sys2Proof.Machine

theorem conn_of_plx {s t : State} (h : t.plx = s.plx) (i : Nat) : t.conn i = s.conn i := (congrArg (fun p : Plibex => tget p.conns i) h :)

theorem conn_of_quiet {s t : State} (h : t.quiet = s.quiet) (i : Nat) : t.conn i = s.conn i := conn_of_plx (quiet_plx h) i

theorem mac_of_quiet {s t : State} (h : t.quiet = s.quiet) (m : Nat) : t.mac m = s.mac m :=
  (congrArg (fun p : Plibex => tget p.macs m) (quiet_plx h) :)

/-! ### A telegram arrives (R573 to R576) -/

/-- A frame that goes on to Plibex. -/
theorem exec_plibexRx {dt ago : Nat} {d : Datagram} {s s1 : State} (hmac : d.mac < 4) (h9 : s.atStep 9 = true)
    (hin : (s.advance dt).macIn d = (s1, true)) :
    exec (.plibexRx dt d ago) s = .next (s1.plibexIn d ((s.advance dt).tmb.now - ago)) := by
  have h9' : (s.advance dt).atStep 9 = true := h9
  show Host.Outcome.next (if d.mac < 4 ∧ (s.advance dt).atStep 9 then (s.advance dt).plibexRx d ago else s.advance dt) = _
  rw [if_pos ⟨hmac, h9'⟩, State.plibexRx, hin]
  rfl

/-- A telegram that meets an entry without FRER is judged by the checks of R573. -/
theorem plibexIn_entry {s : State} {d : Datagram} {t i : Nat} (hlen : 24 ≤ d.payload.length) (hver : fld (net d.payload 0 1) 4 4 = 1)
    (hn : net d.payload 2 2 ≤ 64) (hall : d.payload.length = 24 + net d.payload 2 2) (hentry : s.rxEntry (net d.payload 4 4) = some i)
    (hfrer : s.cfg.active.connFrer i = false) :
    s.plibexIn d t =
      if s.rxCode i d t = 0 then s.acceptRx i d.payload t else s.rejectRx i (s.rxCode i d t) (net d.payload 8 4) := by
  have hform : (decide (24 ≤ d.payload.length) && fld (net d.payload 0 1) 4 4 == 1 && decide (net d.payload 2 2 ≤ 64) &&
      d.payload.length == 24 + net d.payload 2 2) = true := by
    rw [Bool.and_eq_true, Bool.and_eq_true, Bool.and_eq_true]
    exact ⟨⟨⟨decide_eq_true hlen, beq_iff_eq.2 hver⟩, decide_eq_true hn⟩, beq_iff_eq.2 hall⟩
  unfold State.plibexIn; dsimp only
  rw [if_neg (by simp only [hform]; decide), hentry]
  dsimp only
  rw [hfrer]

/-- The connection that an accepted telegram leaves. -/
def State.liveConn (s : State) (i : Nat) (b : Bytes) (t : Nat) : Conn :=
  { s.conn i with
    st := .live, last := net b 8 4, count := inc 32 (s.conn i).count, lastAt := s.tmb.now, wdFrom := s.mc
    maxAgeUs := max (s.conn i).maxAgeUs (sat 32 ((telegramAge t b + 999) / 1000).toNat)
    run := if bitAt (net b 1 1) 0 then 0 else net b 20 4, rfault := net b 24 4
    armed := match (s.conn i).st with
      | .wait => true
      | .timeout => false
      | .live => (s.conn i).armed || !bitAt (if bitAt (net b 1 1) 0 then 0 else net b 20 4) (s.cfg.active.conn i 26 1) }

/-- The accepted telegram counts. -/
def State.countRx (s : State) : State := { s with plx := { s.plx with rxTotal := (s.plx.rxTotal + 1) % 2 ^ 64 } }

theorem conn_countRx (s : State) (i : Nat) : s.countRx.conn i = s.conn i := rfl
theorem sansPlx_countRx (s : State) : s.countRx.sansPlx = s.sansPlx := rfl
theorem sansPlx_setConn (s : State) (i : Nat) (x : Conn) : (s.setConn i x).sansPlx = s.sansPlx := rfl

theorem quiet_acceptRx (s : State) (i : Nat) (b : Bytes) (t : Nat) :
    (s.acceptRx i b t).quiet = (s.setConn i (s.liveConn i b t)).countRx.quiet := by
  unfold State.acceptRx; dsimp only; split
  · exact quiet_evidence ..
  · rfl

/-- The connection that a rejected telegram leaves: its counts, and when it was recorded last. -/
def Conn.rejectedFor (x : Conn) (code since : Nat) (at_ : Option Nat) : Conn :=
  { x with rejected := inc 16 x.rejected, lastFault := code, rejSince := since, recordAt := at_ }

/-- The rejected telegram counts. -/
def State.countRejected (s : State) : State := { s with plx := { s.plx with rxFault := inc 32 s.plx.rxFault } }

theorem sansPlx_countRejected (s : State) : s.countRejected.sansPlx = s.sansPlx := rfl

theorem rejectRx_counts (s : State) (i code seq : Nat) : ∃ since at_,
    (s.rejectRx i code seq).quiet = (s.countRejected.setConn i ((s.conn i).rejectedFor code since at_)).quiet := by
  unfold State.rejectRx; dsimp only
  generalize (code != 6 && _ : Bool) = due
  cases due with
  | true => exact ⟨0, some s.mc, quiet_evidence (s.countRejected.setConn i ((s.conn i).rejectedFor code 0 (some s.mc))) ..⟩
  | false => exact ⟨inc 32 (s.conn i).rejSince, (s.conn i).recordAt, rfl⟩

/-- Settles O42. -/
theorem telegramsAreCheckedInOrder : Obligations.TelegramsAreCheckedInOrder := by
  unfold Obligations.TelegramsAreCheckedInOrder
  intro dt ago i d s s1 hmac h9 hin hlen hver hn hall hentry hfrer
  have hexec := (exec_plibexRx (ago := ago) hmac h9 hin).trans (congrArg _ (plibexIn_entry hlen hver hn hall hentry hfrer))
  refine ⟨fun hcode => ?_, fun code hne hcode => ?_⟩
  · rw [if_pos hcode] at hexec
    have hq := quiet_acceptRx s1 i d.payload ((s.advance dt).tmb.now - ago)
    have hconn : ∀ j, (s1.acceptRx i d.payload ((s.advance dt).tmb.now - ago)).conn j =
        (s1.setConn i (s1.liveConn i d.payload ((s.advance dt).tmb.now - ago))).conn j := fun j =>
      (conn_of_quiet hq j).trans (conn_countRx ..)
    have hself := (hconn i).trans (State.setConn_conn ..)
    refine ⟨_, hexec, congrArg Conn.st hself, congrArg Conn.last hself, congrArg Conn.count hself,
      fun j hj => (hconn j).trans (State.setConn_conn_ne _ _ _ hj), ?_⟩
    exact (sansPlx_of_quiet hq).trans ((sansPlx_countRx _).trans (sansPlx_setConn ..))
  · rw [if_neg (hcode ▸ hne), hcode] at hexec
    obtain ⟨since, at_, hq⟩ := rejectRx_counts s1 i code (net d.payload 8 4)
    have hself := (conn_of_quiet hq i).trans (State.setConn_conn ..)
    exact ⟨_, hexec, (congrArg Conn.lastFault hself :), (congrArg Conn.st hself :), (congrArg Conn.last hself :),
      (congrArg Conn.rejected hself :), (sansPlx_of_quiet hq).trans ((sansPlx_setConn ..).trans (sansPlx_countRejected _))⟩

/-! ### A telegram leaves (R550, R551, R564) -/

theorem mem_out_evidence {s : State} {x : Out} (h : x ∈ s.out) (kind tenant sev ctx : Nat) (payload : Bytes) :
    x ∈ (s.evidence kind tenant sev ctx payload).out := by
  unfold State.evidence State.logRecord
  split
  · refine mem_out_copies ?_ _ _
    exact h
  · exact h

/-- The MACs that a telegram of connection i leaves on. -/
def Cfg.sendMacs (g : Cfg) (i : Nat) : List Nat := if g.connFrer i then [g.connMac i, g.connMac i ^^^ 1] else [g.connMac i]

theorem connMac_mem (g : Cfg) (i : Nat) : g.connMac i ∈ g.sendMacs i := by
  unfold Cfg.sendMacs; split <;> simp

/-- Bytes b of connection i leave on MAC m. -/
def State.onMac (i : Nat) (b : Bytes) (q : State) (m : Nat) : State :=
  ({ q with plx := { q.plx with macs := tmod q.plx.macs m fun x => { x with tx := inc 32 x.tx } } }).emit (.telegram i m b)

theorem conn_onMac (i : Nat) (b : Bytes) (q : State) (m j : Nat) : (q.onMac i b m).conn j = q.conn j := rfl

theorem mem_out_onMac_self (i : Nat) (b : Bytes) (q : State) (m : Nat) : .telegram i m b ∈ (q.onMac i b m).out :=
  List.mem_append_right _ (List.mem_singleton.2 rfl)

theorem mem_out_onMac {q : State} {x : Out} (h : x ∈ q.out) (i : Nat) (b : Bytes) (m : Nat) : x ∈ (q.onMac i b m).out :=
  List.mem_append_left _ h

/-- The connection that a telegram leaves behind. -/
def State.sentConn (s : State) (i typ : Nat) (p : Bytes) : Conn :=
  { s.conn i with
    txSeq := ((s.conn i).txSeq + 1) % 2 ^ 32, count := inc 32 (s.conn i).count, lastAt := s.tmb.now, sentAt := some s.mc
    lastPayload := some (typ, p), rebound := false
    rtag := if s.cfg.active.connFrer i then ((s.conn i).rtag + 1) % 65536 else (s.conn i).rtag }

def State.countTx (s : State) : State := { s with plx := { s.plx with txTotal := (s.plx.txTotal + 1) % 2 ^ 64 } }

theorem conn_countTx (s : State) (i : Nat) : s.countTx.conn i = s.conn i := rfl

/-- The telegram itself. -/
def State.telegram (s : State) (i typ : Nat) (flag : Bool) (p : Bytes) : Bytes :=
  telegramBytes typ (b2n flag + 2 * b2n ((s.conn i).lastPayload == some (typ, p))) (s.cfg.active.connId i)
    (((s.conn i).txSeq + 1) % 2 ^ 32) (if s.timeValid then s.tmb.now / 16 else 0) p s.cfg.active.devId (s.cfg.active.connPeer i)

theorem sendTelegram_allowed {s : State} {typ : Nat} (h : s.timeValid = true ∨ typ = 2) (i : Nat) (flag : Bool) (p : Bytes) :
    s.sendTelegram i typ flag p =
      (s.cfg.active.sendMacs i).foldl (State.onMac i (s.telegram i typ flag p)) (s.setConn i (s.sentConn i typ p)).countTx := by
  have hgo : ¬ (!s.timeValid && typ != 2) = true := by rcases h with h | h <;> simp [h]
  unfold State.sendTelegram; dsimp only
  rw [if_neg hgo]
  rfl

/-- The passing of time does not make the local time valid or invalid. -/
theorem timeValid_advance (s : State) (dt : Nat) : (s.advance dt).timeValid = s.timeValid := by
  show (s.tmb.advance dt).valid = s.tmb.valid
  unfold TimeBase.advance; split <;> rfl

theorem sent_advance (s t : State) (dt i typ : Nat) (p : Bytes) : (s.advance dt).sent t i typ p ↔ s.sent t i typ p := Iff.rfl

/-- What `sent` says of the two states; a telegram that has left has left whatever follows. -/
theorem sent_of_sansPlx {s t u : State} {i typ : Nat} {p : Bytes} (h : s.sent t i typ p) (hrest : u.sansPlx = t.sansPlx)
    (hconn : ∀ j, u.conn j = t.conn j) (hout : ∀ x ∈ t.out, x ∈ u.out) : s.sent u i typ p := by
  obtain ⟨⟨m, hm⟩, hseq, hat, hother⟩ := h
  have htmb : u.tmb = t.tmb := (congrArg State.tmb hrest :)
  have hmc : u.mc = t.mc := (congrArg State.mc hrest :)
  have hvalid : u.timeValid = t.timeValid := congrArg TimeBase.valid htmb
  refine ⟨⟨m, hout _ ?_⟩, (congrArg Conn.txSeq (hconn i)).trans hseq, ?_, fun j hj => (hconn j).trans (hother j hj)⟩
  · rw [hvalid, htmb]
    exact hm
  · rw [hconn, hmc]
    exact hat

theorem sent_sendTelegram {s : State} {typ : Nat} (h : s.timeValid = true ∨ typ = 2) (i : Nat) (p : Bytes) :
    s.sent (s.sendTelegram i typ (typ == 2) p) i typ p := by
  have hrest := sansPlx_sendTelegram s i typ (typ == 2) p
  have htmb : (s.sendTelegram i typ (typ == 2) p).tmb = s.tmb := (congrArg State.tmb hrest :)
  have hmc : (s.sendTelegram i typ (typ == 2) p).mc = s.mc := (congrArg State.mc hrest :)
  have hvalid : (s.sendTelegram i typ (typ == 2) p).timeValid = s.timeValid := congrArg TimeBase.valid htmb
  have hconn : ∀ j, (s.sendTelegram i typ (typ == 2) p).conn j = (s.setConn i (s.sentConn i typ p)).conn j := fun j => by
    rw [sendTelegram_allowed h]
    exact (view_foldl (fun q : State => q.conn j) _ (fun q m => conn_onMac ..) _ _).trans (conn_countTx ..)
  have hself := (hconn i).trans (State.setConn_conn ..)
  refine ⟨⟨s.cfg.active.connMac i, ?_⟩, congrArg Conn.txSeq hself, ?_, fun j hj => (hconn j).trans (State.setConn_conn_ne _ _ _ hj)⟩
  · rw [hvalid, htmb, sendTelegram_allowed h]
    exact foldl_of_mem (f := State.onMac i (s.telegram i typ (typ == 2) p)) (P := fun q : State => .telegram i (s.cfg.active.connMac i) (s.telegram i typ (typ == 2) p) ∈ q.out)
      (fun q m hq => mem_out_onMac hq ..) (fun q => mem_out_onMac_self ..) (connMac_mem ..) _
  · rw [hmc]
    exact congrArg Conn.sentAt hself

theorem sent_sendSafe (s : State) (cause i : Nat) : s.sent (s.sendSafe cause i) i 2 (s.safePayload cause) :=
  sent_sendTelegram (.inr rfl) ..

/-! ### Telegrams that are due (R565 to R567, R569) -/

theorem quiet_txLate (s : State) (i typ us : Nat) : (s.txLate i typ us).sansPlx = s.sansPlx ∧ ∀ j, (s.txLate i typ us).conn j = s.conn j := by
  unfold State.txLate; split
  · exact ⟨(sansPlx_of_quiet (quiet_evidence ..)).trans rfl, fun j => (conn_of_quiet (quiet_evidence ..) j).trans rfl⟩
  · exact ⟨rfl, fun _ => rfl⟩

/-- The count of telegrams that left late. -/
def State.countLate (s : State) : State := { s with plx := { s.plx with txLate := inc 32 s.plx.txLate } }

theorem mem_out_txLate {s : State} {x : Out} (h : x ∈ s.out) (i typ us : Nat) : x ∈ (s.txLate i typ us).out := by
  have hcount : x ∈ s.countLate.out := h
  unfold State.txLate; split
  · exact mem_out_evidence hcount ..
  · exact h

theorem sent_txLate {s t : State} {i typ : Nat} {p : Bytes} (h : s.sent t i typ p) (k typ' us : Nat) : s.sent (t.txLate k typ' us) i typ p := by
  obtain ⟨hrest, hconn⟩ := quiet_txLate t k typ' us
  exact sent_of_sansPlx h hrest hconn fun x hx => mem_out_txLate hx ..

theorem glb_of_txLate (s : State) (i typ us : Nat) : (s.txLate i typ us).glb = s.glb := (congrArg State.glb (quiet_txLate s i typ us).1 :)

theorem sent_leftAfter {s t : State} {i typ : Nat} {p : Bytes} (h : s.sent t i typ p) (old : State) (k typ' due : Nat) :
    s.sent (t.leftAfter old k typ' due) i typ p := by
  unfold State.leftAfter; split
  · exact h
  · exact sent_txLate h ..

theorem glb_of_leftAfter (s old : State) (i typ due : Nat) : (s.leftAfter old i typ due).glb = s.glb := by
  unfold State.leftAfter; split
  · rfl
  · exact glb_of_txLate ..

theorem periodic_verdict {s : State} {i : Nat} {p : Bytes} (hst : s.glb.st ≠ .safe) (htype : s.cfg.active.connType i = 1)
    (hlast : (s.conn i).lastPayload = some (1, p)) (hbound : (s.conn i).rebound = false) : s.periodic i = s.sendTelegram i 1 false p := by
  unfold State.periodic; dsimp only
  rw [if_neg hst, if_neg (by rw [htype]; decide), hlast, hbound]
  rfl

theorem periodic_safe {s : State} (h : s.glb.st = .safe) (i : Nat) : s.periodic i = s.sendSafe s.glb.cause i := if_pos h

theorem exec_txPeriod {dt i x : Nat} {s : State} (hvalid : s.cfg.active.connValid i = true) (htx : s.cfg.active.connRx i = false)
    (h9 : s.atStep 9 = true) (hsent : (s.conn i).sentAt = some x) :
    exec (.txPeriod dt i) s = .next (if s.mc + dt - x ≥ s.cfg.active.connTxMs i * msMc then
      ((s.advance dt).periodic i).leftAfter (s.advance dt) i (if (s.advance dt).glb.st = .safe then 2 else s.cfg.active.connType i)
        (x + s.cfg.active.connTxMs i * msMc) else s.advance dt) := by
  have hcond : ((s.advance dt).cfg.active.connValid i && !(s.advance dt).cfg.active.connRx i && (s.advance dt).atStep 9) = true := by
    rw [show (s.advance dt).cfg = s.cfg from rfl, hvalid, htx]
    exact h9
  have hsent' : ((s.advance dt).conn i).sentAt = some x := hsent
  simp only [exec, execTxPeriod]
  rw [if_pos hcond, hsent']
  rfl

/-- A transmit FUNC_STATE connection, out of SAFE, that has sent before. -/
theorem exec_funcStateSend {dt i x : Nat} {s : State} (hvalid : s.cfg.active.connValid i = true) (htx : s.cfg.active.connRx i = false)
    (htype : s.cfg.active.connType i = 3) (hst : s.glb.st ≠ .safe) (hsent : (s.conn i).sentAt = some x) :
    exec (.funcStateSend dt i) s = .next (if s.mc + dt - x ≥ msMc ∧ (s.conn i).lastPayload ≠ some (3, s.funcPayload) then
      (s.advance dt).sendTelegram i 3 false (s.advance dt).funcPayload else s.advance dt) := by
  have hsent' : ((s.advance dt).conn i).sentAt = some x := hsent
  have hcfg : (s.advance dt).cfg = s.cfg := rfl
  have hglb : (s.advance dt).glb = s.glb := rfl
  have hcond : ((s.cfg.active.connValid i && !s.cfg.active.connRx i && s.cfg.active.connType i == 3 && s.glb.st != .safe &&
      decide ((s.advance dt).mc - x ≥ msMc) && ((s.advance dt).conn i).lastPayload != some (3, (s.advance dt).funcPayload)) = true) =
      (s.mc + dt - x ≥ msMc ∧ (s.conn i).lastPayload ≠ some (3, s.funcPayload)) := by
    simp only [hvalid, htx, htype, Bool.not_false, Bool.and_true, Bool.true_and, beq_self_eq_true, bne_iff_ne.2 hst, Bool.and_eq_true,
      decide_eq_true_eq, bne_iff_ne]
    rfl
  simp only [exec, execFuncStateSend, hsent', hcfg, hglb, hcond]

/-- A receive connection that has sent before. -/
theorem exec_safeStateRepeat {dt i x : Nat} {s : State} (hvalid : s.cfg.active.connValid i = true) (hrx : s.cfg.active.connRx i = true)
    (hsent : (s.conn i).sentAt = some x) :
    exec (.safeStateRepeat dt i) s = .next (if s.glb.st = .safe ∧ s.mc + dt - x ≥ 100 * msMc then
      ((s.advance dt).sendSafe s.glb.cause i).txLate i 2 ((s.mc + dt - x - 100 * msMc) / usMc) else s.advance dt) := by
  have hsent' : ((s.advance dt).conn i).sentAt = some x := hsent
  have hcfg : (s.advance dt).cfg = s.cfg := rfl
  have hglb : (s.advance dt).glb = s.glb := rfl
  have hmc : (s.advance dt).mc = s.mc + dt := rfl
  simp only [exec, execSafeStateRepeat, hsent', hcfg, hglb, hmc, hvalid, hrx, Option.getD_some, Bool.and_true, Bool.true_and,
    Bool.and_eq_true, Bool.or_eq_true, beq_iff_eq, decide_eq_true_eq, reduceCtorEq, false_or, if_false]

/-! ### The watchdog of a connection (R577) -/

/-- A connection whose watchdog has expired. -/
def Conn.expired (x : Conn) : Conn := { x with st := .timeout, timeouts := inc 16 x.timeouts }

theorem rxWatchdogExpiry_late {dt i : Nat} {s : State} (hvalid : s.cfg.active.connValid i = true) (hrx : s.cfg.active.connRx i = true)
    (hlive : (s.conn i).st = .live) (hlate : s.mc + dt - (s.conn i).wdFrom ≥ s.cfg.active.connWdMs i * msMc) :
    ∃ t, exec (.rxWatchdogExpiry dt i) s = .next t ∧ t.quiet = ((s.advance dt).setConn i (s.conn i).expired).quiet := by
  have hlive' : ((s.advance dt).conn i).st = .live := hlive
  have hlate' : (s.advance dt).mc - ((s.advance dt).conn i).wdFrom ≥ (s.advance dt).cfg.active.connWdMs i * msMc := hlate
  have hcfg : (s.advance dt).cfg = s.cfg := rfl
  have hcond : ((s.advance dt).cfg.active.connValid i && (s.advance dt).cfg.active.connRx i && ((s.advance dt).conn i).st == .live &&
      decide ((s.advance dt).mc - ((s.advance dt).conn i).wdFrom ≥ (s.advance dt).cfg.active.connWdMs i * msMc)) = true := by
    rw [hcfg, hvalid, hrx, hlive', ← hcfg, decide_eq_true hlate']
    rfl
  refine ⟨_, ?_, quiet_evidence ((s.advance dt).setConn i (s.conn i).expired) 0x0902 (s.cfg.active.connOwner i) 1 0xFFFFFFFF
    (le 2 i ++ zeros 2 ++ le 4 (s.conn i).last ++ le 4 (sat 32 ((s.mc + dt - (s.conn i).wdFrom) / usMc)))⟩
  simp only [exec, execRxWatchdogExpiry]
  rw [if_pos hcond]
  rfl

/-! ### The links (R586, R588) -/

theorem sansPlx_modMac (s : State) (m : Nat) (f : Mac → Mac) : (s.modMac m f).sansPlx = s.sansPlx := rfl

/-- A record of a MAC's change. -/
theorem mac_evDev_modMac (s : State) (m kind sev : Nat) (f : Mac → Mac) (p : Bytes) :
    ((s.modMac m f).evDev kind sev p).mac m = f (s.mac m) ∧ (∀ j, j ≠ m → ((s.modMac m f).evDev kind sev p).mac j = s.mac j) ∧
      ((s.modMac m f).evDev kind sev p).sansPlx = s.sansPlx :=
  ⟨(mac_of_quiet (quiet_evDev ..) m).trans (State.modMac_mac ..),
    fun j hj => (mac_of_quiet (quiet_evDev ..) j).trans (State.modMac_mac_ne _ _ _ hj),
    (sansPlx_of_quiet (quiet_evDev ..)).trans (sansPlx_modMac ..)⟩

theorem link_refused {dt m speed : Nat} {up : Bool} {s : State} (h : s.speedOk m speed = false) :
    exec (.link dt m up speed) s = .next (s.advance dt) :=
  congrArg Host.Outcome.next (if_neg fun ⟨_, _, hok⟩ => absurd (h.symm.trans hok) (by decide))

theorem preempt_refused {dt m status : Nat} {s : State} (h : 5 < status) : exec (.preempt dt m status) s = .next (s.advance dt) :=
  congrArg Host.Outcome.next (if_neg fun ⟨_, _, hok⟩ => absurd hok (by omega))

/-- Settles O43. -/
theorem connectionsAndLinks : Obligations.ConnectionsAndLinks := by
  unfold Obligations.ConnectionsAndLinks
  refine ⟨fun dt i x p s hvalid => ⟨?_, ?_, ?_, ?_⟩, fun dt m speed status up s h9 => ⟨link_refused, preempt_refused, ?_, ?_⟩⟩
  · intro hrx hlive hlate
    obtain ⟨t, hexec, hq⟩ := rxWatchdogExpiry_late hvalid hrx hlive hlate
    have hself := (conn_of_quiet hq i).trans (State.setConn_conn ..)
    exact ⟨t, hexec, (congrArg Conn.st hself :), (congrArg Conn.timeouts hself :),
      fun j hj => (conn_of_quiet hq j).trans (State.setConn_conn_ne _ _ _ hj), (sansPlx_of_quiet hq).trans (sansPlx_setConn ..)⟩
  · intro htx h9 hsent htime
    have hexec := exec_txPeriod (dt := dt) hvalid htx h9 hsent
    refine ⟨fun hearly => hexec.trans (congrArg _ (if_neg (by omega))), fun hdue hst htype hlast hbound => ?_, fun hdue hst => ?_⟩
    · rw [if_pos hdue, periodic_verdict (s := s.advance dt) hst htype hlast hbound] at hexec
      exact ⟨_, hexec, (sent_advance ..).1 (sent_leftAfter (sent_sendTelegram (s := s.advance dt) (.inl ((timeValid_advance ..).trans htime)) ..) ..),
        (glb_of_leftAfter ..).trans (glb_sendTelegram ..)⟩
    · rw [if_pos hdue, periodic_safe (s := s.advance dt) hst] at hexec
      exact ⟨_, hexec, (sent_advance ..).1 (sent_leftAfter (sent_sendSafe (s.advance dt) ..) ..),
        (glb_of_leftAfter ..).trans (glb_sendTelegram ..)⟩
  · intro htx htype hst hsent htime
    have hexec := exec_funcStateSend (dt := dt) hvalid htx htype hst hsent
    refine ⟨fun hdue hnew => ?_, fun hnot => hexec.trans (congrArg _ (if_neg ?_))⟩
    · rw [if_pos ⟨hdue, hnew⟩] at hexec
      exact ⟨_, hexec, (sent_advance ..).1 (sent_sendTelegram (s := s.advance dt) (.inl ((timeValid_advance ..).trans htime)) ..), glb_sendTelegram ..⟩
    · rintro ⟨hdue, hnew⟩
      exact hnot.elim (fun h => by omega) hnew
  · intro hrx hsent
    have hexec := exec_safeStateRepeat (dt := dt) hvalid hrx hsent
    refine ⟨fun hst hdue => ?_, fun hnot => hexec.trans (congrArg _ (if_neg ?_))⟩
    · rw [if_pos ⟨hst, hdue⟩] at hexec
      exact ⟨_, hexec, (sent_advance ..).1 (sent_txLate (sent_sendSafe (s.advance dt) ..) ..),
        (glb_of_txLate ..).trans (glb_sendTelegram ..)⟩
    · rintro ⟨hst, hdue⟩
      exact hnot.elim (fun h => h hst) (fun h => by omega)
  · intro hm hok
    obtain ⟨hself, hother, hrest⟩ := mac_evDev_modMac (s.advance dt) m 0x0905
      (b2n (s.cfg.active.conns.any fun i => s.cfg.active.connMac i == m || (s.cfg.active.connFrer i && (s.cfg.active.connMac i ^^^ 1) == m)))
      (fun x => { x with up := up, speed, preempt := x.preempt && up }) (le 1 m ++ le 1 (b2n up) ++ le 1 speed)
    exact ⟨_, congrArg Host.Outcome.next (if_pos ⟨hm, h9, hok⟩), (congrArg Mac.up hself :), (congrArg Mac.speed hself :), hother, hrest⟩
  · intro hm hstatus
    obtain ⟨hself, hother, hrest⟩ := mac_evDev_modMac (s.advance dt) m 0x0906 0 (fun x => { x with
        verify := status
        preempt := bitAt ((s.advance dt).cw (0x1C4018 + 0x1000 * m)) 0 && x.up &&
          (status == 3 || (status == 5 && !bitAt ((s.advance dt).cw (0x1C4018 + 0x1000 * m)) 1)) }) (le 1 m ++ le 1 status)
    exact ⟨_, congrArg Host.Outcome.next (if_pos ⟨hm, h9, hstatus⟩), (congrArg Mac.verify hself :), (congrArg Mac.up hself :), hother, hrest⟩

end Sys2Proof.Machine
end

section
/-! A descriptor that is taken and answered (R404, R422, R427, R429), and the short opcodes (R442, R444). -/

namespace Sys2Proof.Machine

/-! ### Taking -/

/-- The state in which descriptor d has been taken. -/
def State.taken (s : State) (d : Desc) : State := s.modHst fun h => { h with
  fetched := h.fetched.erase d
  turnSafety := if s.fnAux d.fn then h.turnSafety else d.key
  turnAux := if s.fnAux d.fn then d.key else h.turnAux }

/-- Descriptor d as it is acted upon for tenant n. -/
def Desc.taken (d : Desc) (n : Nat) : Taken :=
  { fn := d.fn, ring := d.ring, index := d.index, op := opcodeOf d.bytes, clamps := d.clamps, bytes := d.fields, tenant := n }

theorem lt_of_tenantOf {s : State} {fn n : Nat} (h : s.tenantOf fn = some n) : n < 8 := List.mem_range.1 (List.mem_of_find?_eq_some h)

theorem recTenant_of_tenantOf {s : State} {fn n : Nat} (h : s.tenantOf fn = some n) : s.recTenant fn = n := by
  simp [State.recTenant, h]

/-- The judgement of the descriptor that is taken next. -/
theorem onOpcode_taken {s : State} {d : Desc} {n : Nat} {mine : Nat → Bytes → Bool} (htake : s.nextTake = some d)
    (hten : s.tenantOf d.fn = some n) (hmine : mine (opcodeOf d.bytes) d.fields = true) (owner : State → Taken → Bool)
    (act : State → Taken → State) : s.onOpcode mine owner act =
      if safetyOnly (opcodeOf d.bytes) ∧ s.tenAux n then (d.taken n).stop (s.taken d) 0x11
      else if !(s.taken d).accepts (d.taken n) then (d.taken n).stop (s.taken d) 0x17
      else if !owner (s.taken d) (d.taken n) then (d.taken n).stop (s.taken d) 0x12
      else act (s.taken d) (d.taken n) := by
  have h8 := lt_of_tenantOf hten
  have hff : ¬ n = 0xFF := by omega
  have hmine' : ¬ (!mine (opcodeOf d.bytes) (clampDesc d.bytes).2) = true := by
    rw [show mine (opcodeOf d.bytes) (clampDesc d.bytes).2 = true from hmine]
    decide
  unfold State.onOpcode
  rw [htake]
  dsimp only
  rw [if_neg hmine', recTenant_of_tenantOf hten]
  simp only [hff, false_or]
  rfl

theorem nextTake_advance (s : State) (dt : Nat) : (s.advance dt).nextTake = s.nextTake := rfl
theorem tenantOf_advance (s : State) (dt fn : Nat) : (s.advance dt).tenantOf fn = s.tenantOf fn := rfl
theorem tenAux_advance (s : State) (dt n : Nat) : (s.advance dt).tenAux n = s.tenAux n := rfl

/-- In CONFIGURED and RUNNING every opcode is accepted. -/
theorem accepts_running {s : State} (hst : s.glb.st ≠ .safe) (hact : s.acting = .configured ∨ s.acting = .running) (t : Taken) :
    s.accepts t = true := by
  unfold State.accepts
  rw [if_neg hst]
  rcases hact with h | h <;> rw [h]

theorem accepts_taken (s : State) (d : Desc) (t : Taken) : (s.taken d).accepts t = s.accepts t := rfl

section
variable {s : State} {d : Desc} {op n dt : Nat} {mine : Nat → Bytes → Bool} (h : s.taking d op n) (hmine : mine op d.fields = true)
include h hmine

/-- A descriptor of an opcode that an AUX tenant may not use. -/
theorem onOpcode_class (hclass : safetyOnly op = true) (haux : s.tenAux n = true) (owner : State → Taken → Bool)
    (act : State → Taken → State) :
    (s.advance dt).onOpcode mine owner act = (d.taken n).stop ((s.advance dt).taken d) 0x11 := by
  obtain ⟨htake, rfl, hten, -, -⟩ := h
  rw [onOpcode_taken ((nextTake_advance ..).trans htake) ((tenantOf_advance ..).trans hten) hmine,
    if_pos ⟨hclass, (tenAux_advance ..).trans haux⟩]

variable (hclass : safetyOnly op = false ∨ s.tenAux n = false) {owner : State → Taken → Bool}
include hclass

theorem onOpcode_owned (act : State → Taken → State) : (s.advance dt).onOpcode mine owner act =
    if !owner ((s.advance dt).taken d) (d.taken n) then (d.taken n).stop ((s.advance dt).taken d) 0x12
    else act ((s.advance dt).taken d) (d.taken n) := by
  obtain ⟨htake, rfl, hten, hst, hact⟩ := h
  have hacc : ((s.advance dt).taken d).accepts (d.taken n) = true :=
    (accepts_taken ..).trans (accepts_running (s := s.advance dt) hst hact _)
  have hno : ¬ (safetyOnly (opcodeOf d.bytes) = true ∧ (s.advance dt).tenAux n = true) := by
    rintro ⟨h1, h2⟩
    rw [tenAux_advance] at h2
    rcases hclass with h | h
    · exact absurd (h.symm.trans h1) (by decide)
    · exact absurd (h.symm.trans h2) (by decide)
  rw [onOpcode_taken ((nextTake_advance ..).trans htake) ((tenantOf_advance ..).trans hten) hmine, if_neg hno,
    if_neg (by rw [hacc]; decide)]

/-- A descriptor that its opcode's command acts upon. -/
theorem onOpcode_acts (howner : owner ((s.advance dt).taken d) (d.taken n) = true) (act : State → Taken → State) :
    (s.advance dt).onOpcode mine owner act = act ((s.advance dt).taken d) (d.taken n) := by
  rw [onOpcode_owned h hmine hclass, if_neg (by rw [howner]; decide)]

/-- A descriptor that names what belongs to another tenant. -/
theorem onOpcode_foreign (howner : owner ((s.advance dt).taken d) (d.taken n) = false) (act : State → Taken → State) :
    (s.advance dt).onOpcode mine owner act = (d.taken n).stop ((s.advance dt).taken d) 0x12 := by
  rw [onOpcode_owned h hmine hclass, if_pos (by rw [howner]; rfl)]

end

/-! ### Answering -/

theorem quiet_taken (s : State) (d : Desc) : (s.taken d).quiet = s.quiet := rfl
theorem fetched_taken (s : State) (d : Desc) : (s.taken d).hst.fetched = s.hst.fetched.erase d := rfl
theorem rings_taken (s : State) (d : Desc) : (s.taken d).hst.rings = s.hst.rings := rfl
theorem fns_taken (s : State) (d : Desc) : (s.taken d).hst.fns = s.hst.fns := rfl
theorem hfn_of_fns {s t : State} (h : t.hst.fns = s.hst.fns) (f : Nat) : t.hfn f = s.hfn f := congrArg (tget · f) h
theorem ring_of_rings {s t : State} (h : t.hst.rings = s.hst.rings) (fn r : Nat) : t.ring fn r = s.ring fn r :=
  congrArg (tget · (ringKey fn r)) h

/-- A completion from a state that still has the rings of s has written its record for s. -/
theorem wrote_of_rings {s u : State} {fn : Nat} (hrings : u.hst.rings = s.hst.rings) (hbm : (u.hfn fn).busMaster = (s.hfn fn).busMaster)
    (r i : Nat) (c : Cpl) : s.wrote (u.complete fn r i c) fn r i c := by
  intro hen hmaster
  rw [← ring_of_rings hrings fn r, ← ring_of_rings hrings fn] at hen
  rw [← ring_of_rings hrings fn r]
  exact wrote_complete u fn r i c hen (hbm.trans hmaster)

theorem answered_complete {s u : State} {d : Desc} (hfetched : u.hst.fetched = s.hst.fetched.erase d)
    (hrings : u.hst.rings = s.hst.rings) (hbm : (u.hfn d.fn).busMaster = (s.hfn d.fn).busMaster) (c : Cpl) :
    s.answered (u.complete d.fn d.ring d.index c) d c :=
  ⟨((complete_completesTo ..).fetched).trans hfetched, wrote_of_rings hrings hbm _ _ c⟩

/-- A descriptor that is answered at once: nothing but the hosts' links changes. -/
theorem answered_taken (s : State) (dt : Nat) (d : Desc) (c : Cpl) :
    (((s.advance dt).taken d).complete d.fn d.ring d.index c).quiet = (s.advance dt).quiet ∧
      s.answered (((s.advance dt).taken d).complete d.fn d.ring d.index c) d c :=
  ⟨(quiet_complete ..).trans (quiet_taken ..), answered_complete (fetched_taken ..) (rings_taken ..)
    (congrArg HostFn.busMaster (hfn_of_fns (fns_taken ..) _)) c⟩

section
variable {s : State} {d : Desc} {op n : Nat} (h : s.taking d op n) (q : State)
include h

theorem op_of_taking : (d.taken n).op = op := h.2.1

/-- The record of a descriptor's answer. -/
theorem answer_taken (status result detail : Nat) (data : Bytes) : (d.taken n).answer q status result detail data =
    q.complete d.fn d.ring d.index { status, opcode := op, result, detail, clampMap := d.clamps, data } := by
  rw [← op_of_taking h]
  rfl

theorem detail_watch (hop : 1 ≤ op ∧ op ≤ 4) : (d.taken n).detail = rd d.fields 8 2 := by
  rw [← op_of_taking h] at hop
  exact if_pos hop

theorem detail_other (hop : ¬ (1 ≤ op ∧ op ≤ 4)) : (d.taken n).detail = 0 := by
  rw [← op_of_taking h] at hop
  exact if_neg hop

/-- Answers of an opcode that names no watch context have no DETAIL. -/
theorem done_other (hop : ¬ (1 ≤ op ∧ op ≤ 4)) (result : Nat) (data : Bytes) : (d.taken n).done q result data =
    q.complete d.fn d.ring d.index { status := b2n (d.clamps != 0), opcode := op, result, clampMap := d.clamps, data } := by
  rw [Taken.done, detail_other h hop]
  exact answer_taken h q ..

theorem stop_other (hop : ¬ (1 ≤ op ∧ op ≤ 4)) (status : Nat) : (d.taken n).stop q status =
    q.complete d.fn d.ring d.index { status, opcode := op, clampMap := d.clamps } := by
  rw [Taken.stop, detail_other h hop]
  exact answer_taken h q ..

/-- Those of a watch opcode name its context. -/
theorem done_watch (hop : 1 ≤ op ∧ op ≤ 4) (result : Nat) (data : Bytes) : (d.taken n).done q result data =
    q.complete d.fn d.ring d.index
      { status := b2n (d.clamps != 0), opcode := op, result, detail := rd d.fields 8 2, clampMap := d.clamps, data } := by
  rw [Taken.done, detail_watch h hop]
  exact answer_taken h q ..

theorem refuse_watch (hop : 1 ≤ op ∧ op ≤ 4) (result : Nat) : (d.taken n).refuse q result =
    q.complete d.fn d.ring d.index { status := 0x13, opcode := op, result, detail := rd d.fields 8 2, clampMap := d.clamps } := by
  rw [Taken.refuse, detail_watch h hop]
  exact answer_taken h q ..

end

/-! ### NOP and the queries -/

theorem queryDevice_taken (s : State) (d : Desc) : (s.taken d).queryDevice = s.queryDevice := rfl
theorem queryFrame_taken (s : State) (d : Desc) : (s.taken d).queryFrame = s.queryFrame := rfl
theorem queryCtx_taken (s : State) (d : Desc) (c : Nat) : (s.taken d).queryCtx c = s.queryCtx c := rfl

/-- QUERY with a SELECT. -/
def selects (v op : Nat) (b : Bytes) : Bool := op == 0x31 && rd b 8 1 == v

theorem selects_of_eq {v : Nat} {b : Bytes} (h : rd b 8 1 = v) : selects v 0x31 b = true := by simp [selects, h]

/-- The context that a QUERY names belongs to its tenant, or is closed (R404). -/
def ownsQueried (q : State) (t : Taken) : Bool :=
  !(q.watch (rd t.bytes 10 2)).isOpen || (q.watch (rd t.bytes 10 2)).tenant == t.tenant

theorem exec_queryDevice (dt : Nat) (s : State) : exec (.queryDevice dt) s =
    .next ((s.advance dt).onOpcode (selects 3) noOwner fun q t => t.done q 0 q.queryDevice) := rfl

theorem exec_queryFrame (dt : Nat) (s : State) : exec (.queryFrame dt) s =
    .next ((s.advance dt).onOpcode (selects 2) noOwner fun q t => t.done q 0 q.queryFrame) := rfl

theorem exec_queryContext (dt : Nat) (s : State) : exec (.queryContext dt) s =
    .next ((s.advance dt).onOpcode (selects 1) ownsQueried fun q t => t.done q 0 (q.queryCtx (rd t.bytes 10 2))) := rfl

theorem exec_nop (dt : Nat) (s : State) : exec (.nop dt) s =
    .next ((s.advance dt).onOpcode (fun op _ => op == 0) noOwner fun q t => t.done q 0 []) := rfl

theorem ownsQueried_taken (s : State) (dt : Nat) (d : Desc) (n : Nat) : ownsQueried ((s.advance dt).taken d) (d.taken n) =
    (!(s.watch (rd d.fields 10 2)).isOpen || (s.watch (rd d.fields 10 2)).tenant == n) := rfl

/-- Settles O49. -/
theorem shortOpcodesAnswer : Obligations.ShortOpcodesAnswer := by
  unfold Obligations.ShortOpcodesAnswer
  intro dt n d s
  refine ⟨fun h => ?_, fun h hsel => ?_, fun h hsel => ?_, fun h hsel => ⟨fun hmine => ?_, fun hopen hother => ?_⟩⟩
  · rw [exec_nop, onOpcode_acts h rfl (.inl rfl) rfl, done_other h _ (by decide)]
    exact ⟨_, rfl, answered_taken ..⟩
  · rw [exec_queryDevice, onOpcode_acts h (selects_of_eq hsel) (.inl rfl) rfl, done_other h _ (by decide), queryDevice_taken]
    exact ⟨_, rfl, answered_taken ..⟩
  · rw [exec_queryFrame, onOpcode_acts h (selects_of_eq hsel) (.inl rfl) rfl, done_other h _ (by decide), queryFrame_taken]
    exact ⟨_, rfl, answered_taken ..⟩
  · have howner : ownsQueried ((s.advance dt).taken d) (d.taken n) = true := by
      rw [ownsQueried_taken]
      rcases hmine with h | h <;> simp [h]
    rw [exec_queryContext, onOpcode_acts h (selects_of_eq hsel) (.inl rfl) howner, done_other h _ (by decide), queryCtx_taken]
    exact ⟨_, rfl, answered_taken ..⟩
  · have howner : ownsQueried ((s.advance dt).taken d) (d.taken n) = false := by
      rw [ownsQueried_taken]
      simp [hopen, hother]
    rw [exec_queryContext, onOpcode_foreign h (selects_of_eq hsel) (.inl rfl) howner, stop_other h _ (by decide)]
    exact ⟨_, rfl, answered_taken ..⟩

end Sys2Proof.Machine
end

section
/-! WATCH_CLEAR and FRAME_ANNOUNCE (R346 to R349, R378, R437). -/

namespace Sys2Proof.Machine

theorem exec_watchClear (dt : Nat) (s : State) : exec (.watchClear dt) s =
    .next ((s.advance dt).onOpcode (fun op _ => op == 3) ownsCtx fun q t =>
      if !(q.watch t.ctx).isOpen then t.refuse q 0x11
      else match (q.watch t.ctx).esc with
        | .normal => t.done q 0x04 []
        | .clearing => t.done q 0x05 []
        | .escalated => t.done (q.modWatch t.ctx fun w => { w with esc := .clearing, clean := 0 }) 0x03 []) := rfl

/-- What an accepted FRAME_ANNOUNCE adds to its context. -/
def Taken.announce (t : Taken) (q : State) : State :=
  q.modWatch t.ctx fun w => { w with
    corridors := w.corridors ++ [(q.fr.num + (q.framesAhead (rd t.bytes 10 6)).getD 0, slice t.bytes 16 48, q.mc)] }

theorem exec_frameAnnounce (dt : Nat) (s : State) : exec (.frameAnnounce dt) s =
    .next ((s.advance dt).onOpcode (fun op _ => op == 4) ownsCtx fun q t =>
      if !(q.watch t.ctx).isOpen then t.refuse q 0x11
      else if q.announceRefusal t.ctx (rd t.bytes 10 6) ≠ 0 then t.refuse q (q.announceRefusal t.ctx (rd t.bytes 10 6))
      else if t.clamps ≠ 0 then t.done q 0x07 []
      else t.done (t.announce q) 0x06 []) := rfl

theorem ctx_taken (d : Desc) (n : Nat) : (d.taken n).ctx = rd d.fields 8 2 := rfl
theorem clamps_taken (d : Desc) (n : Nat) : (d.taken n).clamps = d.clamps := rfl
theorem watch_taken (s : State) (dt : Nat) (d : Desc) (c : Nat) : ((s.advance dt).taken d).watch c = s.watch c := rfl

theorem ownsCtx_taken (s : State) (dt : Nat) (d : Desc) (n : Nat) : ownsCtx ((s.advance dt).taken d) (d.taken n) =
    (!(s.watch (rd d.fields 8 2)).isOpen || (s.watch (rd d.fields 8 2)).tenant == n) := rfl

theorem ownsCtx_own {s : State} {d : Desc} {n : Nat} (h : (s.watch (rd d.fields 8 2)).tenant = n) (dt : Nat) :
    ownsCtx ((s.advance dt).taken d) (d.taken n) = true := by
  rw [ownsCtx_taken, h]
  simp

theorem ownsCtx_closed {s : State} {d : Desc} (h : (s.watch (rd d.fields 8 2)).isOpen = false) (dt n : Nat) :
    ownsCtx ((s.advance dt).taken d) (d.taken n) = true := by
  rw [ownsCtx_taken, h]
  rfl

/-- The state without the contexts, and what records change. -/
def State.sansWatches (s : State) : State := { s.quiet with vrd := {} }

theorem sansWatches_of_quiet {s t : State} (h : t.quiet = s.quiet) : t.sansWatches = s.sansWatches := by
  simp only [State.sansWatches, h]

theorem watch_of_quiet {s t : State} (h : t.quiet = s.quiet) (c : Nat) : t.watch c = s.watch c :=
  (congrArg (fun v : Verdict => tget v.ctxs c) (quiet_vrd h) :)

theorem watch_modWatch (s : State) (c : Nat) (f : Watch → Watch) : (s.modWatch c f).watch c = f (s.watch c) := tget_tset_self ..
theorem watch_modWatch_ne (s : State) {c j : Nat} (f : Watch → Watch) (h : j ≠ c) : (s.modWatch c f).watch j = s.watch j := tget_tset_ne h ..
theorem sansWatches_modWatch (s : State) (c : Nat) (f : Watch → Watch) : (s.modWatch c f).sansWatches = s.sansWatches := rfl
theorem hst_modWatch (s : State) (c : Nat) (f : Watch → Watch) : (s.modWatch c f).hst = s.hst := rfl

/-- A descriptor that changes one context and is answered. -/
theorem answered_modWatch (s : State) (dt c : Nat) (f : Watch → Watch) (d : Desc) (r : Cpl) :
    ((((s.advance dt).taken d).modWatch c f).complete d.fn d.ring d.index r).watch c = f (s.watch c) ∧
    (∀ j, j ≠ c → ((((s.advance dt).taken d).modWatch c f).complete d.fn d.ring d.index r).watch j = s.watch j) ∧
    ((((s.advance dt).taken d).modWatch c f).complete d.fn d.ring d.index r).sansWatches = (s.advance dt).sansWatches ∧
    s.answered ((((s.advance dt).taken d).modWatch c f).complete d.fn d.ring d.index r) d r := by
  have hhst := hst_modWatch ((s.advance dt).taken d) c f
  refine ⟨(watch_of_quiet (quiet_complete ..) c).trans ((watch_modWatch ..).trans (congrArg f (watch_taken ..))),
    fun j hj => (watch_of_quiet (quiet_complete ..) j).trans ((watch_modWatch_ne _ _ hj).trans (watch_taken ..)),
    (sansWatches_of_quiet (quiet_complete ..)).trans ((sansWatches_modWatch ..).trans (sansWatches_of_quiet (quiet_taken ..))), ?_⟩
  exact answered_complete ((congrArg Hosts.fetched hhst).trans (fetched_taken ..)) ((congrArg Hosts.rings hhst).trans (rings_taken ..))
    (congrArg HostFn.busMaster ((hfn_of_fns (congrArg Hosts.fns hhst) _).trans (hfn_of_fns (fns_taken ..) _))) r

theorem bytes_taken (d : Desc) (n : Nat) : (d.taken n).bytes = d.fields := rfl
theorem fr_taken (s : State) (dt : Nat) (d : Desc) : ((s.advance dt).taken d).fr = s.fr := rfl
theorem mc_taken (s : State) (dt : Nat) (d : Desc) : ((s.advance dt).taken d).mc = s.mc + dt := rfl

theorem framesAhead_of_fr {s t : State} (h : t.fr = s.fr) (f : Nat) : t.framesAhead f = s.framesAhead f := by
  simp only [State.framesAhead, h]

theorem framesAhead_taken (s : State) (dt : Nat) (d : Desc) (f : Nat) : ((s.advance dt).taken d).framesAhead f = s.framesAhead f :=
  framesAhead_of_fr (fr_taken ..) f

theorem edgeAt_taken (s : State) (d : Desc) (e : Nat) : (s.taken d).edgeAt e = s.edgeAt e := rfl

theorem past_taken (s : State) (d : Desc) (e : Nat) : (s.taken d).past e = s.past e := by
  have hfr : (s.taken d).fr = s.fr := rfl
  have htmb : (s.taken d).tmb = s.tmb := rfl
  simp only [State.past, edgeAt_taken, hfr, htmb]

theorem announceRefusal_of {s t : State} {c : Nat} (hw : t.watch c = s.watch c) (hfr : t.fr = s.fr) (hpast : t.past 0 = s.past 0) (f : Nat) :
    t.announceRefusal c f = s.announceRefusal c f := by
  simp only [State.announceRefusal, hw, hfr, hpast, framesAhead_of_fr hfr]

theorem announceRefusal_taken (s : State) (d : Desc) (c f : Nat) : (s.taken d).announceRefusal c f = s.announceRefusal c f :=
  announceRefusal_of (s := s) (t := s.taken d) rfl rfl (past_taken ..) f

theorem announce_taken {s : State} {d : Desc} {k : Nat} (h : s.framesAhead (rd d.fields 10 6) = some k) (dt n : Nat) :
    (d.taken n).announce ((s.advance dt).taken d) = ((s.advance dt).taken d).modWatch (rd d.fields 8 2) fun w =>
      { w with corridors := w.corridors ++ [(s.fr.num + k, slice d.fields 16 48, s.mc + dt)] } := by
  rw [Taken.announce, framesAhead_taken, ctx_taken, bytes_taken, h, fr_taken, mc_taken, Option.getD_some]

/-- Settles O51. -/
theorem escalationsClearAndCorridorsWait : Obligations.EscalationsClearAndCorridorsWait := by
  unfold Obligations.EscalationsClearAndCorridorsWait
  intro dt n d s hopen hten
  have howner := ownsCtx_own hten dt
  refine ⟨fun h => ?_, fun h => ?_⟩
  · rw [exec_watchClear, onOpcode_acts h rfl (.inl rfl) howner, ctx_taken, watch_taken, hopen, if_neg (by decide)]
    refine ⟨fun hesc => ?_, fun hesc => ?_, fun hesc => ?_⟩
    · rw [hesc]
      dsimp only
      rw [done_watch h _ (by decide)]
      obtain ⟨hself, hother, hrest, hans⟩ := answered_modWatch s dt (rd d.fields 8 2) (fun w => { w with esc := .clearing, clean := 0 }) d
        { status := b2n (d.clamps != 0), opcode := 3, result := 3, detail := rd d.fields 8 2, clampMap := d.clamps }
      exact ⟨_, rfl, hself, hother, hrest, hans⟩
    · rw [hesc]
      dsimp only
      rw [done_watch h _ (by decide)]
      exact ⟨_, rfl, answered_taken ..⟩
    · rw [hesc]
      dsimp only
      rw [done_watch h _ (by decide)]
      exact ⟨_, rfl, answered_taken ..⟩
  · rw [exec_frameAnnounce, onOpcode_acts h rfl (.inl rfl) howner, ctx_taken, watch_taken, hopen, if_neg (by decide), clamps_taken,
      announceRefusal_taken, bytes_taken]
    refine ⟨fun hrefused => ?_, fun hok hclamps => ?_, fun k hok hclamps hahead => ?_⟩
    · rw [if_pos hrefused, refuse_watch h _ (by decide)]
      exact ⟨_, rfl, answered_taken ..⟩
    · have hstatus : b2n (d.clamps != 0) = 1 := by rw [bne_iff_ne.2 hclamps]; rfl
      rw [if_neg (not_not.2 hok), if_pos hclamps, done_watch h _ (by decide), hstatus]
      exact ⟨_, rfl, answered_taken ..⟩
    · have hstatus : b2n (d.clamps != 0) = 0 := by rw [hclamps]; rfl
      rw [if_neg (not_not.2 hok), if_neg (not_not.2 hclamps), announce_taken hahead, done_watch h _ (by decide), hstatus, hclamps]
      obtain ⟨hself, hother, hrest, hans⟩ := answered_modWatch s dt (rd d.fields 8 2) (fun w => { w with
          corridors := w.corridors ++ [(s.fr.num + k, slice d.fields 16 48, s.mc + dt)] }) d
        { status := 0, opcode := 4, result := 6, detail := rd d.fields 8 2 }
      exact ⟨_, rfl, (congrArg Watch.corridors hself :), hother, hrest, hans⟩

end Sys2Proof.Machine
end

section
/-! Watch contexts that open and close (R404, R438 to R440, R443). -/

namespace Sys2Proof.Machine

/-! ### What a change of the operating state leaves of the contexts and the hosts' links -/

/-- The contexts, Shroud, the rings, the fetched descriptors, and which functions master the bus. -/
def State.desk (s : State) : Verdict × Shroud × Tbl Ring × List Desc × (Nat → Bool) :=
  (s.vrd, s.shr, s.hst.rings, s.hst.fetched, fun f => (s.hfn f).busMaster)

theorem desk_setHfn {s : State} {fn : Nat} {x : HostFn} (h : x.busMaster = (s.hfn fn).busMaster) : (s.setHfn fn x).desk = s.desk := by
  have hbm : ∀ f, ((s.setHfn fn x).hfn f).busMaster = (s.hfn f).busMaster := fun f => by
    rcases eq_or_ne f fn with rfl | hf
    · exact (congrArg HostFn.busMaster (tget_tset_self ..)).trans h
    · exact congrArg HostFn.busMaster (tget_tset_ne hf ..)
  show (s.vrd, s.shr, s.hst.rings, s.hst.fetched, _) = (s.vrd, s.shr, s.hst.rings, s.hst.fetched, _)
  rw [funext hbm]

theorem desk_signal (s : State) (fn v : Nat) : (s.signal fn v).desk = s.desk := by
  unfold State.signal; dsimp only; split
  · rfl
  · split
    · rfl
    · exact desk_setHfn rfl

theorem desk_sendStateFrame (s : State) : s.sendStateFrame.desk = s.desk := rfl

theorem desk_stateChanged (s : State) : s.stateChanged.desk = s.desk := by
  unfold State.stateChanged
  refine (view_foldl State.desk _ (fun q fn => ?_) _ _).trans (desk_sendStateFrame s)
  split
  · exact desk_signal ..
  · rfl

theorem desk_setGlb (s : State) (g : Glb) : { s with glb := g }.desk = s.desk := rfl

theorem desk_actTo (s : State) (st : OpState) : (s.actTo st).desk = s.desk := by
  unfold State.actTo; split
  · rfl
  · unfold State.moveTo; split
    · rfl
    · exact (desk_stateChanged ..).trans (desk_setGlb ..)

section
variable {s t : State} (h : t.desk = s.desk)
include h
theorem desk_vrd : t.vrd = s.vrd := congrArg (·.1) h
theorem desk_shr : t.shr = s.shr := congrArg (·.2.1) h
theorem desk_rings : t.hst.rings = s.hst.rings := congrArg (·.2.2.1) h
theorem desk_fetched : t.hst.fetched = s.hst.fetched := congrArg (·.2.2.2.1) h
theorem desk_busMaster (f : Nat) : (t.hfn f).busMaster = (s.hfn f).busMaster := congrFun (congrArg (·.2.2.2.2) h) f
theorem desk_watch (c : Nat) : t.watch c = s.watch c := congrArg (fun v : Verdict => tget v.ctxs c) (desk_vrd h)
end

/-! ### WATCH_OPEN is taken -/

/-- The read of the parameter block begins. -/
def Taken.opening (t : Taken) (q : State) : State :=
  (q.modHst fun h => { h with openings := h.openings ++
    [{ fn := t.fn, ring := t.ring, index := t.index, context := t.ctx, clamps := t.clamps }] }).hostRead t.fn (rd t.bytes 16 8) 128

theorem exec_watchOpen (dt : Nat) (s : State) : exec (.watchOpen dt) s =
    .next ((s.advance dt).onOpcode (fun op _ => op == 1) ownsCtx fun q t =>
      if (q.watch t.ctx).isOpen || q.hst.openings.any (fun o => o.context == t.ctx) then t.refuse q 0x10 else t.opening q) := rfl

theorem openings_taken (s : State) (dt : Nat) (d : Desc) : ((s.advance dt).taken d).hst.openings = s.hst.openings := rfl

theorem opening_rest (t : Taken) (q : State) : (t.opening q).quiet = q.quiet ∧ (t.opening q).hst.fetched = q.hst.fetched ∧
    .hostRead t.fn (rd t.bytes 16 8) 128 (128 * 2 ^ (q.hfn t.fn).maxRead) ∈ (t.opening q).out ∧
    (t.opening q).hst.openings = q.hst.openings ++
      [{ fn := t.fn, ring := t.ring, index := t.index, context := t.ctx, clamps := t.clamps }] :=
  ⟨rfl, rfl, List.mem_append_right _ (List.mem_singleton.2 rfl), rfl⟩

/-! ### The parameter block has been read -/

theorem finish_rest (o : Opening) (s : State) (status result : Nat) : (o.finish s status result).quiet = s.quiet ∧
    (o.finish s status result).hst.openings = s.hst.openings.erase o := by
  have h := complete_completesTo (s.modHst fun h => { h with openings := h.openings.erase o }) o.fn o.ring o.index
    { status, opcode := 1, result, detail := o.context, clampMap := o.clamps, data := le 16 o.paramMap }
  exact ⟨h.quiet, (congrArg Hosts.openings h.rest :)⟩

theorem exec_watchParameterBlockRead {dt fn r : Nat} {o : Opening} {bytes : Bytes} {s : State}
    (hfind : s.hst.openings.find? (fun o => o.fn == fn && o.ring == r && o.slot.isNone) = some o) (hlen : bytes.length = 128) (ok : Bool) :
    exec (.watchParameterBlockRead dt fn r bytes ok) s = .next (if !ok then o.finish (s.advance dt) 0x14 0
      else if crcK (bytes.take 124) ≠ rd bytes 124 4 then o.finish (s.advance dt) 0x15 0 else o.judge (s.advance dt) bytes) := by
  have hfind' : (s.advance dt).hst.openings.find? (fun o => o.fn == fn && o.ring == r && o.slot.isNone) = some o := hfind
  have hpad : padTo 128 bytes = bytes := by simp [padTo, hlen, zeros]
  simp only [exec, execWatchParameterBlockRead, hfind', hpad]

/-- The opening with its checked block. -/
def Opening.checked (o : Opening) (map : Nat) (b : Bytes) : Opening := { o with paramMap := map, block := b }

/-- The state in which opening o waits as o1. -/
def State.reopened (s : State) (o o1 : Opening) : State :=
  s.modHst fun h => { h with openings := h.openings.map fun x => if x = o then o1 else x }

/-- A block that every rule accepts and that binds no output opens its context. -/
theorem judge_accepts {s : State} {o : Opening} {n map : Nat} {bytes b : Bytes}
    (hclamp : clampParam ((bitList 4 (rd bytes 1 1)).foldl (fun a m => max a (((s.model m).active.map bFloor).getD 0)) 0) bytes = (map, b))
    (hten : s.tenantOf o.fn = some n) (haux : s.tenAux n = false) (howned : s.pbOwned n b = true) (hok : s.openRefusal o n b = 0)
    (houts : pbOutputs b = false) : o.judge s bytes = (o.checked map b).accept (s.reopened o (o.checked map b)) := by
  have h8 := lt_of_tenantOf hten
  have hclass : ¬ (n = 0xFF ∨ s.tenAux n = true ∧ (pbConns b ≠ [] ∨ pbOutputs b = true)) := by
    rw [haux]
    rintro (h | ⟨h, -⟩)
    · omega
    · exact absurd h (by decide)
  unfold Opening.judge
  rw [recTenant_of_tenantOf hten]
  dsimp only
  rw [hclamp]
  dsimp only
  rw [if_neg hclass, if_neg (by rw [howned]; decide), if_neg (not_not.2 hok), if_neg (by rw [houts]; decide)]
  rfl

theorem desk_modConn (s : State) (i : Nat) (f : Conn → Conn) : (s.modConn i f).desk = s.desk := rfl

/-- Connections that a context binds or releases are theirs alone. -/
theorem desk_bindConns (l : List Nat) (f : Conn → Conn) (s : State) : (l.foldl (fun q i => q.modConn i f) s).desk = s.desk :=
  view_foldl State.desk _ (fun _ _ => desk_modConn ..) l s

theorem shr_setWatch (s : State) (c : Nat) (x : Watch) : (s.setWatch c x).shr = s.shr := rfl
theorem hst_setWatch (s : State) (c : Nat) (x : Watch) : (s.setWatch c x).hst = s.hst := rfl

/-- The context that opens stands as its block says; no other one changes. -/
theorem accept_desk {o : Opening} (hslot : o.slot = none) (s : State) :
    ((o.accept s).watch o.context = s.newWatch (s.recTenant o.fn) o.block) ∧ (∀ c, c ≠ o.context → (o.accept s).watch c = s.watch c) ∧
      (o.accept s).shr = s.shr := by
  have hbound := desk_bindConns (s.newWatch (s.recTenant o.fn) o.block).plx (fun x => { x with bound := some o.context, rebound := true })
    (s.setWatch o.context (s.newWatch (s.recTenant o.fn) o.block))
  obtain ⟨q, hq, haccept⟩ : ∃ q : State, q.desk = (s.setWatch o.context (s.newWatch (s.recTenant o.fn) o.block)).desk ∧
      o.accept s = o.finish q (b2n (o.clamps != 0 || o.paramMap != 0)) 0x01 := by
    unfold Opening.accept; dsimp only
    rw [hslot]
    dsimp only
    split
    · exact ⟨_, (desk_actTo ..).trans hbound, rfl⟩
    · exact ⟨_, hbound, rfl⟩
  have hquiet := (finish_rest o q (b2n (o.clamps != 0 || o.paramMap != 0)) 0x01).1
  rw [haccept]
  exact ⟨(watch_of_quiet hquiet _).trans ((desk_watch hq _).trans (State.setWatch_watch ..)),
    fun c hc => (watch_of_quiet hquiet _).trans ((desk_watch hq _).trans (watch_setWatch_ne _ hc _)), (quiet_shr hquiet).trans ((desk_shr hq).trans (shr_setWatch ..))⟩

/-! ### WATCH_CLOSE -/

theorem exec_watchClose (dt : Nat) (s : State) : exec (.watchClose dt) s =
    .next ((s.advance dt).onOpcode (fun op _ => op == 2) ownsCtx fun q t =>
      if (q.watch t.ctx).isOpen then t.done (q.closeCtx t.ctx) 0x02 [] else t.refuse q 0x11) := rfl

/-- The context's trust slot is freed. -/
def State.freedSlot (s : State) (c : Nat) (p : Bytes) : State :=
  { s with pch := { s.pch with slotOf := tset s.pch.slotOf c 0 } }.toShroud 0x05 p

theorem desk_freedSlot (s : State) (c : Nat) (p : Bytes) : (s.freedSlot c p).desk = s.desk := rfl

/-- The context that closes is at reset; of the contexts and the hosts' links nothing else changes. -/
theorem desk_closeCtx (s : State) (c : Nat) : (s.closeCtx c).desk = (s.setWatch c default).desk := by
  have hbound := desk_bindConns (s.watch c).plx (fun x => { x with bound := none, rebound := true }) (s.setWatch c default)
  obtain ⟨q, hq, hclose⟩ : ∃ q : State, q.desk = (s.setWatch c default).desk ∧
      s.closeCtx c = if q.openCtxs = [] ∧ q.acting = .running then q.actTo .configured else q := by
    unfold State.closeCtx; dsimp only
    refine ⟨_, ?_, rfl⟩
    split
    · exact (desk_freedSlot ..).trans hbound
    · exact hbound
  rw [hclose]
  split
  · exact (desk_actTo ..).trans hq
  · exact hq

/-- A context that opens as its block says. -/
theorem newWatch_fields (s : State) (n : Nat) (b : Bytes) : (s.newWatch n b).isOpen = true ∧ (s.newWatch n b).tenant = n ∧
    (s.newWatch n b).stream = rd b 4 4 ∧ (s.newWatch n b).maxAge = rd b 8 4 ∧ (s.newWatch n b).cplRing = rd b 12 2 ∧
    (s.newWatch n b).modelMask = pbMask b ∧ (s.newWatch n b).trusted = false := ⟨rfl, rfl, rfl, rfl, rfl, rfl, rfl⟩

theorem desk_taken (s : State) (dt : Nat) (d : Desc) : ((s.advance dt).taken d).vrd = s.vrd ∧
    ((s.advance dt).taken d).hst.rings = s.hst.rings ∧ ((s.advance dt).taken d).hst.fetched = s.hst.fetched.erase d ∧
    ∀ f, (((s.advance dt).taken d).hfn f).busMaster = (s.hfn f).busMaster := ⟨rfl, rfl, rfl, fun _ => rfl⟩

/-- A context that closes, and the answer to the descriptor that closes it. -/
theorem answered_closeCtx (s : State) (dt c : Nat) (d : Desc) (r : Cpl) :
    ((((s.advance dt).taken d).closeCtx c).complete d.fn d.ring d.index r).watch c = default ∧
    (∀ j, j ≠ c → ((((s.advance dt).taken d).closeCtx c).complete d.fn d.ring d.index r).watch j = s.watch j) ∧
    s.answered ((((s.advance dt).taken d).closeCtx c).complete d.fn d.ring d.index r) d r := by
  have hdesk := desk_closeCtx ((s.advance dt).taken d) c
  have hhst := hst_setWatch ((s.advance dt).taken d) c default
  obtain ⟨-, hrings, hfetched, hbm⟩ := desk_taken s dt d
  refine ⟨(watch_of_quiet (quiet_complete ..) _).trans ((desk_watch hdesk _).trans (State.setWatch_watch ..)), fun j hj =>
    (watch_of_quiet (quiet_complete ..) _).trans ((desk_watch hdesk _).trans ((watch_setWatch_ne _ hj _).trans (watch_taken ..))), ?_⟩
  exact answered_complete ((desk_fetched hdesk).trans ((congrArg Hosts.fetched hhst).trans hfetched))
    ((desk_rings hdesk).trans ((congrArg Hosts.rings hhst).trans hrings))
    ((desk_busMaster hdesk _).trans ((congrArg HostFn.busMaster (hfn_of_fns (congrArg Hosts.fns hhst) _)).trans (hbm _))) r

/-- Settles O50. -/
theorem watchesOpenAndClose : Obligations.WatchesOpenAndClose := by
  unfold Obligations.WatchesOpenAndClose
  intro dt n s
  refine ⟨fun d h hclosed hnone => ?_, fun d h hopen hten => ?_, fun fn r o bytes hfind hlen => ⟨?_, fun hcheck => ?_, ?_⟩,
    fun d h hopen hten => ?_, fun d h hclosed => ?_⟩
  · have hany : s.hst.openings.any (fun o => o.context == rd d.fields 8 2) = false := List.any_eq_false.2 fun o ho => by
      simpa using hnone o ho
    rw [exec_watchOpen, onOpcode_acts h rfl (.inl rfl) (ownsCtx_closed hclosed ..), ctx_taken, watch_taken, openings_taken, hclosed, hany,
      if_neg (by decide)]
    obtain ⟨hquiet, hfetched, hout, hopenings⟩ := opening_rest (d.taken n) ((s.advance dt).taken d)
    exact ⟨_, rfl, hquiet.trans (quiet_taken ..), hfetched.trans (fetched_taken ..), hout, hopenings⟩
  · rw [exec_watchOpen, onOpcode_acts h rfl (.inl rfl) (ownsCtx_own hten ..), ctx_taken, watch_taken, hopen, Bool.true_or, if_pos rfl,
      refuse_watch h _ (by decide)]
    exact ⟨_, rfl, answered_taken ..⟩
  · obtain ⟨hquiet, hopenings⟩ := finish_rest o (s.advance dt) 0x14 0
    exact ⟨_, exec_watchParameterBlockRead hfind hlen false, hquiet, hopenings⟩
  · obtain ⟨hquiet, hopenings⟩ := finish_rest o (s.advance dt) 0x15 0
    exact ⟨_, (exec_watchParameterBlockRead hfind hlen true).trans (congrArg _ (if_pos hcheck)), hquiet, hopenings⟩
  · intro map b hcheck hclamp hten haux howned hok houts
    have hslot : o.slot = none := by
      have := List.find?_some hfind
      simp only [Bool.and_eq_true, Option.isNone_iff_eq_none] at this
      exact this.2
    have hjudge := judge_accepts (s := s.advance dt) hclamp hten haux howned hok houts
    have hexec := (exec_watchParameterBlockRead hfind hlen true).trans
      (congrArg Host.Outcome.next ((if_neg (not_not.2 hcheck)).trans hjudge))
    obtain ⟨hself, hother, hshr⟩ := accept_desk (o := o.checked map b) hslot ((s.advance dt).reopened o (o.checked map b))
    have hrec : ((s.advance dt).reopened o (o.checked map b)).recTenant o.fn = n := recTenant_of_tenantOf hten
    obtain ⟨h1, h2, h3, h4, h5, h6, h7⟩ := newWatch_fields ((s.advance dt).reopened o (o.checked map b)) n b
    rw [show (o.checked map b).fn = o.fn from rfl, hrec, show (o.checked map b).block = b from rfl,
      show (o.checked map b).context = o.context from rfl] at hself
    refine ⟨_, hexec, ?_⟩
    rw [hself]
    exact ⟨h1, h2, h3, h4, h5, h6, h7, hother, hshr⟩
  · rw [exec_watchClose, onOpcode_acts h rfl (.inl rfl) (ownsCtx_own hten ..), ctx_taken, watch_taken, hopen, if_pos rfl,
      done_watch h _ (by decide)]
    obtain ⟨hself, hother, hans⟩ := answered_closeCtx s dt (rd d.fields 8 2) d
      { status := b2n (d.clamps != 0), opcode := 2, result := 2, detail := rd d.fields 8 2, clampMap := d.clamps }
    exact ⟨_, rfl, congrArg Watch.isOpen hself, congrArg Watch.trusted hself, hother, hans⟩
  · rw [exec_watchClose, onOpcode_acts h rfl (.inl rfl) (ownsCtx_closed hclosed ..), ctx_taken, watch_taken, hclosed, if_neg (by decide),
      refuse_watch h _ (by decide)]
    exact ⟨_, rfl, answered_taken ..⟩

end Sys2Proof.Machine
end

section
/-! Long operations: the queue of a function, the start of the oldest one, and how one ends (R425, R426, R429, R442). -/

namespace Sys2Proof.Machine

/-! ### A function's queue -/

/-- The operation that an accepted descriptor becomes. -/
def Taken.longOp (t : Taken) (s : State) (slot : Nat) : LongOp :=
  { fn := t.fn, ring := t.ring, index := t.index, op := t.op, bytes := t.bytes, clamps := t.clamps, slot, order := s.hst.accepted }

/-- A function with one more operation in its queue. -/
def HostFn.queued (h : HostFn) (o : LongOp) : HostFn := { h with longQ := h.longQ ++ [o] }

/-- The count of accepted operations. -/
def State.countAccepted (s : State) : State := s.modHst fun h => { h with accepted := h.accepted + 1 }

theorem enqueue_eq (t : Taken) (s : State) (slot : Nat) :
    t.enqueue s slot = s.countAccepted.modHfn t.fn fun h => h.queued (t.longOp s slot) := rfl

theorem hfn_countAccepted (s : State) (f : Nat) : s.countAccepted.hfn f = s.hfn f := rfl

/-- What an operation that joins its queue changes. -/
theorem enqueue_rest (t : Taken) (s : State) (slot : Nat) :
    (t.enqueue s slot).hfn t.fn = (s.hfn t.fn).queued (t.longOp s slot) ∧ (∀ f, f ≠ t.fn → (t.enqueue s slot).hfn f = s.hfn f) ∧
      (t.enqueue s slot).hst.rings = s.hst.rings ∧ { t.enqueue s slot with hst := {} } = { s with hst := {} } := by
  rw [enqueue_eq]
  refine ⟨(State.modHfn_hfn ..).trans ?_, fun f hf => (State.modHfn_hfn_ne _ _ _ hf).trans (hfn_countAccepted ..), rfl, rfl⟩
  rw [hfn_countAccepted]

/-- While an operation of the function runs, no other one starts. -/
theorem startNext_waits {s : State} {fn : Nat} {x : LongOp} (h : (s.hfn fn).longRun = some x) : s.startNext fn = s := by
  unfold State.startNext; dsimp only
  rw [h]

/-- A function whose oldest operation has started. -/
def HostFn.started (h : HostFn) (o : LongOp) (rest : List LongOp) : HostFn := { h with longRun := some o, longQ := rest }

theorem startNext_starts {s : State} {fn : Nat} {o : LongOp} {rest : List LongOp} (hrun : (s.hfn fn).longRun = none)
    (hq : (s.hfn fn).longQ = o :: rest) (hmay : s.mayStart o = true) :
    s.startNext fn = (s.setHfn fn ((s.hfn fn).started o rest)).startWork o := by
  unfold State.startNext; dsimp only
  rw [hrun, hq]
  exact if_pos hmay

/-- Operations that are no configuration's start as soon as they are the oldest. -/
theorem mayStart_of_op {o : LongOp} (h0 : o.op ≠ 0x20) (h1 : o.op ≠ 0x21) (s : State) : s.mayStart o = true := by
  simp [State.mayStart, LongOp.isConfig, h0, h1]

/-- What a start changes of the functions. -/
theorem hfn_started (s : State) (dt fn : Nat) (o : LongOp) (rest : List LongOp) :
    (((s.advance dt).setHfn fn ((s.hfn fn).started o rest)).hfn fn) = (s.hfn fn).started o rest ∧
      (∀ f, f ≠ fn → ((s.advance dt).setHfn fn ((s.hfn fn).started o rest)).hfn f = s.hfn f) ∧
      ((s.advance dt).setHfn fn ((s.hfn fn).started o rest)).hst.rings = s.hst.rings ∧
      { (s.advance dt).setHfn fn ((s.hfn fn).started o rest) with hst := {} } = { s.advance dt with hst := {} } :=
  ⟨State.setHfn_hfn .., fun _ hf => State.setHfn_hfn_ne _ _ _ hf, rfl, rfl⟩

/-! ### How an operation ends (R425) -/

theorem ended_finish {s u : State} {o : LongOp} (hrings : u.hst.rings = s.hst.rings)
    (hbm : (u.hfn o.fn).busMaster = (s.hfn o.fn).busMaster) (status result detail : Nat) (data : Bytes) :
    s.ended (o.finish u status result detail data) o { status, opcode := o.op, result, detail, clampMap := o.clamps, data } := by
  have hfn : (u.modHfn o.fn fun h => { h with longRun := none }).hfn o.fn = { u.hfn o.fn with longRun := none } := State.modHfn_hfn ..
  have hfns := (complete_completesTo (u.modHfn o.fn fun h => { h with longRun := none }) o.fn o.ring o.index
    { status, opcode := o.op, result, detail, clampMap := o.clamps, data }).fns o.fn
  refine ⟨(congrArg HostFn.longRun hfns).trans (congrArg HostFn.longRun hfn), ?_⟩
  exact wrote_of_rings (u := u.modHfn o.fn fun h => { h with longRun := none }) hrings ((congrArg HostFn.busMaster hfn).trans hbm) _ _ _

theorem quiet_modHfn (s : State) (fn : Nat) (f : HostFn → HostFn) : (s.modHfn fn f).quiet = s.quiet := rfl

theorem quiet_finish (o : LongOp) (s : State) (status result detail : Nat) (data : Bytes) :
    (o.finish s status result detail data).quiet = s.quiet := (quiet_complete ..).trans (quiet_modHfn ..)

/-! ### The commands that take a long descriptor -/

section
variable {s : State} {d : Desc} {op n dt : Nat} {mine : Nat → Bytes → Bool}

/-- A descriptor that joins its function's queue behind a running operation. -/
theorem enqueue_waits {q : State} {x : LongOp} (hop : opcodeOf d.bytes = op) (hfns : q.hst.fns = s.hst.fns)
    (hrings : q.hst.rings = s.hst.rings) (hrun : (s.hfn d.fn).longRun = some x) (slot : Nat) :
    ∃ t o, ((d.taken n).enqueue q slot).startNext (d.taken n).fn = t ∧ (t.hfn d.fn).longRun = some x ∧
      (t.hfn d.fn).longQ = (s.hfn d.fn).longQ ++ [o] ∧ o.op = op ∧ o.fn = d.fn ∧ o.ring = d.ring ∧ o.index = d.index ∧
      o.bytes = d.fields ∧ (∀ f, f ≠ d.fn → t.hfn f = s.hfn f) ∧ t.hst.rings = s.hst.rings ∧
      { t with hst := {} } = { q with hst := {} } := by
  obtain ⟨hself, hother, hrings', hrest⟩ := enqueue_rest (d.taken n) q slot
  have hself' : ((d.taken n).enqueue q slot).hfn d.fn = (s.hfn d.fn).queued ((d.taken n).longOp q slot) :=
    hself.trans (congrArg (HostFn.queued · _) (hfn_of_fns hfns _))
  have hrun' : (((d.taken n).enqueue q slot).hfn d.fn).longRun = some x := (congrArg HostFn.longRun hself').trans hrun
  exact ⟨_, (d.taken n).longOp q slot, startNext_waits hrun', hrun', congrArg HostFn.longQ hself', hop, rfl, rfl, rfl, rfl,
    fun f hf => (hother f hf).trans (hfn_of_fns hfns f), hrings'.trans hrings, hrest⟩

end

/-- The state without the hosts' links. -/
def State.sansHst (s : State) : State := { s with hst := {} }

theorem sansHst_taken (s : State) (d : Desc) : (s.taken d).sansHst = s.sansHst := rfl

/-- MODEL_STAGE and PLAN_STAGE discard what their slot has staged. -/
def State.dropModel (s : State) (m : Nat) : State := s.modModel m fun x => { x with staged := none }
def State.dropPlan (s : State) (p : Nat) : State := s.modPlan p fun x => { x with staged := none }

theorem hst_dropModel (s : State) (m : Nat) : (s.dropModel m).hst = s.hst := rfl
theorem hst_dropPlan (s : State) (p : Nat) : (s.dropPlan p).hst = s.hst := rfl
theorem staged_dropModel (s : State) (m : Nat) : ((s.dropModel m).model m).staged = none := congrArg ModelSlot.staged (State.modModel_model ..)
theorem staged_dropPlan (s : State) (p : Nat) : ((s.dropPlan p).plan p).staged = none := congrArg PlanSlot.staged (State.modPlan_plan ..)

theorem dropModel_rest (s : State) (m : Nat) : (s.dropModel m).shr = s.shr ∧ (s.dropModel m).glb = s.glb ∧ (s.dropModel m).cfg = s.cfg :=
  ⟨rfl, rfl, rfl⟩
theorem dropPlan_rest (s : State) (p : Nat) : (s.dropPlan p).shr = s.shr ∧ (s.dropPlan p).glb = s.glb ∧ (s.dropPlan p).cfg = s.cfg :=
  ⟨rfl, rfl, rfl⟩
theorem taken_rest (s : State) (dt : Nat) (d : Desc) : ((s.advance dt).taken d).shr = s.shr ∧ ((s.advance dt).taken d).glb = s.glb ∧
    ((s.advance dt).taken d).cfg = s.cfg := ⟨rfl, rfl, rfl⟩

theorem modelStage_accepted {s : State} {t : Taken} (hm : rd t.bytes 8 1 < 4) (hvalid : s.cfg.active.mValid (rd t.bytes 8 1) = true)
    (hswitch : (s.model (rd t.bytes 8 1)).switchAt = none) :
    s.modelStage t = t.enqueue (s.dropModel (rd t.bytes 8 1)) (rd t.bytes 8 1) := by
  unfold State.modelStage; dsimp only
  rw [if_neg (by omega), if_neg (by rw [hvalid]; decide), if_neg (by rw [hswitch]; decide)]
  rfl

theorem planStage_accepted {s : State} {t : Taken} (hp : rd t.bytes 8 1 < 16) (hvalid : s.cfg.active.plnValid (rd t.bytes 8 1) = true)
    (hswitch : (s.plan (rd t.bytes 8 1)).switchAt = none) :
    s.planStage t = t.enqueue (s.dropPlan (rd t.bytes 8 1)) (rd t.bytes 8 1) := by
  unfold State.planStage; dsimp only
  rw [if_neg (by omega), if_neg (by rw [hvalid]; decide), if_neg (by rw [hswitch]; decide)]
  rfl

theorem exec_modelStage (dt : Nat) (s : State) : exec (.modelStage dt) s =
    .next ((s.advance dt).onOpcode (fun op _ => op == 0x10) ownsModel fun q t => (q.modelStage t).startNext t.fn) := rfl

theorem exec_planStage (dt : Nat) (s : State) : exec (.planStage dt) s =
    .next ((s.advance dt).onOpcode (fun op _ => op == 0x12) ownsPlan fun q t => (q.planStage t).startNext t.fn) := rfl

theorem exec_configStage (dt : Nat) (s : State) : exec (.configStage dt) s =
    .next ((s.advance dt).onOpcode (fun op _ => op == 0x20) noOwner fun q t => (t.enqueue q 0).startNext t.fn) := rfl

theorem exec_configCommit (dt : Nat) (s : State) : exec (.configCommit dt) s =
    .next ((s.advance dt).onOpcode (fun op b => op == 0x21 && !modeOnly b) noOwner fun q t => (t.enqueue q 0).startNext t.fn) := rfl

theorem exec_configCommitModeOnly (dt : Nat) (s : State) : exec (.configCommitModeOnly dt) s =
    .next ((s.advance dt).onOpcode (fun op b => op == 0x21 && modeOnly b) noOwner fun q t => (t.enqueue q 0).startNext t.fn) := rfl

theorem exec_evidenceRead (dt : Nat) (s : State) : exec (.evidenceRead dt) s =
    .next ((s.advance dt).onOpcode (fun op _ => op == 0x30) noOwner fun q t => (t.enqueue q 0).startNext t.fn) := rfl

theorem exec_goldenScheduleSet (dt : Nat) (s : State) : exec (.goldenScheduleSet dt) s =
    .next ((s.advance dt).onOpcode (fun op b => op == 0x14 && goldSet b) ownsCtx fun q t => (q.goldSchedule t).startNext t.fn) := rfl

/-- Which command takes a long descriptor, and what lets its slot be staged. -/
def State.takesLong (s : State) (dt n : Nat) (d : Desc) (op : Nat) (c : Instr) : Prop :=
  op = 0x10 ∧ c = .modelStage dt ∧ rd d.fields 8 1 < 4 ∧ s.cfg.active.mValid (rd d.fields 8 1) = true ∧
      s.modelTenant (rd d.fields 8 1) = n ∧ (s.model (rd d.fields 8 1)).switchAt = none ∨
    op = 0x12 ∧ c = .planStage dt ∧ rd d.fields 8 1 < 16 ∧ s.cfg.active.plnValid (rd d.fields 8 1) = true ∧
      s.cfg.active.plnTenant (rd d.fields 8 1) = n ∧ (s.plan (rd d.fields 8 1)).switchAt = none ∨
    op = 0x20 ∧ c = .configStage dt ∨
    op = 0x21 ∧ c = .configCommit dt ∧ modeOnly d.fields = false ∨
    op = 0x21 ∧ c = .configCommitModeOnly dt ∧ modeOnly d.fields = true ∨
    op = 0x30 ∧ c = .evidenceRead dt

/-- Accepted, it joins the queue of its function, in a state that has only lost what the slot had staged. -/
theorem takesLong_enqueues {s : State} {dt n op : Nat} {d : Desc} {c : Instr} (h : s.taking d op n) (haux : s.tenAux n = false)
    (hlong : s.takesLong dt n d op c) : ∃ q slot, exec c s = .next (((d.taken n).enqueue q slot).startNext (d.taken n).fn) ∧
      q.hst = ((s.advance dt).taken d).hst ∧ q.shr = s.shr ∧ q.glb = s.glb ∧ q.cfg = s.cfg ∧
      (op = 0x10 → (q.model (rd d.fields 8 1)).staged = none) ∧ (op = 0x12 → (q.plan (rd d.fields 8 1)).staged = none) := by
  obtain ⟨hshr', hglb', hcfg'⟩ := taken_rest s dt d
  rcases hlong with ⟨rfl, rfl, hm, hvalid, hten, hswitch⟩ | ⟨rfl, rfl, hp, hvalid, hten, hswitch⟩ | ⟨rfl, rfl⟩ | ⟨rfl, rfl, hmode⟩ |
    ⟨rfl, rfl, hmode⟩ | ⟨rfl, rfl⟩
  · have howner : ownsModel ((s.advance dt).taken d) (d.taken n) = true := by
      show (!s.cfg.active.mValid (rd d.fields 8 1) || s.modelTenant (rd d.fields 8 1) == n) = true
      rw [hten, beq_self_eq_true, Bool.or_true]
    rw [exec_modelStage, onOpcode_acts h rfl (.inr haux) howner,
      modelStage_accepted (s := (s.advance dt).taken d) (t := d.taken n) hm hvalid hswitch,
      bytes_taken]
    obtain ⟨hshr, hglb, hcfg⟩ := dropModel_rest ((s.advance dt).taken d) (rd d.fields 8 1)
    exact ⟨_, _, rfl, hst_dropModel .., hshr.trans hshr', hglb.trans hglb', hcfg.trans hcfg', fun _ => staged_dropModel ..,
      fun h => absurd h (by decide)⟩
  · have howner : ownsPlan ((s.advance dt).taken d) (d.taken n) = true := by
      show (!s.cfg.active.plnValid (rd d.fields 8 1) || s.cfg.active.plnTenant (rd d.fields 8 1) == n) = true
      rw [hten, beq_self_eq_true, Bool.or_true]
    rw [exec_planStage, onOpcode_acts h rfl (.inr haux) howner,
      planStage_accepted (s := (s.advance dt).taken d) (t := d.taken n) hp hvalid hswitch,
      bytes_taken]
    obtain ⟨hshr, hglb, hcfg⟩ := dropPlan_rest ((s.advance dt).taken d) (rd d.fields 8 1)
    exact ⟨_, _, rfl, hst_dropPlan .., hshr.trans hshr', hglb.trans hglb', hcfg.trans hcfg', fun h => absurd h (by decide),
      fun _ => staged_dropPlan ..⟩
  · rw [exec_configStage, onOpcode_acts h rfl (.inr haux) rfl]
    exact ⟨_, _, rfl, rfl, hshr', hglb', hcfg', fun h => absurd h (by decide), fun h => absurd h (by decide)⟩
  · rw [exec_configCommit, onOpcode_acts h (by rw [hmode]; rfl) (.inr haux) rfl]
    exact ⟨_, _, rfl, rfl, hshr', hglb', hcfg', fun h => absurd h (by decide), fun h => absurd h (by decide)⟩
  · rw [exec_configCommitModeOnly, onOpcode_acts h (by rw [hmode]; rfl) (.inr haux) rfl]
    exact ⟨_, _, rfl, rfl, hshr', hglb', hcfg', fun h => absurd h (by decide), fun h => absurd h (by decide)⟩
  · rw [exec_evidenceRead, onOpcode_acts h rfl (.inr haux) rfl]
    exact ⟨_, _, rfl, rfl, hshr', hglb', hcfg', fun h => absurd h (by decide), fun h => absurd h (by decide)⟩

/-! ### GOLDEN_SCHEDULE -/

/-- K and G of a context. -/
def State.setGold (s : State) (t : Taken) : State := s.modWatch t.ctx fun x => { x with k := rd t.bytes 10 1, g := rd t.bytes 11 1 }

theorem goldSchedule_set {s : State} {t : Taken} (hok : s.scheduleRefusal t = 0) (hset : goldSet t.bytes = true) :
    s.goldSchedule t = t.enqueue (s.setGold t) ((s.planOf (s.watch t.ctx).slot).getD 0) := by
  unfold State.goldSchedule; dsimp only
  rw [if_neg (not_not.2 hok), if_pos hset]
  rfl

theorem goldSchedule_unset {s : State} {t : Taken} (hok : s.scheduleRefusal t = 0) (hset : goldSet t.bytes = false) :
    s.goldSchedule t = t.answer (s.setGold t) (b2n (t.clamps != 0)) 0 0 [] := by
  unfold State.goldSchedule; dsimp only
  rw [if_neg (not_not.2 hok), if_neg (by rw [hset]; decide)]
  rfl

theorem scheduleRefusal_taken (s : State) (dt : Nat) (d : Desc) (t : Taken) :
    ((s.advance dt).taken d).scheduleRefusal t = s.scheduleRefusal t := rfl

theorem hst_setGold (s : State) (t : Taken) : (s.setGold t).hst = s.hst := rfl
theorem shr_setGold (s : State) (t : Taken) : (s.setGold t).shr = s.shr := rfl

/-! ### The oldest operation starts (R191, R308, R425) -/

theorem exec_longOperationStart (dt fn : Nat) (s : State) : exec (.longOperationStart dt fn) s = .next ((s.advance dt).startNext fn) := rfl

/-- An operation that is no configuration's, the oldest of a function none of whose operations runs, starts. -/
theorem longOperationStart_starts {s : State} {fn : Nat} {o : LongOp} {rest : List LongOp} (dt : Nat) (hrun : (s.hfn fn).longRun = none)
    (hq : (s.hfn fn).longQ = o :: rest) (h0 : o.op ≠ 0x20) (h1 : o.op ≠ 0x21) : exec (.longOperationStart dt fn) s =
      .next (((s.advance dt).setHfn fn ((s.hfn fn).started o rest)).startWork o) :=
  (exec_longOperationStart ..).trans (congrArg _ (startNext_starts (s := s.advance dt) hrun hq (mayStart_of_op h0 h1 _)))

theorem startWork_model {o : LongOp} (h : o.op = 0x10) (s : State) : s.startWork o = s.modelStart o := if_pos h

theorem startWork_plan {o : LongOp} (h : o.op = 0x12) (s : State) : s.startWork o = s.planStart o := by
  unfold State.startWork
  rw [if_neg (by rw [h]; decide), if_pos h]

theorem startWork_gold {o : LongOp} (h : o.op = 0x14) (s : State) : s.startWork o = s.fetchImage o := by
  unfold State.startWork
  rw [if_neg (by rw [h]; decide), if_neg (by rw [h]; decide), if_pos h]

theorem startWork_evidence {o : LongOp} (h : o.op = 0x30) (s : State) : s.startWork o = s := by
  unfold State.startWork
  rw [if_neg (by rw [h]; decide), if_neg (by rw [h]; decide), if_neg (by rw [h]; decide), if_neg (by rw [h]; decide),
    if_neg (by rw [h]; decide)]

theorem modelStart_fetches {s : State} {o : LongOp} (hvalid : s.cfg.active.mValid (rd o.bytes 8 1) = true)
    (hswitch : (s.model (rd o.bytes 8 1)).switchAt = none) : s.modelStart o = (s.dropModel (rd o.bytes 8 1)).fetchImage o := by
  unfold State.modelStart; dsimp only
  rw [if_neg (by rw [hvalid]; decide), if_neg (by rw [hswitch]; decide)]
  rfl

theorem modelStart_switched {s : State} {o : LongOp} (hvalid : s.cfg.active.mValid (rd o.bytes 8 1) = true)
    (hswitch : (s.model (rd o.bytes 8 1)).switchAt ≠ none) :
    s.modelStart o = o.refuse (s.modelCode (rd o.bytes 8 1) 0x16 0) 0x16 0 := by
  unfold State.modelStart; dsimp only
  rw [if_neg (by rw [hvalid]; decide), if_pos (Option.isSome_iff_ne_none.2 hswitch)]

theorem planStart_fetches {s : State} {o : LongOp} (hvalid : s.cfg.active.plnValid (rd o.bytes 8 1) = true)
    (hswitch : (s.plan (rd o.bytes 8 1)).switchAt = none) : s.planStart o = (s.dropPlan (rd o.bytes 8 1)).fetchImage o := by
  unfold State.planStart; dsimp only
  rw [if_neg (by rw [hvalid]; decide), if_neg (by rw [hswitch]; decide)]
  rfl

theorem planStart_switched {s : State} {o : LongOp} (hvalid : s.cfg.active.plnValid (rd o.bytes 8 1) = true)
    (hswitch : (s.plan (rd o.bytes 8 1)).switchAt ≠ none) :
    s.planStart o = o.refuse (s.planCode (rd o.bytes 8 1) 0x1A 0) 0x1A 0 := by
  unfold State.planStart; dsimp only
  rw [if_neg (by rw [hvalid]; decide), if_pos (Option.isSome_iff_ne_none.2 hswitch)]

/-- The fetch of an image is a read, and nothing else. -/
theorem fetchImage_rest (s : State) (o : LongOp) : (s.fetchImage o).hst = s.hst ∧ (s.fetchImage o).bdg = s.bdg ∧
    (s.fetchImage o).aud = s.aud ∧ (s.fetchImage o).shr = s.shr ∧ (s.fetchImage o).glb = s.glb ∧ (s.fetchImage o).cfg = s.cfg ∧
    .hostRead o.fn (rd o.bytes 16 8) (rd o.bytes 24 8) (128 * 2 ^ (s.hfn o.fn).maxRead) ∈ (s.fetchImage o).out :=
  ⟨rfl, rfl, rfl, rfl, rfl, rfl, List.mem_append_right _ (List.mem_singleton.2 rfl)⟩

theorem model_of_bdg {s t : State} (h : t.bdg = s.bdg) (m : Nat) : t.model m = s.model m := congrArg (fun b : Badger => tget b.slots m) h
theorem plan_of_aud {s t : State} (h : t.aud = s.aud) (p : Nat) : t.plan p = s.plan p := congrArg (fun a : Audit => tget a.plans p) h

/-- The operation has started, and its image is being read. -/
structure State.Reads (s t : State) (o : LongOp) (rest : List LongOp) : Prop where
  run : (t.hfn o.fn).longRun = some o
  queue : (t.hfn o.fn).longQ = rest
  read : .hostRead o.fn (rd o.bytes 16 8) (rd o.bytes 24 8) (128 * 2 ^ (s.hfn o.fn).maxRead) ∈ t.out
  others : ∀ f, f ≠ o.fn → t.hfn f = s.hfn f
  rings : t.hst.rings = s.hst.rings
  shr : t.shr = s.shr
  glb : t.glb = s.glb
  cfg : t.cfg = s.cfg

theorem reads_fetchImage {s q : State} {o : LongOp} {rest : List LongOp} {dt : Nat}
    (hhst : q.hst = ((s.advance dt).setHfn o.fn ((s.hfn o.fn).started o rest)).hst) (hshr : q.shr = s.shr) (hglb : q.glb = s.glb)
    (hcfg : q.cfg = s.cfg) : s.Reads (q.fetchImage o) o rest := by
  obtain ⟨hself, hother, hrings, -⟩ := hfn_started s dt o.fn o rest
  obtain ⟨hhst', -, -, hshr', hglb', hcfg', hread⟩ := fetchImage_rest q o
  have hfn : ∀ f, q.hfn f = ((s.advance dt).setHfn o.fn ((s.hfn o.fn).started o rest)).hfn f := fun f => hfn_of_fns (congrArg Hosts.fns hhst) f
  have hfn' : ∀ f, (q.fetchImage o).hfn f = q.hfn f := fun f => hfn_of_fns (congrArg Hosts.fns hhst') f
  have hstarted : (q.fetchImage o).hfn o.fn = (s.hfn o.fn).started o rest := (hfn' _).trans ((hfn _).trans hself)
  have hmax : (q.hfn o.fn).maxRead = (s.hfn o.fn).maxRead := (congrArg HostFn.maxRead ((hfn _).trans hself) :)
  rw [hmax] at hread
  exact ⟨congrArg HostFn.longRun hstarted, congrArg HostFn.longQ hstarted, hread, fun f hf => (hfn' f).trans ((hfn f).trans (hother f hf)),
    (congrArg Hosts.rings hhst').trans ((congrArg Hosts.rings hhst).trans hrings), hshr'.trans hshr, hglb'.trans hglb, hcfg'.trans hcfg⟩

/-- A start leaves everything but its function alone. -/
theorem start_rest (s : State) (dt fn : Nat) (x : HostFn) : ((s.advance dt).setHfn fn x).shr = s.shr ∧
    ((s.advance dt).setHfn fn x).glb = s.glb ∧ ((s.advance dt).setHfn fn x).cfg = s.cfg ∧ ((s.advance dt).setHfn fn x).bdg = s.bdg ∧
    ((s.advance dt).setHfn fn x).aud = s.aud := ⟨rfl, rfl, rfl, rfl, rfl⟩

/-- An operation that starts its work by reading its image. -/
theorem start_reads {s : State} {o : LongOp} {rest : List LongOp} (dt : Nat) (hrun : (s.hfn o.fn).longRun = none)
    (hq : (s.hfn o.fn).longQ = o :: rest)
    (hop : o.op = 0x10 ∧ s.cfg.active.mValid (rd o.bytes 8 1) = true ∧ (s.model (rd o.bytes 8 1)).switchAt = none ∨
      o.op = 0x12 ∧ s.cfg.active.plnValid (rd o.bytes 8 1) = true ∧ (s.plan (rd o.bytes 8 1)).switchAt = none ∨ o.op = 0x14) :
    ∃ t, exec (.longOperationStart dt o.fn) s = .next t ∧ s.Reads t o rest ∧
      (o.op = 0x10 → (t.model (rd o.bytes 8 1)).staged = none) ∧ (o.op = 0x12 → (t.plan (rd o.bytes 8 1)).staged = none) := by
  have hconf : o.op ≠ 0x20 ∧ o.op ≠ 0x21 := by omega
  have hexec := longOperationStart_starts dt hrun hq hconf.1 hconf.2
  obtain ⟨hshr, hglb, hcfg, hbdg, haud⟩ := start_rest s dt o.fn ((s.hfn o.fn).started o rest)
  generalize hq1 : (s.advance dt).setHfn o.fn ((s.hfn o.fn).started o rest) = q at *
  rcases hop with ⟨hop, hvalid, hswitch⟩ | ⟨hop, hvalid, hswitch⟩ | hop
  · rw [startWork_model hop, modelStart_fetches (by rw [hcfg]; exact hvalid) (by rw [model_of_bdg hbdg]; exact hswitch)] at hexec
    obtain ⟨hshr', hglb', hcfg'⟩ := dropModel_rest q (rd o.bytes 8 1)
    obtain ⟨-, hbdg', -⟩ := fetchImage_rest (q.dropModel (rd o.bytes 8 1)) o
    exact ⟨_, hexec, reads_fetchImage ((hst_dropModel ..).trans (congrArg State.hst hq1.symm)) (hshr'.trans hshr) (hglb'.trans hglb)
      (hcfg'.trans hcfg), fun _ => (congrArg ModelSlot.staged (model_of_bdg hbdg' _)).trans (staged_dropModel ..), fun h => by omega⟩
  · rw [startWork_plan hop, planStart_fetches (by rw [hcfg]; exact hvalid) (by rw [plan_of_aud haud]; exact hswitch)] at hexec
    obtain ⟨hshr', hglb', hcfg'⟩ := dropPlan_rest q (rd o.bytes 8 1)
    obtain ⟨-, -, haud', -⟩ := fetchImage_rest (q.dropPlan (rd o.bytes 8 1)) o
    exact ⟨_, hexec, reads_fetchImage ((hst_dropPlan ..).trans (congrArg State.hst hq1.symm)) (hshr'.trans hshr) (hglb'.trans hglb)
      (hcfg'.trans hcfg), fun h => by omega, fun _ => (congrArg PlanSlot.staged (plan_of_aud haud' _)).trans (staged_dropPlan ..)⟩
  · rw [startWork_gold hop] at hexec
    exact ⟨_, hexec, reads_fetchImage (congrArg State.hst hq1.symm) hshr hglb hcfg, fun h => by omega, fun h => by omega⟩

/-- A code in BDG_M_STAGE or AUD_PLN_STAGE leaves the slot's images and its switch. -/
theorem modelCode_rest (s : State) (m code layer : Nat) : (s.modelCode m code layer).hst = s.hst ∧
    ((s.modelCode m code layer).model m).switchAt = (s.model m).switchAt ∧ ((s.modelCode m code layer).model m).staged = (s.model m).staged ∧
    ((s.modelCode m code layer).model m).active = (s.model m).active ∧ ((s.modelCode m code layer).model m).stageCode = code := by
  have h : (s.modelCode m code layer).model m = { s.model m with stageCode := code, stageLayer := layer } := State.modModel_model ..
  exact ⟨rfl, (congrArg ModelSlot.switchAt h :), (congrArg ModelSlot.staged h :), (congrArg ModelSlot.active h :), congrArg ModelSlot.stageCode h⟩

theorem planCode_rest (s : State) (p code layer : Nat) : (s.planCode p code layer).hst = s.hst ∧
    ((s.planCode p code layer).plan p).switchAt = (s.plan p).switchAt ∧ ((s.planCode p code layer).plan p).staged = (s.plan p).staged ∧
    ((s.planCode p code layer).plan p).active = (s.plan p).active ∧ ((s.planCode p code layer).plan p).stageCode = code := by
  have h : (s.planCode p code layer).plan p = { s.plan p with stageCode := code, stageLayer := layer } := State.modPlan_plan ..
  exact ⟨rfl, (congrArg PlanSlot.switchAt h :), (congrArg PlanSlot.staged h :), (congrArg PlanSlot.active h :), congrArg PlanSlot.stageCode h⟩

/-- Settles O52. -/
theorem longOperationsRunInOrder : Obligations.LongOperationsRunInOrder := by
  unfold Obligations.LongOperationsRunInOrder
  intro dt n s
  refine ⟨fun d op c x h haux hrun hlong => ?_, fun d x h haux hrun hset hten hok => ?_, fun fn o rest hrun hq hfn => ?_,
    fun d h haux _ => ?_, fun d htake hop hten _ haux hst _ _ => ?_⟩
  · obtain ⟨q, slot, hexec, hhst, hshr, hglb, hcfg, hm, hp⟩ := takesLong_enqueues (dt := dt) h haux hlong
    obtain ⟨t, o, ht, hrun', hqueue, hoop, hofn, horing, hoindex, hobytes, hothers, hrings, hrest⟩ := enqueue_waits (n := n) h.2.1
      ((congrArg Hosts.fns hhst).trans (fns_taken ..)) ((congrArg Hosts.rings hhst).trans (rings_taken ..)) hrun slot
    have hbdg : t.bdg = q.bdg := (congrArg State.bdg hrest :)
    have haud : t.aud = q.aud := (congrArg State.aud hrest :)
    exact ⟨t, o, hexec.trans (congrArg _ ht), hrun', hqueue, hoop, hofn, horing, hoindex, hobytes,
      fun h => (congrArg ModelSlot.staged (model_of_bdg hbdg _)).trans (hm h),
      fun h => (congrArg PlanSlot.staged (plan_of_aud haud _)).trans (hp h), hothers, hrings,
      (congrArg State.shr hrest :).trans hshr, (congrArg State.glb hrest :).trans hglb, (congrArg State.cfg hrest :).trans hcfg⟩
  · have htaken : d.taken n =
        { fn := d.fn, ring := d.ring, index := d.index, op := 0x14, clamps := d.clamps, bytes := d.fields, tenant := n } := by
      rw [← op_of_taking h]
      rfl
    have hok' : ((s.advance dt).taken d).scheduleRefusal (d.taken n) = 0 := by rw [scheduleRefusal_taken, htaken, hok]
    have hexec : exec (.goldenScheduleSet dt) s = _ := (exec_goldenScheduleSet dt s).trans (congrArg Host.Outcome.next
      ((onOpcode_acts h (by rw [hset]; rfl) (.inr haux) (ownsCtx_own hten dt) _).trans
        (congrArg (State.startNext · (d.taken n).fn) (goldSchedule_set hok' hset))))
    have hhst := hst_setGold ((s.advance dt).taken d) (d.taken n)
    obtain ⟨t, o, ht, hrun', hqueue, hoop, -, -, -, -, -, -, hrest⟩ := enqueue_waits (n := n) h.2.1
      ((congrArg Hosts.fns hhst).trans (fns_taken ..)) ((congrArg Hosts.rings hhst).trans (rings_taken ..)) hrun
      ((((s.advance dt).taken d).planOf (((s.advance dt).taken d).watch (d.taken n).ctx).slot).getD 0)
    have hwatch : t.watch (rd d.fields 8 2) = (((s.advance dt).taken d).setGold (d.taken n)).watch (rd d.fields 8 2) :=
      (congrArg (fun v : Verdict => tget v.ctxs (rd d.fields 8 2)) (congrArg State.vrd hrest :) :)
    have hself := hwatch.trans (watch_modWatch ..)
    exact ⟨t, o, hexec.trans (congrArg _ ht), hqueue, hoop, congrArg Watch.k hself, congrArg Watch.g hself,
      (congrArg State.shr hrest :).trans ((shr_setGold ((s.advance dt).taken d) (d.taken n)).trans (taken_rest s dt d).1)⟩
  · subst hfn
    obtain ⟨hself, hother, hrings, hrest⟩ := hfn_started s dt o.fn o rest
    obtain ⟨-, -, hcfg, hbdg, haud⟩ := start_rest s dt o.fn ((s.hfn o.fn).started o rest)
    refine ⟨fun hop => ?_, fun hop => ?_, fun hop hvalid hswitch => ?_, fun hop hvalid hswitch => ?_⟩
    · have hexec := longOperationStart_starts dt hrun hq (by omega) (by omega)
      rw [startWork_evidence hop] at hexec
      exact ⟨_, hexec, congrArg HostFn.longRun hself, congrArg HostFn.longQ hself, hother, hrest⟩
    · obtain ⟨t, hexec, hreads, hm, hp⟩ := start_reads dt hrun hq hop
      exact ⟨t, hexec, hreads.run, hreads.queue, hreads.read, hm, hp, hreads.others, hreads.rings, hreads.shr, hreads.glb, hreads.cfg⟩
    · have hexec := longOperationStart_starts dt hrun hq (by omega) (by omega)
      generalize hq1 : (s.advance dt).setHfn o.fn ((s.hfn o.fn).started o rest) = q at *
      rw [startWork_model hop, modelStart_switched (by rw [hcfg]; exact hvalid) (by rw [model_of_bdg hbdg]; exact hswitch)] at hexec
      obtain ⟨hhst, hsw, hst, -, -⟩ := modelCode_rest q (rd o.bytes 8 1) 0x16 0
      have hquiet := model_of_bdg (quiet_bdg (quiet_finish o (q.modelCode (rd o.bytes 8 1) 0x16 0) 0x13 0x16 0 [])) (rd o.bytes 8 1)
      have hended := ended_finish (s := s) (o := o) ((congrArg Hosts.rings hhst).trans hrings)
        (congrArg HostFn.busMaster ((hfn_of_fns (congrArg Hosts.fns hhst) _).trans hself) :) 0x13 0x16 0 []
      rw [hop] at hended
      exact ⟨_, hexec, (congrArg ModelSlot.switchAt hquiet).trans (hsw.trans (congrArg ModelSlot.switchAt (model_of_bdg hbdg _))),
        (congrArg ModelSlot.staged hquiet).trans (hst.trans (congrArg ModelSlot.staged (model_of_bdg hbdg _))), hended⟩
    · have hexec := longOperationStart_starts dt hrun hq (by omega) (by omega)
      generalize hq1 : (s.advance dt).setHfn o.fn ((s.hfn o.fn).started o rest) = q at *
      rw [startWork_plan hop, planStart_switched (by rw [hcfg]; exact hvalid) (by rw [plan_of_aud haud]; exact hswitch)] at hexec
      obtain ⟨hhst, hsw, hst, -, -⟩ := planCode_rest q (rd o.bytes 8 1) 0x1A 0
      have hquiet := plan_of_aud (quiet_aud (quiet_finish o (q.planCode (rd o.bytes 8 1) 0x1A 0) 0x13 0x1A 0 [])) (rd o.bytes 8 1)
      have hended := ended_finish (s := s) (o := o) ((congrArg Hosts.rings hhst).trans hrings)
        (congrArg HostFn.busMaster ((hfn_of_fns (congrArg Hosts.fns hhst) _).trans hself) :) 0x13 0x1A 0 []
      rw [hop] at hended
      exact ⟨_, hexec, (congrArg PlanSlot.switchAt hquiet).trans (hsw.trans (congrArg PlanSlot.switchAt (plan_of_aud haud _))),
        (congrArg PlanSlot.staged hquiet).trans (hst.trans (congrArg PlanSlot.staged (plan_of_aud haud _))), hended⟩
  · rw [exec_modelStage, onOpcode_class h rfl rfl haux, stop_other h _ (by decide)]
    exact ⟨_, rfl, answered_taken ..⟩
  · have hrefused : ((s.advance dt).taken d).accepts (d.taken n) = false := by
      rw [accepts_taken]
      unfold State.accepts
      rw [if_pos (show (s.advance dt).glb.st = .safe from hst), show (d.taken n).op = 0x20 from hop]
      rfl
    have hno : ¬ (safetyOnly (opcodeOf d.bytes) = true ∧ (s.advance dt).tenAux n = true) := fun h =>
      absurd ((tenAux_advance ..).symm.trans h.2) (by rw [haux]; decide)
    have hstop : (d.taken n).stop ((s.advance dt).taken d) 0x17 = ((s.advance dt).taken d).complete d.fn d.ring d.index
        { status := 0x17, opcode := 0x20, clampMap := d.clamps } := by
      rw [← hop]
      exact congrArg (fun x => ((s.advance dt).taken d).complete d.fn d.ring d.index
        { status := 0x17, opcode := opcodeOf d.bytes, detail := x, clampMap := d.clamps })
        (if_neg (by rw [show (d.taken n).op = 0x20 from hop]; decide))
    rw [exec_configStage, onOpcode_taken ((nextTake_advance ..).trans htake) ((tenantOf_advance ..).trans hten) (by rw [hop]; rfl), if_neg hno,
      hrefused, Bool.not_false, if_pos rfl, hstop]
    exact ⟨_, rfl, answered_taken ..⟩

end Sys2Proof.Machine
end

section
/-! Images that have been fetched, and switches (R188 to R197, R299 to R315, R380 to R385, R444, R445). -/

namespace Sys2Proof.Machine

/-! ### The end of a fetch -/

theorem op_of_running {s : State} {fn op : Nat} {o : LongOp} (h : s.running fn op = some o) : o.op = op := by
  simpa using (Option.filter_eq_some_iff.1 h).2

theorem endFetch_failed {s : State} {fn op : Nat} {o : LongOp} (h : s.running fn op = some o) (image : Bytes)
    (act : State → LongOp → State) : s.endFetch fn op false image act = o.finish s 0x14 0 0 [] := by
  simp only [State.endFetch, State.endLong, h, Bool.not_false, if_true]

theorem endFetch_read {s : State} {fn op : Nat} {o : LongOp} {image : Bytes} (h : s.running fn op = some o)
    (hlen : image.length = rd o.bytes 24 8) (act : State → LongOp → State) : s.endFetch fn op true image act = act s o := by
  simp only [State.endFetch, State.endLong, h, Bool.not_true, Bool.false_eq_true, if_false, hlen, if_true]

theorem longRunning_advance {s : State} {fn op : Nat} {o : LongOp} (h : s.running fn op = some o) (dt : Nat) :
    (s.advance dt).running fn op = some o := h

/-- The hosts' links in a state that has not touched them since time passed. -/
theorem links_of_hst {s u : State} {dt : Nat} (h : u.hst = (s.advance dt).hst) (f : Nat) :
    u.hst.rings = s.hst.rings ∧ (u.hfn f).busMaster = (s.hfn f).busMaster :=
  ⟨congrArg Hosts.rings h, congrArg HostFn.busMaster (hfn_of_fns (congrArg Hosts.fns h) f)⟩

/-- An operation that ends from a state with the hosts' links of s. -/
theorem ended_of_hst {s u : State} {dt op : Nat} {o : LongOp} (hop : o.op = op) (h : u.hst = (s.advance dt).hst)
    (status result : Nat) (data : Bytes) : s.ended (o.finish u status result 0 data) o { status, opcode := op, result, clampMap := o.clamps, data } := by
  obtain ⟨hrings, hbm⟩ := links_of_hst h o.fn
  rw [← hop]
  exact ended_finish hrings hbm ..

/-! ### Badger images -/

/-- The image of slot m is staged. -/
def State.stageModel (s : State) (m : Nat) (b : Bytes) : State :=
  (s.modelCode m 0x01 0).modModel m fun x => { x with staged := some b }

theorem model_stageModel (s : State) (m : Nat) (b : Bytes) :
    (s.stageModel m b).model m = { s.model m with stageCode := 0x01, stageLayer := 0, staged := some b } :=
  (State.modModel_model ..).trans (congrArg (fun x : ModelSlot => { x with staged := some b }) (State.modModel_model ..))

theorem model_stageModel_ne (s : State) {m k : Nat} (h : k ≠ m) (b : Bytes) : (s.stageModel m b).model k = s.model k :=
  (State.modModel_model_ne _ _ _ h).trans (State.modModel_model_ne _ _ _ h)

theorem hst_stageModel (s : State) (m : Nat) (b : Bytes) : (s.stageModel m b).hst = s.hst := rfl

theorem sansBdg_stageModel (s : State) (m : Nat) (b : Bytes) :
    { (s.stageModel m b).quiet with bdg := {} } = { s.quiet with bdg := {} } := rfl

section
variable {s : State} {o : LongOp} {b : Bytes} (hvalid : s.cfg.active.mValid (rd o.bytes 8 1) = true) (htables : bTablesFail b = none)
  (hfit : (bFit s.cfg.active (rd o.bytes 8 1) (s.masterUsed s.cfg.active (rd o.bytes 8 1)) b).reason = 0) (hweights : bWeightsOk b = true)
include hvalid htables hfit hweights

theorem modelStaged_signed (hsig : sigValid s.integKey b (bSigOff b) = true) :
    s.modelStaged o b = o.finish (s.stageModel (rd o.bytes 8 1) b) (b2n (o.clamps != 0)) 0x01 0 [] := by
  unfold State.modelStaged; dsimp only
  rw [if_neg (by rw [hvalid]; decide), htables]
  dsimp only
  rw [if_neg (not_not.2 hfit), if_neg (by rw [hweights]; decide), if_neg (by rw [hsig]; decide)]
  rfl

theorem modelStaged_unsigned (hsig : sigValid s.integKey b (bSigOff b) = false) :
    s.modelStaged o b = o.finish (s.modelCode (rd o.bytes 8 1) 0x10 0) 0x13 0x10 0 [] := by
  unfold State.modelStaged; dsimp only
  rw [if_neg (by rw [hvalid]; decide), htables]
  dsimp only
  rw [if_neg (not_not.2 hfit), if_neg (by rw [hweights]; decide), if_pos (by rw [hsig]; rfl)]
  rfl

end

theorem exec_modelStageDone (dt fn : Nat) (ok : Bool) (image : Bytes) (s : State) : exec (.modelStageDone dt fn ok image) s =
    .next ((s.advance dt).endFetch fn 0x10 ok image fun q o => q.modelStaged o image) := rfl

theorem quiet_model {s t : State} (h : t.quiet = s.quiet) (m : Nat) : t.model m = s.model m := model_of_bdg (quiet_bdg h) m
theorem quiet_plan {s t : State} (h : t.quiet = s.quiet) (p : Nat) : t.plan p = s.plan p := plan_of_aud (quiet_aud h) p
theorem quiet_gold {s t : State} (h : t.quiet = s.quiet) (p : Nat) : t.gold p = s.gold p :=
  congrArg (fun v : Verdict => tget v.golds p) (quiet_vrd h)

theorem model_advance (s : State) (dt m : Nat) : (s.advance dt).model m = s.model m := rfl
theorem plan_advance (s : State) (dt p : Nat) : (s.advance dt).plan p = s.plan p := rfl
theorem gold_advance (s : State) (dt p : Nat) : (s.advance dt).gold p = s.gold p := rfl

/-! ### Audit plans -/

/-- A plan that every check accepts is the image that was fetched. -/
theorem img_of_stored {s : State} {p : Nat} {b w : Bytes} {pl : Plan} (h : s.judgePlan p b w = .stored pl) : pl.img = b := by
  unfold State.judgePlan at h; dsimp only at h
  split at h
  · cases h
  · cases h
  · split at h
    · cases h
    · split at h
      · split at h
        · cases h
        · split at h
          · cases h
          · split at h <;> cases h
            rfl
      · split at h
        · cases h
        · split at h
          · cases h
          · split at h
            · cases h
            · split at h
              · cases h
              · split at h
                · cases h
                · split at h <;> cases h
                  rfl

/-- The weight image is read too, unless there is none or the resident one is reused. -/
def State.readWeights (s : State) (o : LongOp) (b : Bytes) : State :=
  if rd o.bytes 40 8 = 0 ∨ (s.reusedPlan (rd o.bytes 8 1) b).isSome then s else s.hostRead o.fn (rd o.bytes 32 8) (rd o.bytes 40 8)

theorem readWeights_rest (s : State) (o : LongOp) (b : Bytes) : { s.readWeights o b with out := [] } = { s with out := [] } := by
  unfold State.readWeights; split <;> rfl

theorem readWeights_cases (s : State) (o : LongOp) (b : Bytes) :
    s.readWeights o b = s ∨ s.readWeights o b = s.hostRead o.fn (rd o.bytes 32 8) (rd o.bytes 40 8) := by
  unfold State.readWeights; split
  · exact .inl rfl
  · exact .inr rfl

theorem judgePlan_hostRead (s : State) (fn a n p : Nat) (b w : Bytes) : (s.hostRead fn a n).judgePlan p b w = s.judgePlan p b w := rfl

theorem judgePlan_readWeights (s : State) (o : LongOp) (p : Nat) (b w : Bytes) : (s.readWeights o b).judgePlan p b w = s.judgePlan p b w := by
  rcases readWeights_cases s o b with h | h
  · rw [h]
  · rw [h, judgePlan_hostRead]

/-- The plan of slot p is staged. -/
def State.stagePlan (s : State) (p : Nat) (pl : Plan) : State :=
  (s.planCode p 0x01 0).modPlan p fun x => { x with staged := some pl, refuse := 0, refuseIdx := 0 }

theorem plan_stagePlan (s : State) (p : Nat) (pl : Plan) : (s.stagePlan p pl).plan p =
    { s.plan p with stageCode := 0x01, stageLayer := 0, staged := some pl, refuse := 0, refuseIdx := 0 } :=
  (State.modPlan_plan ..).trans (congrArg (fun x : PlanSlot => { x with staged := some pl, refuse := 0, refuseIdx := 0 }) (State.modPlan_plan ..))

theorem plan_stagePlan_ne (s : State) {p k : Nat} (h : k ≠ p) (pl : Plan) : (s.stagePlan p pl).plan k = s.plan k :=
  (State.modPlan_plan_ne _ _ _ h).trans (State.modPlan_plan_ne _ _ _ h)

theorem hst_stagePlan (s : State) (p : Nat) (pl : Plan) : (s.stagePlan p pl).hst = s.hst := rfl

theorem planStaged_stored {s : State} {o : LongOp} {b w : Bytes} {pl : Plan} (hvalid : s.cfg.active.plnValid (rd o.bytes 8 1) = true)
    (hjudge : s.judgePlan (rd o.bytes 8 1) b w = .stored pl) :
    s.planStaged o b w = o.finish ((s.readWeights o b).stagePlan (rd o.bytes 8 1) pl) (b2n (o.clamps != 0)) 0x01 0 [] := by
  have hcfg : (s.readWeights o b).cfg = s.cfg := (congrArg State.cfg (readWeights_rest s o b) :)
  have hvalid' : ¬ (!(s.readWeights o b).cfg.active.plnValid (rd o.bytes 8 1)) = true := by
    rw [hcfg, hvalid]
    decide
  have hjudge' : (s.readWeights o b).judgePlan (rd o.bytes 8 1) b w = .stored pl := (judgePlan_readWeights ..).trans hjudge
  unfold State.planStaged; dsimp only
  rw [show (if rd o.bytes 40 8 = 0 ∨ (s.reusedPlan (rd o.bytes 8 1) b).isSome = true then s
    else s.hostRead o.fn (rd o.bytes 32 8) (rd o.bytes 40 8)) = s.readWeights o b from rfl, if_neg hvalid', hjudge']
  rfl

theorem exec_planStageDone (dt fn : Nat) (ok : Bool) (image wimage : Bytes) (s : State) : exec (.planStageDone dt fn ok image wimage) s =
    .next ((s.advance dt).endFetch fn 0x12 ok image fun q o =>
      if wimage.length = rd o.bytes 40 8 ∨ (q.reusedPlan (rd o.bytes 8 1) image).isSome then q.planStaged o image wimage else q) := rfl

/-! ### Golden sets -/

/-- The golden set of plan slot p arrives for the active plan, or waits for the staged one. -/
def Golden.take (x : Golden) (now : Bool) (g : Bytes) : Golden :=
  { x with stageCode := if now then 1 else 2, arriving := if now then some g else x.arriving, staged := if now then x.staged else some g }

theorem goldStaged_stored {s : State} {o : LongOp} {g : Bytes} (hok : s.goldRefusal o.slot g = 0) :
    ∃ u : State, s.goldStaged o g = o.finish u (b2n (o.clamps != 0)) (if (s.goldPlan o.slot g).elim false (·.1) then 1 else 2) 0 [] ∧
      u.gold o.slot = (s.gold o.slot).take ((s.goldPlan o.slot g).elim false (·.1)) g ∧ ∀ p, p ≠ o.slot → u.gold p = s.gold p := by
  unfold State.goldStaged; dsimp only
  rw [if_neg (not_not.2 hok)]
  refine ⟨_, rfl, ?_, fun p hp => (State.modGold_gold_ne _ _ _ hp).trans (State.modGold_gold_ne _ _ _ hp)⟩
  rw [State.modGold_gold, State.goldCode, State.modGold_gold]
  cases (s.goldPlan o.slot g).elim false (·.1) <;> rfl

theorem exec_goldenScheduleDone (dt fn : Nat) (ok : Bool) (image : Bytes) (s : State) : exec (.goldenScheduleDone dt fn ok image) s =
    .next ((s.advance dt).endFetch fn 0x14 ok image fun q o => q.goldStaged o image) := rfl

/-! ### EVIDENCE_READ -/

/-- Record i of an EVIDENCE_READ is copied. -/
def LongOp.copy (o : LongOp) (q : State) (x : Evidence × Nat) : State :=
  q.emit (.hostData o.fn (rd o.bytes 16 8 + 128 * x.2) x.1.bytes)

/-- The copied records. -/
def LongOp.copyAll (o : LongOp) (s : State) : State := (s.readRecords o).zipIdx.foldl o.copy s

theorem copyAll_rest (o : LongOp) (s : State) : { o.copyAll s with out := [] } = { s with out := [] } := by
  unfold LongOp.copyAll
  refine view_foldl (fun q : State => { q with out := [] }) _ (fun q x => ?_) _ _
  rfl

theorem mem_out_copyAll {o : LongOp} {s : State} {e : Evidence} {i : Nat} (h : (s.readRecords o)[i]? = some e) :
    .hostData o.fn (rd o.bytes 16 8 + 128 * i) e.bytes ∈ (o.copyAll s).out :=
  foldl_of_mem (f := o.copy) (P := fun q : State => .hostData o.fn (rd o.bytes 16 8 + 128 * i) e.bytes ∈ q.out) (x := (e, i))
    (fun _ _ hq => List.mem_append_left _ hq) (fun _ => List.mem_append_right _ (List.mem_singleton.2 rfl))
    (List.mem_zipIdx_iff_getElem?.2 h) s

theorem evidenceRead_eq (s : State) (o : LongOp) : s.evidenceRead o = o.finish (o.copyAll s) (b2n (o.clamps != 0)) 0 0
    (le 8 ((s.readRecords o).head?.elim 0 (·.seq)) ++ le 4 (s.readRecords o).length ++ zeros 4 ++ le 8 s.log.oldestSeq ++
      le 8 s.log.newestSeq) := rfl

theorem exec_evidenceReadDone {dt fn : Nat} {s : State} {o : LongOp} (h : s.running fn 0x30 = some o) :
    exec (.evidenceReadDone dt fn) s = .next ((s.advance dt).evidenceRead o) := by
  show Host.Outcome.next ((s.advance dt).endLong fn 0x30 State.evidenceRead) = _
  rw [State.endLong, longRunning_advance h]

theorem mem_out_finish {s : State} {x : Out} (h : x ∈ s.out) (o : LongOp) (status result detail : Nat) (data : Bytes) :
    x ∈ (o.finish s status result detail data).out := (complete_completesTo ..).out x h

/-- Settles O53. -/
theorem fetchedImagesAreJudged : Obligations.FetchedImagesAreJudged := by
  unfold Obligations.FetchedImagesAreJudged
  intro dt fn o image wimage s hrun hfn hlen
  have hrun' := longRunning_advance hrun dt
  refine ⟨fun hop => ?_, fun hop hvalid htables hfit hweights => ⟨fun hsig => ?_, fun hsig => ?_⟩, fun pl hop hvalid hw hjudge => ?_,
    fun hop hok => ?_, fun hop => ?_⟩
  · rw [hop] at hrun'
    rw [exec_modelStageDone, endFetch_failed hrun']
    exact ⟨_, rfl, quiet_finish .., ended_of_hst (dt := dt) hop rfl ..⟩
  · rw [hop] at hrun'
    rw [exec_modelStageDone, endFetch_read hrun' hlen, modelStaged_signed (s := s.advance dt) hvalid htables hfit hweights hsig]
    have hq := quiet_finish o ((s.advance dt).stageModel (rd o.bytes 8 1) image) (b2n (o.clamps != 0)) 0x01 0 []
    have hself := (quiet_model hq (rd o.bytes 8 1)).trans (model_stageModel ..)
    refine ⟨_, rfl, (congrArg ModelSlot.staged hself :), (congrArg ModelSlot.stageCode hself :), (congrArg ModelSlot.active hself :),
      fun m hm => (quiet_model hq m).trans ((model_stageModel_ne _ hm _).trans (model_advance ..)), ?_,
      ended_of_hst (dt := dt) hop (hst_stageModel ..) ..⟩
    rw [hq]
    exact sansBdg_stageModel ..
  · rw [hop] at hrun'
    rw [exec_modelStageDone, endFetch_read hrun' hlen, modelStaged_unsigned (s := s.advance dt) hvalid htables hfit hweights hsig]
    have hq := quiet_finish o ((s.advance dt).modelCode (rd o.bytes 8 1) 0x10 0) 0x13 0x10 0 []
    obtain ⟨hhst, -, hstaged, -, hcode⟩ := modelCode_rest (s.advance dt) (rd o.bytes 8 1) 0x10 0
    exact ⟨_, rfl, (congrArg ModelSlot.staged (quiet_model hq _)).trans hstaged, (congrArg ModelSlot.stageCode (quiet_model hq _)).trans hcode,
      ended_of_hst (dt := dt) hop hhst ..⟩
  · rw [hop] at hrun'
    rw [exec_planStageDone, endFetch_read hrun' hlen, if_pos (show wimage.length = rd o.bytes 40 8 ∨
      ((s.advance dt).reusedPlan (rd o.bytes 8 1) image).isSome = true from hw), planStaged_stored (s := s.advance dt) hvalid hjudge]
    have hq := quiet_finish o (((s.advance dt).readWeights o image).stagePlan (rd o.bytes 8 1) pl) (b2n (o.clamps != 0)) 0x01 0 []
    have hread := readWeights_rest (s.advance dt) o image
    have hhst : ((s.advance dt).readWeights o image).hst = (s.advance dt).hst := (congrArg State.hst hread :)
    have hplan : ∀ p, ((s.advance dt).readWeights o image).plan p = s.plan p := fun p =>
      (plan_of_aud (congrArg State.aud hread :) p).trans (plan_advance ..)
    have hself := (quiet_plan hq (rd o.bytes 8 1)).trans (plan_stagePlan ..)
    exact ⟨img_of_stored hjudge, _, rfl, (congrArg PlanSlot.staged hself :), (congrArg PlanSlot.stageCode hself :),
      (congrArg PlanSlot.active hself :).trans (congrArg PlanSlot.active (hplan (rd o.bytes 8 1)) :),
      fun p hp => (quiet_plan hq p).trans ((plan_stagePlan_ne _ hp _).trans (hplan p)),
      ended_of_hst hop ((hst_stagePlan ..).trans hhst) ..⟩
  · rw [hop] at hrun'
    obtain ⟨u, hu, hself, hother⟩ := goldStaged_stored (s := s.advance dt) (o := o) hok
    rw [exec_goldenScheduleDone, endFetch_read hrun' hlen, hu]
    have hq := quiet_finish o u (b2n (o.clamps != 0)) (if ((s.advance dt).goldPlan o.slot image).elim false (·.1) then 1 else 2) 0 []
    have hgold := (quiet_gold hq o.slot).trans hself
    refine ⟨_, rfl, fun pl hplan => ?_, fun pl hplan => ?_, (congrArg Golden.active hgold :),
      fun p hp => (quiet_gold hq p).trans ((hother p hp).trans (gold_advance ..))⟩
    · rw [hgold, show (s.advance dt).goldPlan o.slot image = some (true, pl) from hplan]
      exact ⟨rfl, rfl, rfl⟩
    · rw [hgold, show (s.advance dt).goldPlan o.slot image = some (false, pl) from hplan]
      exact ⟨rfl, rfl, rfl⟩
  · rw [hop] at hrun
    subst hfn
    have hrest := copyAll_rest o (s.advance dt)
    have hhst : (o.copyAll (s.advance dt)).hst = (s.advance dt).hst := (congrArg State.hst hrest :)
    have hq : (o.copyAll (s.advance dt)).quiet = (s.advance dt).quiet := (congrArg State.quiet hrest :)
    rw [exec_evidenceReadDone hrun, evidenceRead_eq]
    refine ⟨_, rfl, (quiet_finish ..).trans hq, ?_, fun e i he => mem_out_finish (mem_out_copyAll (s := s.advance dt) he) ..⟩
    exact (ended_of_hst hop hhst (b2n (o.clamps != 0)) 0 _).1

end Sys2Proof.Machine
end

section
/-! MODEL_SWITCH, PLAN_SWITCH and GOLDEN_SCHEDULE without SET (R193 to R197, R310, R311, R382). -/

namespace Sys2Proof.Machine

/-- A descriptor answered from a state that has not touched the hosts' links since it was taken. -/
theorem answered_of_hst {s u : State} {dt : Nat} {d : Desc} (h : u.hst = ((s.advance dt).taken d).hst) (c : Cpl) :
    s.answered (u.complete d.fn d.ring d.index c) d c :=
  answered_complete ((congrArg Hosts.fetched h).trans (fetched_taken ..)) ((congrArg Hosts.rings h).trans (rings_taken ..))
    (congrArg HostFn.busMaster ((hfn_of_fns (congrArg Hosts.fns h) _).trans (hfn_of_fns (fns_taken ..) _))) c

theorem model_taken (s : State) (dt : Nat) (d : Desc) (m : Nat) : ((s.advance dt).taken d).model m = s.model m := rfl
theorem plan_taken (s : State) (dt : Nat) (d : Desc) (p : Nat) : ((s.advance dt).taken d).plan p = s.plan p := rfl

/-! ### MODEL_SWITCH -/

theorem exec_modelSwitch (dt : Nat) (s : State) : exec (.modelSwitch dt) s =
    .next ((s.advance dt).onOpcode (fun op _ => op == 0x11) ownsModel State.modelSwitch) := rfl

theorem modelSwitchRefusal_taken (s : State) (dt : Nat) (d : Desc) (m f : Nat) :
    ((s.advance dt).taken d).modelSwitchRefusal m f = s.modelSwitchRefusal m f := rfl

/-- The switch of slot m waits for its frame. -/
def State.awaitModel (s : State) (m f : Nat) : State := (s.modelCode m 0x02 0).modModel m fun x => { x with switchAt := some f }

theorem model_awaitModel (s : State) (m f : Nat) :
    (s.awaitModel m f).model m = { s.model m with stageCode := 0x02, stageLayer := 0, switchAt := some f } :=
  (State.modModel_model ..).trans (congrArg (fun x : ModelSlot => { x with switchAt := some f }) (State.modModel_model ..))

theorem model_awaitModel_ne (s : State) {m k : Nat} (h : k ≠ m) (f : Nat) : (s.awaitModel m f).model k = s.model k :=
  (State.modModel_model_ne _ _ _ h).trans (State.modModel_model_ne _ _ _ h)

theorem awaitModel_rest (s : State) (m f : Nat) : (s.awaitModel m f).hst = s.hst ∧
    { (s.awaitModel m f).quiet with bdg := {} } = { s.quiet with bdg := {} } := ⟨rfl, rfl⟩

section
variable {s : State} {t : Taken} (hm : rd t.bytes 8 1 < 4) (hvalid : s.cfg.active.mValid (rd t.bytes 8 1) = true)
include hm hvalid

theorem modelSwitch_allowed (hok : s.modelSwitchRefusal (rd t.bytes 8 1) (rd t.bytes 16 8) = 0) :
    s.modelSwitch t = t.answer (s.awaitModel (rd t.bytes 8 1) (rd t.bytes 16 8)) (b2n (t.clamps != 0)) 0x02 0 [] := by
  unfold State.modelSwitch; dsimp only
  rw [if_neg (by omega), if_neg (by rw [hvalid]; decide), if_pos hok]
  rfl

theorem modelSwitch_refused (hno : s.modelSwitchRefusal (rd t.bytes 8 1) (rd t.bytes 16 8) ≠ 0) :
    s.modelSwitch t = t.answer (s.modelCode (rd t.bytes 8 1) (s.modelSwitchRefusal (rd t.bytes 8 1) (rd t.bytes 16 8)) 0) 0x13
      (s.modelSwitchRefusal (rd t.bytes 8 1) (rd t.bytes 16 8)) 0 [] := by
  unfold State.modelSwitch; dsimp only
  rw [if_neg (by omega), if_neg (by rw [hvalid]; decide), if_neg hno]

end

/-! ### PLAN_SWITCH -/

theorem exec_planSwitch (dt : Nat) (s : State) : exec (.planSwitch dt) s =
    .next ((s.advance dt).onOpcode (fun op _ => op == 0x13) ownsPlan State.planSwitch) := rfl

theorem planSwitchRefusal_taken (s : State) (dt : Nat) (d : Desc) (p f : Nat) :
    ((s.advance dt).taken d).planSwitchRefusal p f = s.planSwitchRefusal p f := rfl

/-- The switch of slot p waits for its frame. -/
def State.awaitPlan (s : State) (p f : Nat) : State := (s.planCode p 0x02 0).modPlan p fun x => { x with switchAt := some f }

theorem plan_awaitPlan (s : State) (p f : Nat) :
    (s.awaitPlan p f).plan p = { s.plan p with stageCode := 0x02, stageLayer := 0, switchAt := some f } :=
  (State.modPlan_plan ..).trans (congrArg (fun x : PlanSlot => { x with switchAt := some f }) (State.modPlan_plan ..))

theorem plan_awaitPlan_ne (s : State) {p k : Nat} (h : k ≠ p) (f : Nat) : (s.awaitPlan p f).plan k = s.plan k :=
  (State.modPlan_plan_ne _ _ _ h).trans (State.modPlan_plan_ne _ _ _ h)

theorem awaitPlan_rest (s : State) (p f : Nat) : (s.awaitPlan p f).hst = s.hst ∧ (s.awaitPlan p f).shr = s.shr ∧
    (s.awaitPlan p f).vrd = s.vrd ∧ (s.awaitPlan p f).bdg = s.bdg := ⟨rfl, rfl, rfl, rfl⟩

theorem blocks_taken (s : State) (dt : Nat) (d : Desc) : ((s.advance dt).taken d).shr = s.shr ∧ ((s.advance dt).taken d).vrd = s.vrd ∧
    ((s.advance dt).taken d).bdg = s.bdg := ⟨rfl, rfl, rfl⟩

/-- A refused switch leaves its code and its reason. -/
def State.refusePlan (s : State) (p code reason : Nat) : State :=
  if reason = 0 then s.planCode p code 0 else (s.planCode p code 0).modPlan p fun x => { x with refuse := reason, refuseIdx := 0 }

theorem plan_refusePlan (s : State) (p code reason : Nat) : ((s.refusePlan p code reason).plan p).switchAt = (s.plan p).switchAt ∧
    ((s.refusePlan p code reason).plan p).stageCode = code := by
  obtain ⟨-, hswitch, -, -, hcode⟩ := planCode_rest s p code 0
  unfold State.refusePlan; split
  · exact ⟨hswitch, hcode⟩
  · have h : ((s.planCode p code 0).modPlan p fun x => { x with refuse := reason, refuseIdx := 0 }).plan p =
        { (s.planCode p code 0).plan p with refuse := reason, refuseIdx := 0 } := State.modPlan_plan ..
    exact ⟨(congrArg PlanSlot.switchAt h :).trans hswitch, (congrArg PlanSlot.stageCode h :).trans hcode⟩

section
variable {s : State} {t : Taken} (hp : rd t.bytes 8 1 < 16) (hvalid : s.cfg.active.plnValid (rd t.bytes 8 1) = true)
include hp hvalid

theorem planSwitch_allowed (hok : s.planSwitchRefusal (rd t.bytes 8 1) (rd t.bytes 16 8) = (0, 0)) :
    s.planSwitch t = t.answer (s.awaitPlan (rd t.bytes 8 1) (rd t.bytes 16 8)) (b2n (t.clamps != 0)) 0x02 0 [] := by
  unfold State.planSwitch; dsimp only
  rw [if_neg (by omega), if_neg (by rw [hvalid]; decide), hok]
  rfl

theorem planSwitch_refused {code reason : Nat} (hno : s.planSwitchRefusal (rd t.bytes 8 1) (rd t.bytes 16 8) = (code, reason))
    (hcode : code ≠ 0) :
    s.planSwitch t = t.answer (s.refusePlan (rd t.bytes 8 1) code reason) 0x13 code 0 [] := by
  unfold State.planSwitch; dsimp only
  rw [if_neg (by omega), if_neg (by rw [hvalid]; decide), hno]
  exact if_neg hcode

end

/-! ### GOLDEN_SCHEDULE -/

theorem exec_goldenSchedule (dt : Nat) (s : State) : exec (.goldenSchedule dt) s =
    .next ((s.advance dt).onOpcode (fun op b => op == 0x14 && !goldSet b) ownsCtx State.goldSchedule) := rfl

/-- Settles O54. -/
theorem switchesWaitForTheirFrame : Obligations.SwitchesWaitForTheirFrame := by
  unfold Obligations.SwitchesWaitForTheirFrame
  intro dt n d s haux _
  refine ⟨fun h hm hvalid hten => ?_, fun h hp hvalid hten => ?_, fun h hset hten hok => ?_⟩
  · have howner : ownsModel ((s.advance dt).taken d) (d.taken n) = true := by
      show (!s.cfg.active.mValid (rd d.fields 8 1) || s.modelTenant (rd d.fields 8 1) == n) = true
      rw [hten, beq_self_eq_true, Bool.or_true]
    rw [exec_modelSwitch, onOpcode_acts h rfl (.inr haux) howner]
    refine ⟨fun hok => ?_, fun hno => ?_⟩
    · rw [modelSwitch_allowed (s := (s.advance dt).taken d) (t := d.taken n) hm hvalid ((modelSwitchRefusal_taken ..).trans hok), bytes_taken,
        clamps_taken, answer_taken h]
      have hself := model_awaitModel ((s.advance dt).taken d) (rd d.fields 8 1) (rd d.fields 16 8)
      obtain ⟨hhst, hrest⟩ := awaitModel_rest ((s.advance dt).taken d) (rd d.fields 8 1) (rd d.fields 16 8)
      refine ⟨_, rfl, ?_, ?_, fun m hm => (quiet_model (quiet_complete ..) m).trans ((model_awaitModel_ne _ hm _).trans (model_taken ..)), ?_,
        answered_of_hst hhst _⟩
      · rw [quiet_model (quiet_complete ..), hself]
      · rw [quiet_model (quiet_complete ..), hself, model_taken]
      · rw [quiet_complete, hrest, quiet_taken]
    · rw [modelSwitch_refused (s := (s.advance dt).taken d) (t := d.taken n) hm hvalid
        (fun h => hno ((modelSwitchRefusal_taken ..).symm.trans h)), bytes_taken, modelSwitchRefusal_taken, answer_taken h]
      obtain ⟨-, hswitch, -, -, hcode⟩ := modelCode_rest ((s.advance dt).taken d) (rd d.fields 8 1)
        (s.modelSwitchRefusal (rd d.fields 8 1) (rd d.fields 16 8)) 0
      refine ⟨_, rfl, ?_, ?_⟩
      · rw [quiet_model (quiet_complete ..), hswitch, model_taken]
      · rw [quiet_model (quiet_complete ..), hcode]
  · have howner : ownsPlan ((s.advance dt).taken d) (d.taken n) = true := by
      show (!s.cfg.active.plnValid (rd d.fields 8 1) || s.cfg.active.plnTenant (rd d.fields 8 1) == n) = true
      rw [hten, beq_self_eq_true, Bool.or_true]
    rw [exec_planSwitch, onOpcode_acts h rfl (.inr haux) howner]
    refine ⟨fun hok => ?_, fun hno => ?_⟩
    · rw [planSwitch_allowed (s := (s.advance dt).taken d) (t := d.taken n) hp hvalid ((planSwitchRefusal_taken ..).trans hok), bytes_taken,
        clamps_taken, answer_taken h]
      have hself := plan_awaitPlan ((s.advance dt).taken d) (rd d.fields 8 1) (rd d.fields 16 8)
      obtain ⟨hhst, hshr, hvrd, hbdg⟩ := awaitPlan_rest ((s.advance dt).taken d) (rd d.fields 8 1) (rd d.fields 16 8)
      obtain ⟨hshr', hvrd', hbdg'⟩ := blocks_taken s dt d
      refine ⟨_, rfl, ?_, ?_, fun p hp => (quiet_plan (quiet_complete ..) p).trans ((plan_awaitPlan_ne _ hp _).trans (plan_taken ..)),
        (quiet_shr (quiet_complete ..)).trans (hshr.trans hshr'), (quiet_vrd (quiet_complete ..)).trans (hvrd.trans hvrd'),
        (quiet_bdg (quiet_complete ..)).trans (hbdg.trans hbdg'), answered_of_hst hhst _⟩
      · rw [quiet_plan (quiet_complete ..), hself]
      · rw [quiet_plan (quiet_complete ..), hself, plan_taken]
    · obtain ⟨code, reason, hrefusal⟩ : ∃ code reason, s.planSwitchRefusal (rd d.fields 8 1) (rd d.fields 16 8) = (code, reason) := ⟨_, _, rfl⟩
      rw [hrefusal] at hno ⊢
      rw [planSwitch_refused (s := (s.advance dt).taken d) (t := d.taken n) hp hvalid ((planSwitchRefusal_taken ..).trans hrefusal) hno,
        bytes_taken, answer_taken h]
      obtain ⟨hswitch, hcode⟩ := plan_refusePlan ((s.advance dt).taken d) (rd d.fields 8 1) code reason
      refine ⟨_, rfl, ?_, ?_⟩
      · rw [quiet_plan (quiet_complete ..), hswitch, plan_taken]
      · rw [quiet_plan (quiet_complete ..), hcode]
  · have htaken : d.taken n =
        { fn := d.fn, ring := d.ring, index := d.index, op := 0x14, clamps := d.clamps, bytes := d.fields, tenant := n } := by
      rw [← op_of_taking h]
      rfl
    have hok' : ((s.advance dt).taken d).scheduleRefusal (d.taken n) = 0 := by rw [scheduleRefusal_taken, htaken, hok]
    rw [exec_goldenSchedule, onOpcode_acts h (by rw [hset]; rfl) (.inr haux) (ownsCtx_own hten dt),
      goldSchedule_unset hok' ((congrArg goldSet (bytes_taken d n)).trans hset), clamps_taken, answer_taken h]
    obtain ⟨hself, hother, hrest, hans⟩ := answered_modWatch s dt (rd d.fields 8 2)
      (fun x => { x with k := rd d.fields 10 1, g := rd d.fields 11 1 }) d
      { status := b2n (d.clamps != 0), opcode := 0x14, clampMap := d.clamps }
    exact ⟨_, rfl, hself, hother, (congrArg State.shr hrest :), hans⟩

end Sys2Proof.Machine
end

section
/-! Configurations that are staged and committed (R769 to R786). -/

namespace Sys2Proof.Machine

/-! ### The flash, the fuses and the configuration block -/

/-- The non-volatile memory without the mirror of the log, and the configuration block. -/
def State.store (s : State) : Nvm × CfgBlock := ({ s.nvm with mirror := [] }, s.cfg)

theorem store_of_unmoved {s t : State} (h : t.unmoved = s.unmoved) : t.store = s.store :=
  Prod.ext (congrArg State.nvm h : t.unmoved.nvm = s.unmoved.nvm) (unmoved_cfg h)

theorem store_of_quiet {s t : State} (h : t.quiet = s.quiet) : t.store = s.store := store_of_unmoved (unmoved_of_quiet h)

theorem unmoved_actTo (s : State) (st : OpState) : (s.actTo st).unmoved = s.unmoved := by
  unfold State.actTo; split
  · rfl
  · exact unmoved_moveTo ..

theorem acting_actTo (s : State) (st : OpState) (h : st ≠ .degraded) : (s.actTo st).acting = st := by
  unfold State.actTo; split
  · next hdeg => exact if_pos hdeg
  · next hdeg =>
    by_cases hst : s.glb.st = st
    · rw [State.moveTo, if_pos hst, State.acting, if_neg hdeg, hst]
    · rw [State.acting, glb_moveTo hst]
      exact if_neg h

theorem acting_of_glb {s t : State} (h : t.glb = s.glb) : t.acting = s.acting := by simp only [State.acting, h]

/-! ### A code ends a stage or a commit (R798, R801) -/

/-- The registers of a CONFIG_STAGE that has ended. -/
def CfgBlock.stageEnds (c : CfgBlock) (code kind safety other : Nat) (id : Bytes) : CfgBlock :=
  { c with stagedCode := code, stagedKind := kind, safetyClamps := sat 8 safety, otherClamps := sat 8 other
           stagedId := if id = [] then c.stagedId else id }

theorem quiet_staged (o : LongOp) (s : State) (code kind safety other : Nat) (id : Bytes) :
    (o.staged s code kind safety other id).quiet = (s.modCfg fun c => c.stageEnds code kind safety other id).quiet := by
  unfold LongOp.staged; dsimp only; split
  · exact (quiet_finish ..).trans (quiet_evidence ..)
  · exact (quiet_finish ..).trans (quiet_evidence ..)

/-- The registers of a CONFIG_COMMIT that has ended. -/
def CfgBlock.commitEnds (c : CfgBlock) (code detail : Nat) : CfgBlock := { c with commitCode := code, detail := detail % 256 }

theorem quiet_committed (o : LongOp) (s : State) (code detail kind gen : Nat) :
    (o.committed s code detail kind gen).quiet = (s.modCfg fun c => c.commitEnds code detail).quiet := by
  unfold LongOp.committed; dsimp only; split
  · exact (quiet_finish ..).trans (quiet_evidence ..)
  · exact (quiet_finish ..).trans (quiet_evidence ..)

theorem store_modCfg (s : State) (f : CfgBlock → CfgBlock) : (s.modCfg f).store = (s.store.1, f s.cfg) := rfl
theorem shr_modCfg (s : State) (f : CfgBlock → CfgBlock) : (s.modCfg f).shr = s.shr := rfl
theorem glb_modCfg (s : State) (f : CfgBlock → CfgBlock) : (s.modCfg f).glb = s.glb := rfl

theorem store_committed (o : LongOp) (s : State) (code detail kind gen : Nat) :
    (o.committed s code detail kind gen).store = (s.store.1, s.cfg.commitEnds code detail) :=
  (store_of_quiet (quiet_committed ..)).trans (store_modCfg ..)

/-! ### CONFIG_STAGE -/

theorem exec_configStageDone (dt fn : Nat) (ok : Bool) (image : Bytes) (flash : Bool) (s : State) :
    exec (.configStageDone dt fn ok image flash) s =
      .next ((s.advance dt).endFetch fn 0x20 ok image fun q o => q.configStaged o image flash) := rfl

theorem configStaged_refused {s : State} {b : Bytes} {flash : Bool} (h : s.stageRefusal b flash ≠ 0) (o : LongOp) :
    s.configStaged o b flash = o.staged s (s.stageRefusal b flash) (rd b 5 1) 0 0 [] := by
  unfold State.configStaged; dsimp only
  exact if_pos h

theorem configStaged_stored {s : State} {b : Bytes} {flash : Bool} (h : s.stageRefusal b flash = 0) (o : LongOp) :
    ∃ clamps code safety other, (code = 1 ∨ code = 2) ∧
      s.configStaged o b flash = o.staged (s.storeStaged b clamps) code (rd b 5 1) safety other ((imageDigest b).take 16) := by
  unfold State.configStaged; dsimp only
  rw [if_neg (not_not.2 h)]
  generalize (if rd b 5 1 = 5 then (s.checkImage b).2 else []) = clamps
  refine ⟨clamps, _, _, _, ?_, rfl⟩
  split
  · exact .inl rfl
  · exact .inr rfl

/-- The image of a kind as it is staged. -/
def stagedImage (b : Bytes) (clamps : List Clamp) : Staged :=
  { kind := rd b 5 1, digest := imageDigest b, image := b, clamps }

theorem storeStaged_cfg (s : State) (b : Bytes) (clamps : List Clamp) :
    (s.storeStaged b clamps).cfg.staged = tset s.cfg.staged (rd b 5 1) (stagedImage b clamps) ∧
      (s.storeStaged b clamps).cfg.active = s.cfg.active ∧ (s.storeStaged b clamps).shr = s.shr := by
  unfold State.storeStaged; dsimp only
  split
  · exact ⟨rfl, rfl, rfl⟩
  · split
    · exact ⟨rfl, rfl, rfl⟩
    · exact ⟨rfl, rfl, rfl⟩

/-! ### The password (R773, R775) -/

theorem cyc_le_advance (s : State) (dt : Nat) : s.cyc ≤ (s.advance dt).cyc :=
  Nat.div_le_div_right (Nat.mul_le_mul_right _ (Nat.le_add_right s.mc dt))

/-- A lockout that is over does not come back as time passes. -/
theorem pwLocked_advance {s : State} (h : s.pwLocked = false) (dt : Nat) : (s.advance dt).pwLocked = false := by
  have hcyc := cyc_le_advance s dt
  have hnvm : (s.advance dt).nvm = s.nvm := rfl
  simp only [State.pwLocked, Bool.and_eq_false_iff, decide_eq_false_iff_not, hnvm] at h ⊢
  exact h.imp id fun h => by omega

theorem pwLocked_of {s t : State} (hmc : t.mc = s.mc) (hnvm : t.nvm = s.nvm) : t.pwLocked = s.pwLocked := by
  unfold State.pwLocked State.cyc
  rw [hmc, hnvm]

/-- The wrong password counts, from the present cycle on. -/
def State.countPw (s : State) : State := s.modNvm fun v => { v with pwFails := inc 8 v.pwFails, pwAt := s.cyc }

theorem quiet_pwFail (s : State) (tenant : Nat) : (s.pwFail tenant).quiet = s.countPw.quiet := by
  unfold State.pwFail
  exact quiet_evidence ..

theorem commitStart_wrong {s : State} {o : LongOp} (hclamps : o.clamps = 0) (hlock : s.pwLocked = false)
    (hpw : s.pwOk (slice o.bytes 16 32) = false) :
    ∃ kind gen, s.commitStart o = o.committed (s.pwFail (s.recTenant o.fn)) 0x21 0 kind gen := by
  unfold State.commitStart; dsimp only
  rw [if_neg (not_not.2 hclamps), if_neg (by rw [hlock]; decide), if_pos (by rw [hpw]; rfl)]
  exact ⟨_, _, rfl⟩

theorem startWork_commit {o : LongOp} (h : o.op = 0x21) (s : State) : s.startWork o = s.commitStart o := by
  unfold State.startWork
  rw [if_neg (by rw [h]; decide), if_neg (by rw [h]; decide), if_neg (by rw [h]; decide), if_neg (by rw [h]; decide), if_pos h]

/-! ### A configuration takes effect -/

/-- The flash and the fuses. -/
def State.firm (s : State) : Nvm := s.store.1

theorem firm_of_quiet {s t : State} (h : t.quiet = s.quiet) : t.firm = s.firm := congrArg Prod.fst (store_of_quiet h)

theorem firm_of_nvm {s t : State} (h : t.nvm = s.nvm) : t.firm = s.firm := by
  show { t.nvm with mirror := [] } = { s.nvm with mirror := [] }
  rw [h]

theorem firm_foldl {α : Type} {f : State → α → State} (hf : ∀ q x, (f q x).firm = q.firm) (l : List α) (s : State) :
    (l.foldl f s).firm = s.firm := view_foldl State.firm f hf l s

theorem firm_redivide (s : State) (p : Nat) : (s.redivide p).firm = s.firm := firm_of_nvm (by
  unfold State.redivide; dsimp only
  split
  · rfl
  · split <;> rfl)

theorem firm_rebindSlots (s : State) : s.rebindSlots.firm = s.firm :=
  firm_foldl (fun q c => firm_of_nvm (by rfl)) _ s

theorem firm_remapConns (s : State) (old : Cfg) : (s.remapConns old).firm = s.firm := by
  unfold State.remapConns; dsimp only
  refine (firm_foldl (fun q c => ?_) _ _).trans (firm_of_nvm (by rfl))
  exact firm_of_nvm (by rfl)

theorem firm_disarmMoved (s : State) (old : Cfg) : (s.disarmMoved old).firm = s.firm := by
  unfold State.disarmMoved
  refine firm_foldl (fun q p => firm_of_nvm ?_) _ s
  split <;> rfl

theorem firm_switchOff (s : State) (d : Nat) : (s.switchOff d).firm = s.firm := by
  unfold State.switchOff; split
  · exact (firm_of_quiet (quiet_evDev ..)).trans (firm_of_nvm (by rfl))
  · rfl

theorem firm_modMem (s : State) (f : Memory → Memory) : (s.modMem f).firm = s.firm := firm_of_nvm rfl

theorem firm_trimBanks (s : State) : s.trimBanks.firm = s.firm := by
  unfold State.trimBanks
  refine firm_foldl (fun q b => ?_) _ s
  split
  · rfl
  · rw [firm_modMem, firm_switchOff]

theorem firm_sendCfgFrame (s : State) (old : Cfg) : (s.sendCfgFrame old).firm = s.firm := firm_of_nvm (by
  unfold State.sendCfgFrame; dsimp only
  split <;> rfl)

theorem firm_rateFrom (s : State) (b : Nat) : (s.rateFrom b).firm = s.firm := firm_of_nvm (by
  unfold State.rateFrom State.armTick; dsimp only
  split
  · rfl
  · split <;> rfl)

/-- The flash and the fuses stay as a configuration takes effect. -/
theorem firm_takeConfig (s : State) (c : Cfg) (b : Nat) : (s.takeConfig c b).firm = s.firm := by
  unfold State.takeConfig; dsimp only
  rw [firm_rateFrom, firm_sendCfgFrame, firm_trimBanks, firm_disarmMoved, firm_remapConns, firm_rebindSlots, firm_foldl firm_redivide]
  exact firm_of_nvm (by rfl)

/-! ### The commit record and the change log (R783, R785) -/

/-- The commit records, the fuses and the active configuration. -/
def State.deeds (s : State) : Tbl CommitRecord × Nat × Cfg × Bool := (s.nvm.records, s.nvm.fuses, s.cfg.active, s.cfg.hasActive)

theorem deeds_clog (s : State) (tenant kind flags field : Nat) (old new : Bytes) (gen : Nat) :
    (s.clog tenant kind flags field old new gen).deeds = s.deeds := rfl

theorem clogSeq_clog (s : State) (tenant kind flags field : Nat) (old new : Bytes) (gen : Nat) :
    (s.clog tenant kind flags field old new gen).nvm.clogSeq = s.nvm.clogSeq + 1 := rfl

/-- The entries of the fields of a configuration, before that of the commit itself. -/
def State.clogFields (s : State) (tenant : Nat) (old new : Cfg) (clamps : List Clamp) : State :=
  if 1024 < (diffWords old new).length then s.clog tenant 3 0 0 old.digest new.digest new.gen
  else (diffWords old new).foldl (fun q f =>
    q.clog tenant 1 (fieldFlags old new clamps f) f (le 8 (old.word8 f)) (le 8 (new.word8 f)) new.gen) s

theorem clogConfig_eq (s : State) (tenant : Nat) (old new : Cfg) (clamps : List Clamp) :
    s.clogConfig tenant old new clamps = (s.clogFields tenant old new clamps).clog tenant 2 0 0 [] [] new.gen := rfl

theorem deeds_clogFields (s : State) (tenant : Nat) (old new : Cfg) (clamps : List Clamp) :
    (s.clogFields tenant old new clamps).deeds = s.deeds := by
  unfold State.clogFields; split
  · exact deeds_clog ..
  · exact view_foldl State.deeds _ (fun q f => deeds_clog ..) _ s

theorem clogSeq_le_clogFields (s : State) (tenant : Nat) (old new : Cfg) (clamps : List Clamp) :
    s.nvm.clogSeq ≤ (s.clogFields tenant old new clamps).nvm.clogSeq := by
  unfold State.clogFields; split
  · rw [clogSeq_clog]
    exact Nat.le_succ _
  · refine List.foldlRecOn (motive := fun q : State => s.nvm.clogSeq ≤ q.nvm.clogSeq) _ _ (Nat.le_refl _) fun q hq f _ => ?_
    rw [clogSeq_clog]
    exact Nat.le_succ_of_le hq

theorem deeds_clogConfig (s : State) (tenant : Nat) (old new : Cfg) (clamps : List Clamp) :
    (s.clogConfig tenant old new clamps).deeds = s.deeds := by
  rw [clogConfig_eq, deeds_clog, deeds_clogFields]

theorem clogSeq_lt_clogConfig (s : State) (tenant : Nat) (old new : Cfg) (clamps : List Clamp) :
    s.nvm.clogSeq < (s.clogConfig tenant old new clamps).nvm.clogSeq := by
  rw [clogConfig_eq, clogSeq_clog]
  exact Nat.lt_succ_of_le (clogSeq_le_clogFields ..)

/-- The bank for the next configuration is the one that the active configuration is not in. -/
theorem stageBank_of_deeds {s t : State} (h : t.deeds = s.deeds) : t.stageBank 5 = s.stageBank 5 := by
  have hrec : t.nvm.records = s.nvm.records := congrArg (·.1) h
  have hact : t.cfg.active = s.cfg.active := congrArg (·.2.2.1) h
  have hhas : t.cfg.hasActive = s.cfg.hasActive := congrArg (·.2.2.2) h
  simp [State.stageBank, State.activeBank, Nvm.ranked, Nvm.crec, hrec, hact, hhas]

/-- The record that a commit writes. -/
def LongOp.record (o : LongOp) (st : Staged) (gen clogSeq : Nat) : CommitRecord :=
  { kind := st.kind, accept := rd o.bytes 9 1 == 1, gen, digest := st.digest, clogSeq, ok := true
    optCrc := if st.kind = 5 then rd st.image 20 4 else 0, clampCrc := if st.kind = 5 then clampCrc st.clamps else 0 }

theorem writeRecord_nvm (s : State) (o : LongOp) (st : Staged) (gen seq : Nat) :
    (s.writeRecord o st gen seq).nvm.records = tset s.nvm.records (s.stageBank st.kind * 256 + st.kind) (o.record st gen seq) ∧
      (s.writeRecord o st gen seq).nvm.fuses = s.nvm.fuses ∧ (s.writeRecord o st gen seq).nvm.clogSeq = s.nvm.clogSeq := ⟨rfl, rfl, rfl⟩

/-- The state with a password record. -/
def State.withPassword (s : State) (b : Bytes) : State := s.modNvm fun v => { v with password := some (slice b 32 16, slice b 48 32) }

theorem deeds_withPassword (s : State) (b : Bytes) : (s.withPassword b).deeds = s.deeds := rfl
theorem clogSeq_withPassword (s : State) (b : Bytes) : (s.withPassword b).nvm.clogSeq = s.nvm.clogSeq := rfl

theorem newPassword_nvm (s : State) (tenant : Nat) (b : Bytes) : (s.newPassword tenant b).nvm.records = s.nvm.records ∧
    (s.newPassword tenant b).nvm.fuses = s.nvm.fuses ∧ s.nvm.clogSeq ≤ (s.newPassword tenant b).nvm.clogSeq := by
  by_cases hnone : zeroAt b 48 32 = true
  · rw [State.newPassword, if_pos hnone]
    exact ⟨rfl, rfl, Nat.le_refl _⟩
  · obtain ⟨old, hold⟩ : ∃ old : Bytes, s.newPassword tenant b =
        (s.withPassword b).clog tenant 7 0 0 old (slice b 48 8) (rd b 16 4) := ⟨_, if_neg hnone⟩
    have hdeeds := (deeds_clog (s.withPassword b) tenant 7 0 0 old (slice b 48 8) (rd b 16 4)).trans (deeds_withPassword ..)
    have hseq := (clogSeq_clog (s.withPassword b) tenant 7 0 0 old (slice b 48 8) (rd b 16 4)).trans
      (congrArg (· + 1) (clogSeq_withPassword ..))
    rw [hold]
    exact ⟨congrArg (·.1) hdeeds, congrArg (·.2.1) hdeeds, hseq ▸ Nat.le_succ _⟩

theorem writeOption_none (s : State) : s.writeOption [] = s := if_pos rfl

theorem writeCommit_eq (s : State) (o : LongOp) (st : Staged) : s.writeCommit o st =
    (((s.clogConfig (s.recTenant o.fn) s.cfg.active (s.cfgOf st) st.clamps).writeRecord o st (s.cfgOf st).gen
      (s.clogConfig (s.recTenant o.fn) s.cfg.active (s.cfgOf st) st.clamps).nvm.clogSeq).newPassword (s.recTenant o.fn) st.image).writeOption
        (s.cfgOf st).option := rfl

/-- What the writing of a commit leaves in flash and fuses. -/
theorem writeCommit_nvm {s : State} {o : LongOp} {st : Staged} (hopt : (s.cfgOf st).option = []) (hkind : st.kind = 5) :
    (∃ seq, (s.writeCommit o st).nvm.crec (s.stageBank 5) 5 = o.record st (s.cfgOf st).gen seq) ∧
      (s.writeCommit o st).nvm.fuses = s.nvm.fuses ∧ s.nvm.clogSeq < (s.writeCommit o st).nvm.clogSeq := by
  have hdeeds := deeds_clogConfig s (s.recTenant o.fn) s.cfg.active (s.cfgOf st) st.clamps
  have hseq := clogSeq_lt_clogConfig s (s.recTenant o.fn) s.cfg.active (s.cfgOf st) st.clamps
  rw [writeCommit_eq, hopt, writeOption_none]
  generalize s.clogConfig (s.recTenant o.fn) s.cfg.active (s.cfgOf st) st.clamps = q at *
  have hbank : q.stageBank st.kind = s.stageBank 5 := by rw [hkind, stageBank_of_deeds hdeeds]
  obtain ⟨hrec, hfuses, hclog⟩ := writeRecord_nvm q o st (s.cfgOf st).gen q.nvm.clogSeq
  obtain ⟨hrec', hfuses', hclog'⟩ := newPassword_nvm (q.writeRecord o st (s.cfgOf st).gen q.nvm.clogSeq) (s.recTenant o.fn) st.image
  refine ⟨⟨q.nvm.clogSeq, ?_⟩, hfuses'.trans (hfuses.trans (congrArg (·.2.1) hdeeds)), ?_⟩
  · rw [Nvm.crec, hrec', hrec, hbank, hkind]
    exact tget_tset_self ..
  · rw [hclog] at hclog'
    exact Nat.lt_of_lt_of_le hseq hclog'

/-! ### CONFIG_COMMIT -/

/-- The flag that there is no configuration is gone. -/
def State.configKnown (s : State) : State := { s with glb := { s.glb with noConfig := false } }

theorem firm_configKnown (s : State) : s.configKnown.firm = s.firm := rfl
theorem cfg_configKnown (s : State) : s.configKnown.cfg = s.cfg := rfl

/-- The commit of a configuration without an option block, in MAINTENANCE with MODE 0, takes effect at once. -/
theorem commitConfig_now {s : State} {o : LongOp} {st : Staged} (hact : s.acting = .maintenance) (hmode : rd o.bytes 8 1 = 0)
    (hopt : (s.cfgOf st).option = []) : ∃ b, s.commitConfig o st =
      o.committed (((s.writeCommit o st).takeConfig (s.cfgOf st) b).configKnown.actTo .configured) 4 0 5 (s.cfgOf st).gen := by
  have hact1 : (s.writeCommit o st).acting = .maintenance := (acting_of_glb (glb_writeCommit ..)).trans hact
  refine ⟨(s.writeCommit o st).rateTime, ?_⟩
  have hschedule : (s.writeCommit o st).schedule (s.cfgOf st) =
      (0x04, (s.writeCommit o st).takeConfig (s.cfgOf st) (s.writeCommit o st).rateTime) := by
    unfold State.schedule; dsimp only
    rw [if_neg (not_not.2 hopt), if_pos (.inl hact1)]
  unfold State.commitConfig; dsimp only
  rw [if_neg (by rw [hmode]; decide), hschedule]
  have hact2 : ((s.writeCommit o st).takeConfig (s.cfgOf st) (s.writeCommit o st).rateTime).acting = .maintenance :=
    (acting_of_glb (glb_takeConfig ..)).trans hact1
  unfold State.commitEnds
  rw [if_pos ⟨hmode, rfl, hact2⟩]
  rfl

/-- The committed image is no longer staged. -/
def CfgBlock.dropStaged (c : CfgBlock) (k : Nat) : CfgBlock := { c with staged := tset c.staged k default }

section
variable {s : State} {o : LongOp} {st : Staged} (hst : s.stagedBy (slice o.bytes 48 16) = some st) (hkind : st.kind = 5)
  (hbanks : s.banksMissing (s.cfgOf st) = [])
include hst hkind hbanks

theorem commitDone_failed : ∃ gen, s.commitDone o false = o.committed s.trimBanks 0x17 0 st.kind gen := by
  unfold State.commitDone; dsimp only
  rw [hst]
  dsimp only
  rw [if_pos hkind, hbanks]
  exact ⟨_, rfl⟩

theorem commitDone_written : s.commitDone o true = (s.commitConfig o st).modCfg fun c => c.dropStaged st.kind := by
  unfold State.commitDone; dsimp only
  rw [hst]
  dsimp only
  rw [if_pos hkind, hbanks]
  dsimp only
  rw [if_neg (by decide), if_pos hkind]
  rfl

end

theorem exec_configCommitDone {dt fn : Nat} {s : State} {o : LongOp} (h : s.running fn 0x21 = some o) (ok : Bool) :
    exec (.configCommitDone dt fn ok) s = .next ((s.advance dt).commitDone o ok) := by
  show Host.Outcome.next ((s.advance dt).endLong fn 0x21 fun q o => q.commitDone o ok) = _
  rw [State.endLong, longRunning_advance h]

theorem stagedBy_advance (s : State) (dt : Nat) (id : Bytes) : (s.advance dt).stagedBy id = s.stagedBy id := rfl

theorem firm_committed (o : LongOp) (s : State) (code detail kind gen : Nat) : (o.committed s code detail kind gen).firm = s.firm :=
  (congrArg Prod.fst (store_committed ..) :)
theorem cfg_committed (o : LongOp) (s : State) (code detail kind gen : Nat) :
    (o.committed s code detail kind gen).cfg = s.cfg.commitEnds code detail := congrArg Prod.snd (store_committed ..)
theorem glb_of_committed (o : LongOp) (s : State) (code detail kind gen : Nat) : (o.committed s code detail kind gen).glb = s.glb :=
  (quiet_glb (quiet_committed ..)).trans (glb_modCfg ..)

section
variable {s t : State} (h : t.firm = s.firm)
include h
theorem records_of_firm : t.nvm.records = s.nvm.records := (congrArg Nvm.records h :)
theorem fuses_of_firm : t.nvm.fuses = s.nvm.fuses := (congrArg Nvm.fuses h :)
theorem clog_of_firm : t.nvm.clog = s.nvm.clog := (congrArg Nvm.clog h :)
theorem pwFails_of_firm : t.nvm.pwFails = s.nvm.pwFails := (congrArg Nvm.pwFails h :)
theorem pwAt_of_firm : t.nvm.pwAt = s.nvm.pwAt := (congrArg Nvm.pwAt h :)
theorem clogSeq_of_firm : t.nvm.clogSeq = s.nvm.clogSeq := (congrArg Nvm.clogSeq h :)
end

/-! ### A wrong password -/

theorem pwOk_setHfn (s : State) (fn : Nat) (x : HostFn) (pw : Bytes) : (s.setHfn fn x).pwOk pw = s.pwOk pw := rfl
theorem pwOk_advance (s : State) (dt : Nat) (pw : Bytes) : (s.advance dt).pwOk pw = s.pwOk pw := rfl
theorem cyc_setHfn (s : State) (fn : Nat) (x : HostFn) : (s.setHfn fn x).cyc = s.cyc := rfl
theorem mayStart_advance (s : State) (dt : Nat) (o : LongOp) : (s.advance dt).mayStart o = s.mayStart o := rfl

theorem countPw_rest (s : State) : s.countPw.nvm.pwFails = inc 8 s.nvm.pwFails ∧ s.countPw.nvm.pwAt = s.cyc ∧
    s.countPw.nvm.records = s.nvm.records ∧ s.countPw.cfg = s.cfg ∧ s.countPw.shr = s.shr := ⟨rfl, rfl, rfl, rfl, rfl⟩

/-- A commit with a wrong password counts it, and commits nothing. -/
theorem longOperationStart_wrong {s : State} {dt : Nat} {o : LongOp} {rest : List LongOp} (hrun : (s.hfn o.fn).longRun = none)
    (hq : (s.hfn o.fn).longQ = o :: rest) (hop : o.op = 0x21) (hclamps : o.clamps = 0) (hmay : s.mayStart o = true)
    (hlock : s.pwLocked = false) (hpw : s.pwOk (slice o.bytes 16 32) = false) :
    ∃ t, exec (.longOperationStart dt o.fn) s = .next t ∧ t.cfg.commitCode = 0x21 ∧ t.nvm.pwFails = inc 8 s.nvm.pwFails ∧
      t.nvm.pwAt = (s.advance dt).cyc ∧ t.cfg.active = s.cfg.active ∧ t.nvm.records = s.nvm.records ∧ t.shr = s.shr := by
  have hexec := (exec_longOperationStart dt o.fn s).trans (congrArg Host.Outcome.next
    (startNext_starts (s := s.advance dt) hrun hq ((mayStart_advance ..).trans hmay)))
  have hlock' : ((s.advance dt).setHfn o.fn ((s.hfn o.fn).started o rest)).pwLocked = false :=
    (pwLocked_of rfl rfl).trans (pwLocked_advance hlock dt)
  have hpw' : ((s.advance dt).setHfn o.fn ((s.hfn o.fn).started o rest)).pwOk (slice o.bytes 16 32) = false :=
    (pwOk_setHfn ..).trans ((pwOk_advance ..).trans hpw)
  have hcyc := cyc_setHfn (s.advance dt) o.fn ((s.hfn o.fn).started o rest)
  obtain ⟨hshr, -, hcfg, -, -⟩ := start_rest s dt o.fn ((s.hfn o.fn).started o rest)
  have hnvm : ((s.advance dt).setHfn o.fn ((s.hfn o.fn).started o rest)).nvm = s.nvm := rfl
  rw [show ((s.advance dt).hfn o.fn).started o rest = (s.hfn o.fn).started o rest from rfl] at hexec
  generalize (s.advance dt).setHfn o.fn ((s.hfn o.fn).started o rest) = q at *
  obtain ⟨kind, gen, hcommit⟩ := commitStart_wrong hclamps hlock' hpw'
  rw [startWork_commit hop, hcommit] at hexec
  have hquiet := quiet_pwFail q (q.recTenant o.fn)
  have hfirm := (firm_committed o (q.pwFail (q.recTenant o.fn)) 0x21 0 kind gen).trans (firm_of_quiet hquiet)
  have hcfg' := (cfg_committed o (q.pwFail (q.recTenant o.fn)) 0x21 0 kind gen).trans
    (congrArg (CfgBlock.commitEnds · 0x21 0) (quiet_cfg hquiet))
  have hshr' := (quiet_shr (quiet_committed o (q.pwFail (q.recTenant o.fn)) 0x21 0 kind gen)).trans ((shr_modCfg ..).trans (quiet_shr hquiet))
  obtain ⟨hfails, hat, hrec, hcount, hcshr⟩ := countPw_rest q
  refine ⟨_, hexec, (congrArg CfgBlock.commitCode hcfg' :), ?_, ?_, ?_, ?_, hshr'.trans (hcshr.trans hshr)⟩
  · rw [pwFails_of_firm hfirm, hfails, hnvm]
  · rw [pwAt_of_firm hfirm, hat, hcyc]
  · exact (congrArg CfgBlock.active hcfg' :).trans (congrArg CfgBlock.active (hcount.trans hcfg) :)
  · rw [records_of_firm hfirm, hrec, hnvm]

/-! ### A commit that ends -/

theorem active_takeConfig (s : State) (c : Cfg) (b : Nat) : (s.takeConfig c b).cfg.active = c :=
  congrArg CfgBlock.active (cfg_takeConfig s c b)
theorem ends_fields (c : CfgBlock) (code k : Nat) : ((c.commitEnds code 0).dropStaged k).commitCode = code ∧
    ((c.commitEnds code 0).dropStaged k).active = c.active := ⟨rfl, rfl⟩

theorem firm_modCfg (q : State) (f : CfgBlock → CfgBlock) : (q.modCfg f).firm = q.firm := rfl
theorem cfg_modCfg (q : State) (f : CfgBlock → CfgBlock) : (q.modCfg f).cfg = f q.cfg := rfl

section
variable {s : State} {o : LongOp} {st : Staged} (hst : s.stagedBy (slice o.bytes 48 16) = some st) (hkind : st.kind = 5)
  (hbanks : s.banksMissing (s.cfgOf st) = [])
include hst hkind hbanks

theorem commitDone_failed_rest : (s.commitDone o false).cfg.commitCode = 0x17 ∧ (s.commitDone o false).nvm.records = s.nvm.records ∧
    (s.commitDone o false).cfg.active = s.cfg.active ∧ (s.commitDone o false).nvm.clog = s.nvm.clog := by
  obtain ⟨gen, hdone⟩ := commitDone_failed hst hkind hbanks
  have hfirm := (firm_committed o s.trimBanks 0x17 0 st.kind gen).trans (firm_trimBanks s)
  have hcfg := (cfg_committed o s.trimBanks 0x17 0 st.kind gen).trans (congrArg (CfgBlock.commitEnds · 0x17 0) (cfg_trimBanks s))
  rw [hdone]
  exact ⟨(congrArg CfgBlock.commitCode hcfg :), records_of_firm hfirm, (congrArg CfgBlock.active hcfg :), clog_of_firm hfirm⟩

theorem commitDone_now (hact : s.acting = .maintenance) (hmode : rd o.bytes 8 1 = 0) (hopt : (s.cfgOf st).option = []) :
    (s.commitDone o true).cfg.commitCode = 4 ∧ (s.commitDone o true).cfg.active = s.cfgOf st ∧
    (s.commitDone o true).acting = .configured ∧ (s.commitDone o true).firm = (s.writeCommit o st).firm := by
  obtain ⟨b, hcommit⟩ := commitConfig_now hact hmode hopt
  rw [commitDone_written hst hkind hbanks, hcommit]
  have hactive := active_takeConfig (s.writeCommit o st) (s.cfgOf st) b
  have hfirm := firm_takeConfig (s.writeCommit o st) (s.cfgOf st) b
  generalize (s.writeCommit o st).takeConfig (s.cfgOf st) b = w at hactive hfirm ⊢
  have hto := unmoved_actTo w.configKnown .configured
  have hcfg := (cfg_committed o (w.configKnown.actTo .configured) 4 0 5 (s.cfgOf st).gen).trans
    (congrArg (CfgBlock.commitEnds · 4 0) ((unmoved_cfg hto).trans (cfg_configKnown w)))
  refine ⟨?_, ?_, ?_, ?_⟩
  · rw [cfg_modCfg, hcfg]
    exact (ends_fields ..).1
  · rw [cfg_modCfg, hcfg]
    exact (ends_fields ..).2.trans hactive
  · rw [acting_of_glb ((glb_modCfg ..).trans (glb_of_committed ..))]
    exact acting_actTo _ _ (by decide)
  · rw [firm_modCfg, firm_committed]
    exact (congrArg Prod.fst (store_of_unmoved hto)).trans ((firm_configKnown w).trans hfirm)

end

theorem stageBank_advance (s : State) (dt k : Nat) : (s.advance dt).stageBank k = s.stageBank k := rfl

/-- Settles O55. -/
theorem configurationsAreStagedAndCommitted : Obligations.ConfigurationsAreStagedAndCommitted := by
  unfold Obligations.ConfigurationsAreStagedAndCommitted
  intro dt fn o image flash s hfn
  refine ⟨fun hrun hlen => ⟨fun hrefused => ?_, fun hok => ?_⟩, fun rest hnone hq hop hclamps hmay hlock hpw => ?_,
    fun st hrun hst hkind hbanks => ⟨?_, fun hact hmode hopt => ?_⟩⟩
  · rw [exec_configStageDone, endFetch_read (longRunning_advance hrun dt) hlen, configStaged_refused hrefused]
    have hstore := (store_of_quiet (quiet_staged o (s.advance dt) ((s.advance dt).stageRefusal image flash) (rd image 5 1) 0 0 [])).trans
      (store_modCfg ..)
    have hcfg := congrArg Prod.snd hstore
    have hfirm := congrArg Prod.fst hstore
    exact ⟨_, rfl, (congrArg CfgBlock.stagedCode hcfg :), (congrArg CfgBlock.staged hcfg :), (congrArg CfgBlock.active hcfg :),
      (congrArg Nvm.slots hfirm :), (congrArg Nvm.records hfirm :)⟩
  · obtain ⟨clamps, code, safety, other, hcode, hstaged⟩ := configStaged_stored hok o
    rw [exec_configStageDone, endFetch_read (longRunning_advance hrun dt) hlen, hstaged]
    obtain ⟨htbl, hactive, hshr⟩ := storeStaged_cfg (s.advance dt) image clamps
    have hquiet := quiet_staged o ((s.advance dt).storeStaged image clamps) code (rd image 5 1) safety other ((imageDigest image).take 16)
    have hcfg := quiet_cfg hquiet
    have htbl' := (congrArg CfgBlock.staged hcfg :).trans htbl
    have hself := (congrArg (fun l : Tbl Staged => tget l (rd image 5 1)) htbl').trans (tget_tset_self ..)
    refine ⟨_, rfl, ?_, congrArg Staged.image hself, congrArg Staged.kind hself, congrArg Staged.digest hself,
      (congrArg CfgBlock.active hcfg :).trans hactive, fun k hk => (congrArg (fun l : Tbl Staged => tget l k) htbl').trans (tget_tset_ne hk ..),
      (quiet_shr hquiet).trans ((shr_modCfg ..).trans hshr)⟩
    exact hcode.imp (fun h => (congrArg CfgBlock.stagedCode hcfg :).trans h) (fun h => (congrArg CfgBlock.stagedCode hcfg :).trans h)
  · subst hfn
    exact longOperationStart_wrong hnone hq hop hclamps hmay hlock hpw
  · obtain ⟨hcode, hrec, hactive, hclog⟩ := commitDone_failed_rest (s := s.advance dt) ((stagedBy_advance ..).trans hst) hkind hbanks
    exact ⟨_, exec_configCommitDone hrun false, hcode, hrec, hactive, hclog⟩
  · have hst' := (stagedBy_advance s dt _).trans hst
    obtain ⟨hcode, hactive, hacting, hfirm⟩ := commitDone_now (s := s.advance dt) hst' hkind hbanks hact hmode hopt
    obtain ⟨⟨seq, hrec⟩, hfuses, hclog⟩ := writeCommit_nvm (s := s.advance dt) (o := o) hopt hkind
    have hcrec : ((s.advance dt).commitDone o true).nvm.crec (s.stageBank 5) 5 = o.record st ((s.advance dt).cfgOf st).gen seq := by
      rw [Nvm.crec, records_of_firm hfirm, ← stageBank_advance s dt]
      exact hrec
    refine ⟨_, exec_configCommitDone hrun true, hcode, hactive, hacting, congrArg CommitRecord.digest hcrec,
      congrArg CommitRecord.ok hcrec, ?_, (fuses_of_firm hfirm).trans hfuses⟩
    rw [clogSeq_of_firm hfirm]
    exact hclog

end Sys2Proof.Machine
end

section
/-! Fox: the management endpoint, telemetry, the archive and quotes (R764, R790 to R793). -/

namespace Sys2Proof.Machine

/-! ### The management endpoint and telemetry -/

theorem exec_mgmtRequest_mine {dt : Nat} {s : State} (hruns : s.foxRuns = true) (hen : s.mgmtEn = true) (data : Bytes) :
    exec (.mgmtRequest dt s.mgmtMac (s.cf 0x340100 4 12) 2 s.mgmtIp data) s =
      .next ((s.advance dt).emit (.ethernet s.mgmtMac data)) := by
  have hmine : ((s.advance dt).foxRuns && (s.advance dt).mgmtEn && (s.advance dt).mgmtMac == s.mgmtMac &&
      (s.advance dt).cf 0x340100 4 12 == s.cf 0x340100 4 12 && s.mgmtIp == (s.advance dt).mgmtIp &&
      (2 == 2 || 2 == b2n (s.advance dt).mgmtV6)) = true := by
    show (s.foxRuns && s.mgmtEn && s.mgmtMac == s.mgmtMac && s.cf 0x340100 4 12 == s.cf 0x340100 4 12 && s.mgmtIp == s.mgmtIp &&
      (2 == 2 || 2 == b2n s.mgmtV6)) = true
    simp only [hruns, hen, beq_self_eq_true, Bool.and_self, Bool.true_or]
  exact congrArg Host.Outcome.next (if_pos hmine)

theorem exec_mgmtRequest_other {dt m vlan kind : Nat} {ip : Bytes} {s : State} (hip : ip ≠ s.mgmtIp) (data : Bytes) :
    exec (.mgmtRequest dt m vlan kind ip data) s = .next (s.advance dt) := by
  have hother : ¬ ((s.advance dt).foxRuns && (s.advance dt).mgmtEn && (s.advance dt).mgmtMac == m &&
      (s.advance dt).cf 0x340100 4 12 == vlan && ip == (s.advance dt).mgmtIp && (kind == 2 || kind == b2n (s.advance dt).mgmtV6)) = true := by
    intro h
    simp only [Bool.and_eq_true, beq_iff_eq] at h
    obtain ⟨⟨-, h⟩, -⟩ := h
    exact hip h
  exact congrArg Host.Outcome.next (if_neg hother)

/-- The datagram of a telemetry period. -/
def State.telemetryOut (s : State) (dt : Nat) : Out := .ethernet s.mgmtMac
  (s.deviceId ++ le 8 (s.advance dt).tmb.now ++ le 4 (s.advance dt).glbState ++ zeros 4 ++ (s.advance dt).foxSensors)

theorem exec_telemetry_due {dt : Nat} {s : State} (hruns : s.foxRuns = true) (hen : s.mgmtEn = true) (hms : s.telemMs ≠ 0)
    (hdue : s.fox.telemAt + s.telemMs * msMc ≤ s.mc + dt) : exec (.telemetry dt) s =
      .next (((s.advance dt).modFox fun f => { f with telemAt := s.mc + dt }).emit (s.telemetryOut dt)) := by
  have hgo : ((s.advance dt).foxRuns && (s.advance dt).mgmtEn && (s.advance dt).telemMs != 0 &&
      decide ((s.advance dt).fox.telemAt + (s.advance dt).telemMs * msMc ≤ (s.advance dt).mc)) = true := by
    show (s.foxRuns && s.mgmtEn && s.telemMs != 0 && decide (s.fox.telemAt + s.telemMs * msMc ≤ s.mc + dt)) = true
    simp only [hruns, hen, bne_iff_ne.2 hms, decide_eq_true hdue, Bool.and_self]
  exact congrArg Host.Outcome.next (if_pos hgo)

theorem sent_modFox_emit (s : State) (dt : Nat) (f : Fox → Fox) (x : Out) : (((s.advance dt).modFox f).emit x).out = [x] ∧
    (((s.advance dt).modFox f).emit x).fox = f s.fox ∧
    { ((s.advance dt).modFox f).emit x with fox := {}, out := [] } = { s.advance dt with fox := {}, out := [] } := ⟨rfl, rfl, rfl⟩

/-! ### While Fox is in reset or halted (R790, R792, R823) -/

section
variable {s : State} (h : s.foxRuns = false) (dt : Nat)
include h

theorem exec_telemetry_stopped : exec (.telemetry dt) s = .next (s.advance dt) := by
  have h' : (s.advance dt).foxRuns = false := h
  simp only [exec, execTelemetry, h', Bool.false_and, Bool.false_eq_true, if_false]

theorem exec_archive_stopped (ops : Nat) : exec (.archive dt ops) s = .next (s.advance dt) := by
  have h' : (s.advance dt).foxRuns = false := h
  simp only [exec, execArchive, h', Bool.false_and, Bool.false_eq_true, if_false]

theorem exec_quoteReady_stopped (fn : Nat) : exec (.quoteReady dt fn) s = .next (s.advance dt) := by
  have h' : (s.advance dt).foxRuns = false := h
  simp only [exec, execQuoteReady, h', Bool.and_false, Bool.false_eq_true, if_false]

end

/-! ### The archive -/

/-- The records that the archive does not hold yet, as many as a second copies. -/
def State.unarchived (s : State) : List Evidence := (s.log.records.filter fun e => decide (s.nvm.archNewest < e.seq)).take 4096

theorem foldl_archiveOne (l : List Evidence) (v : Nvm) :
    (l.foldl Nvm.archiveOne v).archTotal = v.archTotal + l.length ∧ ∀ e, l.getLast? = some e → (l.foldl Nvm.archiveOne v).archNewest = e.seq := by
  induction l using List.reverseRecOn generalizing v with
  | nil => exact ⟨rfl, fun e h => by cases h⟩
  | append_singleton l x ih =>
    rw [List.foldl_append, List.length_append]
    refine ⟨(congrArg (· + 1) (ih v).1 : _), fun e he => ?_⟩
    obtain rfl : x = e := by simpa using he
    rfl

/-- The state in which the records have been programmed. -/
def State.programmedArchive (s : State) (l : List Evidence) : State :=
  (s.modNvm fun v => l.foldl Nvm.archiveOne v).modFox fun f => { f with archTime := s.tmb.now, archAt := s.mc }

/-- The record of a gap before the first record copied (R801). -/
def State.gapRecord (s : State) (last : Nat) (l : List Evidence) : State :=
  l.head?.elim s fun e => if last + 1 < e.seq then s.archiveRecord 2 (last + 1) (e.seq - 1) else s

/-- The record of what has been copied, or could not be. -/
def State.copyRecord (s : State) (event : Nat) (l : List Evidence) : State :=
  l.head?.elim s fun a => l.getLast?.elim s fun b => s.archiveRecord event a.seq b.seq

/-- The addresses of corrected errors that waited are shown too. -/
def State.showSoft (s : State) : State :=
  { s with mem := { s.mem with soft := (s.mem.soft ++ s.mem.softPending).take 1024, softPending := [] } }

theorem archive_eq (s : State) (ops : Nat) : s.archive ops =
    ((((s.programmedArchive (s.unarchived.take (32 * ops))).gapRecord s.nvm.archNewest s.unarchived).copyRecord 0
      (s.unarchived.take (32 * ops))).copyRecord 1 ((s.unarchived.drop (32 * ops)).take 32)).showSoft := by
  unfold State.archive State.copyRecord State.gapRecord; dsimp only
  rw [show (s.log.records.filter fun e => decide (s.nvm.archNewest < e.seq)).take 4096 = s.unarchived from rfl]
  rcases s.unarchived.head? with _ | e <;> rcases (s.unarchived.take (32 * ops)).head? with _ | a <;>
    rcases (s.unarchived.take (32 * ops)).getLast? with _ | b <;>
    rcases ((s.unarchived.drop (32 * ops)).take 32).head? with _ | c <;>
    rcases ((s.unarchived.drop (32 * ops)).take 32).getLast? with _ | d <;> rfl

theorem quiet_gapRecord (s : State) (last : Nat) (l : List Evidence) : (s.gapRecord last l).quiet = s.quiet := by
  unfold State.gapRecord
  cases l.head? with
  | none => rfl
  | some e =>
    dsimp only [Option.elim]
    split
    · exact quiet_evDev ..
    · rfl

theorem quiet_copyRecord (s : State) (event : Nat) (l : List Evidence) : (s.copyRecord event l).quiet = s.quiet := by
  unfold State.copyRecord
  cases l.head? with
  | none => rfl
  | some a =>
    cases l.getLast? with
    | none => rfl
    | some b => exact quiet_evDev ..

/-- What the archive shows, and the blocks beside it. -/
def State.archived (s : State) : Nat × Nat × Nat × Glb × Shroud := (s.nvm.archTotal, s.nvm.archNewest, s.fox.archAt, s.glb, s.shr)

theorem archived_of_quiet {s t : State} (h : t.quiet = s.quiet) : t.archived = s.archived :=
  (congrArg (fun q : State => q.archived) h :)

theorem archived_showSoft (s : State) : s.showSoft.archived = s.archived := rfl

theorem archived_programmedArchive (s : State) (l : List Evidence) : (s.programmedArchive l).archived =
    ((l.foldl Nvm.archiveOne s.nvm).archTotal, (l.foldl Nvm.archiveOne s.nvm).archNewest, s.mc, s.glb, s.shr) := rfl

/-- With 128 operations that succeed, the whole second's share is copied. -/
theorem archived_archive {s : State} {ops : Nat} (hops : 128 ≤ ops) : (s.archive ops).archived =
    ((s.unarchived.foldl Nvm.archiveOne s.nvm).archTotal, (s.unarchived.foldl Nvm.archiveOne s.nvm).archNewest, s.mc, s.glb, s.shr) := by
  have hall : s.unarchived.take (32 * ops) = s.unarchived := List.take_of_length_le (by
    have := List.length_take_le 4096 (s.log.records.filter fun e => decide (s.nvm.archNewest < e.seq))
    exact this.trans (by omega))
  rw [archive_eq, archived_showSoft, archived_of_quiet (quiet_copyRecord ..), archived_of_quiet (quiet_copyRecord ..),
    archived_of_quiet (quiet_gapRecord ..), archived_programmedArchive, hall]

theorem exec_archive_due {dt : Nat} {s : State} (hruns : s.foxRuns = true) (hlog : s.logReady = true)
    (hdue : s.fox.archAt + 1000 * msMc ≤ s.mc + dt) (ops : Nat) : exec (.archive dt ops) s = .next ((s.advance dt).archive ops) := by
  have hgo : ((s.advance dt).foxRuns && (s.advance dt).logReady && decide ((s.advance dt).fox.archAt + 1000 * msMc ≤ (s.advance dt).mc)) = true := by
    show (s.foxRuns && s.logReady && decide (s.fox.archAt + 1000 * msMc ≤ s.mc + dt)) = true
    simp only [hruns, hlog, decide_eq_true hdue, Bool.and_self]
  exact congrArg Host.Outcome.next (if_pos hgo)

/-! ### Quotes -/

theorem length_padTo (n : Nat) (b : Bytes) : (padTo n b).length = n := by
  simp [padTo, zeros]
  omega

theorem length_deviceId (s : State) : s.deviceId.length = 16 := by simp [State.deviceId, Tests.sha3_length]

theorem length_quoteHead (s : State) (nonce : Bytes) : (s.quoteHead nonce).length = 256 := by
  simp only [State.quoteHead, List.length_append, le_length, length_padTo, length_deviceId, zeros, List.length_replicate]

/-- A quote that is asked for, and one that stands in its window. -/
def Quote.ask (q : Quote) : Quote := { q with busy := true, ready := false, asked := q.nonce }
def Quote.answer (q : Quote) (window : Bytes) : Quote := { q with busy := false, ready := true, window }

theorem modQuote_rest (s : State) (dt fn : Nat) (f : Quote → Quote) : ((s.advance dt).modQuote fn f).quote fn = f (s.quote fn) ∧
    (∀ k, k ≠ fn → ((s.advance dt).modQuote fn f).quote k = s.quote k) ∧
    { (s.advance dt).modQuote fn f with fox := {} } = { s.advance dt with fox := {} } :=
  ⟨tget_tset_self .., fun _ hk => tget_tset_ne hk .., rfl⟩

theorem exec_foxQuoteGo {dt fn n : Nat} {s : State} (hon : s.hostOn fn = true) (hten : s.tenantOf fn = some n) (hup : s.foxUp = true)
    (hidle : (s.quote fn).busy = false) : exec (.foxQuoteGo dt fn) s = .next ((s.advance dt).modQuote fn Quote.ask) := by
  have hgo : ((s.advance dt).hostOn fn && ((s.advance dt).tenantOf fn).isSome && (s.advance dt).foxUp && !((s.advance dt).quote fn).busy) = true := by
    show (s.hostOn fn && (s.tenantOf fn).isSome && s.foxUp && !(s.quote fn).busy) = true
    rw [hon, hten, hup, hidle]
    rfl
  exact congrArg Host.Outcome.next (if_pos hgo)

/-- The signed quote of function fn. -/
def State.signedQuote (s : State) (fn : Nat) : Bytes :=
  s.quoteHead (s.quote fn).asked ++ Config.mldsaSign s.attSeed (sha3 (s.quoteHead (s.quote fn).asked))

theorem exec_quoteReady {dt fn : Nat} {s : State} (hbusy : (s.quote fn).busy = true) (hruns : s.foxRuns = true) :
    exec (.quoteReady dt fn) s = .next ((s.advance dt).modQuote fn fun q => q.answer ((s.advance dt).signedQuote fn)) := by
  have hgo : (((s.advance dt).quote fn).busy && (s.advance dt).foxRuns) = true := by
    show ((s.quote fn).busy && s.foxRuns) = true
    rw [hbusy, hruns]
    rfl
  exact congrArg Host.Outcome.next (if_pos hgo)

theorem quote_advance (s : State) (dt fn : Nat) : (s.advance dt).quote fn = s.quote fn := rfl

theorem unarchived_advance (s : State) (dt : Nat) : (s.advance dt).unarchived = s.unarchived := rfl

/-- Settles O56. -/
theorem foxServesItsInterfaces : Obligations.FoxServesItsInterfaces := by
  unfold Obligations.FoxServesItsInterfaces
  intro dt s
  refine ⟨fun hruns hen => ⟨fun data => ?_, fun m vlan kind ip data hip => ?_, fun hms hdue => ?_⟩,
    fun h => ⟨exec_telemetry_stopped h dt, exec_archive_stopped h dt, exec_quoteReady_stopped h dt⟩,
    fun hruns hlog hdue ops l e hops hl hlast => ?_, fun fn n hon hten hup => ⟨fun hidle => ?_, fun hbusy hruns => ?_⟩⟩
  · exact ⟨_, exec_mgmtRequest_mine hruns hen data, rfl⟩
  · exact ⟨_, exec_mgmtRequest_other hip data, rfl⟩
  · obtain ⟨hout, hfox, hrest⟩ := sent_modFox_emit s dt (fun f => { f with telemAt := s.mc + dt }) (s.telemetryOut dt)
    exact ⟨_, exec_telemetry_due hruns hen hms hdue, congrArg Fox.telemAt hfox, hout, hrest⟩
  · have harch := archived_archive (s := s.advance dt) hops
    rw [unarchived_advance, show s.unarchived = l from hl] at harch
    obtain ⟨htotal, hnewest⟩ := foldl_archiveOne l s.nvm
    exact ⟨_, exec_archive_due hruns hlog hdue ops, (congrArg (·.1) harch).trans htotal,
      (congrArg (·.2.1) harch).trans (hnewest e hlast), congrArg (·.2.2.1) harch, congrArg (·.2.2.2.1) harch, congrArg (·.2.2.2.2) harch⟩
  · obtain ⟨hself, hother, hrest⟩ := modQuote_rest s dt fn Quote.ask
    exact ⟨_, exec_foxQuoteGo hon hten hup hidle, congrArg Quote.busy hself, congrArg Quote.ready hself, congrArg Quote.asked hself, hother, hrest⟩
  · obtain ⟨hself, hother, hrest⟩ := modQuote_rest s dt fn fun q => q.answer ((s.advance dt).signedQuote fn)
    refine ⟨_, exec_quoteReady hbusy hruns, congrArg Quote.busy hself, congrArg Quote.ready hself, ?_, hother, hrest⟩
    rw [hself]
    show ((s.advance dt).signedQuote fn).take 256 = _
    rw [State.signedQuote, quote_advance, ← length_quoteHead (s.advance dt) (s.quote fn).asked]
    exact List.take_left

end Sys2Proof.Machine
end
